-- ==== Sys2Proof/Word.lean ====
section
/-!
DEFINITION. Machine words, the sparse memory type, fixed tables and the arithmetic every file uses.
Bit vectors hold what the spec treats as bits (registers, descriptor words, frame octets);
counts, sizes and settings are natural numbers.
-/
namespace Sys2Proof

/-- One octet. -/
abbrev Byte := BitVec 8
/-- A 16-bit field. -/
abbrev W16 := BitVec 16
/-- A register, instruction or descriptor word. -/
abbrev W32 := BitVec 32
/-- A 64-bit value (the timebase, totals, serial numbers). -/
abbrev W64 := BitVec 64
/-- An accumulator (R464). -/
abbrev W72 := BitVec 72

/-- Sparse memory: strictly rising addresses, no listed byte equal to 0 (what an unlisted address reads as). -/
abbrev Mem := List (Nat × BitVec 8)

/-- A table of `n` like things. -/
abbrev Vec (α : Type) (n : Nat) := Vector α n

/-- The entry at an index. -/
def Vec.at {α : Type} {n : Nat} (v : Vec α n) (i : Fin n) : α := v[i.1]

/-- The table with one entry replaced. -/
def Vec.put {α : Type} {n : Nat} (v : Vec α n) (i : Fin n) (x : α) : Vec α n := v.set i.1 x

/-- The table with one entry changed by a function. -/
def Vec.upd {α : Type} {n : Nat} (v : Vec α n) (i : Fin n) (f : α → α) : Vec α n :=
  Vec.put v i (f (Vec.at v i))

/-- A table holding the same entry everywhere. -/
def Vec.fill {α : Type} (n : Nat) (x : α) : Vec α n := Vector.replicate n x

/-- The entry at a natural index, or a default outside the table. -/
def Vec.atD {α : Type} {n : Nat} (v : Vec α n) (i : Nat) (d : α) : α := (v[i]?).getD d

/-- The table with the entry at a natural index changed; unchanged outside the table. -/
def Vec.updN {α : Type} {n : Nat} (v : Vec α n) (i : Nat) (f : α → α) : Vec α n :=
  if h : i < n then v.set i (f v[i]) else v

/-- Every entry changed by a function of its index. -/
def Vec.mapIx {α β : Type} {n : Nat} (v : Vec α n) (f : Fin n → α → β) : Vec β n :=
  Vector.ofFn fun i => f i (Vec.at v i)

/-- Apply a function to a state once for each index of a list, in order. -/
def foldIx {σ ι : Type} (xs : List ι) (f : σ → ι → σ) (s : σ) : σ := xs.foldl f s

/-- Every index below `n`, in rising order. -/
def allFin (n : Nat) : List (Fin n) := List.finRange n

/-- A bit as a natural number. -/
def bit (b : Bool) : Nat := if b then 1 else 0

/-- A bit as a word with the bit at a position. -/
def bitAt (n i : Nat) (b : Bool) : BitVec n := BitVec.ofNat n (if b then 2 ^ i else 0)

/-- A bit field of a word, as a natural number: `w` bits from bit `lo`. -/
def fld {n : Nat} (x : BitVec n) (lo w : Nat) : Nat := x.toNat / 2 ^ lo % 2 ^ w

/-- A value placed at bit `lo` of a 32-bit word, cut to `w` bits. -/
def place (v lo w : Nat) : W32 := BitVec.ofNat 32 (v % 2 ^ w * 2 ^ lo)

/-- The signed difference of two times in engine format (R203). -/
def timeDiff (a b : W32) : Int := (a - b).toInt

/-- A value saturated to `hi`. -/
def satTo (hi v : Nat) : Nat := if v ≤ hi then v else hi

/-- The absolute value of an integer as a natural number. -/
def absN (i : Int) : Nat := i.natAbs

end Sys2Proof
end

