-- ==== Sys2Proof/Config.lean ====
section
/-!
DEFINITION. What one module fixes (fuses, identity record, hardware revision) and the free values:
constants without a body, so that no proof can lean on a value the spec leaves open.
-/
namespace Sys2Proof.Config

/-- The 64-bit module serial number (R46, fused; no value in the spec). -/
opaque serial : W64
/-- HIF_REV.VARIANT, fused: true for the FK-960-X, false for the FK-960-S (R46, R1). -/
opaque variantX : Bool
/-- HIF_REV.HWMAJ and HWMIN, fused (R46). -/
opaque hwRev : W16
/-- Base MAC address of the identity record (R157). -/
opaque baseMac : BitVec 48
/-- Clock identity of the identity record (R207). -/
opaque clockId : W64
/-- The identity certificate's octets (R460). -/
opaque certificate : List Byte
/-- Subsystem vendor ID and subsystem ID of the identity record, where it holds them (R48). -/
opaque subsystem : Option W32
/-- SHA-256 of Jendar's public key as the fuses hold it (R570; no value in the spec): what `State.reset` puts into
`Power.keyHash`. -/
opaque fusedKeyHash : List Byte
/-- The fused attestation key, 32 octets (R461). -/
opaque attestKey : BitVec 256
/-- The IV Sundom draws for an attestation report (R461 gives no value): a function of the free-value counter. -/
opaque attestIv : Nat → BitVec 96
/-- The value the GEN counter starts from, drawn from the random source (R94). -/
opaque genStart : Nat → W32
/-- A 32-bit value the spec leaves open, one for each value of the free-value counter. -/
opaque freeWord : Nat → W32
/-- A 64-bit value the spec leaves open. -/
opaque freeLong : Nat → W64
/-- A bit the spec leaves open. -/
opaque freeBit : Nat → Bool
/-- Major, minor and build number of a Sundom image; the spec does not say how VERSION maps to FW_VER (R46). -/
opaque fwVersion : W32 → W32
/-- Bytes of the Sundom objects of the paired personalities (R338 gives only the bound of 64 KiB). -/
opaque objectBytes : Nat

end Sys2Proof.Config
end

