-- ==== Sys2Proof/Syntax.lean ====
section
/-!
DEFINITION. The commands of the block: one constructor of `Instr` for each row of the spec's table of
operations and events, and the types of their operands. An operand is what the command itself carries,
or what the outside world (a line, a pin, a measurement, the clock's order of arrival) contributes to it.
-/
namespace Sys2Proof

/-- A bus master with a master ID (R21). `pcie` is a PCIe access as it arrives, with its Requester ID, which R71 turns
into HOST or host-side DMA. -/
inductive Master where
  | host | supv | peer | dma
  | eng (e : Fin 16)
  | pcie (rid : W16)
deriving DecidableEq, Repr

/-- A Sundom command message as taken (R87): the carrying channel (0–7 MB0–MB7, 8 the Aklos group),
the header fields after CMD, and the payload octets. -/
structure Msg where
  chan : Fin 9
  tag : W16
  flags : W16
  gen : W32
  target : W16
  payload : List Byte
deriving DecidableEq, Repr

/-- What is sampled or found when the internal reset is released (R565, R568). -/
structure Boot where
  hifsel : Fin 4
  mpos : Fin 4
  bootsel : Fin 4
  testen : Bool
  rstHigh : Bool
  flashErr : Bool
  fuseErr : Bool
  memErr : Bool
  shmErr : Bool
deriving DecidableEq, Repr

/-- A write to a register: by the host or host-side DMA at a BAR0 offset with byte lanes, or by an engine at its address (R9, R46). -/
inductive RegWrite where
  | bar0 (m : Master) (off : BitVec 16) (lanes : BitVec 4) (v : W32)
  | engine (e : Fin 16) (addr : W32) (v : W32)
deriving DecidableEq, Repr

/-- Where an SPI transaction stood when CS_N rose (R57). -/
inductive SpiPhase where
  | address
  | read (sent : Nat)
  | write (whole : List W32) (partialBytes : Nat)
  | done
deriving DecidableEq, Repr

/-- The PCIe configuration register written (R48). The spec names the items, not their offsets in the capabilities. -/
inductive PcieReg where
  | command | bar0 | bar1 | pmState | msiControl | msiAddrLo | msiAddrHi | msiData | msiMask | msixControl
  | devControl | other
deriving DecidableEq, Repr

/-- What a port's line brings when the link is established (R128, R143, R144, R148, R176): the speed resolved, the master
role, the partner's abilities (EEE, and the PAUSE and ASM_DIR bits it advertises), and where training leaves the receiver
loop: per pair SNR margin, gain, taps and sampling phase, the cable length, the mean squared error and the baseline wander
correction of 100BASE-TX (R130, R137). -/
structure LinkRes where
  speed : Fin 5
  master : Bool
  partnerEee : Bool
  pause : Bool
  asmDir : Bool
  snr : Vec W16 4
  gain : Vec Byte 4
  taps : Vec (List W16) 4
  phase : Vec (BitVec 6) 4
  length : W16
  mse : W32
  wander : W16
deriving DecidableEq, Repr

/-- What the partner's line does as PARTNER_LPI reports it (R130, R152): LPI quiet, a refresh within LPI, or awake. -/
inductive PartnerLine where
  | quiet | refresh | awake
deriving DecidableEq, Repr

/-- State of a received FCS: good, bad, or the inverted correct value of R252. -/
inductive Fcs where
  | good | bad | inverted
deriving DecidableEq, Repr

/-- How a fragment of a preempted frame ends (R173, R175): with a good or a bad mCRC, or, as the frame's last one, with
the FCS of the frame. -/
inductive FragEnd where
  | mcrc | badMcrc | fcs
deriving DecidableEq, Repr

/-- What has arrived of a frame (R125, R175): its first bit only; a whole frame; its start fragment, with the frame's count
n of SMD-Sn; or a continuation fragment, with the n of SMD-Cn and its fragment count. -/
inductive Assembly where
  | begins
  | whole
  | first (n : Fin 4) (tail : FragEnd)
  | more (n : Fin 4) (count : Fin 4) (tail : FragEnd)
deriving DecidableEq, Repr

/-- A frame, or a fragment of one, arriving at a port: octets from the destination address, without FCS or mCRC; FCS
state; the number of invalid symbols or code groups inside it (R147); what has arrived; its start stamp in ns with the
0.25 ns fraction, corrected for the delay of the receive path as R133 and R204 give it (R156); the number of invalid symbols
or code groups between the frame before it and this one (R147). -/
structure RxFrame where
  bytes : List Byte
  fcs : Fcs
  symErrs : Nat
  asm : Assembly
  stamp : W32
  tfrac : BitVec 2
  lineErrs : Nat
deriving DecidableEq, Repr

/-- A drum frame passing a node: octets from the destination address, FCS state, 64-bit receive and transmit
stamps in units of 2^-16 ns (low 64 bits, R260). `copies` gives the transmit stamps of the branch ports of a hub, where they
differ from `tx` (R282), `symErrs` the invalid symbols or code groups inside the frame and since the one before it (R147). -/
structure DrumIn where
  bytes : List Byte
  fcs : Fcs
  rx : W64
  tx : W64
  copies : List (Fin 12 × W64)
  symErrs : Nat
deriving DecidableEq, Repr

/-- A frame on a hub branch port (R289): as a drum frame, with its first and last bit relative to the drumbeat in ns. -/
structure BranchIn where
  frame : DrumIn
  start : Int
  stop : Int
  drumEtype : Bool
deriving DecidableEq, Repr

/-- A CAN frame on the bus (R357–R359). -/
structure CanFrame where
  ide : Bool
  fdf : Bool
  rtr : Bool
  brs : Bool
  esi : Bool
  id : BitVec 29
  dlc : BitVec 4
  data : List Byte
  stamp : W32
  /-- Changes of the filter set and of NOFILT_RXQ since its start of frame (R344, R349). -/
  changes : Nat
deriving DecidableEq, Repr

/-- GP0–GP31 at one tick of a PIO engine: the last three samples of the CK_PIO synchroniser, newest first (R379, R382). -/
structure PinTick where
  now : W32
  mid : W32
  old : W32
deriving DecidableEq, Repr

/-- The kinds of bus error (R361, codes of CERR.LAST). -/
inductive CanErrKind where
  | bit | stuff | form | crc | ack
deriving DecidableEq, Repr

/-- A bus error as detected (R361, R364): its kind, its place, and what the fault-confinement rules of
ISO 11898-1 ask about it. -/
structure CanErr where
  kind : CanErrKind
  dataPhase : Bool
  transmitter : Bool
  afterArbitration : Bool
  /-- The receiver found a dominant bit after sending its error flag, or an error in an active error or overload flag. -/
  flagError : Bool
  /-- The exceptions of ISO 11898-1 under which a transmitter leaves TEC alone. -/
  exempt : Bool
  /-- Of a transmitter whose frame had passed the edge between FDF and res: the delay measured there (R347), with none inside
  for no edge within 127 cycles (R348). -/
  tdc : Option (Option (BitVec 7))
deriving DecidableEq, Repr

/-- What a party brings to an entry into UP of an Aklos link (R314, R337): its settings and the hashes of its images of the
clusters it names, in the order of R314's table. -/
structure PeerInfo where
  settings : List W64
  images : List (List Byte)
  bothOrphan : Bool
  peerOrphanMs : Nat
deriving DecidableEq, Repr

/-- A received REPORT (R325). -/
structure Report where
  cluster : Fin 4
  cycle : W16
  health : W32
  digest : W64
  flags : W32
deriving DecidableEq, Repr

/-- A received PAIRCTL (R309, R327, R328, R333); `copyBad` tells of a COPY block that came with a bad CRC (R323). -/
inductive PairCtl where
  | withdraw
  | copyBad (cluster : Fin 4) (block : Nat)
  | quickResult (pass : Bool)
  | roleChange (cluster : Fin 4) (cycle : W64)
  | roleFailed
deriving DecidableEq, Repr

/-- A route switch that the master has in progress (R303, R304). -/
structure SwitchCopy where
  route : Fin 8
  first : W64
  cycle : W64
  nodes : Nat
  committed : Bool
  maxTally : W16
deriving DecidableEq, Repr

/-- The route state that a state copy carries (R303). -/
structure RouteCopy where
  active : Fin 8
  switch : Option SwitchCopy
deriving DecidableEq, Repr

/-- Where a BULK block goes (R338). -/
inductive BulkPlace where
  | shm (off : BitVec 23)
  | checkpoint (cluster : Fin 4) (cycle : W64) (off : Nat)
  | object (index : Nat)
deriving DecidableEq, Repr

/-- What a self-test slice did (R527, R547, R548, R153): `corrected` is the word of the block, 0–31, in which the copy of a
borrow met a correctable error, and `err` a word of supervisor SRAM in which the scrub found an error, with whether it is
uncorrectable (R525). -/
inductive SliceWork where
  | spadStep (c : Fin 4) (faultyCell : Bool) (corrected : Option (BitVec 5))
  | shmStep (faultyCell : Bool) (corrected : Option (BitVec 5))
  | sram (done : Bool) (err : Option (BitVec 20 × Bool))
  | logic (c : Fin 4) (pass : Bool)
  | lockstep (pass : Bool)
  | calStep (p : Fin 12) (idleFound : Bool)
deriving DecidableEq, Repr

/-- Which memory a starved request waited for (R522, R599). -/
inductive MemWhich where
  | spad (c : Fin 4) | shm
deriving DecidableEq, Repr

/-- Temperatures and supply as measured (R459). -/
structure Measured where
  die : W16
  fio : W16
  vin : W16
deriving DecidableEq, Repr

/-- Tests of preemption verification (R172): the time to send, a response received, a verify received. -/
inductive VerifyEv where
  | timer | respond
deriving DecidableEq, Repr

/-- What the field terminals read when a command looks at them: the unfiltered levels of DI0–DI7, and DO0–DO7 through their own
input stages (R394, R409). -/
structure FieldPins where
  di : BitVec 8
  do_ : BitVec 8
deriving DecidableEq, Repr

/-- The commands. Sundom command rows carry the message; engine instruction rows carry the engine, the stop bit
and the 23 operand bits of the syllable (R470, R495); PIO instruction rows carry the engine, the 28 operand bits
(R374) and the synchronised pin levels at each tick that the instruction occupies. -/
inductive Instr where
  /-- VIN_ON (R553). -/
  | vinOn
  /-- VIN_OFF (R553). -/
  | vinOff
  /-- VIN_OVLO (R553). -/
  | vinOvlo
  /-- EFUSE_TRIP (R552). -/
  | efuseTrip
  /-- MATE_SETTLED (R579). -/
  | mateSettled
  /-- MATE_BREAK (R579). -/
  | mateBreak
  /-- RST_N_LOW (R564). -/
  | rstNLow
  /-- RESET_RELEASE (R567). -/
  | resetRelease (b : Boot)
  /-- SUP_WATCHDOG_RESET (R564). -/
  | supWatchdogReset
  /-- SUP_LOCKSTEP (R564). -/
  | supLockstep
  /-- WAKE_PIN (R556). -/
  | wakePin
  /-- RTC_ALARM (R556). -/
  | rtcAlarm
  /-- PERST_N (R44). -/
  | perstN
  /-- POWER_REQUEST (R559). -/
  | powerRequest
  /-- DOMAIN_POWER_UP_DONE (R558). -/
  | domainPowerUpDone (d : Fin 12)
  /-- AVS_PERIOD (R561). -/
  | avsPeriod (c : Fin 4) (margin : Nat)
  /-- AVS_FAST_STEP (R561). -/
  | avsFastStep (c : Fin 4)
  /-- RTC_CORRECT (R574). -/
  | rtcCorrect (correction : Int)
  /-- HEARTBEAT_TICK (R46). -/
  | heartbeatTick
  /-- LOCK_ACQUIRE (R68). -/
  | lockAcquire (m : Master) (l : Fin 24) (others : List Master)
  /-- LOCK_RELEASE (R69). -/
  | lockRelease (m : Master) (l : Fin 24) (v : W32)
  /-- MB_INBOUND_POST (R62). -/
  | mbInboundPost (n : Fin 8)
  /-- MB_OUTBOUND_RELEASE (R62). -/
  | mbOutboundRelease (n : Fin 8)
  /-- OUTPUT_PUBLISH_RING (R119). -/
  | outputPublishRing (c : Fin 4)
  /-- DB_H2S_FUTURE_RING (R74). -/
  | dbH2sFutureRing (b : Fin 8)
  /-- DB_S2H_CLEAR (R75). -/
  | dbS2hClear (v : W32)
  /-- DB_S2H_MASK_WRITE (R75). -/
  | dbS2hMaskWrite (v : W32)
  /-- ENG_DB_RING (R73). -/
  | engDbRing (e : Fin 16)
  /-- EMB_POST (R65). -/
  | embPost (m : Master) (e : Fin 16)
  /-- EMB_IN_REL (R66). -/
  | embInRel (e : Fin 16)
  /-- EMB_OUT_POST (R66). -/
  | embOutPost (e : Fin 16)
  /-- EMB_OUT_REL (R66). -/
  | embOutRel (m : Master) (e : Fin 16)
  /-- ENG_S2H_RING (R83). -/
  | engS2hRing (e : Fin 16) (v : W32)
  /-- HIF_STAT_WRITE (R46). -/
  | hifStatWrite (v : W32)
  /-- INT_STATUS_WRITE (R46). -/
  | intStatusWrite (v : W32)
  /-- REGISTER_WRITE (R9). -/
  | registerWrite (w : RegWrite)
  /-- PAR_LOW_HALF_READ (R53). -/
  | parLowHalfRead (win : Bool) (off : BitVec 23)
  /-- PAR_HIGH_HALF_READ (R53). -/
  | parHighHalfRead (win : Bool) (off : BitVec 23)
  /-- PAR_LOW_HALF_WRITE (R53). -/
  | parLowHalfWrite (win : Bool) (off : BitVec 23) (lanes : BitVec 2) (v : W16)
  /-- PAR_HIGH_HALF_WRITE (R53). -/
  | parHighHalfWrite (win : Bool) (off : BitVec 23) (lanes : BitVec 2) (v : W16)
  /-- READ0 (R54). -/
  | read0 (addr : BitVec 24) (count : BitVec 8)
  /-- READ1 (R54). -/
  | read1 (addr : BitVec 24) (count : BitVec 8)
  /-- WRITE0 (R55); `drained`: the previous write has landed by then. -/
  | write0 (drained : Bool) (addr : BitVec 24) (words : List W32)
  /-- WRITE1 (R55); `drained`: the previous write has landed by then. -/
  | write1 (drained : Bool) (addr : BitVec 24) (words : List W32)
  /-- SPI_STATUS (R56). -/
  | spiStatus (drained : Bool)
  /-- SPI_BAD_COMMAND (R57). -/
  | spiBadCommand (b : Byte)
  /-- SPI_CS_N_RISE (R57). -/
  | spiCsNRise (w : SpiPhase)
  /-- ACCESS_ABANDONED (R58). -/
  | accessAbandoned (m : Master) (write : Bool) (off : BitVec 23)
  /-- OPEN_SESSION (R93). -/
  | openSession (m : Msg)
  /-- CLOSE_SESSION (R96). -/
  | closeSession (m : Msg)
  /-- GET_INFO (R429). -/
  | getInfo (m : Msg)
  /-- GET_CAPS (R429). -/
  | getCaps (m : Msg)
  /-- SET_POWER_STATE (R430). -/
  | setPowerState (m : Msg)
  /-- RESET_OBJECT (R431). -/
  | resetObject (m : Msg)
  /-- LOAD (R433). -/
  | loadCmd (m : Msg)
  /-- LOAD_CUSTOM (R434). -/
  | loadCustom (m : Msg)
  /-- LOAD_JOB_END (R433). -/
  | loadJobEnd (c : Fin 4)
  /-- CLUSTER_RESET_JOB_END (R431). -/
  | clusterResetJobEnd (c : Fin 4) (copyDamaged : Bool)
  /-- START (R435). -/
  | startCmd (m : Msg)
  /-- STOP (R435). -/
  | stop (m : Msg)
  /-- UNLOAD (R435). -/
  | unload (m : Msg)
  /-- CYCLE_CONFIG (R436). -/
  | cycleConfig (m : Msg)
  /-- PORT_CONFIG (R437). -/
  | portConfig (m : Msg)
  /-- PORT_STATUS (R438). -/
  | portStatus (m : Msg)
  /-- CABLE_TEST (R154). -/
  | cableTest (m : Msg)
  /-- CABLE_TEST_END (R154). -/
  | cableTestEnd (p : Fin 12) (results : List (Byte × W16))
  /-- QUEUE_MAP (R440). -/
  | queueMap (m : Msg)
  /-- GATE_LIST (R441). -/
  | gateList (m : Msg)
  /-- PREEMPT_CONFIG (R172). -/
  | preemptConfig (m : Msg)
  /-- PI_DEFINE (R442). -/
  | piDefine (m : Msg)
  /-- PI_MAP (R443). -/
  | piMap (m : Msg)
  /-- PI_COMMIT (R444). -/
  | piCommit (m : Msg)
  /-- TIME_CONFIG (R214). -/
  | timeConfig (m : Msg)
  /-- TIME_GET (R445). -/
  | timeGet (m : Msg)
  /-- TIME_ACCEPT_JUMP (R220). -/
  | timeAcceptJump (m : Msg)
  /-- SYNC_PIN_CONFIG (R231). -/
  | syncPinConfig (m : Msg)
  /-- DL_CONFIG (R447). -/
  | dlConfig (m : Msg)
  /-- ROUTE_LOAD (R448). -/
  | routeLoad (m : Msg)
  /-- ROUTE_SWITCH (R303). -/
  | routeSwitch (m : Msg)
  /-- ROUTE_SWITCH_JOB_END (R449). -/
  | routeSwitchJobEnd (c : Fin 4)
  /-- DL_TOPOLOGY (R450). -/
  | dlTopology (m : Msg)
  /-- TOLLGATE_CONFIG (R281). -/
  | tollgateConfig (m : Msg)
  /-- PAIR_CONFIG (R314). -/
  | pairConfig (m : Msg)
  /-- PAIR_APPROVE (R337). -/
  | pairApprove (m : Msg)
  /-- PAIR_STATUS (R451). -/
  | pairStatus (m : Msg)
  /-- PAIR_SWITCH (R333). -/
  | pairSwitch (m : Msg)
  /-- PAIR_SWITCH_JOB_END (R333). -/
  | pairSwitchJobEnd
  /-- GROUP_CONFIG (R339). -/
  | groupConfig (m : Msg)
  /-- CAN_CONFIG (R344). -/
  | canConfig (m : Msg)
  /-- CAN_STATUS (R452). -/
  | canStatus (m : Msg)
  /-- CAN_FILTER (R349). -/
  | canFilter (m : Msg)
  /-- CAN_ABORT (R355). -/
  | canAbort (m : Msg)
  /-- PIO_CONFIG (R388). -/
  | pioConfig (m : Msg)
  /-- PIO_PROGRAM (R386). -/
  | pioProgram (m : Msg)
  /-- PIO_STATUS (R453). -/
  | pioStatus (m : Msg)
  /-- FIO_CONFIG (R454). -/
  | fioConfig (m : Msg)
  /-- DI_CONFIG (R454). -/
  | diConfig (m : Msg)
  /-- DO_CONFIG (R406). -/
  | doConfig (m : Msg)
  /-- DO_SET (R455). -/
  | doSet (m : Msg)
  /-- FIO_STATUS (R455), with the output currents as measured, in mA (R405), and what the terminals read. -/
  | fioStatus (m : Msg) (currents : Vec W16 8) (terminals : FieldPins)
  /-- STATS_CONFIG (R456). -/
  | statsConfig (m : Msg)
  /-- LOG_CONFIG (R456). -/
  | logConfig (m : Msg)
  /-- LOG_READ (R457). -/
  | logRead (m : Msg)
  /-- SELFTEST (R549). -/
  | selftest (m : Msg)
  /-- SELFTEST_JOB_END (R550). -/
  | selftestJobEnd (job : W32) (fail : Bool) (item : W16) (addr : W32) (slices : W32)
  /-- HEALTH_GET (R459). -/
  | healthGet (m : Msg) (x : Measured)
  /-- GET_IDENTITY (R460). -/
  | getIdentity (m : Msg)
  /-- ATTEST (R461). -/
  | attest (m : Msg)
  /-- ATTEST_JOB_END (R461). -/
  | attestJobEnd
  /-- UNASSIGNED_COMMAND (R424). -/
  | unassignedCommand (code : W16) (m : Msg)
  /-- NOTIFICATION_POST (R111). -/
  | notificationPost (n : Fin 8)
  /-- PAIR_STATE_PERIODIC (R551). -/
  | pairStatePeriodic
  /-- DRUMBEAT (R34): whether it merged with one before it, and what a Drumline device samples at it, one list of octets for
  each give entry (R265; none: its inputs come by engine stores), and the unfiltered levels of DI0–DI7 (FIO_DI.RAW). -/
  | drumbeat (c : Fin 4) (merged : Bool) (inputs : List (List Byte)) (terminals : FieldPins)
  /-- PI_TAKE (R120). -/
  | piTake (c : Fin 4)
  /-- IN_DONE (R116). -/
  | inDone (e : Fin 16)
  /-- PI_HOST_STALE (R122). -/
  | piHostStale (c : Fin 4)
  /-- MODULE_STATS_PERIOD (R531). -/
  | moduleStatsPeriod
  /-- SELFTEST_SLICE (R547). -/
  | selftestSlice (w : SliceWork)
  /-- CAL_STARVED (R153). -/
  | calStarved (p : Fin 12)
  /-- MEM_STARVE (R522). -/
  | memStarve (w : MemWhich) (code : BitVec 6) (word : BitVec 20)
  /-- TSMP_POST (R215). -/
  | tsmpPost (e : Fin 16) (v : W32)
  /-- SERVO_SAMPLE_TAKEN (R216). -/
  | servoSampleTaken (c : Fin 4)
  /-- SRC_TIMEOUT (R223). -/
  | srcTimeout
  /-- SLEW_END (R220). -/
  | slewEnd
  /-- STEP_HOLD_END (R221). -/
  | stepHoldEnd
  /-- MILESTONE_FIRE (R229). -/
  | milestoneFire (e : Fin 16) (arm : BitVec 2)
  /-- SYNC_IN_EDGE (R232). -/
  | syncInEdge (rising : Bool) (ns : W64) (frac : W16)
  /-- SYNC_OUT_PULSE (R233). -/
  | syncOutPulse (i : Fin 2)
  /-- TNS_READ (R201). -/
  | tnsRead (e : Fin 16)
  /-- SYNCIN_NS_READ (R232). -/
  | syncinNsRead (e : Fin 16)
  /-- LINK_UP (R144). -/
  | linkUp (p : Fin 12) (r : LinkRes)
  /-- LINK_LOSS (R145). -/
  | linkLoss (p : Fin 12) (reason : Fin 16)
  /-- TRAINING_RETRY (R136). -/
  | trainingRetry (p : Fin 12) (noCommon : Bool)
  /-- SNR_LOW (R132). -/
  | snrLow (p : Fin 12) (pair : Fin 4) (margin : W16)
  /-- IMPULSE_GUARD (R131). -/
  | impulseGuard (p : Fin 12)
  /-- PHY_FAULT (R124). -/
  | phyFault (p : Fin 12)
  /-- PLCA_BEACON (R139). -/
  | plcaBeacon (p : Fin 12) (energy : Bool)
  /-- TRANSMIT_OPPORTUNITY_END (R139). -/
  | transmitOpportunityEnd (p : Fin 12)
  /-- BEACON_RECEIVED (R140). -/
  | beaconReceived (p : Fin 12)
  /-- BEACON_LOST (R140). -/
  | beaconLost (p : Fin 12)
  /-- PLCA_COLLISION (R142). -/
  | plcaCollision (p : Fin 12)
  /-- LPI_ENTRY (R148). -/
  | lpiEntry (p : Fin 12)
  /-- LPI_SCHEDULED_WAKE (R150). -/
  | lpiScheduledWake (p : Fin 12)
  /-- PARTNER_LPI (R152). -/
  | partnerLpi (p : Fin 12) (line : PartnerLine)
  /-- FRAME_RECEIVED (R156). -/
  | frameReceived (p : Fin 12) (f : RxFrame)
  /-- PAUSE_EXPIRY (R177). -/
  | pauseExpiry (p : Fin 12)
  /-- PAUSE_REPEAT (R178). -/
  | pauseRepeat (p : Fin 12)
  /-- PRP_ENTRY_AGE (R180). -/
  | prpEntryAge (pair : Fin 2) (src : BitVec 48)
  /-- PREEMPT_VERIFY (R172). -/
  | preemptVerify (p : Fin 12) (ev : VerifyEv)
  /-- TRANSMIT_SELECTION (R166). -/
  | transmitSelection (p : Fin 12) (stamp : W64)
  /-- LAUNCH_TIME_REACHED (R168). -/
  | launchTimeReached (p : Fin 12) (q : Fin 8)
  /-- GATE_ENTRY_END (R170). -/
  | gateEntryEnd (p : Fin 12)
  /-- FRAME_TRANSMIT_END (R189). -/
  | frameTransmitEnd (p : Fin 12) (memErr : Bool)
  /-- HQ_PUSH (R186). -/
  | hqPush (e : Fin 16) (h : Fin 256) (w3 : W32)
  /-- HQ_POP (R186). -/
  | hqPop (e : Fin 16) (h : Fin 256)
  /-- HQ_STAT_WRITE (R186). -/
  | hqStatWrite (e : Fin 16) (h : Fin 256) (v : W32)
  /-- QSEL_WRITE (R188). -/
  | qselWrite (e : Fin 16) (i : Fin 8) (v : W32)
  /-- DRUM_FRAME_RX (R238). -/
  | drumFrameRx (p : Fin 12) (f : DrumIn)
  /-- DRUM_FRAME_RETURN (R246). -/
  | drumFrameReturn (p : Fin 12) (f : DrumIn)
  /-- CLAIM_RX (R272). -/
  | claimRx (p : Fin 12) (f : DrumIn)
  /-- LISTEN_TIMEOUT (R273). -/
  | listenTimeout (c : Fin 4)
  /-- DL_ELECTED (R273). -/
  | dlElected (c : Fin 4)
  /-- MASTER_CLAIM (R273). -/
  | masterClaim (c : Fin 4)
  /-- DL_MASTER_LOST (R273). -/
  | dlMasterLost (c : Fin 4)
  /-- DL_WATCHDOG (R274). -/
  | dlWatchdog (c : Fin 4)
  /-- DL_CYCLE_MISMATCH (R274). -/
  | dlCycleMismatch (c : Fin 4)
  /-- PROBE_TIMER (R261). -/
  | probeTimer (p : Fin 12) (t1 : W64)
  /-- PROBE_REQ_RX (R261). -/
  | probeReqRx (p : Fin 12) (t2 : W64) (t3 : W64)
  /-- PROBE_RESP_RX (R261). -/
  | probeRespRx (p : Fin 12) (t2 : W64) (t3 : W64) (t4 : W64)
  /-- RETURN_RELEASE (R286). -/
  | returnRelease (c : Fin 4) (f : Fin 4) (late : Bool)
  /-- BRANCH_RETURN_ARRIVAL (R289). -/
  | branchReturnArrival (p : Fin 12) (a : BranchIn)
  /-- SLOT_WINDOW_CLOSE (R289). -/
  | slotWindowClose (c : Fin 4) (b : Fin 8) (f : Fin 4) (arriving : Bool)
  /-- MERGED_FRAME (R287). -/
  | mergedFrame (c : Fin 4) (f : Fin 4)
  /-- ISOLATION_END (R292). -/
  | isolationEnd (c : Fin 4) (b : Fin 8)
  /-- PROBATION_END (R292). -/
  | probationEnd (c : Fin 4) (b : Fin 8)
  /-- AKLOS_SIGNAL_PRESENT (R308). -/
  | aklosSignalPresent (l : Fin 2)
  /-- AKLOS_LINK_UP (R308). -/
  | aklosLinkUp (l : Fin 2) (i : PeerInfo)
  /-- AKLOS_LINK_DOWN (R308). -/
  | aklosLinkDown (l : Fin 2)
  /-- BEAT_SEND (R310). -/
  | beatSend (l : Fin 2)
  /-- AKLOS_BEAT (R309). -/
  | aklosBeat (l : Fin 2) (mpos : Fin 4) (state : Fin 6) (orphanMs : Nat) (count : Nat) (prefer : Bool) (crcOk : Bool)
  /-- AKLOS_TIME_SEND (R227). -/
  | aklosTimeSend (l : Fin 2)
  /-- AKLOS_TIME (R227): the offset from the time it carries, when it was measured, and the position of the group time
  master whose time it is, if any. -/
  | aklosTime (l : Fin 2) (off : W64) (at_ : W32) (master : Option (Fin 4)) (crcOk : Bool)
  /-- AKLOS_COPY (R324). -/
  | aklosCopy (l : Fin 2) (c : Fin 4) (cycle : W64) (block : Nat) (data : List Byte) (route : RouteCopy) (crcOk : Bool) (memErr : Bool)
  /-- COPY_BUDGET_END (R324). -/
  | copyBudgetEnd (c : Fin 4)
  /-- AKLOS_RELAY (R320). -/
  | aklosRelay (l : Fin 2) (c : Fin 4) (data : List Byte) (crcOk : Bool)
  /-- AKLOS_REPORT (R325). -/
  | aklosReport (l : Fin 2) (r : Report) (crcOk : Bool)
  /-- REPORT_TIMEOUT (R325). -/
  | reportTimeout (c : Fin 4)
  /-- QUICK_CHECK_DONE (R328). -/
  | quickCheckDone (pass : Bool)
  /-- QUICK_CHECK_TIMEOUT (R328). -/
  | quickCheckTimeout
  /-- AKLOS_PAIRCTL (R327). -/
  | aklosPairctl (l : Fin 2) (w : PairCtl) (crcOk : Bool)
  /-- AKLOS_CMD (R113). -/
  | aklosCmd (l : Fin 2) (src : Fin 4) (num : BitVec 30) (cmd : W16) (m : Msg) (crcOk : Bool)
  /-- PROXY_RESPONSE (R113). -/
  | proxyResponse (l : Fin 2) (src dst : Fin 4) (num : BitVec 30) (cmd : W16) (tag : W16) (status : W16) (detail : W32) (target : W16) (payload : List Byte) (crcOk : Bool)
  /-- PROXY_TIMEOUT (R114). -/
  | proxyTimeout (pos : Fin 4)
  /-- MIRROR_TIMEOUT (R426). -/
  | mirrorTimeout
  /-- AKLOS_BULK (R338). -/
  | aklosBulk (l : Fin 2) (b : BulkPlace) (data : List Byte) (crcOk : Bool)
  /-- BULK_SYNC_DONE (R338). -/
  | bulkSyncDone
  /-- AKLOS_IDENT (R337). -/
  | aklosIdent (l : Fin 2) (serial : W64) (certOk : Bool) (crcOk : Bool)
  /-- PARTNER_PRESUMED_LOST (R326). -/
  | partnerPresumedLost
  /-- LOSS_CHECK_INSTANT (R326). -/
  | lossCheckInstant (c : Fin 4)
  /-- STANDBY_TAKE (R321). -/
  | standbyTake (c : Fin 4)
  /-- BUILD_DONE (R320). -/
  | buildDone (e : Fin 16)
  /-- STATE_DONE (R323). -/
  | stateDone (e : Fin 16)
  /-- CHECK_MISMATCH (R40). -/
  | checkMismatch (c : Fin 4) (pair : Fin 2) (supplied : BitVec 12)
  /-- CAN_FRAME_VALID (R350). -/
  | canFrameValid (n : Fin 4) (f : CanFrame)
  /-- CAN_START_POINT (R353). -/
  | canStartPoint (n : Fin 4)
  /-- CAN_ARBITRATION_LOST (R354). -/
  | canArbitrationLost (n : Fin 4)
  /-- CAN_FRAME_COMPLETE (R356). -/
  | canFrameComplete (n : Fin 4) (stamp : W32) (tdcv : Option (BitVec 7))
  /-- CAN_ERROR (R361). -/
  | canError (n : Fin 4) (x : CanErr)
  /-- CAN_RECOVERED (R363). -/
  | canRecovered (n : Fin 4)
  /-- INTEGRATION_DONE (R343). -/
  | integrationDone (n : Fin 4)
  /-- PROTOCOL_EXCEPTION (R365). -/
  | protocolException (n : Fin 4) (transmitter : Bool)
  /-- TX_BUFFER_LOAD (R352). -/
  | txBufferLoad (n : Fin 4) (b : Fin 8) (memErr : Bool)
  /-- CAN_LATE (R354). -/
  | canLate (n : Fin 4) (b : Fin 8)
  /-- CTXB_ABORT (R355). -/
  | ctxbAbort (e : Fin 16) (n : Fin 4) (mask : BitVec 8)
  /-- PIO_RUN (R369). -/
  | pioRun (e : Fin 16) (k : Fin 8) (start : Fin 48)
  /-- RESTART (R387). -/
  | restart (e : Fin 16) (k : Fin 8) (start : Fin 48)
  /-- CLRTX (R385). -/
  | clrtx (e : Fin 16) (k : Fin 8)
  /-- CLRRX (R385). -/
  | clrrx (e : Fin 16) (k : Fin 8)
  /-- PTXQ_PUSH (R383). -/
  | ptxqPush (e : Fin 16) (k : Fin 8) (w : W32)
  /-- PRXQ_POP (R383). -/
  | prxqPop (e : Fin 16) (k : Fin 8)
  /-- PIMEM_WRITE (R386). -/
  | pimemWrite (e : Fin 16) (k : Fin 8) (i : Fin 48) (w : W32)
  /-- PIO_NOP (R375). -/
  | pioNop (k : Fin 8) (ops : BitVec 28) (ticks : List PinTick)
  /-- XFER (R378). -/
  | xfer (k : Fin 8) (ops : BitVec 28) (ticks : List PinTick)
  /-- PIO_LOAD (R375). -/
  | pioLoad (k : Fin 8) (ops : BitVec 28) (ticks : List PinTick)
  /-- PIO_STORE (R375). -/
  | pioStore (k : Fin 8) (ops : BitVec 28) (ticks : List PinTick)
  /-- WAITE (R375). -/
  | waite (k : Fin 8) (ops : BitVec 28) (ticks : List PinTick)
  /-- WAITT (R375). -/
  | waitt (k : Fin 8) (ops : BitVec 28) (ticks : List PinTick)
  /-- PIO_BR (R376). -/
  | pioBr (k : Fin 8) (ops : BitVec 28) (ticks : List PinTick)
  /-- PINS (R375). -/
  | pins (k : Fin 8) (ops : BitVec 28) (ticks : List PinTick)
  /-- LDC (R375). -/
  | ldc (k : Fin 8) (ops : BitVec 28) (ticks : List PinTick)
  /-- SIG (R375). -/
  | sig (k : Fin 8) (ops : BitVec 28) (ticks : List PinTick)
  /-- SRX (R375). -/
  | srx (k : Fin 8) (ops : BitVec 28) (ticks : List PinTick)
  /-- PIO_INVALID_FETCH (R377). -/
  | pioInvalidFetch (k : Fin 8) (w : W32)
  /-- PIO_STALL_RELEASE (R379). -/
  | pioStallRelease (k : Fin 8) (ticks : List PinTick)
  /-- KEEP_ALIVE_SEND (R396): `reach` are the channels, DI0–DI7 and then DO0–DO7, whose couplers pass it. -/
  | keepAliveSend (reach : BitVec 16)
  /-- KEEP_ALIVE_MISSING (R396). -/
  | keepAliveMissing (ch : Fin 16)
  /-- CURRENT_LIMIT (R408). -/
  | currentLimit (d : Fin 8)
  /-- THERMAL_SHUTDOWN (R407). -/
  | thermalShutdown (d : Fin 8)
  /-- RETRY_TIMER (R407). -/
  | retryTimer (d : Fin 8)
  /-- OVERLOAD_TIMER (R408). -/
  | overloadTimer (d : Fin 8)
  /-- LPLUS_LOW (R412). -/
  | lplusLow (mv : W16)
  /-- LPLUS_UVLO (R412). -/
  | lplusUvlo (mv : W16)
  /-- UVLO_RESTORE (R412). -/
  | uvloRestore (mv : W16)
  /-- LPLUS_LOW_CLEAR (R412). -/
  | lplusLowClear (mv : W16)
  /-- READBACK_RESUME (R412). -/
  | readbackResume
  /-- FIO_OVERTEMP (R413). -/
  | fioOvertemp
  /-- OVERTEMP_RECOVERY (R413). -/
  | overtempRecovery
  /-- READBACK_FAULT (R410). -/
  | readbackFault (d : Fin 8) (rb : Bool)
  /-- FEEDBACK_CLEAR (R414). -/
  | feedbackClear (d : Fin 8)
  /-- OPEN_LOAD (R410). -/
  | openLoad (d : Fin 8)
  /-- DO_SUM_HIGH (R405). -/
  | doSumHigh
  /-- THRESHOLD_UPDATE (R400). -/
  | thresholdUpdate (mv : W16)
  /-- DI_EDGE (R402). -/
  | diEdge (d : Fin 8) (level : Bool) (stamp : W32)
  /-- FREQ_GATE_END (R403). -/
  | freqGateEnd (d : Fin 8)
  /-- DI_COUNT_READ (R418). -/
  | diCountRead (e : Fin 16) (d : Fin 8)
  /-- ENG_WDT_WRITE (R492). -/
  | engWdtWrite (e : Fin 16) (k : Fin 4) (v : W32)
  /-- WATCHDOG_TIMEOUT (R492). -/
  | watchdogTimeout (e : Fin 16)
  /-- LOAD_ECC_ERROR (R487). -/
  | loadEccError (e : Fin 16) (pc : W32) (resume : W32) (addr : W32) (after : Fin 3)
  /-- COPROC_COMPLETE (R507). -/
  | coprocComplete (e : Fin 16)
  /-- ADDA (R500). -/
  | adda (e : Fin 16) (stop : Bool) (ops : BitVec 23)
  /-- SUBA (R500). -/
  | suba (e : Fin 16) (stop : Bool) (ops : BitVec 23)
  /-- ADDAI (R500). -/
  | addai (e : Fin 16) (stop : Bool) (ops : BitVec 23)
  /-- ADDAD (R500). -/
  | addad (e : Fin 16) (stop : Bool) (ops : BitVec 23)
  /-- LHA (R500). -/
  | lha (e : Fin 16) (stop : Bool) (ops : BitVec 23)
  /-- LLA (R500). -/
  | lla (e : Fin 16) (stop : Bool) (ops : BitVec 23)
  /-- LDB (R500). -/
  | ldb (e : Fin 16) (stop : Bool) (ops : BitVec 23)
  /-- LDBU (R500). -/
  | ldbu (e : Fin 16) (stop : Bool) (ops : BitVec 23)
  /-- LDH (R500). -/
  | ldh (e : Fin 16) (stop : Bool) (ops : BitVec 23)
  /-- LDHU (R500). -/
  | ldhu (e : Fin 16) (stop : Bool) (ops : BitVec 23)
  /-- LDW (R500). -/
  | ldw (e : Fin 16) (stop : Bool) (ops : BitVec 23)
  /-- LDD (R500). -/
  | ldd (e : Fin 16) (stop : Bool) (ops : BitVec 23)
  /-- LDA (R500). -/
  | lda (e : Fin 16) (stop : Bool) (ops : BitVec 23)
  /-- LDHR (R524). -/
  | ldhr (e : Fin 16) (stop : Bool) (ops : BitVec 23)
  /-- LDWR (R524). -/
  | ldwr (e : Fin 16) (stop : Bool) (ops : BitVec 23)
  /-- STB (R500). -/
  | stb (e : Fin 16) (stop : Bool) (ops : BitVec 23)
  /-- STH (R500). -/
  | sth (e : Fin 16) (stop : Bool) (ops : BitVec 23)
  /-- STW (R500). -/
  | stw (e : Fin 16) (stop : Bool) (ops : BitVec 23)
  /-- STD (R500). -/
  | std (e : Fin 16) (stop : Bool) (ops : BitVec 23)
  /-- STA (R500). -/
  | sta (e : Fin 16) (stop : Bool) (ops : BitVec 23)
  /-- ADD (R501). -/
  | add (e : Fin 16) (stop : Bool) (ops : BitVec 23)
  /-- SUB (R501). -/
  | sub (e : Fin 16) (stop : Bool) (ops : BitVec 23)
  /-- AND (R501). -/
  | andD (e : Fin 16) (stop : Bool) (ops : BitVec 23)
  /-- OR (R501). -/
  | orD (e : Fin 16) (stop : Bool) (ops : BitVec 23)
  /-- XOR (R501). -/
  | xorD (e : Fin 16) (stop : Bool) (ops : BitVec 23)
  /-- ANDN (R501). -/
  | andn (e : Fin 16) (stop : Bool) (ops : BitVec 23)
  /-- SHL (R501). -/
  | shl (e : Fin 16) (stop : Bool) (ops : BitVec 23)
  /-- SHR (R501). -/
  | shr (e : Fin 16) (stop : Bool) (ops : BitVec 23)
  /-- SAR (R501). -/
  | sar (e : Fin 16) (stop : Bool) (ops : BitVec 23)
  /-- ROR (R501). -/
  | ror (e : Fin 16) (stop : Bool) (ops : BitVec 23)
  /-- MIN (R501). -/
  | minD (e : Fin 16) (stop : Bool) (ops : BitVec 23)
  /-- MAX (R501). -/
  | maxD (e : Fin 16) (stop : Bool) (ops : BitVec 23)
  /-- MINU (R501). -/
  | minu (e : Fin 16) (stop : Bool) (ops : BitVec 23)
  /-- MAXU (R501). -/
  | maxu (e : Fin 16) (stop : Bool) (ops : BitVec 23)
  /-- ADDS (R501). -/
  | adds (e : Fin 16) (stop : Bool) (ops : BitVec 23)
  /-- SUBS (R501). -/
  | subs (e : Fin 16) (stop : Bool) (ops : BitVec 23)
  /-- ADDI (R501). -/
  | addi (e : Fin 16) (stop : Bool) (ops : BitVec 23)
  /-- ANDI (R501). -/
  | andi (e : Fin 16) (stop : Bool) (ops : BitVec 23)
  /-- ORI (R501). -/
  | ori (e : Fin 16) (stop : Bool) (ops : BitVec 23)
  /-- XORI (R501). -/
  | xori (e : Fin 16) (stop : Bool) (ops : BitVec 23)
  /-- SHLI (R501). -/
  | shli (e : Fin 16) (stop : Bool) (ops : BitVec 23)
  /-- SHRI (R501). -/
  | shri (e : Fin 16) (stop : Bool) (ops : BitVec 23)
  /-- SARI (R501). -/
  | sari (e : Fin 16) (stop : Bool) (ops : BitVec 23)
  /-- RORI (R501). -/
  | rori (e : Fin 16) (stop : Bool) (ops : BitVec 23)
  /-- CMP (R501). -/
  | cmp (e : Fin 16) (stop : Bool) (ops : BitVec 23)
  /-- CMPI (R501). -/
  | cmpi (e : Fin 16) (stop : Bool) (ops : BitVec 23)
  /-- MOVI (R501). -/
  | movi (e : Fin 16) (stop : Bool) (ops : BitVec 23)
  /-- LHI (R501). -/
  | lhi (e : Fin 16) (stop : Bool) (ops : BitVec 23)
  /-- LLI (R501). -/
  | lli (e : Fin 16) (stop : Bool) (ops : BitVec 23)
  /-- EXTU (R501). -/
  | extu (e : Fin 16) (stop : Bool) (ops : BitVec 23)
  /-- EXTS (R501). -/
  | exts (e : Fin 16) (stop : Bool) (ops : BitVec 23)
  /-- INS (R501). -/
  | ins (e : Fin 16) (stop : Bool) (ops : BitVec 23)
  /-- CLZ (R501). -/
  | clz (e : Fin 16) (stop : Bool) (ops : BitVec 23)
  /-- POPC (R501). -/
  | popc (e : Fin 16) (stop : Bool) (ops : BitVec 23)
  /-- BSWAP (R501). -/
  | bswap (e : Fin 16) (stop : Bool) (ops : BitVec 23)
  /-- BSWAPH (R501). -/
  | bswaph (e : Fin 16) (stop : Bool) (ops : BitVec 23)
  /-- ABS (R501). -/
  | absD (e : Fin 16) (stop : Bool) (ops : BitVec 23)
  /-- NEG (R501). -/
  | neg (e : Fin 16) (stop : Bool) (ops : BitVec 23)
  /-- MUL (R501). -/
  | mul (e : Fin 16) (stop : Bool) (ops : BitVec 23)
  /-- MULH (R501). -/
  | mulh (e : Fin 16) (stop : Bool) (ops : BitVec 23)
  /-- MULHU (R501). -/
  | mulhu (e : Fin 16) (stop : Bool) (ops : BitVec 23)
  /-- MAC (R502). -/
  | mac (e : Fin 16) (stop : Bool) (ops : BitVec 23)
  /-- MACU (R502). -/
  | macu (e : Fin 16) (stop : Bool) (ops : BitVec 23)
  /-- MSU (R502). -/
  | msu (e : Fin 16) (stop : Bool) (ops : BitVec 23)
  /-- ACCLR (R501). -/
  | acclr (e : Fin 16) (stop : Bool) (ops : BitVec 23)
  /-- ACLD (R501). -/
  | acld (e : Fin 16) (stop : Bool) (ops : BitVec 23)
  /-- ACEXT (R502). -/
  | acext (e : Fin 16) (stop : Bool) (ops : BitVec 23)
  /-- MOVAD (R503). -/
  | movad (e : Fin 16) (stop : Bool) (ops : BitVec 23)
  /-- MOVDA (R503). -/
  | movda (e : Fin 16) (stop : Bool) (ops : BitVec 23)
  /-- MOVD (R503). -/
  | movd (e : Fin 16) (stop : Bool) (ops : BitVec 23)
  /-- MOVA (R503). -/
  | mova (e : Fin 16) (stop : Bool) (ops : BitVec 23)
  /-- SEL (R503). -/
  | sel (e : Fin 16) (stop : Bool) (ops : BitVec 23)
  /-- QPUSH (R504). -/
  | qpush (e : Fin 16) (stop : Bool) (ops : BitVec 23)
  /-- QPOP (R504). -/
  | qpop (e : Fin 16) (stop : Bool) (ops : BitVec 23)
  /-- QSTAT (R503). -/
  | qstat (e : Fin 16) (stop : Bool) (ops : BitVec 23)
  /-- B (R505). -/
  | b (e : Fin 16) (stop : Bool) (ops : BitVec 23)
  /-- BDZ (R505). -/
  | bdz (e : Fin 16) (stop : Bool) (ops : BitVec 23)
  /-- BDNZ (R505). -/
  | bdnz (e : Fin 16) (stop : Bool) (ops : BitVec 23)
  /-- DBNZ (R505). -/
  | dbnz (e : Fin 16) (stop : Bool) (ops : BitVec 23)
  /-- CALL (R478). -/
  | call (e : Fin 16) (stop : Bool) (ops : BitVec 23)
  /-- CALLR (R505). -/
  | callr (e : Fin 16) (stop : Bool) (ops : BitVec 23)
  /-- JR (R505). -/
  | jr (e : Fin 16) (stop : Bool) (ops : BitVec 23)
  /-- RET (R478). -/
  | ret (e : Fin 16) (stop : Bool) (ops : BitVec 23)
  /-- RTE (R490). -/
  | rte (e : Fin 16) (stop : Bool) (ops : BitVec 23)
  /-- RPT (R485). -/
  | rpt (e : Fin 16) (stop : Bool) (ops : BitVec 23)
  /-- WFE (R481). -/
  | wfe (e : Fin 16) (stop : Bool) (ops : BitVec 23)
  /-- MWAIT (R484). -/
  | mwait (e : Fin 16) (stop : Bool) (ops : BitVec 23)
  /-- SEV (R482). -/
  | sev (e : Fin 16) (stop : Bool) (ops : BitVec 23)
  /-- SEVR (R505). -/
  | sevr (e : Fin 16) (stop : Bool) (ops : BitVec 23)
  /-- FENCE (R476). -/
  | fence (e : Fin 16) (stop : Bool) (ops : BitVec 23)
  /-- BRK (R505). -/
  | brk (e : Fin 16) (stop : Bool) (ops : BitVec 23)
  /-- MFS (R468). -/
  | mfs (e : Fin 16) (stop : Bool) (ops : BitVec 23)
  /-- MTS (R468). -/
  | mts (e : Fin 16) (stop : Bool) (ops : BitVec 23)
  /-- CRCSET (R509). -/
  | crcset (e : Fin 16) (stop : Bool) (ops : BitVec 23)
  /-- CRCM (R510). -/
  | crcm (e : Fin 16) (stop : Bool) (ops : BitVec 23)
  /-- CRCW (R510). -/
  | crcw (e : Fin 16) (stop : Bool) (ops : BitVec 23)
  /-- CSUM (R511). -/
  | csum (e : Fin 16) (stop : Bool) (ops : BitVec 23)
  /-- STUFF (R512). -/
  | stuff (e : Fin 16) (stop : Bool) (ops : BitVec 23)
  /-- UNSTUFF (R512). -/
  | unstuff (e : Fin 16) (stop : Bool) (ops : BitVec 23)
  /-- FEXT (R513). -/
  | fext (e : Fin 16) (stop : Bool) (ops : BitVec 23)
  /-- FINS (R513). -/
  | fins (e : Fin 16) (stop : Bool) (ops : BitVec 23)
  /-- GCMKEY (R514). -/
  | gcmkey (e : Fin 16) (stop : Bool) (ops : BitVec 23)
  /-- GCMIV (R514). -/
  | gcmiv (e : Fin 16) (stop : Bool) (ops : BitVec 23)
  /-- GCMAAD (R514). -/
  | gcmaad (e : Fin 16) (stop : Bool) (ops : BitVec 23)
  /-- GCMENC (R514). -/
  | gcmenc (e : Fin 16) (stop : Bool) (ops : BitVec 23)
  /-- GCMDEC (R514). -/
  | gcmdec (e : Fin 16) (stop : Bool) (ops : BitVec 23)
  /-- GCMTAG (R514). -/
  | gcmtag (e : Fin 16) (stop : Bool) (ops : BitVec 23)
  /-- EFUSE_RETRY (R552). -/
  | efuseRetry
  /-- VIN_OVLO_RELEASE (R553). -/
  | vinOvloRelease
  /-- PCIE_LINK_UP (R80). -/
  | pcieLinkUp
  /-- PCIE_CONFIG_WRITE (R71). -/
  | pcieConfigWrite (rid : W16) (r : PcieReg) (v : W64)
  /-- HOST_MEMORY_WRITE (R27). -/
  | hostMemoryWrite (m : Master) (win : Bool) (off : BitVec 23) (data : List (Option Byte))
  /-- DE_PIN_FALL (R381). -/
  | dePinFall (k : Fin 8)
  /-- CURRENT_LIMIT_RELEASE (R407). -/
  | currentLimitRelease (d : Fin 8)
  /-- OVERLOAD_CLEAR (R408). -/
  | overloadClear (d : Fin 8)
  /-- OPEN_LOAD_CLEAR (R414). -/
  | openLoadClear (d : Fin 8)
  /-- DO_SUM_HIGH_CLEAR (R414). -/
  | doSumHighClear
  /-- IMEM_DMEM_SCRUB (R546). -/
  | imemDmemScrub (e : Fin 16) (dmem : Bool) (word : BitVec 20) (uncorr : Bool)
deriving DecidableEq, Repr

end Sys2Proof
end

