-- ==== Sys2Proof/WellFormed.lean ====
section
/-!
DEFINITION. Which commands are well formed: the operand shapes the spec's tables fix and the operand types leave
open. An ill-formed command spells nothing the spec lists.
-/
namespace Sys2Proof.WellFormed

/-- A payload fits a mailbox buffer (R87: LEN 0–1008). -/
def payload (m : Msg) : Bool := m.payload.length ≤ 1008

/-- Reserved FLAGS bits are zero (R87). -/
def flags (m : Msg) : Bool := m.flags.toNat < 16

/-- A WRITE carries whole words, at least one (R54). Address bits [1:0] are ignored, and a READ's count byte gives 1–256
words whatever it holds. -/
def spiWords (ws : List W32) : Bool := ws ≠ []

/-- A parallel-bus low half lies at HA[1] = 0, a high half at HA[1] = 1; HA starts at bit 1 (R53). -/
def halfAddress (high : Bool) (off : BitVec 23) : Bool := off.toNat % 4 = if high then 2 else 0

/-- The first octets of a frame are two addresses and an EtherType (R156, R240). -/
def frame (bytes : List Byte) : Bool := 14 ≤ bytes.length

/-- A CAN frame's identifier and data fit its kind (R357, R358). -/
def canFrame (f : CanFrame) : Bool :=
  (f.ide || f.id.toNat < 2048) && (!f.rtr || !f.fdf) && (f.fdf || !f.brs) && f.data.length ≤ 64

/-- A COPY block is 1 KiB (R323). -/
def copyBlock (data : List Byte) : Bool := data.length = 1024

/-- Only engines, the host, host-side DMA and the supervisor reach an engine mailbox (R65); PEER owns no bus. -/
def busMaster : Master → Bool
  | .peer => false
  | _ => true

/-- Only the host and host-side DMA write BAR0 (R71). -/
def hostMaster : Master → Bool
  | .host | .dma | .pcie _ => true
  | _ => false

/-- The host and its DMA write memory; the supervisor writes the inbound buffers of the engine mailboxes (R65). -/
def memoryMaster (m : Master) (win : Bool) (off : Nat) : Bool :=
  hostMaster m || (m == .supv && !win && 0x5000 ≤ off && off < 0x9000)

end Sys2Proof.WellFormed

namespace Sys2Proof

/-- The well-formedness check of a command. -/
def Instr.wellFormed : Instr → Bool
  | .lockAcquire m _ others => WellFormed.busMaster m && others.all WellFormed.busMaster
  | .lockRelease m _ _ => WellFormed.busMaster m
  | .embPost m _ => WellFormed.busMaster m
  | .embOutRel m _ => WellFormed.busMaster m
  | .registerWrite (.bar0 m _ _ _) => WellFormed.hostMaster m
  | .hostMemoryWrite m win off _ => WellFormed.memoryMaster m win off.toNat
  | .accessAbandoned m _ _ => WellFormed.hostMaster m
  | .parLowHalfRead _ off => WellFormed.halfAddress false off
  | .parHighHalfRead _ off => WellFormed.halfAddress true off
  | .parLowHalfWrite _ off _ _ => WellFormed.halfAddress false off
  | .parHighHalfWrite _ off _ _ => WellFormed.halfAddress true off
  | .write0 _ _ ws => WellFormed.spiWords ws
  | .write1 _ _ ws => WellFormed.spiWords ws
  | .frameReceived _ f => WellFormed.frame f.bytes
  | .drumFrameRx _ f => WellFormed.frame f.bytes
  | .drumFrameReturn _ f => WellFormed.frame f.bytes
  | .claimRx _ f => WellFormed.frame f.bytes
  | .canFrameValid _ f => WellFormed.canFrame f
  | .aklosCopy _ _ _ _ data _ _ _ => WellFormed.copyBlock data
  | .openSession m => WellFormed.payload m && WellFormed.flags m
  | .closeSession m => WellFormed.payload m && WellFormed.flags m
  | .getInfo m => WellFormed.payload m && WellFormed.flags m
  | .getCaps m => WellFormed.payload m && WellFormed.flags m
  | .setPowerState m => WellFormed.payload m && WellFormed.flags m
  | .resetObject m => WellFormed.payload m && WellFormed.flags m
  | .loadCmd m => WellFormed.payload m && WellFormed.flags m
  | .loadCustom m => WellFormed.payload m && WellFormed.flags m
  | .startCmd m => WellFormed.payload m && WellFormed.flags m
  | .stop m => WellFormed.payload m && WellFormed.flags m
  | .unload m => WellFormed.payload m && WellFormed.flags m
  | .cycleConfig m => WellFormed.payload m && WellFormed.flags m
  | .portConfig m => WellFormed.payload m && WellFormed.flags m
  | .portStatus m => WellFormed.payload m && WellFormed.flags m
  | .cableTest m => WellFormed.payload m && WellFormed.flags m
  | .queueMap m => WellFormed.payload m && WellFormed.flags m
  | .gateList m => WellFormed.payload m && WellFormed.flags m
  | .preemptConfig m => WellFormed.payload m && WellFormed.flags m
  | .piDefine m => WellFormed.payload m && WellFormed.flags m
  | .piMap m => WellFormed.payload m && WellFormed.flags m
  | .piCommit m => WellFormed.payload m && WellFormed.flags m
  | .timeConfig m => WellFormed.payload m && WellFormed.flags m
  | .timeGet m => WellFormed.payload m && WellFormed.flags m
  | .timeAcceptJump m => WellFormed.payload m && WellFormed.flags m
  | .syncPinConfig m => WellFormed.payload m && WellFormed.flags m
  | .dlConfig m => WellFormed.payload m && WellFormed.flags m
  | .routeLoad m => WellFormed.payload m && WellFormed.flags m
  | .routeSwitch m => WellFormed.payload m && WellFormed.flags m
  | .dlTopology m => WellFormed.payload m && WellFormed.flags m
  | .tollgateConfig m => WellFormed.payload m && WellFormed.flags m
  | .pairConfig m => WellFormed.payload m && WellFormed.flags m
  | .pairApprove m => WellFormed.payload m && WellFormed.flags m
  | .pairStatus m => WellFormed.payload m && WellFormed.flags m
  | .pairSwitch m => WellFormed.payload m && WellFormed.flags m
  | .groupConfig m => WellFormed.payload m && WellFormed.flags m
  | .canConfig m => WellFormed.payload m && WellFormed.flags m
  | .canStatus m => WellFormed.payload m && WellFormed.flags m
  | .canFilter m => WellFormed.payload m && WellFormed.flags m
  | .canAbort m => WellFormed.payload m && WellFormed.flags m
  | .pioConfig m => WellFormed.payload m && WellFormed.flags m
  | .pioProgram m => WellFormed.payload m && WellFormed.flags m
  | .pioStatus m => WellFormed.payload m && WellFormed.flags m
  | .fioConfig m => WellFormed.payload m && WellFormed.flags m
  | .diConfig m => WellFormed.payload m && WellFormed.flags m
  | .doConfig m => WellFormed.payload m && WellFormed.flags m
  | .doSet m => WellFormed.payload m && WellFormed.flags m
  | .fioStatus m _ _ => WellFormed.payload m && WellFormed.flags m
  | .statsConfig m => WellFormed.payload m && WellFormed.flags m
  | .logConfig m => WellFormed.payload m && WellFormed.flags m
  | .logRead m => WellFormed.payload m && WellFormed.flags m
  | .selftest m => WellFormed.payload m && WellFormed.flags m
  | .healthGet m _ => WellFormed.payload m && WellFormed.flags m
  | .getIdentity m => WellFormed.payload m && WellFormed.flags m
  | .attest m => WellFormed.payload m && WellFormed.flags m
  | .unassignedCommand _ m => WellFormed.payload m && WellFormed.flags m
  | _ => true

end Sys2Proof
end

