-- ==== Sys2Proof/Machine/State.lean ====
section
/-!
DEFINITION. The state of the module: every register, queue, counter, mode and pin the spec names, as plain data;
the reasons a step can stop; and the state after reset. Field comments name the rule and, where the spec
gives no reset value, the log entry of the value chosen.
-/
namespace Sys2Proof.Machine

/-- Why a step faults. -/
inductive Fault where
  /-- Raised by a command that the spec calls a host error with an unpredictable result (R5, R60, R462), for the object named. Safe: no claim about the result can be proved. -/
  | hostError (object : W16)
  /-- Raised by a burst that crosses a row of R26 (R54, R60), for the objects of the two rows. Safe: no claim about the result can be proved. -/
  | hostErrors (first second : W16)
  /-- Raised by an engine or a descriptor that the spec calls an error of engine firmware (R5, R66, R196, R360, R371, R515), for the object to which the rule confines it. Safe: no claim about the result can be proved. -/
  | firmwareError (object : W16)
deriving DecidableEq, Repr

/-- Why a step is refused. -/
inductive Refusal where
  /-- Raised by an arm of the dispatch that has no meaning yet. Safe: nothing is claimed. -/
  | notModelled (mnemonic : String)
deriving DecidableEq, Repr

/-! ### Counters (R531–R533) -/

/-- A block of counters: the running period, the interval bank with its SAT bits, the 64-bit totals. -/
structure Ctr (n : Nat) where
  live : Vec W32 n
  ival : Vec W32 n
  isat : Vec Bool n
  tot : Vec W64 n
deriving DecidableEq, Repr

/-- Counters at reset: all 0 (R533). -/
def Ctr.zero (n : Nat) : Ctr n := ⟨Vec.fill n 0, Vec.fill n 0, Vec.fill n false, Vec.fill n 0⟩

/-- Counters of a CAN controller at reset: tdcv_min, slot 57, has no lowest value before the first measurement, and reads as
ones (R367, R536; DESIGN CHOICE, log 106). -/
def Ctr.can : Ctr 59 :=
  let lowest : W32 := 0xFFFFFFFF
  let c := Ctr.zero 59
  { c with live := Vec.updN c.live 57 fun _ => lowest, ival := Vec.updN c.ival 57 fun _ => lowest,
           tot := Vec.updN c.tot 57 fun _ => lowest.setWidth 64 }

/-! ### Power, start-up, flash (chapter 19) -/

/-- Where the module stands between no power and running (R553, R554, R564, R567, R568). -/
inductive Phase where
  | noPower | ramping | inReset | run | standby | hibernate | startFault
deriving DecidableEq, Repr

/-- The eFuse (R552, R553, R579). -/
inductive Efuse where
  | openMate | openTrip | openOvlo | closed
deriving DecidableEq, Repr

/-- A request waiting at the power controller (R559). -/
structure PowerReq where
  dom : Fin 12
  up : Bool
deriving DecidableEq, Repr

/-- One flash slot: the stored octets of its Sundom image and of its catalogue images (R569, R570). -/
structure Slot where
  sundom : List Byte
  images : List (List Byte)
  tries : Nat
  confirmed : Bool
deriving DecidableEq, Repr

/-- Supply, power state, straps, start-up record, RTC and boot data (R552–R574). -/
structure Power where
  phase : Phase
  cause : Nat
  efuse : Efuse
  vinOn : Bool
  rstLow : Bool
  hifsel : Fin 4
  mpos : Fin 4
  domains : BitVec 12
  powering : BitVec 12
  restore : BitVec 12
  wakeWord : W32
  requests : List PowerReq
  ready : Bool
  fault : Bool
  bootimg : Bool
  heartbeat : W32
  fwVer : W32
  uptime : W32
  rtc : Nat
  rtcSet : Bool
  rtcAlarm : Option Nat
  slots : Vec Slot 2
  preferred : Fin 2
  rollback : Nat
  keyHash : List Byte
  supPubkey : List Byte
  minPers : W32
  lockstepSeen : Bool
deriving DecidableEq, Repr

/-! ### Host interface (chapter 02) -/

/-- PCIe configuration (R48, R51, R71). `owed` bit b (32: INT_STATUS) is a signal that waits for the link (R80). -/
structure Pcie where
  linkUp : Bool
  hostRid : Option W16
  command : W16
  bar0 : W32
  bar1 : W32
  d3hot : Bool
  msiEn : Bool
  msiVecLog : Fin 6
  msiAddr : W64
  msiData : W16
  msiMask : W32
  msixEn : Bool
  msixMask : Bool
  devControl : W16
  table : Vec W32 128
  pba : W64
  owed : BitVec 33
deriving DecidableEq, Repr

/-- A pending low half of the parallel bus (R53). -/
structure HalfWrite where
  off : BitVec 23
  v : W16
deriving DecidableEq, Repr

/-- Host interface registers and the three interfaces' holding state (R42–R59, R73). `hd` is what HD carried in the
last read cycle of the parallel bus, `berr` whether BERR_N was low at the end of the last cycle (R52), `rdata` and `rerr` the
words of the last answer to a read over SPI or PCIe and whether it was the error response (R59). -/
structure Hif where
  stat : BitVec 6
  errcnt : Byte
  erraddr : W32
  stchg : Bool
  intEn : BitVec 3
  s2h : W32
  s2hMask : W32
  s2hWake : W32
  h2s : W32
  h2sMask : W32
  pcie : Pcie
  parHold : W32
  hd : W16
  berr : Bool
  parLow : Option HalfWrite
  spiPrevErr : Bool
  spiBusy : Bool
  spiOut : List W32
  spiStatus : Byte
  rdata : List W32
  rerr : Bool
  signals : Vec Nat 32
deriving DecidableEq, Repr

/-! ### Mailboxes, sessions, jobs, log (chapters 03, 04, 18) -/

/-- A session (R93, R428). -/
structure Session where
  gen : W32
  subs : W16
  positions : Byte
deriving DecidableEq, Repr

/-- A response or notification (R88, R89); `held` marks a notification other than JOB_DONE (R111). -/
structure OutMsg where
  code : W16
  tag : W16
  status : W16
  detail : W32
  target : W16
  payload : List Byte
  held : Bool
deriving DecidableEq, Repr

/-- A supervisor mailbox (R61–R63, R67, R84). `overrun`: a 33rd message met a full queue (R85, log 12). -/
structure Mbx where
  lock : Byte
  inFull : Bool
  outFull : Bool
  inBuf : Mem
  outBuf : Mem
  outq : List OutMsg
  slotOpen : Bool
  overrun : Bool
  session : Option Session
  taken : List (List Byte)
deriving DecidableEq, Repr

/-- An engine mailbox with its lock and doorbell register (R64–R66, R73). -/
structure Emb where
  lock : Byte
  inFull : Bool
  outFull : Bool
  inBuf : Mem
  outBuf : Mem
  ring : Bool
  wakeEn : Bool
deriving DecidableEq, Repr

/-- What a job does (R427). -/
inductive JobKind where
  | load (c : Fin 4) (custom : Bool) (payload : List Byte)
  | resetCluster (c : Fin 4)
  | cableTest (p : Fin 12)
  | routeSwitch (c : Fin 4)
  | pairSwitch
  | selftest (object : W16) (scope : W16)
  | attest (nonce : List Byte)
deriving DecidableEq, Repr

/-- A running job (R105–R108). -/
structure Job where
  num : W32
  kind : JobKind
  chan : Fin 9
  gen : W32
  tag : W16
  flags : W16
  target : W16
deriving DecidableEq, Repr

/-- A command forwarded to another module and not yet answered (R113, R114), under its request number (log 24). -/
structure Proxy where
  num : BitVec 30
  chan : Fin 9
  cmd : W16
  tag : W16
  gen : W32
  flags : W16
  target : W16
deriving DecidableEq, Repr

/-- A job of another module that one of this module's sessions started (R115); `req` is the request number of its command. -/
structure Remote where
  pos : Fin 4
  num : W32
  req : BitVec 30
  chan : Fin 9
  gen : W32
  tag : W16
  flags : W16
  target : W16
deriving DecidableEq, Repr

/-- A mirrored command whose standby has not yet answered (R426), under its request number (log 24). -/
structure Mirror where
  num : BitVec 30
  chan : Fin 9
  gen : W32
  response : OutMsg
deriving DecidableEq, Repr

/-- How a job ended: its number, final status and the DETAIL that R102 gives that status; and whether its session had
ended, so that no JOB_DONE was posted (R97, R108). -/
structure JobEnd where
  num : W32
  status : W16
  detail : W32
  orphaned : Bool
deriving DecidableEq, Repr

/-- A log or alarm entry (R457). -/
structure LogEntry where
  seq : W32
  cls : Fin 4
  code : W16
  obj : W16
  count : Nat
  data : W32
  first : W64
  last : W64
  cleared : Bool
  summary : Bool
  read : Bool
deriving DecidableEq, Repr

/-- The supervisor: sessions' and jobs' counters, alarm store, log ring, statistics settings (R94, R106, R456, R539–R544). -/
structure Sup where
  gen : W32
  jobNext : W32
  jobs : List Job
  rr : Fin 9
  proxies : List Proxy
  mirrors : List Mirror
  reqNum : BitVec 30
  lastEnd : Option JobEnd
  orphans : List JobEnd
  remotes : List Remote
  alarms : List LogEntry
  ring : List LogEntry
  seq : W32
  loss : Vec W32 4
  notify : Byte
  traceEn : Bool
  period : W32
  periodNext : W32
  area : W32
  areaNew : Bool
  areaLen : W32
  sflags : W32
  wr : W32
  wraps : W32
  records : W32
  periods : W32
  dbGranted : Vec (Option (Fin 4)) 8
deriving DecidableEq, Repr

/-! ### Queues (chapter 06) -/

/-- A descriptor: four words (R190–R195, R357–R359). -/
structure Desc where
  w0 : W32
  w1 : W32
  w2 : W32
  w3 : W32
deriving DecidableEq, Repr

/-- A hardware queue (R181–R186), its free-buffer queue (R160) and its hq_overflow counter (R197). -/
structure HwQ where
  depth : Nat
  ovf : Bool
  items : List Desc
  grant : Option (Fin 4)
  fbq : Option (Fin 256)
  relayed : Bool
  /-- A unit has returned a free descriptor whose buffer another one names: the error of R196, confined to the queue. -/
  bad : Bool
  ctr : Ctr 1
deriving DecidableEq, Repr

/-! ### Ports (chapters 05, 06, 08) -/

/-- A frame on the line or waiting for its completion (R166, R189): its class and descriptors, its octets as gathered and
as sent, the stamp of its start (R204), the start of the fragment on the line, CSKIP, its RESULT, whether it is a drum
frame that the controller launches (R167), whether it goes as a preemptable frame, the octets that earlier fragments carried, the n of its SMD-Sn, the fragment
count of its next continuation, and whether a hold stopped it (R173). -/
structure TxRun where
  cls : Fin 8
  descs : List Desc
  raw : List Byte
  bytes : List Byte
  stamp : W64
  since : W64
  cskip : Bool
  result : Fin 6
  drum : Bool
  pre : Bool
  sent : Nat
  smd : Fin 4
  frag : Fin 4
  held : Bool
deriving DecidableEq, Repr

/-- How a fragment ends on the line (R169, R173): with an mCRC; as the frame's last one, with the FCS that the MAC appends, or
with the FCS that the frame's buffer held. -/
inductive LineEnd where
  | mcrc | fcs | noFcs
deriving DecidableEq, Repr

/-- How octets stand on the line (R169, R172, R173): a frame with its FCS appended, one whose buffer held the FCS, the
start fragment SMD-Sn or a continuation SMD-Cn with its fragment count, which end as `end_` says, or a verify mPacket. -/
inductive LineForm where
  | frame | noFcs
  | start (n : Fin 4) (end_ : LineEnd)
  | more (n : Fin 4) (count : Fin 4) (end_ : LineEnd)
  | verify
deriving DecidableEq, Repr

/-- A frame or fragment as put on the line. -/
structure WireFrame where
  bytes : List Byte
  fcs : Fcs
  form : LineForm
deriving DecidableEq, Repr

/-- A frame being reassembled (R175): the octets so far, the n of its SMD-Sn, the next fragment count, the invalid symbols
met, and the stamp of its start fragment. -/
structure Reasm where
  bytes : List Byte
  n : Fin 4
  count : Fin 4
  symErrs : Nat
  stamp : W32
  tfrac : BitVec 2
deriving DecidableEq, Repr

/-- The receiver loop of a G or L port (R130, R131, R137), per pair: gain in 0.25 dB steps, the taps of the equalisers and
cancellers (signed, the full range of 16 bits being a tap's range; log 82), the sampling phase in 1/64 symbol; the mean
squared error; the baseline wander correction of 100BASE-TX; the stage of training that the step size follows; and for how
many tenths of a nanosecond an impulse guard still suspends adaptation, and until the next update. -/
structure Loop where
  gain : Vec Byte 4
  taps : Vec (List W16) 4
  phase : Vec (BitVec 6) 4
  mse : W32
  wander : W16
  stage : Fin 5
  guarded : Nat
  wait : Nat
deriving DecidableEq, Repr

/-- A receiver loop that has adapted to nothing. -/
def Loop.zero : Loop := { gain := Vec.fill 4 0, taps := Vec.fill 4 [], phase := Vec.fill 4 0, mse := 0, wander := 0, stage := 0, guarded := 0, wait := 0 }

/-- A PRP duplicate-table entry (R180). -/
structure PrpEntry where
  src : BitVec 48
  seq : W16
  lanB : Bool
deriving DecidableEq, Repr

/-- The gate-list engine of a port (R170, R441). -/
structure Gate where
  active : List W32
  pending : Option (List W32)
  clear : Bool
  staged : List W32
  entry : Nat
  gates : Byte
deriving DecidableEq, Repr

/-- The wayside registers of a drum port and its link-delay measurement (R258, R261); the turned frames that wait for RET_AT
(R286); its drum windows, the spans of a hub's merged frames, and the passages of this cycle and the last one, in ns from the
drumbeat (R255, R288); whether this is the first cycle after a route switch (R301); the frames that wait in the elastic store
(R255), and the controller's drum frames that wait for their launch time (R264). -/
structure Ways where
  head : BitVec 4
  base : BitVec 11
  dups : Byte
  arr : W32
  ldly : W32
  probeT1 : Option W64
  delays : List Int
  hold : List (Fin 4 × WireFrame)
  windows : List (Int × Int)
  merges : List (Int × Int)
  first : Bool
  passed : List (Int × Int)
  last : List (Int × Int)
  store : List WireFrame
  launches : List (W32 × List Byte)
deriving DecidableEq, Repr

/-- A port (R124–R180, R206, R437–R441). Settings tables hold the VALUE of each row. -/
structure Port where
  st : Fin 6
  owner : Option (Fin 4)
  t1 : Vec W64 22
  t2 : Vec W64 12
  t3 : Vec W64 4
  station : W64
  mcast : Vec W64 32
  vids : Vec W64 64
  pre : Vec W64 5
  speed : BitVec 4
  role : Bool
  lpiTx : Bool
  lpiRx : Bool
  reason : BitVec 4
  snrMin : Byte
  chg : Byte
  pairSnr : Vec W16 4
  length : W16
  guards : W16
  attempts : Nat
  retry : Bool
  turn : Nat
  burst : Nat
  burstMax : Nat
  opportunity : Bool
  eeeOn : Bool
  pauseRx : Bool
  pauseTx : Bool
  xoff : Bool
  pauseLeft : W16
  pauseSub : Nat
  mm : BitVec 2
  mmTries : Nat
  etypes : Vec W32 8
  pcpMap : W16
  gate : Gate
  tx : Option TxRun
  preempted : Option TxRun
  launched : Vec Bool 8
  headAt : Vec W32 8
  smd : Fin 4
  copies : List WireFrame
  receiving : Bool
  reasm : Option Reasm
  rf : BitVec 2
  loop : Loop
  lpiRefresh : Bool
  ctrlOut : List WireFrame
  wire : Option WireFrame
  ways : Ways
  calStep : Nat
  ctr : Ctr 61
deriving DecidableEq, Repr

/-- A PRP pair's sequence number and duplicate table (R180). -/
structure Prp where
  seq : W16
  entries : List PrpEntry
deriving DecidableEq, Repr

/-! ### CAN (chapter 11) -/

/-- A loaded transmit buffer (R352, R354). -/
structure TxBuf where
  desc : Desc
  data : List Byte
  attempts : Nat
  order : Nat
  /-- The start-of-frame stamp of the last start (R357). -/
  stamp : W32
  /-- How many changes of the filter set were held at that start (R344, R349). -/
  past : Nat
deriving DecidableEq, Repr

/-- A CAN filter (R349). -/
structure Filter where
  valid : Bool
  typ : Byte
  frames : Byte
  action : Byte
  id : W32
  mask : W32
deriving DecidableEq, Repr

/-- A CAN controller (R343–R367). -/
structure Can where
  st : Fin 6
  owner : Option (Fin 4)
  sets : Vec W64 17
  filters : Vec Filter 32
  tec : Nat
  rxErr : Nat
  chg : Byte
  last : BitVec 3
  lastData : Bool
  lastTx : Bool
  recov : Byte
  count : W16
  tdcValid : Bool
  tdcv : BitVec 7
  tdco : BitVec 7
  ssp : Byte
  tb : Vec (Option TxBuf) 8
  onbus : Option (Fin 8)
  abort : Byte
  order : Nat
  retry : Bool
  passiveWarn : Bool
  clashSeen : Bool
  /-- Filter sets and NOFILT_RXQ in force before the latest changes, newest first (R344, R349). -/
  past : List (Vec Filter 32 × W64)
  /-- MODE 2 after an error: 11 recessive bits are awaited (R361). -/
  resting : Bool
  /-- The last frame received without error was acknowledged on the bus (R350). -/
  acked : Bool
  ctr : Ctr 59
deriving DecidableEq, Repr

/-! ### PIO (chapter 12) -/

/-- A stalled instruction: its word, and for an XFER how many bits are done (R369, R378, R386). -/
structure Latched where
  word : W32
  bits : Nat
  storing : Bool
deriving DecidableEq, Repr

/-- A PIO engine (R368–R389). -/
structure Pio where
  st : Fin 5
  owner : Option (Fin 4)
  run : Bool
  start : Fin 48
  pc : BitVec 6
  stallc : BitVec 3
  txovf : Bool
  rxund : Bool
  rxdrop : Bool
  tout : Bool
  bc : Nat
  sr : W32
  frame : Nat
  pclk : W32
  pfmt : W32
  ppins : W32
  pde : W32
  pevt : W32
  lc0 : W16
  lc1 : W16
  tcnt : W16
  tcmp : W16
  pmatch : W16
  mmask : W16
  pflag : Byte
  txq : List W32
  rxq : List W32
  pimem : Vec W32 48
  /-- Words of a PIO_PROGRAM that have not landed yet, with their places (R386). -/
  landing : List (Nat × W32)
  latched : Option Latched
  prevPins : W32
  divAcc : Nat
  de : Bool
  /-- No XFER with OE = 1 runs any more: DE_PIN falls once DE_LAG ticks have passed (R381). -/
  deTail : Bool
  /-- Ticks since the end of the last bit sent with OE = 1 (R381). -/
  deAgo : Nat
  outMask : W32
  inMask : W32
  idleVal : W32
  idleDir : W32
  level : W32
  dir : W32
  ctr : Ctr 5
deriving DecidableEq, Repr

/-! ### Field I/O (chapter 13) -/

/-- A digital input (R397–R403, R418). -/
structure Din where
  owner : Option (Fin 4)
  sets : Vec W64 7
  level : Bool
  /-- The filtered level before INV (R401). -/
  filt : Bool
  chg : Bool
  lost : Bool
  count : W32
  carry : W16
  /-- The gate of a personality's input runs: a drumbeat has opened it (R403). -/
  gateOpen : Bool
  gateN : W32
  gateFirst : W32
  gateLast : W32
  fedges : W32
  fspan : W32
  ctr : Ctr 1
deriving DecidableEq, Repr

/-- A digital output (R404–R411). `faults` bit k: the fault of code k of R414 is raised. -/
structure Dout where
  owner : Option (Fin 4)
  sets : Vec W64 5
  st : Fin 8
  cmd : Bool
  rb : Bool
  /-- The reference of a mismatch of the running cycle that has lasted RB_TIME, and that of the cycle that ended and waits for its
  REPORTs (R411). -/
  rbTimed : Option Bool
  rbDue : Option Bool
  retries : Nat
  faults : Byte
  ctr : Ctr 7
deriving DecidableEq, Repr

/-- Field supply and common part of the field I/O complex (R400, R412, R413, R454). -/
structure Fio where
  uvRestore : W64
  fgate : W64
  lplus : W16
  von : Vec W16 2
  low : Bool
  uvlo : Bool
  sag : Bool
  hot : Bool
  hotFirst : Bool
  sumHigh : Bool
  keepAlives : Nat
  di : Vec Din 8
  do_ : Vec Dout 8
deriving DecidableEq, Repr

/-! ### Time (chapter 07) -/

/-- A SYNC_OUT pin (R231, R233): `last` is the instant up to which its pulses have been raised, `high` the time in ns for
which the pin is still high. -/
structure SyncOut where
  mode : Byte
  cluster : Byte
  period : W64
  width : W64
  phase : W64
  time : W64
  armed : Bool
  pulses : Nat
  last : Nat
  high : Nat
deriving DecidableEq, Repr

/-- The SYNC_IN pin (R231, R232); `stamped`: some edge has been stamped. -/
structure SyncIn where
  mode : Byte
  edge : Byte
  period : W64
  phase : W64
  stamp : W64
  frac : W16
  seq : W16
  stamped : Bool
deriving DecidableEq, Repr

/-- A servo sample: offset in units of 2^-8 ns, engine time, new master (R215). -/
structure Sample where
  off : W64
  at_ : W32
  newSrc : Bool
deriving DecidableEq, Repr

/-- The time unit and the servo (R198–R234). The timebase counts units of 2^-39 ns, in which every increment of R199 is whole;
`avg` holds the offsets in ns that wait to be averaged (R218), `slewRate` the SLEW_MAX of the running slew (R214), `stepHold` the
time for which a backward step still holds the timebase, in the same units (R221). -/
structure Tim where
  t : Nat
  sets : Vec W64 11
  st : Fin 6
  integ : Rat
  rate : Rat
  hist : List Rat
  lastAt : Option W32
  avg : List Rat
  runLow : Nat
  runQuarter : Nat
  runHigh : Nat
  runBig : Nat
  runCalm : Nat
  offset : W64
  offsetAt : W32
  jumpPend : Bool
  jumpCount : W32
  freeStep : Bool
  slewLeft : Rat
  slewRate : Rat
  stepHold : Nat
  lastOff : W64
  maxOff : W64
  samples : W32
  stoppedSrc : Bool
  syncIn : SyncIn
  syncOut : Vec SyncOut 2
  warnHold : Bool
  warnFreq : Bool
  ctr : Ctr 7
deriving DecidableEq, Repr

/-! ### Pairing (chapter 10) -/

/-- A message given to an Aklos link (R309): its type, and its octets with the CRC-32 that ends it (R306). -/
structure AkMsg where
  typ : Byte
  data : List Byte
deriving DecidableEq, Repr

/-- An Aklos link (R306–R310). `errs` are the times in ns of the CRC errors of the last 1 ms (R308); `master` is the position of the member whose time the last TIME message carried (R227). -/
structure AkLink where
  st : Fin 3
  chg : Byte
  beats : Nat
  sent : List AkMsg
  identOk : Bool
  heard : Option Nat
  errs : List Nat
  master : Option (Fin 4)
  ctr : Ctr 3
deriving DecidableEq, Repr

/-- What the digest of a cycle rests on (R325, R328): the cycle, the digest, the scratchpad places of the octets given, in order
of transmission, and the field output command folded in last. -/
structure DigestRun where
  cycle : W64
  digest : W64
  given : List Nat
  applied : Byte
deriving DecidableEq, Repr

/-- What pairing keeps per cluster (R320–R325, R328, R330, R333). -/
structure PairCl where
  tx : Bool
  own : Bool
  relayOk : Bool
  relayHalf : Bool
  ckptValid : Bool
  ckptBuf : Bool
  ckptCycle : W64
  stateDone : Bool
  held : Bool
  applied : Byte
  copied : Bool
  takenFor : Option W64
  relay : Vec (Option W64) 2
  missed : Nat
  copyCycle : W64
  copyBlocks : List Nat
  /-- A COPY block of `copyCycle` has come, good or not, and its copy has neither been committed nor ended (R324). -/
  copying : Bool
  /-- The copy that this module sent last: its cycle, the timebase in ns at its start, and the blocks sent again (R323). -/
  copySent : Option (W64 × W64 × List Nat)
  digest : W64
  /-- Scratchpad places of the octets that the running digest covers. -/
  given : List Nat
  last : DigestRun
  /-- What a quick check recomputes: the run that a REPORT differed from (R328). -/
  check : Option DigestRun
  lastFlags : W32
  reportSeen : Bool
  takeover : Bool
  fallBack : Nat
  switchAt : Option W64
  checkFrom : Option W64
  /-- The cycles of the last frames with ORIG = 0 that arrived, newest first (R326). -/
  origSeen : List W64
deriving DecidableEq, Repr

/-- Settings, state and records of pairing and the group (R311–R341). -/
structure Pair where
  sets : Vec W64 10
  stateBase : Vec W64 4
  stateLen : Vec W64 4
  relayBase : Vec W64 4
  buildLen : Vec W64 4
  st : Fin 6
  reason : Byte
  peerState : Byte
  peerHealth : W32
  peerSerial : W64
  lastSerial : W64
  pendingSerial : Option W64
  approved : Bool
  configMismatch : Bool
  peerLost : Bool
  mismatch : W32
  takeovers : W32
  orphanMs : Nat
  bulk : Vec (List Byte) 64
  /-- The bulk content has been sent to the partner that is in SYNCING now (R338). -/
  bulkSent : Bool
  quick : Bool
  quickOwn : Option Bool
  quickPeer : Option Bool
  members : Byte
  ak1mode : Byte
  allow : Vec Byte 4
  supOk : Bool
  clOk : BitVec 4
  memOk : Bool
  bulkDone : Bool
  switchBad : Bool
  reportSeq : Byte
  clearWarn : BitVec 5
  links : Vec AkLink 2
deriving DecidableEq, Repr

/-! ### Drumline and Tollgate (chapters 08, 09) -/

/-- A controller's datagram in a route (R448). -/
structure Dg where
  frame : Byte
  cmd : Byte
  na : Bool
  laddr : W32
  len : W16
  texp : W16
  dtag : W16
deriving DecidableEq, Repr

/-- A hub branch in a route (R448). -/
structure RouteBr where
  inRoute : Bool
  baseGuard : W16
  opens : Vec W32 4
  closes : Vec W32 4
deriving DecidableEq, Repr

/-- A route (R297, R448). -/
structure Route where
  frames : Byte
  txOffset : W32
  dgs : List Dg
  retAt : Vec W32 4
  entries : BitVec 1024
  branches : Vec RouteBr 8
  mergeAt : Vec W32 4
deriving DecidableEq, Repr

/-- A recorded proposal (R305). -/
structure Proposal where
  route : Fin 8
  cycle : W64
  committed : Bool
deriving DecidableEq, Repr

/-- The master's switch in progress (R303, R304). -/
structure SwitchRun where
  route : Fin 8
  first : W64
  cycle : W64
  nodes : Nat
  committed : Bool
  maxTally : W16
  job : W32
  done : Option Byte
deriving DecidableEq, Repr

/-- A hub branch (R290–R292). -/
structure Branch where
  st : Fin 5
  offFrom : Fin 5
  isorun : Nat
  viol : Nat
  violLast : Nat
  left : Nat
  drift : Rat
  var : Rat
  guard : Nat
  /-- The guard that a sample has given, from the next drumbeat on (R290). -/
  guardNext : Option Nat
  edge : Bool
  claimed : Bool
  isoCycle : W64
  returns : Vec (Option (List Byte)) 4
  admitted : Vec Bool 4
  tgStat : W32
  tgGuard : W32
deriving DecidableEq, Repr

/-- What the controller knows of the frames it sent in a cycle, for the input status block (R264, R266, R275, R276): how
many, which are back, whether one came back not GOOD or late, the datagrams that failed R246, the HOPS of the last. -/
structure CycStat where
  cycle : W64
  frames : Nat
  back : Vec Bool 4
  bad : Bool
  late : Bool
  fails : Nat
  hops : Byte
deriving DecidableEq, Repr

/-- A Drumline personality (R235–R305). `seqOut` is the SEQ of the next drum frame of its own (R268), `stat` the frames of
the running cycle, `roundLast` the largest round time of the last statistics period (R266), `outs` the octets that each take
entry of a device has last applied to its outputs (R265, R274), `returned` the frames that came home for half 0 and for half 1 (R270), `heardGood` whether a good drum frame came in the running
cycle (R273). -/
structure Dl where
  sets : Vec W64 20
  maps : Mem
  st : Fin 5
  split : Bool
  routes : Vec (Option Route) 8
  staging : Option (Fin 8 × Route)
  active : Fin 8
  proposal : Option Proposal
  switch : Option SwitchRun
  newest : Option W16
  seen : BitVec 128
  seqOut : W16
  mNode : Byte
  mPrio : Byte
  mClock : W64
  elect : Byte
  hops : Byte
  roundMax : W32
  roundLast : W32
  stat : Option CycStat
  claims : Nat
  deposed : Bool
  idleCycles : Nat
  heardGood : Bool
  usable : Option (W64 × Bool)
  goodRun : Nat
  agreed : Bool
  missed : Nat
  outs : List (List Byte)
  evtPend : Bool
  silent : Bool
  silentCount : Nat
  silentCycle : Option W64
  guardIn : W16
  sentFrames : Vec (Option (List Byte)) 4
  returned : Vec Bool 8
  splitTaken : Option W64
  splitBack : Option W64
  branchPorts : Vec W64 8
  tgSets : Vec W64 5
  tgNext : Option (Vec W64 5)
  branches : Vec Branch 8
  routeStat : W32
  hubSeen : List (W16 × W16 × Byte × Fin 12)
  /-- The host has placed the record rings: DL_CONFIG has set REC_BASE (R236, R251). -/
  recSet : Bool
  /-- The node has taken the ROUTE of a good drum frame since it last left RUN or MASTER (R300). -/
  routeTaken : Bool
deriving DecidableEq, Repr

/-! ### Clusters and engines (chapters 01, 14–17) -/

/-- State of a cluster (R423). -/
inductive ClState where
  | empty | loading | stopped | started
deriving DecidableEq, Repr

/-- A shared-memory window (R25, R432). -/
structure Window where
  base : Nat
  len : Nat
  rw : Bool
deriving DecidableEq, Repr

/-- New values of PI_COMMIT (R444). -/
structure PiNew where
  at_ : W64
  lead : W32
  watchdog : W16
  pflags : W16
deriving DecidableEq, Repr

/-- The process image of a cluster (R116–R122, R442, R444). -/
structure PiUnit where
  defined : Bool
  base : W32
  inLen : W32
  outLen : W32
  lead : W32
  watchdog : W16
  pflags : W16
  news : List PiNew
  newest : BitVec 2
  takeMiss : W32
  inLate : W32
  inDone : Bool
  inFill : BitVec 2
  outTaken : BitVec 2
  outValid : Bool
  lastTake : Option (BitVec 2 × W16)
  stale : Nat
  staleWarn : Bool
  rewrite : Bool
deriving DecidableEq, Repr

/-- The voltage and frequency loop of a cluster (R560–R563). -/
structure Avs where
  limited : Bool
  frozen : Bool
  freq : Nat
  fset : Nat
  margin : Nat
  volt : Nat
  calm : Nat
  rise : Nat
  lowering : Bool
deriving DecidableEq, Repr

/-- A borrowed block (R527, R530). -/
structure Borrow where
  active : Bool
  phase : BitVec 2
  block : Nat
  copied : Nat
  shadow : Mem
deriving DecidableEq, Repr

/-- A cluster: personality, resources, cluster registers, scratchpad, snapshot banks. -/
structure Cluster where
  st : ClState
  id : W16
  version : W32
  checked : Bool
  image : List Byte
  ports : BitVec 12
  cans : BitVec 4
  pios : Byte
  dis : Byte
  dos : Byte
  grant : Byte
  windows : Vec Window 8
  ct : Nat
  phase : Nat
  cycle : W64
  pi : PiUnit
  tsOffLo : W32
  tsOffHi : W32
  tsAt : W32
  tsBusy : Bool
  tsSample : Option Sample
  tstat : W32
  pair : PairCl
  dl : Dl
  qsel : Vec W32 8
  spstall : Vec W32 8
  borrow : Borrow
  snapHdr : W32
  snap : Vec Mem 2
  avs : Avs
  supdb : W32
  docmd : Byte
  /-- FIO_DOCMD's writes with the timebase in ns at which each landed, newest first, as far back as the first that had landed for
  50 ns when the next one came, and the value before them (R393). -/
  docmdPast : List (W64 × Byte)
  docmdOld : Byte
  fioDi : W32
  fioDostat : W32
  spad : Mem
  badWords : List Nat
  nextBlock : Nat
  ival : Bool
  ctr : Ctr 21
deriving DecidableEq, Repr

/-- A waiting engine: the register that takes the events, and the address of the waiting bundle (R481, R484, R487). -/
inductive Wait where
  | none
  | wfe (d : Fin 32) (at_ : W32)
  | mwait (d : Fin 32) (at_ : W32)
deriving DecidableEq, Repr

/-- A load whose data may still be on its way: its bundle, its address, and the registers (numbered A, then D from 16)
that it writes, with their values before (R487); a bundle without a load has none. -/
structure LoadRec where
  pc : W32
  addr : W32
  old : Option (List (Nat × W32))
deriving DecidableEq, Repr

/-- A coprocessor operation outstanding: opcode, operand bits, the operand values read at issue (R507). -/
structure Cop where
  opcode : BitVec 6
  ops : BitVec 23
  d : W32
  s : W32
  t : W32
  pc : W32
deriving DecidableEq, Repr

/-- The accelerator's context of an engine (R506–R514). -/
structure CopCtx where
  width : Nat
  refin : Bool
  refout : Bool
  xorout : Bool
  poly : W32
  init : W32
  run : W32
  key : List Byte
  hsub : BitVec 128
  iv : BitVec 96
  ctr : W32
  ghash : BitVec 128
  aadLen : Nat
  dataLen : Nat
  gcm : Fin 5
deriving DecidableEq, Repr

/-- An engine (R464–R494), its private memories, watchdog, captures and queue-window registers. -/
structure Engine where
  a : Vec W32 16
  d : Vec W32 32
  ac : Vec W72 4
  lk : W32
  pc : W32
  sr : W32
  evp : W32
  evm : W32
  rc : W32
  ms : W32
  xcfg : W32
  rcnt : Nat
  arm : BitVec 2
  milestone : Bool
  rcHeld : Option W32
  run : Bool
  wait : Wait
  wdtEn : Bool
  wdtTimeout : BitVec 24
  wdtFired : Bool
  wdtNs : Nat
  fetched : List (BitVec 2 × BitVec 6 × BitVec 23)
  loads : List LoadRec
  cop : Option Cop
  ctx : CopCtx
  stage : Vec W32 3
  hold : Vec W32 3
  tnsHi : W32
  tnsFrac : W16
  syncAux : W32
  diHold : Vec (Vec W32 3) 8
  imem : Mem
  dmem : Mem
  badI : List Nat
  badD : List Nat
deriving DecidableEq, Repr

/-- The self-test and the shared memory's borrow (R546–R549). -/
structure SelfTest where
  stOk : Bool
  round : W32
  done : List W16
  shmBorrow : Borrow
  shmNext : Nat
deriving DecidableEq, Repr

/-- The module. `pending` is the queue of waiting commands; `free` counts the free values drawn (log 2). -/
structure State where
  pending : List Instr
  free : Nat
  pwr : Power
  hif : Hif
  mbx : Vec Mbx 8
  emb : Vec Emb 16
  sup : Sup
  group : List (List Byte)
  cl : Vec Cluster 4
  eng : Vec Engine 16
  hq : Vec HwQ 256
  port : Vec Port 12
  prp : Vec Prp 2
  can : Vec Can 4
  pio : Vec Pio 8
  gpIn : W32
  /-- The timebase in ns at which `gpIn` was sampled. -/
  gpAt : Option W64
  fio : Fio
  tim : Tim
  pair : Pair
  selft : SelfTest
  shm : Mem
  shmBad : List Nat
  modCtr : Ctr 75
deriving DecidableEq, Repr

/-! ### Reset values -/

/-- Default VALUEs of the port settings of R126, in printed order. -/
def portT1Default : Vec W64 22 :=
  #v[0, 0, 0, 0, 0, 0, 1, 0, 30, 0, 100, 0, 255, 8, 32, 0, 128, 0, 4, 0, 2, 0]

/-- Default VALUEs of R158; the row XOFF_LEVEL, XON_LEVEL packs 8 and 32. -/
def portT2Default : Vec W64 12 :=
  #v[1522, 0, 0, 0, 1, 0, 0, 0, 0, 65535, 0x0000002000000008#64, 0]

/-- Default VALUEs of R206. -/
def portT3Default : Vec W64 4 := #v[1, 0, 0, 0]

/-- Default VALUEs of R172. -/
def preDefault : Vec W64 5 := #v[0, 0, 0, 1, 10]

/-- Default VALUEs of R344. -/
def canDefault : Vec W64 17 := #v[0, 0, 1, 1, 2, 63, 16, 16, 2, 15, 4, 4, 1, 0, 0, 0, 0]

/-- Default VALUEs of R214, times in ns. -/
def timDefault : Vec W64 11 := #v[0, 0, 1000, 1, 100, 1000000000, 100, 0, 0, 0, 0]

/-- Default VALUEs of R236; PORT_A has none (log 14: 0), REC_BASE has none (log 14: 0). -/
def dlDefault : Vec W64 20 :=
  #v[0x88B5, 0x034A44000001, 0, 0x000000FF00000000#64, 0, 128, 8000, 0, 1, 8, 10, 3, 3, 0, 1, 2000, 0, 0,
    0xFFFFFFFF#64, 0]

/-- Default VALUEs of R281 after BRANCHb: VIOL_MAX, ISO_CYCLES, PROB_CYCLES, ISO_LIMIT, GUARD_FREEZE. -/
def tgDefault : Vec W64 5 := #v[3, 16, 64, 4, 0]

/-- Default VALUEs of R314 (rows with suffix n apart). -/
def pairDefault : Vec W64 10 := #v[0, 0, 0, 0, 0, 0, 0, 0, 2000, 0]

/-- Default VALUEs of R406, rows 1–5. -/
def doDefault : Vec W64 5 := #v[0, 100, 0, 2000000, 0]

/-- Default VALUEs of R454's table, rows 1–7. -/
def diDefault : Vec W64 7 := #v[0, 1, 0, 100, 3, 0, 0]

/-- An unlinked, undefined process image. -/
def PiUnit.zero : PiUnit :=
  { defined := false, base := 0, inLen := 0, outLen := 0, lead := 0, watchdog := 0, pflags := 0, news := [],
    newest := 0, takeMiss := 0, inLate := 0, inDone := false, inFill := 1, outTaken := 0, outValid := false, lastTake := none, stale := 0,
    staleWarn := false, rewrite := false }

/-- A hub branch at START (R290, R292). -/
def Branch.zero : Branch :=
  { st := 0, offFrom := 1, isorun := 0, viol := 0, violLast := 0, left := 0, drift := 0, var := 0, guard := 200, guardNext := none,
    edge := false, claimed := false, isoCycle := 0, returns := Vec.fill 4 none, admitted := Vec.fill 4 false,
    tgStat := 0, tgGuard := 0x00C80000 }

/-- A Drumline personality as LOAD leaves it (R236, R273, R274). -/
def Dl.zero : Dl :=
  { sets := dlDefault, maps := [], st := 0, split := false, routes := Vec.fill 8 none, staging := none, active := 0,
    proposal := none, switch := none, newest := none, seen := 0, seqOut := 0, mNode := 0, mPrio := 0, mClock := 0,
    elect := 0, hops := 0, roundMax := 0, roundLast := 0, stat := none, claims := 0, deposed := false, idleCycles := 0, heardGood := false, usable := none,
    goodRun := 0, agreed := false, missed := 0, outs := [], evtPend := false, silent := false,
    silentCount := 0, silentCycle := none, guardIn := 0, sentFrames := Vec.fill 4 none,
    returned := Vec.fill 8 false, splitTaken := none, splitBack := none,
    branchPorts := Vec.fill 8 0xFF, tgSets := tgDefault, tgNext := none, branches := Vec.fill 8 Branch.zero, routeStat := 0,
    hubSeen := [], recSet := false, routeTaken := false }

/-- Pairing's record of a cluster (R324: all 0). -/
def PairCl.zero : PairCl :=
  { tx := false, own := false, relayOk := false, relayHalf := false, ckptValid := false, ckptBuf := false,
    ckptCycle := 0, stateDone := false, held := false, applied := 0, copied := false, takenFor := none,
    relay := Vec.fill 2 none, missed := 0, copyCycle := 0,
    copyBlocks := [], copying := false, copySent := none, digest := 0, given := [], last := ⟨0, 0, [], 0⟩, check := none,
    lastFlags := 0, reportSeen := false, takeover := false,
    fallBack := 0, switchAt := none, checkFrom := none, origSeen := [] }

/-- The voltage loop at reset (R561: FREQ 8, VOLT 900, FROZEN 1). -/
def Avs.zero : Avs :=
  { limited := false, frozen := true, freq := 8, fset := 8, margin := 0, volt := 900, calm := 0, rise := 0,
    lowering := false }

/-- No block borrowed (R530). -/
def Borrow.none : Borrow := { active := false, phase := 0, block := 0, copied := 0, shadow := [] }

/-- An empty cluster (R423). -/
def Cluster.zero : Cluster :=
  { st := .empty, id := 0, version := 0, checked := false, image := [], ports := 0, cans := 0, pios := 0, dis := 0,
    dos := 0, grant := 0, windows := Vec.fill 8 ⟨0, 0, false⟩, ct := 8000, phase := 0, cycle := 0,
    pi := PiUnit.zero, tsOffLo := 0, tsOffHi := 0, tsAt := 0, tsBusy := false, tsSample := none, tstat := 0,
    pair := PairCl.zero, dl := Dl.zero, qsel := Vec.fill 8 0, spstall := Vec.fill 8 0, borrow := Borrow.none,
    snapHdr := 0, snap := Vec.fill 2 [], avs := Avs.zero, supdb := 0, docmd := 0, docmdPast := [],
    docmdOld := 0, fioDi := 0, fioDostat := 0,
    spad := [], badWords := [], nextBlock := 0, ival := false, ctr := Ctr.zero 21 }

/-- The accelerator's context, cleared (R506). -/
def CopCtx.zero : CopCtx :=
  { width := 8, refin := false, refout := false, xorout := false, poly := 0, init := 0, run := 0, key := [], hsub := 0,
    iv := 0, ctr := 0, ghash := 0, aadLen := 0, dataLen := 0, gcm := 0 }

/-- SR at reset: ENGID and CHECKED (R468). -/
def srReset (e : Fin 16) (checked : Bool) : W32 := place e.1 24 4 ||| bitAt 32 23 checked

/-- An engine held in reset, with given memories (R465). -/
def Engine.atReset (e : Fin 16) (checked : Bool) (imem dmem : Mem) (badI badD : List Nat) : Engine :=
  { a := Vec.fill 16 0, d := Vec.fill 32 0, ac := Vec.fill 4 0, lk := 0, pc := 0, sr := srReset e checked, evp := 0,
    evm := 0, rc := 0, ms := 0, xcfg := 0, rcnt := 0, arm := 0, milestone := false, rcHeld := none, run := false,
    wait := .none, wdtEn := false, wdtTimeout := 0, wdtFired := false, wdtNs := 0, fetched := [], loads := [], cop := none,
    ctx := CopCtx.zero, stage := Vec.fill 3 0, hold := Vec.fill 3 0, tnsHi := 0, tnsFrac := 0, syncAux := 0,
    diHold := Vec.fill 8 (Vec.fill 3 0), imem := imem, dmem := dmem, badI := badI, badD := badD }

/-- Default depth of a queue (R181); queues of fixed or granted depth: log 15. -/
def defaultDepth (n : Nat) : Nat := if n < 96 then 64 else if n < 144 then 128 else if n < 160 then 32 else 16

/-- An empty queue (R186). -/
def HwQ.empty (depth : Nat) : HwQ :=
  { depth := depth, ovf := false, items := [], grant := none, fbq := none, relayed := false,
    bad := false, ctr := Ctr.zero 1 }

/-- The 256 queues at reset (R181). -/
def HwQ.table : Vec HwQ 256 :=
  Vec.fill 96 (HwQ.empty 64) ++ Vec.fill 48 (HwQ.empty 128) ++ Vec.fill 16 (HwQ.empty 32) ++
    Vec.fill 96 (HwQ.empty 16)

/-- A gate unit with no list: every gate open (R170, R187). -/
def Gate.zero : Gate := { active := [], pending := none, clear := false, staged := [], entry := 0, gates := 0xFF }

/-- Wayside registers at reset (R258). -/
def Ways.zero : Ways :=
  { head := 0, base := 0, dups := 0, arr := 0, ldly := 0, probeT1 := none, delays := [], hold := [], windows := [], merges := [], first := false,
    passed := [], last := [], store := [], launches := [] }

/-- A port in HELD with default settings (R124, R127). -/
def Port.held : Port :=
  { st := 0, owner := none, t1 := portT1Default, t2 := portT2Default, t3 := portT3Default, station := 0,
    mcast := Vec.fill 32 0, vids := Vec.fill 64 0, pre := preDefault, speed := 0, role := false, lpiTx := false,
    lpiRx := false, reason := 0, snrMin := 0, chg := 0, pairSnr := Vec.fill 4 0,
    length := 0, guards := 0, attempts := 0, retry := false, turn := 0, burst := 0, burstMax := 0,
    opportunity := false, eeeOn := false, pauseRx := false, pauseTx := false, xoff := false, pauseLeft := 0, pauseSub := 0, mm := 0,
    mmTries := 0, etypes := Vec.fill 8 0, pcpMap := 0xFA50, gate := Gate.zero, tx := none, preempted := none,
    launched := Vec.fill 8 false, headAt := Vec.fill 8 0, smd := 0, copies := [], receiving := false, reasm := none, rf := 0,
    loop := Loop.zero, lpiRefresh := false, ctrlOut := [], wire := none, ways := Ways.zero, calStep := 0, ctr := Ctr.zero 61 }

/-- An unused filter (R349; log 16). -/
def Filter.zero : Filter := { valid := false, typ := 0, frames := 0, action := 0, id := 0, mask := 0 }

/-- A controller in HELD with default settings (R343, R344). -/
def Can.held : Can :=
  { st := 0, owner := none, sets := canDefault, filters := Vec.fill 32 Filter.zero, tec := 0, rxErr := 0, chg := 0,
    last := 0, lastData := false, lastTx := false, recov := 0, count := 0, tdcValid := false, tdcv := 0, tdco := 0,
    ssp := 0, tb := Vec.fill 8 none, onbus := none, abort := 0, order := 0, retry := false, passiveWarn := false,
    clashSeen := false, past := [], resting := false, acked := false, ctr := Ctr.can }

/-- A PIO engine in HELD (R369, R370). -/
def Pio.held : Pio :=
  { st := 0, owner := none, run := false, start := 0, pc := 0, stallc := 0, txovf := false, rxund := false,
    rxdrop := false, tout := false, bc := 0, sr := 0, frame := 32, pclk := 0x00010001, pfmt := 0x20000000, ppins := 0,
    pde := 0, pevt := 0x00000100, lc0 := 0, lc1 := 0, tcnt := 0, tcmp := 0, pmatch := 0, mmask := 0, pflag := 0,
    txq := [], rxq := [], pimem := Vec.fill 48 0, landing := [], latched := none, prevPins := 0, divAcc := 0, de := false,
    deTail := false, deAgo := 0, outMask := 0, inMask := 0, idleVal := 0, idleDir := 0, level := 0, dir := 0, ctr := Ctr.zero 5 }

/-- A digital input at reset (R418, R454). -/
def Din.zero : Din :=
  { owner := none, sets := diDefault, level := false, filt := false, chg := false, lost := false, count := 0, carry := 0,
    gateOpen := false, gateN := 0, gateFirst := 0, gateLast := 0, fedges := 0, fspan := 0, ctr := Ctr.zero 1 }

/-- A digital output at reset: off (R395, R406). -/
def Dout.zero : Dout :=
  { owner := none, sets := doDefault, st := 0, cmd := false, rb := false, rbTimed := none, rbDue := none, retries := 0, faults := 0, ctr := Ctr.zero 7 }

/-- The field I/O complex at reset: VON as for L+ = 24 V, Type 1 (R400; log 17). -/
def Fio.zero : Fio :=
  { uvRestore := 1, fgate := 1000, lplus := 24000, von := Vec.fill 2 13200, low := false, uvlo := false, sag := false,
    hot := false, hotFirst := false, sumHigh := false, keepAlives := 0,
    di := Vec.fill 8 Din.zero, do_ := Vec.fill 8 Dout.zero }

/-- A SYNC_OUT pin, low (R231). -/
def SyncOut.zero : SyncOut :=
  { mode := 0, cluster := 0, period := 0, width := 0, phase := 0, time := 0, armed := false, pulses := 0, last := 0, high := 0 }

/-- SYNC_IN off (R231, R232). -/
def SyncIn.zero : SyncIn := { mode := 0, edge := 0, period := 0, phase := 0, stamp := 0, frac := 0, seq := 0, stamped := false }

/-- The time unit at reset: FREE, the first sample may step (R200, R214). -/
def Tim.zero (t : Nat) : Tim :=
  { t := t, sets := timDefault, st := 0, integ := 0, rate := 0, hist := [], lastAt := none, avg := [], runLow := 0,
    runQuarter := 0, runHigh := 0, runBig := 0, runCalm := 0, offset := 0, offsetAt := 0, jumpPend := false,
    jumpCount := 0, freeStep := true, slewLeft := 0, slewRate := 0, stepHold := 0, lastOff := 0, maxOff := 0, samples := 0,
    stoppedSrc := false, syncIn := SyncIn.zero, syncOut := Vec.fill 2 SyncOut.zero, warnHold := false,
    warnFreq := false, ctr := Ctr.zero 7 }

/-- An Aklos link, DOWN (R308). -/
def AkLink.zero : AkLink := { st := 0, chg := 0, beats := 0, sent := [], identOk := false, heard := none, errs := [], master := none, ctr := Ctr.zero 3 }

/-- Pairing at reset: SOLO (R311, R314, R339). -/
def Pair.zero : Pair :=
  { sets := pairDefault, stateBase := Vec.fill 4 0, stateLen := Vec.fill 4 0, relayBase := Vec.fill 4 0,
    buildLen := Vec.fill 4 0, st := 0, reason := 0, peerState := 0xFF, peerHealth := 0, peerSerial := 0,
    lastSerial := 0, pendingSerial := none, approved := false, configMismatch := false, peerLost := false,
    mismatch := 0, takeovers := 0, orphanMs := 0, bulk := Vec.fill 64 [], bulkSent := false, quick := false,
    quickOwn := none, quickPeer := none, members := 0, ak1mode := 0, allow := Vec.fill 4 0, supOk := true, clOk := 15,
    memOk := true, bulkDone := false, switchBad := false, reportSeq := 0, clearWarn := 0,
    links := Vec.fill 2 AkLink.zero }

/-- PCIe configuration after PERST_N (R48; MSI-X vectors masked as the PCIe specification resets them, log 18). -/
def Pcie.zero : Pcie :=
  { linkUp := false, hostRid := none, command := 0, bar0 := 0, bar1 := 8, d3hot := false, msiEn := false, msiVecLog := 0,
    msiAddr := 0, msiData := 0, msiMask := 0, msixEn := false, msixMask := false, devControl := 0,
    table := Vector.ofFn fun i => if i.1 % 4 = 3 then 1 else 0, pba := 0, owed := 0 }

/-- Host interface registers at reset (R46, R73). -/
def Hif.zero : Hif :=
  { stat := 0, errcnt := 0, erraddr := 0, stchg := false, intEn := 0, s2h := 0, s2hMask := 0xFFFFFFFF, s2hWake := 0,
    h2s := 0, h2sMask := 0xFFFFFFFF, pcie := Pcie.zero, parHold := 0, hd := 0, berr := false, parLow := none, spiPrevErr := false,
    spiBusy := false, spiOut := [], spiStatus := 0, rdata := [], rerr := false, signals := Vec.fill 32 0 }

/-- A supervisor mailbox at reset (R63, R67). -/
def Mbx.zero : Mbx :=
  { lock := 0, inFull := false, outFull := false, inBuf := [], outBuf := [], outq := [], slotOpen := true,
    overrun := false, session := none, taken := [] }

/-- An engine mailbox at reset (R65, R67, R73). -/
def Emb.zero : Emb :=
  { lock := 0, inFull := false, outFull := false, inBuf := [], outBuf := [], ring := false, wakeEn := false }

/-- The supervisor at reset (R106, R456, R539; no statistics area). -/
def Sup.zero (gen : W32) : Sup :=
  { gen := gen, jobNext := 1, jobs := [], rr := 8, proxies := [], mirrors := [], reqNum := 0, lastEnd := none, orphans := [],
    remotes := [], alarms := [], ring := [], seq := 1,
    loss := Vec.fill 4 0, notify := 1, traceEn := false, period := 10000, periodNext := 10000, area := 0xFFFFFFFF,
    areaNew := true, areaLen := 0, sflags := 0, wr := 0, wraps := 0, records := 0, periods := 0,
    dbGranted := Vec.fill 8 none }

/-- A flash slot with no image (log 11). -/
def Slot.blank : Slot := { sundom := [], images := [], tries := 0, confirmed := false }

/-- Supply and power right after a reset: AON, SUP and HIF powered (R46: DOMAINS 0x403). -/
def Power.zero : Power :=
  { phase := .inReset, cause := 1, efuse := .closed, vinOn := true, rstLow := false, hifsel := 0, mpos := 0,
    domains := 0x403, powering := 0, restore := 0, wakeWord := 0, requests := [], ready := false, fault := false,
    bootimg := false, heartbeat := 0, fwVer := 0, uptime := 0, rtc := 0, rtcSet := false, rtcAlarm := none,
    slots := Vec.fill 2 Slot.blank, preferred := 0, rollback := 0, keyHash := Config.fusedKeyHash, supPubkey := [], minPers := 0,
    lockstepSeen := false }

/-- Self-test at reset (R547, R548). -/
def SelfTest.zero : SelfTest :=
  { stOk := true, round := 0, done := [], shmBorrow := Borrow.none, shmNext := 0 }

/-- The module right after a reset that keeps a given power block, timebase and GEN start (R564, R567). -/
def State.afterReset (pwr : Power) (free : Nat) (pending : List Instr) : State :=
  { pending := pending, free := free, pwr := pwr, hif := Hif.zero, mbx := Vec.fill 8 Mbx.zero,
    emb := Vec.fill 16 Emb.zero, sup := Sup.zero 0, group := [], cl := Vec.fill 4 Cluster.zero,
    eng := Vector.ofFn fun e => Engine.atReset e false [] [] [] [],
    hq := HwQ.table, port := Vec.fill 12 Port.held, prp := Vec.fill 2 ⟨0, []⟩,
    can := Vec.fill 4 Can.held, pio := Vec.fill 8 Pio.held, gpIn := 0, gpAt := none, fio := Fio.zero, tim := Tim.zero 0,
    pair := Pair.zero, selft := SelfTest.zero, shm := [], shmBad := [], modCtr := Ctr.zero 75 }

/-- The module right after power-on reset. -/
def State.reset : State := State.afterReset Power.zero 0 []

end Sys2Proof.Machine
end

