-- ==== Sys2Proof/Machine/Ops.lean ====
section
/-!
DEFINITION. The named operations over memory, counters and the parts of the state that every family uses.
-/
namespace Sys2Proof.Machine

/-! ### Sparse memory -/

/-- One octet; an unlisted address reads 0 (log 3). -/
def memRead : Mem → Nat → Byte
  | [], _ => 0
  | (k, v) :: r, a => if k = a then v else memRead r a

/-- One octet written; a 0 removes the entry, so that equal contents are equal lists. -/
def memWrite : Mem → Nat → Byte → Mem
  | [], a, b => if b = 0 then [] else [(a, b)]
  | (k, v) :: r, a, b =>
    if k < a then (k, v) :: memWrite r a b
    else if k = a then (if b = 0 then r else (a, b) :: r)
    else if b = 0 then (k, v) :: r else (a, b) :: (k, v) :: r

/-- Every key above a bound, rising, and no listed octet 0. -/
def memWfFrom : Option Nat → Mem → Bool
  | _, [] => true
  | lo, (k, v) :: r => (match lo with | none => true | some b => decide (b < k)) && decide (v ≠ 0) && memWfFrom (some k) r

/-- The canonical form of a memory. -/
def memWf (m : Mem) : Bool := memWfFrom none m

/-- Consecutive octets. -/
def memReadN (m : Mem) (a n : Nat) : List Byte := (List.range n).map fun i => memRead m (a + i)

/-- Consecutive octets written. -/
def memWriteN : Mem → Nat → List Byte → Mem
  | m, _, [] => m
  | m, a, b :: r => memWriteN (memWrite m a b) (a + 1) r

/-- Octets written under lane enables (none: the lane is not enabled). -/
def memWriteLanes : Mem → Nat → List (Option Byte) → Mem
  | m, _, [] => m
  | m, a, none :: r => memWriteLanes m (a + 1) r
  | m, a, some b :: r => memWriteLanes (memWrite m a b) (a + 1) r

/-- `n` zero octets written. -/
def memClear (m : Mem) (a n : Nat) : Mem := m.filter fun e => e.1 < a || a + n ≤ e.1

/-! ### Octet orders (R8) -/

/-- A number as `n` little-endian octets. -/
def leBytes : Nat → Nat → List Byte
  | 0, _ => []
  | n + 1, v => BitVec.ofNat 8 v :: leBytes n (v / 256)

/-- The number little-endian octets spell. -/
def leNat : List Byte → Nat
  | [] => 0
  | b :: r => b.toNat + 256 * leNat r

/-- A number as `n` octets, most significant first. -/
def beBytes (n v : Nat) : List Byte := (leBytes n v).reverse

/-- The number octets spell, most significant first. -/
def beNat (bs : List Byte) : Nat := bs.foldl (fun a b => a * 256 + b.toNat) 0

/-- `n` octets of a list from an offset. -/
def slice (bs : List Byte) (off n : Nat) : List Byte := (bs.drop off).take n

/-- A little-endian field of a payload. -/
def leAt (bs : List Byte) (off n : Nat) : Nat := leNat (slice bs off n)

/-- A field most significant octet first. -/
def beAt (bs : List Byte) (off n : Nat) : Nat := beNat (slice bs off n)

/-- The list with octets replaced from an offset (within its length). -/
def putBytes (bs : List Byte) (off : Nat) (v : List Byte) : List Byte :=
  bs.take off ++ (v.take (bs.length - off)) ++ bs.drop (off + v.length)

/-- A little-endian word of memory. -/
def memWord (m : Mem) (a : Nat) : W32 := BitVec.ofNat 32 (leNat (memReadN m a 4))

/-- A little-endian word written. -/
def memPutWord (m : Mem) (a : Nat) (v : W32) : Mem := memWriteN m a (leBytes 4 v.toNat)

/-- Replace the octets chosen by byte-lane enables of a word. -/
def laneMerge (old new : W32) (lanes : BitVec 4) : W32 :=
  BitVec.ofNat 32 (leNat ((List.range 4).map fun i =>
    BitVec.ofNat 8 (if lanes.getLsbD i then fld new (8 * i) 8 else fld old (8 * i) 8)))

/-! ### Counters (R531, R532) -/

/-- A counter counts `k`, saturating at 0xFFFF_FFFF. -/
def Ctr.add {n : Nat} (c : Ctr n) (i k : Nat) : Ctr n :=
  { c with live := Vec.updN c.live i fun v => BitVec.ofNat 32 (satTo 0xFFFFFFFF (v.toNat + k)) }

/-- A counter counts one event. -/
def Ctr.inc {n : Nat} (c : Ctr n) (i : Nat) : Ctr n := c.add i 1

/-- A gauge takes a value. -/
def Ctr.gauge {n : Nat} (c : Ctr n) (i : Nat) (f : W32 → W32) : Ctr n := { c with live := Vec.updN c.live i f }

/-- The kind of a counter of a block: an ordinary counter, or a gauge that keeps the highest or the lowest value, or
the longest stall with its master code (R532). -/
inductive Gauge where
  | count | highest | lowest | stall
deriving DecidableEq, Repr

/-- The value a bank keeps of an older and a newer one. -/
def Gauge.keep (g : Gauge) (old new : W32) : W32 :=
  match g with
  | .count => BitVec.ofNat 32 (satTo 0xFFFFFFFF (old.toNat + new.toNat))
  | .highest => if old.toNat < new.toNat then new else old
  | .lowest => if new.toNat < old.toNat then new else old
  | .stall => if fld old 0 16 < fld new 0 16 then new else old

/-- What an empty interval bank holds. -/
def Gauge.empty (g : Gauge) : W32 := if g = .lowest then 0xFFFFFFFF else 0

/-- The close of a latch period (R533): the period is added into the interval bank and restarts; gauges keep the
extreme and restart from their current value `start`. -/
def Ctr.latch {n : Nat} (c : Ctr n) (g : Nat → Gauge) (start : Nat → W32) : Ctr n :=
  { c with
    ival := Vector.ofFn fun i => (g i.1).keep (Vec.at c.ival i) (Vec.at c.live i)
    isat := Vector.ofFn fun i => g i.1 = .count && (Vec.at c.isat i || Vec.at c.live i == 0xFFFFFFFF)
    live := Vector.ofFn fun i => if g i.1 = .count then 0 else start i.1 }

/-- The close of an interval: the totals take it and the interval bank clears, in one step (R533). -/
def Ctr.close {n : Nat} (c : Ctr n) (g : Nat → Gauge) : Ctr n :=
  { c with
    tot := Vector.ofFn fun i =>
      if g i.1 = .count then Vec.at c.tot i + (Vec.at c.ival i).setWidth 64
      else ((g i.1).keep ((Vec.at c.tot i).setWidth 32) (Vec.at c.ival i)).setWidth 64
    ival := Vector.ofFn fun i => (g i.1).empty
    isat := Vec.fill n false }

/-- No gauges. -/
def noGauge : Nat → Gauge := fun _ => .count
/-- Nothing to restart from. -/
def fromZero : Nat → W32 := fun _ => 0

/-! ### Parts of the state -/

/-- Change one cluster. -/
def State.updCl (s : State) (c : Fin 4) (f : Cluster → Cluster) : State := { s with cl := Vec.upd s.cl c f }
/-- Change one engine. -/
def State.updEng (s : State) (e : Fin 16) (f : Engine → Engine) : State := { s with eng := Vec.upd s.eng e f }
/-- Change one port. -/
def State.updPort (s : State) (p : Fin 12) (f : Port → Port) : State := { s with port := Vec.upd s.port p f }
/-- Change one CAN controller. -/
def State.updCan (s : State) (n : Fin 4) (f : Can → Can) : State := { s with can := Vec.upd s.can n f }
/-- Change one PIO engine. -/
def State.updPio (s : State) (k : Fin 8) (f : Pio → Pio) : State := { s with pio := Vec.upd s.pio k f }
/-- Change one hardware queue. -/
def State.updHq (s : State) (h : Fin 256) (f : HwQ → HwQ) : State := { s with hq := Vec.upd s.hq h f }
/-- Change one supervisor mailbox. -/
def State.updMbx (s : State) (n : Fin 8) (f : Mbx → Mbx) : State := { s with mbx := Vec.upd s.mbx n f }
/-- Change one engine mailbox. -/
def State.updEmb (s : State) (e : Fin 16) (f : Emb → Emb) : State := { s with emb := Vec.upd s.emb e f }
/-- Change one digital input. -/
def State.updDi (s : State) (d : Fin 8) (f : Din → Din) : State :=
  { s with fio := { s.fio with di := Vec.upd s.fio.di d f } }
/-- Change one digital output. -/
def State.updDo (s : State) (d : Fin 8) (f : Dout → Dout) : State :=
  { s with fio := { s.fio with do_ := Vec.upd s.fio.do_ d f } }
/-- Change the host interface. -/
def State.updHif (s : State) (f : Hif → Hif) : State := { s with hif := f s.hif }
/-- Change the supervisor. -/
def State.updSup (s : State) (f : Sup → Sup) : State := { s with sup := f s.sup }
/-- Change the power block. -/
def State.updPwr (s : State) (f : Power → Power) : State := { s with pwr := f s.pwr }
/-- Change the time unit. -/
def State.updTim (s : State) (f : Tim → Tim) : State := { s with tim := f s.tim }
/-- Change pairing. -/
def State.updPair (s : State) (f : Pair → Pair) : State := { s with pair := f s.pair }
/-- Change one Drumline personality. -/
def State.updDl (s : State) (c : Fin 4) (f : Dl → Dl) : State := s.updCl c fun k => { k with dl := f k.dl }
/-- Change one cluster's pairing record. -/
def State.updPc (s : State) (c : Fin 4) (f : PairCl → PairCl) : State := s.updCl c fun k => { k with pair := f k.pair }
/-- Change one cluster's process image. -/
def State.updPi (s : State) (c : Fin 4) (f : PiUnit → PiUnit) : State := s.updCl c fun k => { k with pi := f k.pi }

/-- Draw a free value: the counter's present value, and the state with the counter advanced (log 2). -/
def State.draw (s : State) : Nat × State := (s.free, { s with free := s.free + 1 })

/-- The engine of a cluster (R21). -/
def engOf (c : Fin 4) (k : Fin 4) : Fin 16 := ⟨4 * c.1 + k.1, by omega⟩
/-- The cluster of an engine. -/
def clOf (e : Fin 16) : Fin 4 := ⟨e.1 / 4, by omega⟩
/-- The number of an engine within its cluster. -/
def kOf (e : Fin 16) : Fin 4 := ⟨e.1 % 4, by omega⟩

/-- An index from a number, cut to the range. -/
def finOf (n : Nat) [NeZero n] (v : Nat) : Fin n := Fin.ofNat n v

/-- The master ID (R21). -/
def Master.id : Master → Byte
  | .host => 0x01
  | .supv => 0x02
  | .peer => 0x03
  | .dma => 0x04
  | .pcie _ => 0x04
  | .eng e => BitVec.ofNat 8 (0x10 + e.1)

/-- The master of an access (R71): a Requester ID equal to that of the first configuration write after PERST_N is HOST,
any other host-side DMA. -/
def State.resolve (s : State) (m : Master) : Master :=
  match m with
  | .pcie rid => if s.hif.pcie.hostRid = some rid then .host else .dma
  | m => m

/-! ### Objects (R91) -/

/-- The object number of a class and an instance at the module's own position. -/
def State.objAt (s : State) (cls inst : Nat) : W16 :=
  BitVec.ofNat 16 (s.pwr.mpos.1 * 0x4000 + cls * 0x100 + inst)

/-- An error of engine firmware confined to an object (R5, R6). -/
def State.fwError (s : State) (cls inst : Nat) : Fault := .firmwareError (s.objAt cls inst)

/-- An object number without position. -/
def objNo (cls inst : Nat) : W16 := BitVec.ofNat 16 (cls * 0x100 + inst)

/-! ### Time (R198–R203) -/

/-- Timebase nanoseconds. -/
def Tim.ns (t : Tim) : W64 := BitVec.ofNat 64 (t.t / 2 ^ 39)
/-- Fraction of the timebase in units of 2^-16 ns. -/
def Tim.frac (t : Tim) : W16 := BitVec.ofNat 16 (t.t / 2 ^ 23)
/-- The timebase in engine format. -/
def Tim.eng (t : Tim) : W32 := BitVec.ofNat 32 (t.t / 2 ^ 39)
/-- The timebase of the module in nanoseconds. -/
def State.ns (s : State) : W64 := s.tim.ns

/-! ### Domains (R10, R46) -/

/-- A domain is powered: bit numbers of MOD_STATUS.DOMAINS. -/
def State.powered (s : State) (d : Nat) : Bool := s.pwr.domains.getLsbD d
/-- The domain of a cluster. -/
def clDomain (c : Fin 4) : Nat := 2 + c.1
/-- The domain of a port (R123). -/
def portDomain (p : Fin 12) : Nat := if p.1 < 4 then 7 else if p.1 < 10 then 8 else 9
/-- The module runs: Sundom executes commands (R46 READY). -/
def State.live (s : State) : Bool := s.pwr.ready

/-- A cluster's personality is started (R423). -/
def State.started (s : State) (c : Fin 4) : Bool := (Vec.at s.cl c).st == .started
/-- The engine is a checker of a cluster in checked mode (R38). -/
def State.checker (s : State) (e : Fin 16) : Bool := (Vec.at s.cl (clOf e)).checked && e.1 % 2 == 1

/-- An engine's state as the engine itself reads it (R38): a checker's is its leader's, SR with ENGID, special registers,
milestone and watchdog included; only the memories are its own. -/
def State.engineAs (s : State) (e : Fin 16) : Engine :=
  let g := Vec.at s.eng e
  if s.checker e then
    { Vec.at s.eng (finOf 16 (e.1 / 2 * 2)) with imem := g.imem, dmem := g.dmem, badI := g.badI, badD := g.badD }
  else g

/-! ### Signals to the host (R47, R51, R76) -/

/-- The interrupt vector of DB_S2H bit `b`; `31` with `status` for INT_STATUS events (R51). With MSI and MSI-X both enabled
MSI-X is used (the manual does not say: DESIGN CHOICE, log 72). -/
def Pcie.vector (p : Pcie) (b : Nat) (status : Bool) : Option Nat :=
  if p.msixEn then some (if status then 31 else b % 32)
  else if p.msiEn then some (if status then 2 ^ p.msiVecLog.1 - 1 else b % 2 ^ p.msiVecLog.1)
  else none

/-- A vector is masked by the function or its table entry (MSI-X) or its mask bit (MSI), or the link is down. A power state
of D3hot masks nothing (DESIGN CHOICE, log 72). -/
def Pcie.masked (p : Pcie) (v : Nat) : Bool :=
  !p.linkUp || (if p.msixEn then p.msixMask || (Vec.atD p.table (4 * v + 3) 1).getLsbD 0 else p.msiMask.getLsbD v)

/-- Send a message on a vector, or hold it in the pending-bit array, which also holds masked MSI vectors (DESIGN CHOICE,
log 72). -/
def Hif.message (h : Hif) (v : Nat) : Hif :=
  if h.pcie.masked v then { h with pcie := { h.pcie with pba := h.pcie.pba ||| bitAt 64 v true } }
  else { h with signals := Vec.updN h.signals v (· + 1) }

/-- Signal the host for a doorbell bit or an INT_STATUS event, in PCIe mode (R51); with the link down the signal waits
for it (R80). INT_N is a level (R47). -/
def State.signal (s : State) (b : Nat) (status : Bool) : State :=
  if s.pwr.hifsel = 0 then
    if !s.hif.pcie.linkUp then
      s.updHif fun h => { h with pcie := { h.pcie with owed := h.pcie.owed ||| bitAt 33 (if status then 32 else b) true } }
    else match s.hif.pcie.vector b status with
      | some v => s.updHif fun h => h.message v
      | none => s
  else s

/-- INT_STATUS (R46). -/
def Hif.intStatus (h : Hif) : BitVec 3 :=
  bitAt 3 2 h.stchg ||| bitAt 3 1 (h.stat ≠ 0) ||| bitAt 3 0 (h.s2h &&& ~~~h.s2hMask ≠ 0)

/-- An enabled INT_STATUS bit that rises signals the host (R46, R51). -/
def State.intRise (s : State) (old : Hif) : State :=
  if s.hif.intStatus &&& s.hif.intEn &&& ~~~(old.intStatus &&& old.intEn) ≠ 0 then s.signal 31 true else s

/-- Rings toward the host: the bit becomes pending, and signals once per transition while unmasked (R75, R76). With
the HIF domain down and WAKEEN set, HIF is requested (R80). -/
def State.ringS2H (s : State) (b : Nat) : State :=
  let was := s.hif.s2h.getLsbD b
  let s1 := s.updHif fun h => { h with s2h := h.s2h ||| bitAt 32 b true }
  let s2 := if !was && !s.hif.s2hMask.getLsbD b then s1.signal b false else s1
  let s3 := s2.intRise s.hif
  if !s.powered 10 && s.hif.s2hWake.getLsbD b then
    s3.updPwr fun p => { p with requests := p.requests ++ [⟨10, true⟩] }
  else s3

/-- INT_STATUS.STCHG is set and signals when enabled (R46, R51). -/
def State.setStchg (s : State) : State := (s.updHif fun h => { h with stchg := true }).intRise s.hif

/-! ### Notifications and responses (R84, R88–R90, R108–R112) -/

/-- The 16-octet header and the payload of a response or notification (R88, R89). -/
def OutMsg.bytes (m : OutMsg) : List Byte :=
  leBytes 2 m.code.toNat ++ leBytes 2 m.tag.toNat ++ leBytes 2 m.payload.length ++ leBytes 2 m.status.toNat ++
    leBytes 4 m.detail.toNat ++ leBytes 2 m.target.toNat ++ leBytes 2 0 ++ m.payload

/-- Unread entries of a class. -/
def Sup.unread (u : Sup) (c : Nat) : Nat :=
  ((u.alarms ++ u.ring).filter fun e => e.cls.1 = c && !e.read).length

/-- The payload of LOG_READY, describing the stores as they stand when it is posted (R463). -/
def Sup.logReady (u : Sup) : List Byte :=
  leBytes 4 (u.seq - 1).toNat ++ (List.range 4).flatMap (fun c => leBytes 2 (u.unread c)) ++
    [match (List.range 4).find? (fun c => 0 < u.unread c) with
     | some c => BitVec.ofNat 8 c
     | none => 0xFF]

/-- The first entry that holds, and the list without it. -/
def takeFirst {α : Type} (f : α → Bool) : List α → Option (α × List α)
  | [] => none
  | x :: r => if f x then some (x, r) else (takeFirst f r).map fun q => (q.1, x :: q.2)

/-- A LOG_READY that announces an ALARM (R111, R463): this module's by its store as it stands, another's by its payload. -/
def State.urgent (s : State) (m : OutMsg) : Bool :=
  m.code == 0xF001 && (if m.target = s.objAt 0 0 then 0 < s.sup.unread 0 else leAt m.payload 12 1 = 0)

/-- A queued message may be posted now: responses and JOB_DONE at once, another notification only while the channel's
100 µs slot is open, the announcement of an ALARM before the others (R111). -/
def State.postable (s : State) (x : Mbx) (m : OutMsg) : Bool :=
  !m.held || (x.slotOpen && (s.urgent m || !x.outq.any s.urgent))

/-- Post the next message of a channel whose outbound buffer is free (R62, R84). -/
def State.postNext (s : State) (n : Fin 8) : State :=
  let x := Vec.at s.mbx n
  if x.outFull then s
  else match takeFirst (s.postable x) x.outq with
    | none => s
    | some (m, rest) =>
      let m := if m.code = 0xF001 && m.target = s.objAt 0 0 then { m with payload := s.sup.logReady } else m
      (s.updMbx n fun x => { x with
        outFull := true, outq := rest, outBuf := memWriteN x.outBuf 0 m.bytes,
        slotOpen := x.slotOpen && !m.held }).ringS2H n.1

/-- Queue a message for a channel: OUTQ holds at most 32; a 33rd that has to wait is the host error of R85 (log 12). `now`: the
message can be posted at once, so that it does not wait. -/
def Mbx.enqueue (x : Mbx) (now : Bool) (m : OutMsg) : Mbx :=
  if x.outq.length < 32 || now then { x with outq := x.outq ++ [m] } else { x with overrun := true }

/-- Queue a message and post what can be posted. -/
def State.send (s : State) (n : Fin 8) (m : OutMsg) : State :=
  (s.updMbx n fun x => x.enqueue (!x.outFull && s.postable x m) m).postNext n

/-- A notification on one channel: it replaces a waiting one of the same code and target and adds 1 to its DETAIL (R110). -/
def State.notifyChan (s : State) (n : Fin 8) (m : OutMsg) : State :=
  let x := Vec.at s.mbx n
  if x.outq.any (fun q => q.held && q.code = m.code && q.target = m.target) then
    s.updMbx n fun x => { x with outq := x.outq.map fun q =>
      if q.held && q.code = m.code && q.target = m.target then
        { q with payload := m.payload, detail := q.detail + 1 } else q }
  else s.send n m

/-- One octet folded into the CRC-32 of IEEE 802.3, least significant bit first. -/
def fcsStep (r : Nat) (b : Byte) : Nat :=
  (List.range 8).foldl (fun r _ => if r % 2 = 1 then (r / 2) ^^^ 0xEDB88320 else r / 2) (r ^^^ b.toNat)

/-- The CRC-32 of IEEE 802.3. -/
def crc32 (bs : List Byte) : Nat := bs.foldl fcsStep 0xFFFFFFFF ^^^ 0xFFFFFFFF

/-- A message leaves on an Aklos link (R309). -/
def State.akSend (s : State) (l : Fin 2) (typ : Nat) (data : List Byte) : State :=
  s.updPair fun p => { p with links := Vec.upd p.links l fun k => { k with
    sent := k.sent ++ [⟨BitVec.ofNat 8 typ, data ++ beBytes 4 (crc32 data)⟩] } }

/-- An Aklos link is UP. -/
def State.akUp (s : State) (l : Fin 2) : Bool := (Vec.at s.pair.links l).st = 2

/-- The link on which messages to the partner go: AK0, or AK1 in AK1MODE 1 while AK0 is not UP (R307, R320). -/
def State.partnerLink (s : State) : Option (Fin 2) :=
  if s.akUp 0 then some 0 else if s.pair.ak1mode = 1 && s.akUp 1 then some 1 else none

/-- The link on which messages other than BEAT, TIME and CMD go to the partner: its certificate has been verified (R337). -/
def State.pairLink (s : State) : Option (Fin 2) := s.partnerLink.filter fun l => (Vec.at s.pair.links l).identOk

/-- The partner's position (R307). -/
def State.partnerPos (s : State) : Fin 4 := finOf 4 (s.pwr.mpos.1 ^^^ 1)

/-- The link towards a group member, at most two hops (R307, R340): the partner over its own link, the member of the cross
link over that, and the fourth, in AK1MODE 2, over either of the two. A hop is one link (DEDUCED, log 99), so that a way round
the square, of three, is none. -/
def State.pathTo (s : State) (pos : Fin 4) : Option (Fin 2) :=
  let own := s.pwr.mpos.1
  let cross := if s.pair.ak1mode = 2 && s.akUp 1 then some 1 else none
  if pos.1 = own ^^^ 1 then s.partnerLink
  else if pos.1 = own ^^^ 2 then cross
  else if s.pair.ak1mode = 2 then s.partnerLink.or cross
  else none

/-- A message between modules (R113, R309): kind 0 command, 1 response, 2 notification; the two positions; the request
number by which an answer finds its command; code, TAG, STATUS (of a command: FLAGS), DETAIL, TARGET and payload. -/
structure GroupMsg where
  kind : Nat
  src : Fin 4
  dst : Fin 4
  num : BitVec 30
  code : W16
  tag : W16
  status : W16
  detail : W32
  target : W16
  payload : List Byte
deriving DecidableEq, Repr

/-- The octets of a message between modules. The spec gives CMD messages no layout (log 24). -/
def GroupMsg.bytes (m : GroupMsg) : List Byte :=
  [BitVec.ofNat 8 m.kind, BitVec.ofNat 8 (m.src.1 * 16 + m.dst.1)] ++ beBytes 4 m.num.toNat ++ beBytes 2 m.code.toNat ++
    beBytes 2 m.tag.toNat ++ beBytes 2 m.status.toNat ++ beBytes 4 m.detail.toNat ++ beBytes 2 m.target.toNat ++ m.payload

/-- Send a message to a group member, when a path is up. -/
def State.toMember (s : State) (m : GroupMsg) : State :=
  match s.pathTo m.dst with
  | some l => s.akSend l 0x20 m.bytes
  | none => s

/-- A response or JOB_DONE for the channel that carried the command; that of a command of another module goes over Aklos
to the position, with the request number, that AKLOS_CMD keeps in the GEN field (log 24). -/
def State.reply (s : State) (chan : Fin 9) (gen : W32) (r : OutMsg) : State :=
  if h : chan.1 < 8 then s.send ⟨chan.1, h⟩ r
  else s.toMember { kind := (if r.code = 0xF000 then 2 else 1), src := s.pwr.mpos, dst := finOf 4 gen.toNat,
                    num := BitVec.ofNat 30 (gen.toNat / 4), code := r.code, tag := r.tag, status := r.status,
                    detail := r.detail, target := r.target, payload := r.payload }

/-- A notification reaches the sessions that subscribed to it, and to the position it comes from (R109). -/
def State.notifyFrom (s : State) (pos : Fin 4) (code : Nat) (target : W16) (payload : List Byte) : State :=
  (allFin 8).foldl (fun s n =>
    match (Vec.at s.mbx n).session with
    | some ses =>
      if ses.subs.getLsbD (code - 0xF000) && (pos = s.pwr.mpos || ses.positions.getLsbD pos.1) then
        s.notifyChan n { code := BitVec.ofNat 16 code, tag := 0, status := 0, detail := 1, target := target,
                         payload := payload, held := true }
      else s
    | none => s) s

/-- A notification of this module, to its own sessions and to the other members of the group (R109). -/
def State.notify (s : State) (code : Nat) (target : W16) (payload : List Byte) : State :=
  (allFin 4).foldl (fun s m =>
    if m ≠ s.pwr.mpos && s.pair.members.getLsbD m.1 then
      s.toMember { kind := 2, src := s.pwr.mpos, dst := m, num := 0, code := BitVec.ofNat 16 code, tag := 0, status := 0,
                   detail := 1, target := target, payload := (if code = 0xF001 then s.sup.logReady else payload) }
    else s) (s.notifyFrom s.pwr.mpos code target payload)

/-! ### The event log (R539–R545) -/

/-- The latest number taken, and the counter advanced. -/
def Sup.nextSeq (u : Sup) : Sup := { u with seq := u.seq + 1 }

/-- An entry updated by an occurrence: it carries the new number and counts as unread (R539, R540). -/
def LogEntry.occur (e : LogEntry) (seq : W32) (data : W32) (now : W64) (cleared : Bool) : LogEntry :=
  { e with seq := seq, count := satTo 0xFFFF (e.count + 1), data := data, last := now, cleared := cleared, read := false }

/-- A new entry. -/
def LogEntry.make (seq : W32) (cls : Fin 4) (code obj : W16) (data : W32) (now : W64) (cleared summary : Bool) : LogEntry :=
  { seq := seq, cls := cls, code := code, obj := obj, count := 1, data := data, first := now, last := now,
    cleared := cleared, summary := summary, read := false }

/-- The first entry of a list that holds, updated; or none. -/
def updFirst (p : LogEntry → Bool) (f : LogEntry → LogEntry) : List LogEntry → Option (List LogEntry)
  | [] => none
  | e :: r => if p e then some (f e :: r) else (updFirst p f r).map (e :: ·)

/-- The entry with the lowest number by signed difference among those that hold (R541). -/
def oldestOf (p : LogEntry → Bool) (es : List LogEntry) : Option LogEntry :=
  es.foldl (fun acc e => if !p e then acc else match acc with
    | none => some e
    | some a => if timeDiff e.seq a.seq < 0 then some e else some a) none

/-- The entry a new one overwrites in a full ring (R541). -/
def victim (es : List LogEntry) : Option LogEntry :=
  (oldestOf (·.read) es).or <| (oldestOf (·.cls = 3) es).or <| (oldestOf (·.cls = 2) es).or (oldestOf (·.cls = 1) es)

/-- Loss counted for an overwritten entry (R543). -/
def Sup.lose (u : Sup) (e : LogEntry) : Sup :=
  if e.read then u
  else { u with loss := Vec.updN u.loss e.cls.1 (· + BitVec.ofNat 32 (if e.cls.1 = 3 then 1 else e.count)) }

/-- Put a new entry into the ring, overwriting one when the ring is full (R541). -/
def Sup.ringPut (u : Sup) (e : LogEntry) : Sup :=
  if u.ring.length < 1024 then { u with ring := u.ring ++ [e] }
  else match victim u.ring with
    | some v => { (u.lose v) with ring := (u.ring.filter (fun x => x.seq ≠ v.seq)) ++ [e] }
    | none => u

/-- Update the entry that matches, or make a new one in the ring. -/
def Sup.ringOccur (u : Sup) (p : LogEntry → Bool) (e : LogEntry) : Sup :=
  match updFirst p (fun x => x.occur u.seq e.data e.last e.cleared) u.ring with
  | some r => ({ u with ring := r }).nextSeq
  | none => (u.ringPut e).nextSeq

/-- Entries of the alarm store that name single objects (R542). -/
def Sup.singles (u : Sup) : Nat := (u.alarms.filter (fun e => !e.summary)).length

/-- One occurrence of an event (R540, R542). `module` is the module's object. -/
def Sup.record (u : Sup) (cls : Fin 4) (code obj module : W16) (data : W32) (now : W64) (cleared : Bool) : Sup :=
  let e := LogEntry.make u.seq cls code obj data now cleared false
  let sum := LogEntry.make u.seq cls code module data now cleared true
  match cls with
  | 0 =>
    match updFirst (fun x => x.code = code && x.obj = obj && !x.summary) (·.occur u.seq data now cleared) u.alarms with
    | some r => ({ u with alarms := r }).nextSeq
    | none =>
      if u.singles < 192 then ({ u with alarms := u.alarms ++ [e] }).nextSeq
      else
        let u := { u with loss := Vec.updN u.loss 0 (· + 1) }
        match updFirst (fun x => x.code = code && x.summary) (·.occur u.seq data now cleared) u.alarms with
        | some r => ({ u with alarms := r }).nextSeq
        | none => ({ u with alarms := u.alarms ++ [sum] }).nextSeq
  | 1 => u.ringOccur (fun x => x.cls = 1 && x.code = code && x.obj = obj && !x.read) e
  | 2 =>
    if 128 ≤ 1024 - u.ring.length then
      u.ringOccur (fun x => x.cls = 2 && x.code = code && x.obj = obj && !x.summary && !x.read) e
    else { (u.ringOccur (fun x => x.cls = 2 && x.code = code && x.summary) sum) with
           loss := Vec.updN (u.ringOccur (fun x => x.cls = 2 && x.code = code && x.summary) sum).loss 2 (· + 1) }
  | _ =>
    if !u.traceEn then u
    else if 256 ≤ 1024 - u.ring.length then (u.ringPut e).nextSeq
    else { u with loss := Vec.updN u.loss 3 (· + 1) }

/-- An occurrence enters the log and raises LOG_READY when its class ranks at or above NOTIFY (R544). -/
def State.log (s : State) (cls : Fin 4) (code : Nat) (obj : W16) (data : W32) (cleared : Bool) : State :=
  let was := s.sup.seq
  let s1 := s.updSup fun u => u.record cls (BitVec.ofNat 16 code) obj (s.objAt 0 0) data s.ns cleared
  if s1.sup.seq ≠ was && cls.1 ≤ s.sup.notify.toNat then s1.notify 0xF001 (s.objAt 0 0) [] else s1

/-! ### Engine events (R480–R484) -/

/-- The bits that end a wait and those it clears (R481, R484). -/
def Engine.waitMask (g : Engine) : W32 :=
  match g.wait with
  | .none => 0
  | .wfe _ _ => g.evm
  | .mwait _ _ => g.evm ||| 2

/-- A waiting engine whose condition holds completes its wait: Dd takes the bits and they clear, in one cycle. -/
def Engine.wake (g : Engine) : Engine :=
  let hit := g.evp &&& g.waitMask
  if hit = 0 then g
  else match g.wait with
    | .none => g
    | .wfe d _ => { g with d := Vec.put g.d d hit, evp := g.evp &&& ~~~hit, wait := .none }
    | .mwait d _ => { g with d := Vec.put g.d d hit, evp := g.evp &&& ~~~hit, wait := .none }

/-- A source sets an EVP bit in an engine that is out of reset (R465, R480). -/
def Engine.setEvp (g : Engine) (b : Nat) : Engine :=
  if g.run then ({ g with evp := g.evp ||| bitAt 32 b true }).wake else g

/-- Set an EVP bit in one engine. -/
def State.evp (s : State) (e : Fin 16) (b : Nat) : State := s.updEng e (·.setEvp b)

/-- Set an EVP bit in every engine of a cluster. -/
def State.evpCl (s : State) (c : Fin 4) (b : Nat) : State :=
  (allFin 4).foldl (fun s k => s.evp (engOf c k) b) s

/-- Sundom's ring toward a cluster: the cause bit, then EVP bit 3 (R483). -/
def State.supdb (s : State) (c : Fin 4) (cause : Nat) : State :=
  (s.updCl c fun k => { k with supdb := k.supdb ||| bitAt 32 cause true }).evpCl c 3

/-- The cluster an object belongs to, for SUPDB_CAUSE.ALARM (R483): the cluster itself or the owner of its unit. -/
def State.objCluster (s : State) (obj : W16) : Option (Fin 4) :=
  let cls := fld obj 8 6
  let i := fld obj 0 8
  match cls with
  | 1 => if i < 4 then some (finOf 4 i) else none
  | 2 => if h : i < 12 then (Vec.at s.port ⟨i, h⟩).owner else none
  | 3 => if h : i < 4 then (Vec.at s.can ⟨i, h⟩).owner else none
  | 4 => if h : i < 8 then (Vec.at s.pio ⟨i, h⟩).owner else none
  | 5 => if h : i < 8 then (Vec.at s.fio.di ⟨i, h⟩).owner else none
  | 6 => if h : i < 8 then (Vec.at s.fio.do_ ⟨i, h⟩).owner else none
  | 9 => if i < 16 then some (finOf 4 (i / 4)) else none
  | 10 => if i < 4 then some (finOf 4 i) else none
  | _ => none

/-- An ALARM raised on an object, which also rings the cluster concerned. A clearing is only logged. -/
def State.alarm (s : State) (code : Nat) (obj : W16) (data : W32) (cleared : Bool) : State :=
  let s1 := s.log 0 code obj data cleared
  match s.objCluster obj with
  | some c => s1.supdb c 6
  | none => s1

/-- A WARNING occurrence. -/
def State.warn (s : State) (code : Nat) (obj : W16) (data : W32) (cleared : Bool) : State := s.log 1 code obj data cleared

/-- A NOTICE. -/
def State.notice (s : State) (code : Nat) (obj : W16) (data : W32) : State := s.log 2 code obj data false

/-! ### Lists of fixed things -/

/-- Apply to every index. -/
def State.each {n : Nat} (s : State) (f : State → Fin n → State) : State := (allFin n).foldl f s

/-- Apply when a condition holds. -/
def State.when (s : State) (b : Bool) (f : State → State) : State := if b then f s else s

/-- Apply to an optional thing. -/
def State.withSome {α : Type} (s : State) (o : Option α) (f : State → α → State) : State :=
  match o with
  | some a => f s a
  | none => s

end Sys2Proof.Machine
end

