-- ==== Sys2Proof/Machine/Counters.lean ====
section
/-!
DEFINITION. Slot numbers of the counters (R536), named settings of ports, and the loss-free accessors of settings tables.
-/
namespace Sys2Proof.Machine

/-- The value of row `r` (counted from 1) of a settings table. -/
def row {n : Nat} (t : Vec W64 n) (r : Nat) : Nat := (Vec.atD t (r - 1) 0).toNat

/-- The signed value of row `r` of a settings table. -/
def rowInt {n : Nat} (t : Vec W64 n) (r : Nat) : Int := (Vec.atD t (r - 1) 0).toInt

/-- Row `r` of a settings table replaced. -/
def setRow {n : Nat} (t : Vec W64 n) (r : Nat) (v : W64) : Vec W64 n := Vec.updN t (r - 1) fun _ => v

/-- The low half of a row that names two settings (R419). -/
def rowLo {n : Nat} (t : Vec W64 n) (r : Nat) : Nat := row t r % 2 ^ 32
/-- The high half of a row that names two settings (R419). -/
def rowHi {n : Nat} (t : Vec W64 n) (r : Nat) : Nat := row t r / 2 ^ 32

/-- Port counters, in slot order (R536). -/
abbrev cSymbolErr : Nat := 0
abbrev cLinkDown : Nat := 1
abbrev cAnRestart : Nat := 2
abbrev cImpulse : Nat := 3
abbrev cRxAbort : Nat := 4
abbrev cLpiTx : Nat := 5
abbrev cLpiRx : Nat := 6
abbrev cPlcaClash : Nat := 7
abbrev cPlcaColl : Nat := 8
abbrev cPlcaDrop : Nat := 9
abbrev cRxGood : Nat := 10
abbrev cRxBytes : Nat := 11
abbrev cRxFcs : Nat := 12
abbrev cRxRunt : Nat := 13
abbrev cRxOversize : Nat := 14
abbrev cRxFiltered : Nat := 15
abbrev cRxVlan : Nat := 16
abbrev cRxNobuf : Nat := 17
abbrev cRxQfull : Nat := 18
abbrev cRxPause : Nat := 19
abbrev cRxCsum : Nat := 20
abbrev cRxReasm : Nat := 21
abbrev cTxGood : Nat := 22
abbrev cTxBytes : Nat := 23
abbrev cTxFrag : Nat := 24
abbrev cTxLate : Nat := 25
abbrev cTxFlushed : Nat := 26
abbrev cTxOversize : Nat := 27
abbrev cTxCskip : Nat := 28
abbrev cTxPause : Nat := 29
abbrev cTxGateBlocked : Nat := 30
abbrev cTxRetqOvf : Nat := 31
abbrev cPrpDup : Nat := 32
abbrev cPrpWrong : Nat := 33
abbrev cTcResidence : Nat := 34
abbrev cDlGood : Nat := 35
abbrev cDlFcsErr : Nat := 36
abbrev cDlFcsFwd : Nat := 37
abbrev cDlDup : Nat := 38
abbrev cDlOld : Nat := 39
abbrev cDlStale : Nat := 40
abbrev cDlLate : Nat := 41
abbrev cDlTally : Nat := 42
abbrev cDlTurned : Nat := 43
abbrev cDlMalformed : Nat := 44
abbrev cDlUnknown : Nat := 45
abbrev cDlHop : Nat := 46
abbrev cDlWait : Nat := 47
abbrev cDlStore : Nat := 48
abbrev cTgAdmit : Nat := 49
abbrev cTgTrunc : Nat := 50
abbrev cTgEarly : Nat := 51
abbrev cTgLate : Nat := 52
abbrev cTgForeign : Nat := 53
abbrev cTgMissing : Nat := 54
abbrev cTgBlocked : Nat := 55
abbrev cTgIsolate : Nat := 56
abbrev cRouteMismatch : Nat := 57
abbrev cRouteLate : Nat := 58
abbrev cDlRetLate : Nat := 59
abbrev cDlSilent : Nat := 60

/-- Cluster counters (R536): missed_drumbeat, sev_denied, spad_ecc_corr, spad_ecc_uncorr, spad_redirect. -/
abbrev cMissed : Nat := 0
abbrev cSevDenied : Nat := 1
abbrev cSpadCorr : Nat := 18
abbrev cSpadUncorr : Nat := 19
abbrev cSpadRedirect : Nat := 20

/-- Module counters (R536). -/
abbrev cCopySkip : Nat := 0
abbrev cCopyFail : Nat := 1
abbrev cRelayLate : Nat := 2
abbrev cDigestMismatch : Nat := 3
abbrev cDigestSkip : Nat := 4
abbrev cTakeover : Nat := 5
abbrev cLplusLow : Nat := 6
abbrev cUvlo : Nat := 7
abbrev cShmCorr : Nat := 72
abbrev cShmUncorr : Nat := 73
abbrev cShmRedirect : Nat := 74

/-- Time unit counters (R536). -/
abbrev cServoSamples : Nat := 0
abbrev cServoOverrun : Nat := 1
abbrev cJumpRefused : Nat := 2
abbrev cTimeSteps : Nat := 3
abbrev cHoldover : Nat := 4
abbrev cSyncInLost : Nat := 5
abbrev cSyncOutLate : Nat := 6

/-- A port counter counts one. -/
def State.pinc (s : State) (p : Fin 12) (i : Nat) : State := s.updPort p fun x => { x with ctr := x.ctr.inc i }
/-- A port counter counts `k`. -/
def State.padd (s : State) (p : Fin 12) (i k : Nat) : State := s.updPort p fun x => { x with ctr := x.ctr.add i k }
/-- A cluster counter counts `k`. -/
def State.cadd (s : State) (c : Fin 4) (i k : Nat) : State := s.updCl c fun x => { x with ctr := x.ctr.add i k }
/-- A module counter counts `k`. -/
def State.madd (s : State) (i k : Nat) : State := { s with modCtr := s.modCtr.add i k }
/-- A time-unit counter counts one. -/
def State.tinc (s : State) (i : Nat) : State := s.updTim fun x => { x with ctr := x.ctr.inc i }

/-- The kinds of ports (R123). -/
inductive PortKind where
  | g | l | s | x
deriving DecidableEq, Repr

/-- The kind of a port (R123). -/
def portKind (p : Fin 12) : PortKind :=
  if p.1 < 4 then .g else if p.1 < 8 then .l else if p.1 < 10 then .s else .x

/-- Port states (R124). -/
abbrev pHeld : Fin 6 := 0
abbrev pIdle : Fin 6 := 1
abbrev pTraining : Fin 6 := 2
abbrev pUp : Fin 6 := 3
abbrev pTest : Fin 6 := 4
abbrev pFault : Fin 6 := 5

/-- A port's personality is started. -/
def State.portStarted (s : State) (p : Fin 12) : Bool :=
  match (Vec.at s.port p).owner with
  | some c => s.started c
  | none => false

/-- The drumbeat period of a cluster in ns (R263: CT in units of 125 ns). -/
def Cluster.period (k : Cluster) : Nat := k.ct * 125
/-- The drumbeat phase in ns; R33 and R236 state PHASE in units of 125 ns. -/
def Cluster.phaseNs (k : Cluster) : Nat := k.phase * 125
/-- The cycle number of a timebase value, rounded down, so that it is negative before the first instant PHASE (R263). -/
def Cluster.cycleOf (k : Cluster) (ns : Nat) : Int :=
  if k.period = 0 then 0 else ((ns : Int) - k.phaseNs) / k.period
/-- Nanoseconds since the drumbeat that begins the cycle of a timebase value. -/
def Cluster.sinceBeat (k : Cluster) (ns : Nat) : Nat :=
  if k.period = 0 then 0 else (((ns : Int) - k.phaseNs) % k.period).toNat

end Sys2Proof.Machine
end

