-- ==== Sys2Proof/Machine/Queue.lean ====
section
/-!
DEFINITION. The hardware queues: who serves a queue, push, pop, the queue-not-empty events and the XOFF condition
that free-buffer queues drive (R178, R181–R188), and the states of the ports that flush them (R124, R125, R146, R189).
-/
namespace Sys2Proof.Machine

/-- The queue a number names. -/
def hqOf (n : Nat) : Fin 256 := finOf 256 n

/-- Transmit queue of a port and class (R181). -/
def txHq (p : Fin 12) (c : Nat) : Fin 256 := hqOf (8 * p.1 + c)
/-- Receive queue of a port (R159). -/
def rxHq (p : Fin 12) (q : Nat) : Fin 256 := hqOf (96 + 4 * p.1 + q)
/-- CAN queue `i`: receive 0, receive 1, transmit high, transmit normal (R181). -/
def canHq (n : Fin 4) (i : Nat) : Fin 256 := hqOf (144 + 4 * n.1 + i)

/-- The cluster that serves a queue (R31, R181). -/
def State.hqServer (s : State) (h : Fin 256) : Option (Fin 4) :=
  if h.1 < 96 then (Vec.at s.port (finOf 12 (h.1 / 8))).owner
  else if h.1 < 144 then (Vec.at s.port (finOf 12 ((h.1 - 96) / 4))).owner
  else if h.1 < 160 then (Vec.at s.can (finOf 4 ((h.1 - 144) / 4))).owner
  else if h.1 < 192 then none
  else if h.1 < 224 || 240 ≤ h.1 then (Vec.at s.hq h).grant
  else none

/-- Some receive queue takes its buffers from this queue (R160). -/
def State.isFbq (s : State) (h : Fin 256) : Bool :=
  (allFin 256).any fun q => (Vec.at s.hq q).fbq == some h

/-- A descriptor of four zero words, the empty result of a pop (R183). -/
def Desc.zero : Desc := ⟨0, 0, 0, 0⟩

/-- Fields of descriptor word 1 (R191). -/
def Desc.first (d : Desc) : Bool := d.w1.getLsbD 31
def Desc.last (d : Desc) : Bool := d.w1.getLsbD 30
def Desc.ts (d : Desc) : Bool := d.w1.getLsbD 27
def Desc.bsz (d : Desc) : Nat := fld d.w1 24 3
def Desc.len (d : Desc) : Nat := fld d.w1 0 16
def Desc.size (d : Desc) : Nat := 256 * 2 ^ d.bsz
/-- Fields of descriptor word 3 on transmit (R194). -/
def Desc.lt (d : Desc) : Bool := d.w3.getLsbD 31
def Desc.retq (d : Desc) : Fin 256 := hqOf (fld d.w3 4 8)
def Desc.ret (d : Desc) : Bool := d.w3.getLsbD 3
def Desc.nofcs (d : Desc) : Bool := d.w3.getLsbD 2
def Desc.dup (d : Desc) : Bool := d.w3.getLsbD 1

/-- A region a cluster may name as a buffer: its scratchpad, or shared memory in one of its windows (R190). The whole buffer
lies there, not its first octet alone (R190 speaks of ADDR: DESIGN CHOICE, log 102). -/
def Cluster.bufferOk (k : Cluster) (addr len : Nat) : Bool :=
  addr % 8 = 0 &&
  ((0x10000000 ≤ addr && addr + len ≤ 0x10080000) ||
   (0x20000000 ≤ addr && addr + len ≤ 0x20800000 &&
    (allFin 8).any fun i =>
      let w := Vec.at k.windows i
      w.len ≠ 0 && w.base ≤ addr - 0x20000000 && addr + len - 0x20000000 ≤ w.base + w.len))

/-- A descriptor of queue `h` names memory that the buffer of another one names too (R190, R196). A CAN descriptor gives no
size; its frame has at most 64 octets (R358). -/
def Desc.shares (d : Desc) (h : Fin 256) (x : Desc) : Bool :=
  d.w0.toNat < x.w0.toNat + (if 144 ≤ h.1 && h.1 < 160 then 64 else x.size) && x.w0.toNat < d.w0.toNat + d.size

/-- A free descriptor of the cluster's queues names the buffer of a descriptor (R196). -/
def State.freeNames (s : State) (c : Fin 4) (d : Desc) : Bool :=
  (allFin 256).any fun h => s.hqServer h == some c && (Vec.at s.hq h).items.any (d.shares h) && s.isFbq h

/-- The conditions of R196 on a descriptor pushed to a port transmit queue. RETQ counts with RET = 1, where the descriptor goes
there (DESIGN CHOICE, log 102). -/
def State.txDescOk (s : State) (c : Fin 4) (d : Desc) : Bool :=
  (Vec.at s.cl c).bufferOk d.w0.toNat d.size && d.bsz ≠ 7 && d.len ≤ d.size && d.len ≠ 0 &&
  !s.freeNames c d && fld d.w1 29 1 = 0 && fld d.w1 16 8 = 0 && fld d.w3 0 1 = 0 && (!d.ret || s.hqServer d.retq == some c)

/-- Some descriptor of the queues that a cluster serves, or of the frames its ports send, names the buffer of a descriptor. -/
def State.namedElsewhere (s : State) (c : Fin 4) (d : Desc) : Bool :=
  ((allFin 256).any fun h => s.hqServer h == some c && (Vec.at s.hq h).items.any (d.shares h)) ||
  ((allFin 12).any fun p =>
    let x := Vec.at s.port p
    x.owner == some c && (x.tx.any (·.descs.any (d.shares (txHq p 0))) || x.preempted.any (·.descs.any (d.shares (txHq p 0)))))

/-- The conditions of R196 on the words of a received or free descriptor: the reserved bits of R191 and R193 are 0. -/
def Cluster.rxDescOk (k : Cluster) (d : Desc) : Bool :=
  k.bufferOk d.w0.toNat d.size && d.bsz ≠ 7 && fld d.w1 16 4 = 0 && fld d.w3 24 2 = 0 && fld d.w3 0 2 = 0

/-- The conditions of R196 on a free descriptor, whose LEN and flags do not count (R161): no other one names its buffer. -/
def State.fbqDescOk (s : State) (c : Fin 4) (d : Desc) : Bool := (Vec.at s.cl c).rxDescOk d && !s.namedElsewhere c d

/-- Auto-negotiation runs on the port (R128, R129, R143). -/
def Port.negotiates (x : Port) (p : Fin 12) : Bool :=
  match portKind p with
  | .g => row x.t1 2 ≠ 3
  | .x => row x.t1 18 = 0
  | _ => false

/-- A port that sends PAUSE for its receive queues: the resolved ability, never on S ports (R176, R178). -/
def Port.sendsPause (x : Port) : Bool := x.st == pUp && x.pauseTx

/-- The station address of a port (R157). -/
def State.stationOf (s : State) (p : Fin 12) : BitVec 48 :=
  let v := (Vec.at s.port p).station
  if v = 0 then Config.baseMac + BitVec.ofNat 48 p.1 else v.setWidth 48

/-- A 48-bit address as octets on the line. -/
def macBytes (a : BitVec 48) : List Byte := beBytes 6 a.toNat

/-- A MAC Control PAUSE frame (Annex 31B of IEEE 802.3; log 20). -/
def pauseFrame (src : BitVec 48) (quanta : Nat) : List Byte :=
  macBytes 0x0180C2000001 ++ macBytes src ++ beBytes 2 0x8808 ++ beBytes 2 1 ++ beBytes 2 quanta ++ List.replicate 42 0

/-- A PAUSE frame goes out ahead of every queued frame, and wakes a transmitter in LPI (R148, R178). -/
def State.sendPause (s : State) (p : Fin 12) (quanta : Nat) : State :=
  let f := pauseFrame (s.stationOf p) quanta
  s.updPort p fun x => { x with
    ctrlOut := x.ctrlOut ++ [⟨f, .good, .frame⟩], lpiTx := false, ctr := x.ctr.inc cTxPause }

/-- Free descriptors of the free-buffer queues of a port's receive queues (R178). -/
def State.fbqCounts (s : State) (p : Fin 12) : List Nat :=
  (List.range 4).filterMap fun q =>
    ((Vec.at s.hq (rxHq p q)).fbq).map fun f => (Vec.at s.hq f).items.length

/-- The XOFF condition of a port follows its free-buffer queues (R178). -/
def State.pauseCheck (s : State) (p : Fin 12) : State :=
  let x := Vec.at s.port p
  if !x.sendsPause then s
  else
    let n := s.fbqCounts p
    if !x.xoff && n.any (· < rowLo x.t2 11) then
      (s.sendPause p (row x.t2 10)).updPort p fun x => { x with xoff := true }
    else if x.xoff && n.all (rowHi x.t2 11 < ·) then
      (s.sendPause p 0).updPort p fun x => { x with xoff := false }
    else s

/-- Every port one of whose receive queues uses this queue checks its XOFF condition. -/
def State.fbqMoved (s : State) (h : Fin 256) : State :=
  if s.isFbq h then
    s.each (n := 12) fun s p =>
      if (List.range 4).any (fun q => (Vec.at s.hq (rxHq p q)).fbq == some h) then s.pauseCheck p else s
  else s

/-- The queue-not-empty events of the serving cluster (R188). -/
def State.qselEvents (s : State) (h : Fin 256) : State :=
  match s.hqServer h with
  | none => s
  | some c =>
    (allFin 8).foldl (fun s i =>
      let r := Vec.at (Vec.at s.cl c).qsel i
      if r.getLsbD 31 && fld r 0 8 = h.1 then s.evpCl c (5 + i.1) else s) s

/-- A frame arriving at a port in LPI wakes its transmitter (R148). -/
def State.lpiExit (s : State) (h : Fin 256) : State :=
  if h.1 < 96 then
    let p := finOf 12 (h.1 / 8)
    if (Vec.at s.port p).lpiTx then s.updPort p fun x => { x with lpiTx := false } else s
  else s

/-- A descriptor has just reached the head of a port's transmit queue: R168 judges its launch time by this instant, and that
time is not reached yet. -/
def State.headMoved (s : State) (h : Fin 256) : State :=
  if h.1 < 96 then
    s.updPort (finOf 12 (h.1 / 8)) fun x => { x with
      headAt := Vec.updN x.headAt (h.1 % 8) fun _ => s.ns.setWidth 32, launched := Vec.updN x.launched (h.1 % 8) fun _ => false }
  else s

/-- A push (R182, R183): dropped at a full queue, which sets OVF and counts hq_overflow. -/
def State.push (s : State) (h : Fin 256) (d : Desc) : State :=
  let q := Vec.at s.hq h
  if q.depth ≤ q.items.length then s.updHq h fun q => { q with ovf := true, ctr := q.ctr.inc 0 }
  else
    let s1 := s.updHq h fun q => { q with items := q.items ++ [d] }
    let s2 := if q.items.isEmpty then s1.headMoved h else s1
    ((s2.qselEvents h).lpiExit h).fbqMoved h

/-- A pop (R183): the head, or four zero words from an empty queue. -/
def State.pop (s : State) (h : Fin 256) : Desc × State :=
  match (Vec.at s.hq h).items with
  | [] => (Desc.zero, s)
  | d :: r =>
    let s1 := s.updHq h fun q => { q with items := r }
    (d, (if r.isEmpty then s1 else s1.headMoved h).fbqMoved h)

/-- A unit returns a descriptor to a queue (R189, R357). Where that is a free-buffer queue and the buffer is named elsewhere,
the queue is in the error of R196 from then on. -/
def State.returnTo (s : State) (h : Fin 256) (d : Desc) : State :=
  let bad := match s.hqServer h with
    | some c => s.isFbq h && s.namedElsewhere c d
    | none => false
  (s.push h d).updHq h fun q => { q with bad := q.bad || bad }

/-- A full queue would drop a push. -/
def HwQ.full (q : HwQ) : Bool := q.depth ≤ q.items.length

/-- HQ_STAT (R186). -/
def HwQ.stat (q : HwQ) : W32 :=
  bitAt 32 31 q.ovf ||| bitAt 32 30 (q.items.length = 0) ||| bitAt 32 29 (q.items.length = q.depth) |||
    place q.depth 16 13 ||| place q.items.length 0 13

/-! ### Transmit completion (R189, R195) -/

/-- Codes of RESULT (R195). -/
abbrev rSent : Fin 6 := 0
abbrev rCut : Fin 6 := 1
abbrev rFlushed : Fin 6 := 2
abbrev rLate : Fin 6 := 3
abbrev rOversize : Fin 6 := 4
abbrev rBadseq : Fin 6 := 5

/-- A descriptor as returned to its RETQ. `stamp` counts 2^-16 ns. -/
def Desc.returned (d : Desc) (result : Fin 6) (cskip : Bool) (stamp : W64) : Desc :=
  let timed := d.last && d.ts
  { d with
    w1 := if result = 0 then d.w1 else d.w1 ||| bitAt 32 28 true
    w2 := if timed then BitVec.ofNat 32 (stamp.toNat / 2 ^ 16) else d.w2
    w3 := place (if timed then fld stamp 14 2 else 0) 30 2 ||| place result.1 27 3 ||| bitAt 32 26 cskip }

/-- Push the descriptors with RET to their RETQs; a full RETQ counts tx_retq_ovf at the port (R196). -/
def State.returnDescs (s : State) (p : Fin 12) (ds : List Desc) (result : Fin 6) (cskip : Bool) (stamp : W64) : State :=
  ds.foldl (fun s d =>
    if d.ret then
      let s := if (Vec.at s.hq d.retq).full then s.pinc p cTxRetqOvf else s
      s.returnTo d.retq (d.returned result cskip stamp)
    else s) s

/-- A frame's completion: its descriptors return and EVP bit 14 follows (R189). -/
def State.completeTx (s : State) (p : Fin 12) (ds : List Desc) (result : Fin 6) (cskip : Bool) (stamp : W64) : State :=
  let s1 := s.returnDescs p ds result cskip stamp
  let s2 := if result = rLate then s1.pinc p cTxLate
    else if result = rFlushed then s1.pinc p cTxFlushed
    else if result = rOversize then s1.pinc p cTxOversize else s1
  match (Vec.at s.port p).owner with
  | some c => if ds.any Desc.ret then s2.evpCl c 14 else s2
  | none => s2

/-- Split a queue's descriptors into frames at LAST. -/
def framesOf : List Desc → List Desc → List (List Desc)
  | [], [] => []
  | acc, [] => [acc]
  | acc, d :: r => if d.last then (acc ++ [d]) :: framesOf [] r else framesOf (acc ++ [d]) r

/-- Every queued frame of a port completes with FLUSHED (R189), the transmit timestamp of TS = 1 being 0 (DESIGN CHOICE,
log 102); copies that wait for it as LAN B go with them (log 23). -/
def State.flushPort (s : State) (p : Fin 12) : State :=
  (List.range 8).foldl (fun s c =>
    let h := txHq p c
    let fs := framesOf [] (Vec.at s.hq h).items
    fs.foldl (fun s f => s.completeTx p f rFlushed false 0) (s.updHq h fun q => { q with items := [] }))
    (s.updPort p fun x => { x with copies := [] })

/-! ### Port states (R124–R127, R146) -/

/-- PLINK (R146). -/
def Port.plink (x : Port) (p : Fin 12) : W32 :=
  bitAt 32 31 (x.st == pUp) ||| place x.st.1 28 3 ||| place x.speed.toNat 24 4 ||| bitAt 32 23 x.role |||
    bitAt 32 22 x.lpiTx ||| bitAt 32 21 x.lpiRx |||
    bitAt 32 20 (x.st == pUp && p.1 < 8 && row x.t1 8 = 1) ||| place x.reason.toNat 16 4 |||
    place x.snrMin.toNat 8 8 ||| place x.chg.toNat 0 8

/-- The buffer of the frame held its FCS (R169). -/
def TxRun.nofcs (t : TxRun) : Bool := !t.descs.isEmpty && t.descs.all Desc.nofcs

/-- What of a frame is on the line, as its last fragment or not, with the FCS or mCRC that ends it (R169, R173). -/
def TxRun.line (t : TxRun) (last : Bool) (sent : Nat) (fcs : Fcs) : WireFrame :=
  { bytes := (t.bytes.take sent).drop t.sent
    fcs := fcs
    form :=
      let end_ := if !last then .mcrc else if t.nofcs then .noFcs else LineEnd.fcs
      if t.pre then (if t.sent = 0 then .start t.smd end_ else .more t.smd (t.frag - 1) end_)
      else if t.nofcs then .noFcs else .frame }

/-- The frame on the line, to its end. -/
def TxRun.whole (t : TxRun) (fcs : Fcs) : WireFrame := t.line true t.bytes.length fcs

/-- Frames that a port is receiving: one whose first bit has arrived, and one in reassembly (R125, R175). -/
def Port.incoming (x : Port) : Nat := bit x.receiving + bit x.reasm.isSome

/-- A frame or fragment has arrived whole. -/
def State.arrived (s : State) (p : Fin 12) : State := s.updPort p fun x => { x with receiving := false }

/-- What a port gives up when it leaves UP (R125): the frame on the line is cut with a bad FCS and completes with
CUT; frames being received are discarded and counted; queued frames stay. -/
def State.portDown (s : State) (p : Fin 12) : State :=
  let x := Vec.at s.port p
  let s1 := s.updPort p fun x => { x with
    wire := (x.tx.map fun t => t.whole .bad).or x.wire
    receiving := false, reasm := none, lpiRefresh := false, pauseSub := 0, ways := { x.ways with store := [], hold := [] }
    tx := none, preempted := none, speed := 0, role := false, lpiTx := false, lpiRx := false, snrMin := 0,
    pauseRx := false, pauseTx := false, xoff := false, pauseLeft := 0, mm := 0, mmTries := 0, retry := false, turn := 0, burst := 0,
    opportunity := false, eeeOn := false, launched := Vec.fill 8 false
    ctr := (x.ctr.add cRxAbort x.incoming).inc cLinkDown }
  let cut := fun (s : State) (t : TxRun) => s.completeTx p t.descs rCut t.cskip t.stamp
  (s1.withSome x.tx cut).withSome x.preempted cut

/-- The remote fault bits an X port with auto-negotiation sends (R143; the codes of clause 37: 0 none, 1 offline, 2 link
failure, 3 auto-negotiation error; PRESUMED, log 83). -/
def Port.faultBits (x : Port) (p : Fin 12) (st : Fin 6) (reason : Nat) : BitVec 2 :=
  if portKind p != .x || row x.t1 18 ≠ 0 then 0
  else if st == pUp then 0 else if reason = 2 then 2 else if reason = 5 then 3 else if st == pTraining then 0 else 1

/-- A change of port state: PLINK, then EVP bit 13 in the owning cluster, then LINK_CHANGE (R146). Negotiation that the
loss of the link or a restart setting makes begin again counts an_restart (R147; log 83). -/
def State.setPort (s : State) (p : Fin 12) (st : Fin 6) (reason : Nat) : State :=
  let x := Vec.at s.port p
  let again := st == pTraining && (x.st == pUp || x.st == pTraining) && x.negotiates p
  let s0 := if x.st == pUp && st != pUp then s.portDown p else s
  let s0 := s0.updPort p fun x => { x with
    rf := x.faultBits p st reason, ctr := if again then x.ctr.inc cAnRestart else x.ctr
    loop := if st == pTraining then { x.loop with stage := 0 } else x.loop }
  let s1 := s0.updPort p fun x => { x with st := st, reason := BitVec.ofNat 4 reason, chg := if x.st = st then x.chg else x.chg + 1 }
  if x.st = st then s1
  else
    let s2 := match x.owner with
      | some c => s1.evpCl c 13
      | none => s1
    let s2 := if x.st == pFault then s2.log 0 0x0300 (s.objAt 2 p.1) 0 true else s2
    let s3 := s2.notify 0xF005 (s.objAt 2 p.1) (leBytes 4 ((Vec.at s2.port p).plink p).toNat)
    if st == pIdle || st == pHeld then s3.flushPort p else s3

/-- Where a port goes when nothing keeps it: TRAINING if ADMIN = 1 and the personality is started, else IDLE. -/
def State.portRest (s : State) (p : Fin 12) : Fin 6 :=
  if row (Vec.at s.port p).t1 1 = 1 && s.portStarted p then pTraining else pIdle

/-- A restart setting moves a port in TRAINING or UP to the start of TRAINING (R126). -/
def State.portRestart (s : State) (p : Fin 12) : State :=
  let x := Vec.at s.port p
  if x.st == pUp || x.st == pTraining then
    (s.setPort p pTraining 10).updPort p fun x => { x with attempts := 0 }
  else s

/-- STOP moves a cluster's ports to IDLE (R124) with REASON ADMIN (the manual gives no reason: DESIGN CHOICE, log 83), and
flushes the transmit queues of them all (R184); ports in TEST, FAULT and HELD keep their state. -/
def State.stopPorts (s : State) (c : Fin 4) : State :=
  s.each (n := 12) fun s p =>
    let x := Vec.at s.port p
    if x.owner != some c then s
    else if x.st == pUp || x.st == pTraining then s.setPort p pIdle 1
    else s.flushPort p

/-- START moves a cluster's ports with ADMIN = 1 to TRAINING (R124), with REASON ADMIN (DESIGN CHOICE, log 83). -/
def State.startPorts (s : State) (c : Fin 4) : State :=
  s.each (n := 12) fun s p =>
    let x := Vec.at s.port p
    if x.owner == some c && x.st == pIdle && row x.t1 1 = 1 then s.setPort p pTraining 1 else s

/-! ### Queue and port rows -/

/-- QSELi, written by an engine of the cluster: the event is also set when the chosen queue holds something (R188). -/
def qselWrite (e : Fin 16) (i : Fin 8) (v : W32) (s : State) : State :=
  let c := clOf e
  let w := v &&& 0x800000FF
  let s1 := s.updCl c fun k => { k with qsel := Vec.put k.qsel i w }
  if w.getLsbD 31 && (Vec.at s.hq (hqOf (fld w 0 8))).items ≠ [] then s1.evpCl c (5 + i.1) else s1

/-- HQ_STAT written: OVF clears on 1 (R186). -/
def hqStatWrite (h : Fin 256) (v : W32) (s : State) : State :=
  if v.getLsbD 31 then s.updHq h fun q => { q with ovf := false } else s

end Sys2Proof.Machine
end

