-- ==== Sys2Proof/Machine/Mem.lean ====
section
/-!
DEFINITION. Access to the scratchpads and shared memory by every master: borrowed blocks (R527, R528), uncorrectable
words (R525, R526) and the events they raise (R599).
-/
namespace Sys2Proof.Machine

/-- A banked memory. -/
inductive MemRef where
  | spad (c : Fin 4)
  | shm
deriving DecidableEq, Repr

/-- A block is served by the shadow for reads: phases HELD, RESTORE and PERMANENT (R527). -/
def Borrow.readsShadow (b : Borrow) (a : Nat) : Bool := b.active && a / 256 = b.block && b.phase != 0

/-- One octet as an unborrowed memory would hold it (R527). -/
def bkRead (m : Mem) (b : Borrow) (a : Nat) : Byte :=
  if b.readsShadow a then memRead b.shadow (a % 256) else memRead m a

/-- One octet written as the phase directs (R527). -/
def bkWrite (m : Mem) (b : Borrow) (a : Nat) (v : Byte) : Mem × Borrow :=
  if b.active && a / 256 = b.block then
    let sh := { b with shadow := memWrite b.shadow (a % 256) v }
    if b.phase = 0 then (memWrite m a v, if a % 256 / 8 < b.copied then sh else b)
    else if b.phase = 2 then (memWrite m a v, sh)
    else (m, sh)
  else (memWrite m a v, b)

/-- Octets written under enables, one after another. -/
def bkWriteLanes : Mem × Borrow → Nat → List (Option Byte) → Mem × Borrow
  | x, _, [] => x
  | x, a, none :: r => bkWriteLanes x (a + 1) r
  | x, a, some v :: r => bkWriteLanes (bkWrite x.1 x.2 a v) (a + 1) r

/-- Pieces of a run of octets that lie in one word each. -/
def wordChunks {α : Type} : Nat → Nat → List α → List (Nat × List α)
  | 0, _, _ => []
  | _, _, [] => []
  | n + 1, a, bs =>
    let k := 8 - a % 8
    (a, bs.take k) :: wordChunks n (a + k) (bs.drop k)

/-- The DATA word of the memory events (R599). -/
def memData (code mem eng word : Nat) : W32 := place code 26 6 ||| place mem 23 3 ||| place eng 21 2 ||| place word 0 20

/-- The contents, borrow and uncorrectable words of a memory. -/
def State.memOf (s : State) : MemRef → Mem × Borrow × List Nat
  | .spad c => ((Vec.at s.cl c).spad, (Vec.at s.cl c).borrow, (Vec.at s.cl c).badWords)
  | .shm => (s.shm, s.selft.shmBorrow, s.shmBad)

/-- Replace contents, borrow and uncorrectable words of a memory. -/
def State.setMem (s : State) (r : MemRef) (m : Mem) (b : Borrow) (bad : List Nat) : State :=
  match r with
  | .spad c => s.updCl c fun k => { k with spad := m, borrow := b, badWords := bad }
  | .shm => { s with shm := m, shmBad := bad, selft := { s.selft with shmBorrow := b } }

/-- Count accesses redirected to a borrowed block (R528). -/
def State.redirects (s : State) (r : MemRef) (n : Nat) : State :=
  if n = 0 then s
  else match r with
    | .spad c => s.cadd c cSpadRedirect n
    | .shm => s.madd cShmRedirect n

/-- An uncorrectable error met by a master (R526): counted, the ALARM MEM_UNCORR, the health bit cleared. -/
def State.memUncorr (s : State) (r : MemRef) (code word : Nat) : State :=
  match r with
  | .spad c =>
    ((s.cadd c cSpadUncorr 1).alarm 0x0B02 (s.objAt 1 c.1) (memData code 0 0 word) true).updPair fun p =>
      { p with clOk := p.clOk &&& ~~~(bitAt 4 c.1 true) }
  | .shm =>
    ((s.madd cShmUncorr 1).alarm 0x0B02 (s.objAt 0 0) (memData code 1 0 word) true).updPair fun p =>
      { p with memOk := false }

/-- An uncorrectable error in the IMEM (2) or DMEM (3) of an engine, met by a master (R526, R599). -/
def State.engUncorr (s : State) (e : Fin 16) (code mem word : Nat) : State :=
  let c := clOf e
  ((s.cadd c cSpadUncorr 1).alarm 0x0B02 (s.objAt 1 c.1) (memData code mem (kOf e).1 word) true).updPair fun p =>
    { p with clOk := p.clOk &&& ~~~(bitAt 4 c.1 true) }

/-- A correctable error in the IMEM or DMEM of an engine (R525, R599). -/
def State.engCorr (s : State) (e : Fin 16) (code mem word : Nat) : State :=
  (s.cadd (clOf e) cSpadCorr 1).notice 0x0B01 (s.objAt 1 (clOf e).1) (memData code mem (kOf e).1 word)

/-- An uncorrectable error in supervisor SRAM met by a master (R526, R599). -/
def State.sramUncorr (s : State) (code word : Nat) : State :=
  (s.alarm 0x0B02 (s.objAt 0 0) (memData code 4 0 word) true).updPair fun p => { p with supOk := false }

/-- A correctable error in supervisor SRAM found by the scrub (R525, R599). -/
def State.sramCorr (s : State) (word : Nat) : State := s.notice 0x0B01 (s.objAt 0 0) (memData 0x3F 4 0 word)

/-- A correctable error found by a read (R525). -/
def State.memCorr (s : State) (r : MemRef) (code word : Nat) : State :=
  match r with
  | .spad c => (s.cadd c cSpadCorr 1).notice 0x0B01 (s.objAt 1 c.1) (memData code 0 0 word)
  | .shm => (s.madd cShmCorr 1).notice 0x0B01 (s.objAt 0 0) (memData code 1 0 word)

/-- One word's part of a write (R517, R525): a full word clears an error, a partial write to an uncorrectable word is
not performed and is reported. -/
def State.writeWord (s : State) (r : MemRef) (code : Nat) (a : Nat) (bs : List (Option Byte)) : State :=
  let (m, b, bad) := s.memOf r
  let w := a / 8
  let s := s.redirects r (if b.active && a / 256 = b.block then 1 else 0)
  if bs.length = 8 && bs.all Option.isSome then
    let (m, b) := bkWriteLanes (m, b) a bs
    s.setMem r m b (bad.filter (· ≠ w))
  else if bad.contains w then s.memUncorr r code w
  else
    let (m, b) := bkWriteLanes (m, b) a bs
    s.setMem r m b bad

/-- A write under byte enables. -/
def State.wrLanes (s : State) (r : MemRef) (code a : Nat) (bs : List (Option Byte)) : State :=
  (wordChunks (bs.length + 1) a bs).foldl (fun s x => if x.2.any Option.isSome then s.writeWord r code x.1 x.2 else s) s

/-- A write of whole octets. -/
def State.wr (s : State) (r : MemRef) (code a : Nat) (bs : List Byte) : State := s.wrLanes r code a (bs.map some)

/-- Octets as they stand, without the effects of an access. -/
def State.peek (s : State) (r : MemRef) (a n : Nat) : List Byte :=
  let (m, b, _) := s.memOf r
  (List.range n).map fun i => bkRead m b (a + i)

/-- The words an access touches. -/
def wordsOf (a n : Nat) : List Nat :=
  if n = 0 then [] else (List.range ((a + n - 1) / 8 - a / 8 + 1)).map (· + a / 8)

/-- Some word of a range holds an uncorrectable error. -/
def State.memBad (s : State) (r : MemRef) (a n : Nat) : Bool :=
  let bad := (s.memOf r).2.2
  if bad.isEmpty then false else (wordsOf a n).any bad.contains

/-- A read: the octets, whether some word had an uncorrectable error, and the state after counts and alarms. -/
def State.rd (s : State) (r : MemRef) (code a n : Nat) : (List Byte × Bool) × State :=
  let (_, b, bad) := s.memOf r
  let ws := wordsOf a n
  let s1 := if b.active then s.redirects r (ws.filter fun w => w / 32 = b.block).length else s
  let hit := if bad.isEmpty then [] else ws.filter bad.contains
  ((s.peek r a n, !hit.isEmpty), hit.foldl (fun s w => s.memUncorr r code w) s1)

/-- A word becomes uncorrectable: a fault of the cells that an event reports. -/
def State.damage (s : State) (r : MemRef) (w : Nat) : State :=
  let (m, b, bad) := s.memOf r
  s.setMem r m b (if bad.contains w then bad else w :: bad)

/-- The memory and offset of a buffer address (R190). -/
def memAt (c : Fin 4) (addr : Nat) : Option (MemRef × Nat) :=
  if 0x10000000 ≤ addr && addr < 0x10080000 then some (.spad c, addr - 0x10000000)
  else if 0x20000000 ≤ addr && addr < 0x20800000 then some (.shm, addr - 0x20000000)
  else none

/-- Bank master codes (R518). -/
def portCode (p : Fin 12) : Nat := 1 + p.1
def canCode (n : Fin 4) : Nat := 0x0D + n.1
def akCode (l : Fin 2) : Nat := 0x11 + l.1
def piCode : Nat := 0x13
def qmCode (c : Fin 4) : Nat := 0x18 + c.1
def engCode (e : Fin 16) : Nat := 0x20 + e.1
def supCode : Nat := 0x30
def hostCode (m : Master) : Nat := if m = .dma then 0x32 else 0x31
def testCode : Nat := 0x3F

/-- A DMA read of a buffer. -/
def State.dmaRead (s : State) (c : Fin 4) (code addr n : Nat) : (List Byte × Bool) × State :=
  match memAt c addr with
  | some (r, a) => s.rd r code a n
  | none => ((List.replicate n 0, false), s)

/-- A DMA write of a buffer. -/
def State.dmaWrite (s : State) (c : Fin 4) (code addr : Nat) (bs : List Byte) : State :=
  match memAt c addr with
  | some (r, a) => s.wr r code a bs
  | none => s

/-- A request starved for 1024 cycles (R522): the WARNING MEM_STARVE. -/
def State.memStarved (s : State) (w : MemWhich) (code word : Nat) : State :=
  match w with
  | .spad c => s.warn 0x0B00 (s.objAt 1 c.1) (memData code 0 0 word) false
  | .shm => s.warn 0x0B00 (s.objAt 0 0) (memData code 1 0 word) false

/-- The clearing of memory at LOAD or RESET_OBJECT goes through a borrow as any write does (R529). -/
def State.clearSpad (s : State) (c : Fin 4) : State :=
  s.updCl c fun k => { k with
    spad := if k.borrow.active && (k.borrow.phase = 1 || k.borrow.phase = 3) then k.spad.filter (fun x => x.1 / 256 = k.borrow.block) else []
    borrow := { k.borrow with shadow := if k.borrow.active then (if k.borrow.phase = 0 then k.borrow.shadow.filter (fun x => k.borrow.copied ≤ x.1 / 8) else []) else k.borrow.shadow }
    badWords := [] }

end Sys2Proof.Machine
end

