-- ==== Sys2Proof/Machine/Time.lean ====
section
/-!
DEFINITION. The timebase, the servo, steps and slews, SYNC pins and milestones (chapter 07).
-/
namespace Sys2Proof.Machine

/-- Servo states (R217). -/
abbrev tFree : Fin 6 := 0
abbrev tAcquire : Fin 6 := 1
abbrev tTrack : Fin 6 := 2
abbrev tFine : Fin 6 := 3
abbrev tHoldover : Fin 6 := 4
abbrev tJump : Fin 6 := 5

/-- Time settings (R214). -/
def Tim.tsrc (t : Tim) : Nat := row t.sets 1
def Tim.srcCl (t : Tim) : Nat := row t.sets 2
def Tim.jmpthr (t : Tim) : Nat := row t.sets 3
def Tim.lockthr (t : Tim) : Nat := row t.sets 5
def Tim.slewMax (t : Tim) : Rat := (row t.sets 7 : Rat) / 1000000
def Tim.hold (t : Tim) : Bool := row t.sets 8 = 1
def Tim.freeAdj (t : Tim) : Rat := (rowInt t.sets 9 : Rat) / 1000000000

/-- The module's clock identity (R207). -/
def State.clockId (s : State) : W64 := if row s.tim.sets 11 = 0 then Config.clockId else BitVec.ofNat 64 (row s.tim.sets 11)

/-- The clamp of R216: 250 ppm. -/
def rateMax : Rat := 250 / 1000000

/-- An offset in ns (samples hold units of 2^-8 ns, R215). -/
def offNs (v : W64) : Rat := (v.toInt : Rat) / 256

/-- The absolute value of a rational. -/
def ratAbs (q : Rat) : Rat := if q < 0 then -q else q

/-- The rate the timebase runs at: the servo's, less the slew while one runs (R199, R220). -/
def Tim.runRate (t : Tim) : Rat :=
  if t.slewLeft = 0 then t.rate else if 0 < t.slewLeft then t.rate - t.slewRate else t.rate + t.slewRate

/-- The increment of one CK_TIME edge in units of 2^-39 ns: 2 ns and a rate adjustment in steps of 2^-40 (R199). -/
def Tim.increment (t : Tim) : Nat := (2 ^ 40 + (t.runRate * 2 ^ 40).floor).toNat

/-- The 2 ns of a CK_TIME period in units of 2^-39 ns. -/
def tickUnits : Nat := 2 ^ 40

/-- One CK_TIME edge (R199). A backward step holds the timebase until its time has passed (R221); a slew goes on. -/
def Tim.tick (t : Tim) : Tim :=
  let moved := 2 * t.slewRate
  let t' := { t with
    slewLeft := if ratAbs t.slewLeft ≤ moved then 0 else if 0 < t.slewLeft then t.slewLeft - moved else t.slewLeft + moved }
  if tickUnits ≤ t.stepHold then { t with stepHold := t.stepHold - tickUnits }
  else { t' with t := t.t + (t.increment - t.stepHold), stepHold := 0 }

/-- The rate adjustment now applied, a slew's share included, in ppb (R215, R220). -/
def Tim.adj (t : Tim) : Int := (t.runRate * 1000000000).floor

/-- TSTAT (R215). -/
def Tim.tstat (t : Tim) : W32 :=
  place t.st.1 29 3 ||| bitAt 32 28 t.jumpPend ||| place t.tsrc 26 2 ||| (BitVec.ofInt 26 t.adj).setWidth 32

/-- TSTAT is written in every cluster after each servo update (R215); a change of STATE or JUMP_PEND rings it (R483). -/
def State.putTstat (s : State) : State :=
  s.each (n := 4) fun s c =>
    let old := (Vec.at s.cl c).tstat
    let s1 := s.updCl c fun k => { k with tstat := s.tim.tstat }
    if fld old 28 4 = fld s.tim.tstat 28 4 then s1 else s1.supdb c 4

/-- The WARNING TIME_FREQ_LIMIT follows the clamp (R217). -/
def State.freqWarn (s : State) : State :=
  let t := s.tim
  let on := (t.st == tAcquire || t.st == tTrack || t.st == tFine) && decide (rateMax ≤ ratAbs t.rate)
  if on && !t.warnFreq then (s.updTim fun t => { t with warnFreq := true }).warn 0x0501 (s.objAt 12 0) 0 false
  else if !on && t.warnFreq then (s.updTim fun t => { t with warnFreq := false }).warn 0x0501 (s.objAt 12 0) 0 true
  else s

/-- The servo enters a state: run counts restart, TIME_HOLDOVER clears when HOLDOVER is left. -/
def State.servoState (s : State) (st : Fin 6) : State :=
  let t := s.tim
  let s1 := s.updTim fun t => { t with st := st, runLow := 0, runQuarter := 0, runHigh := 0, runBig := 0, runCalm := 0 }
  let s2 := if t.warnHold && st != tHoldover then
      (s1.updTim fun t => { t with warnHold := false }).warn 0x0500 (s.objAt 12 0) 0 true
    else s1
  s2.freqWarn.putTstat

/-- The mean of rationals. -/
def ratMean (xs : List Rat) : Rat := xs.foldl (· + ·) 0 / (xs.length : Rat)

/-- Entering HOLDOVER (R217): the mean of the last 16 rates applied in TRACK or FINE, or the present rate. -/
def State.enterHoldover (s : State) : State :=
  if s.tim.st == tHoldover then s
  else
    let r := if s.tim.hist.length < 16 then s.tim.rate else ratMean (s.tim.hist.take 16)
    let s1 := s.updTim fun t => { t with
      rate := r, jumpPend := false, lastAt := none, avg := [], warnHold := true, ctr := t.ctr.inc cHoldover }
    (s1.servoState tHoldover).warn 0x0500 (s.objAt 12 0) 0 false

/-- The payload of TIME_JUMP_REFUSED (R463). -/
def Tim.jumpPayload (t : Tim) : List Byte :=
  leBytes 8 t.offset.toNat ++ leBytes 1 t.tsrc ++ leBytes 1 t.srcCl ++ leBytes 1 t.st.1 ++ leBytes 1 0 ++ leBytes 4 t.jumpCount.toNat

/-- The payload of a notification still waiting is replaced (R219). -/
def State.renotify (s : State) (code : Nat) (target : W16) (payload : List Byte) : State :=
  s.each (n := 8) fun s n =>
    let x := Vec.at s.mbx n
    if x.outq.any (fun q => q.held && q.code = BitVec.ofNat 16 code && q.target = target) then
      s.notifyChan n { code := BitVec.ofNat 16 code, tag := 0, status := 0, detail := 1, target := target, payload := payload, held := true }
    else s

/-- A milestone that the timebase has reached, by signed difference (R203, R229). -/
def Engine.msDue (g : Engine) (now : W64) : Bool := g.milestone && decide (0 ≤ timeDiff (now.setWidth 32) g.ms)

/-- Every armed milestone that is due fires once: EVP bit 1 (R222, R229). -/
def State.fireDue (s : State) : State :=
  s.each (n := 16) fun s e =>
    if (Vec.at s.eng e).msDue s.ns then (s.updEng e fun g => { g with milestone := false }).evp e 1 else s

/-- A step that removes an offset (R221): forward at once, and the milestones it passes fire (R222); backward by holding the
timebase, for longer when a step holds it already. Later SYNC_OUT pulses fall on the new instants. What a slew had still to
remove goes with the offset. -/
def State.step_ (s : State) (o : Rat) : State :=
  let u := (ratAbs o * 2 ^ 39).floor.toNat
  let s1 := s.updTim fun t => { t with
    t := if o < 0 then t.t + u else t.t, stepHold := if o < 0 then t.stepHold else t.stepHold + u
    ctr := t.ctr.inc cTimeSteps, slewLeft := 0, jumpPend := false, lastAt := none, avg := [] }
  let s2 := if o < 0 then s1.updTim fun t => { t with
      syncOut := t.syncOut.map fun x => { x with last := max x.last (t.t / 2 ^ 39 - 1) } } else s1
  (s2.servoState tAcquire).fireDue

/-- Gains of a state (R217). -/
def servoKp (st : Fin 6) : Rat := if st == tAcquire then 1 / 2 else if st == tTrack then 1 / 8 else 1 / 32
def servoKi (st : Fin 6) : Rat := if st == tAcquire then 1 / 8 else if st == tTrack then 1 / 64 else 1 / 1024

/-- The rate and integral after an offset over an interval (R216): the integral is frozen while the rate is clamped. -/
def servoUpdate (st : Fin 6) (integ : Rat) (o T : Rat) : Rat × Rat :=
  let i := integ + servoKi st * o / T
  let r := i + servoKp st * o / T
  if r < -rateMax then (-rateMax, integ) else if rateMax < r then (rateMax, integ) else (r, i)

/-- Run counts after an applied offset (R217). -/
def Tim.runs (t : Tim) (o : Rat) : Tim :=
  let a := ratAbs o
  let l : Rat := t.lockthr
  { t with
    runLow := if a < l then t.runLow + 1 else 0
    runQuarter := if a < l / 4 then t.runQuarter + 1 else 0
    runHigh := if l < a then t.runHigh + 1 else 0
    runBig := if 4 * l < a then t.runBig + 1 else 0 }

/-- State changes the run counts call for (R217); during a slew the servo stays in ACQUIRE (R220). The run of samples beyond
4 × LOCKTHR goes on from FINE into TRACK. -/
def State.servoRuns (s : State) : State :=
  let t := s.tim
  if t.slewLeft ≠ 0 then s
  else if (t.st == tTrack || t.st == tFine) && 4 ≤ t.runBig then s.servoState tAcquire
  else if t.st == tAcquire && 16 ≤ t.runLow then s.servoState tTrack
  else if t.st == tTrack && 64 ≤ t.runQuarter then s.servoState tFine
  else if t.st == tFine && 2 ≤ t.runHigh then (s.servoState tTrack).updTim fun u => { u with runBig := t.runBig }
  else s

/-- One update of the loop with a sample or the mean of several (R216, R218). The first sample of a source has no
interval and only sets the reference of the next (log 21). -/
def State.servoApply (s : State) (o : Rat) (at_ : W32) : State :=
  let t := s.tim
  let T : Rat := match t.lastAt with
    | some a => (timeDiff at_ a : Rat)
    | none => 0
  let (r, i) := if 0 < T then servoUpdate t.st t.integ o T else (t.rate, t.integ)
  let s1 := s.updTim fun t => (({ t with
    rate := r, integ := i, lastAt := some at_, avg := [], ctr := t.ctr.inc cServoSamples,
    hist := if t.st == tTrack || t.st == tFine then r :: t.hist.take 15 else t.hist }).runs o)
  s1.servoRuns.freqWarn.putTstat

/-- A sample less than 100 µs after the one last applied is averaged (R218). -/
def Tim.tooSoon (t : Tim) (at_ : W32) : Bool :=
  match t.lastAt with
  | some a => decide (timeDiff at_ a < 100000)
  | none => false

/-- A sample measured, whatever becomes of it (R215). -/
def Tim.measure (t : Tim) (x : Sample) : Tim :=
  { t with
    lastOff := x.off, samples := t.samples + 1
    maxOff := if (t.maxOff.toInt.natAbs) < x.off.toInt.natAbs then BitVec.ofNat 64 x.off.toInt.natAbs else t.maxOff }

/-- The servo follows the partner over Aklos (R228). -/
def State.followsPair (s : State) : Bool := s.pair.st = 1 || s.pair.st = 3

/-- A sample from the source that steers (R215–R219, R224, R226). In FREE, and in HOLDOVER with HOLD = 1, it is only
measured, unless the module follows its partner as if TSRC = 3, whatever is set (R228). JMPTHR judges the offset less what
a slew has still to remove (R220); for the first sample of a source, it judges the offset as it stands (R219, R224). In
JUMP_WAIT a sample with NEWSRC counts as any other, and restarts neither ACQUIRE nor the run that ends JUMP_WAIT (R217 and
R224 do not say which holds: DESIGN CHOICE, log 104). -/
def State.servoSample (s : State) (x : Sample) : State :=
  let s := s.updTim fun t => { t.measure x with offset := x.off, offsetAt := x.at_ }
  let t := s.tim
  let raw := offNs x.off
  let o := raw - t.slewLeft
  let fresh := t.st == tHoldover || t.st == tFree || x.newSrc
  let far := decide ((t.jmpthr : Rat) < ratAbs (if fresh then raw else o))
  if !s.followsPair && (t.st == tFree || (t.st == tHoldover && t.hold)) then s
  else if t.freeStep then
    let s1 := s.updTim fun t => { t with freeStep := false }
    if raw = 0 then (s1.servoState tAcquire).servoApply 0 x.at_ else s1.step_ raw
  else if t.st == tJump then
    let s1 := s.updTim fun t => { t with jumpCount := t.jumpCount + 1, runCalm := if far then 0 else t.runCalm + 1 }
    let s2 := s1.renotify 0xF004 (s.objAt 12 0) s1.tim.jumpPayload
    if 4 ≤ s2.tim.runCalm then (s2.updTim fun t => { t with jumpPend := false }).servoState tAcquire else s2
  else if far then
    let s1 := s.updTim fun t => { t with jumpPend := true, jumpCount := 1, avg := [], lastAt := none, ctr := t.ctr.inc cJumpRefused }
    let s2 := (s1.servoState tJump).warn 0x0502 (s.objAt 12 0) 0 false
    s2.notify 0xF004 (s.objAt 12 0) s2.tim.jumpPayload
  else
    let s1 := if fresh then (s.updTim fun t => { t with lastAt := none, avg := [] }).servoState tAcquire else s
    if s1.tim.tooSoon x.at_ then s1.updTim fun t => { t with avg := t.avg ++ [o], ctr := t.ctr.inc cServoSamples }
    else s1.servoApply (ratMean (s1.tim.avg ++ [o])) x.at_

/-- A sample of the configured source: measured only while the module follows its partner (R228). -/
def State.sourceSample (s : State) (x : Sample) : State :=
  if s.followsPair then s.updTim (·.measure x) else s.servoSample x

/-- A personality's posted sample (R215): taken only from the cluster that is the source. -/
def State.postSample (s : State) (c : Fin 4) (x : Sample) : State :=
  if s.tim.tsrc = 1 && s.tim.srcCl = c.1 && !s.tim.stoppedSrc then
    let lost := (Vec.at s.cl c).tsBusy
    let s1 := s.updCl c fun k => { k with tsBusy := true, tsSample := some x }
    if lost then s1.tinc cServoOverrun else s1
  else s

/-- Sundom takes a waiting sample and passes it to the servo (R215, R216). -/
def State.takeSample (s : State) (c : Fin 4) : State :=
  match (Vec.at s.cl c).tsSample with
  | some x => (s.updCl c fun k => { k with tsBusy := false, tsSample := none }).sourceSample x
  | none => s

/-- Samples that wait from a source that steers no more are dropped (R225). -/
def State.dropSamples (s : State) : State :=
  s.each (n := 4) fun s c => s.updCl c fun k => { k with tsBusy := false, tsSample := none }

/-- The source personality stops or goes: HOLDOVER at once, later posts are not taken (R225). -/
def State.sourceGone (s : State) (c : Fin 4) : State :=
  if s.tim.tsrc = 1 && s.tim.srcCl = c.1 then
    let s1 := (s.updTim fun t => { t with stoppedSrc := true }).dropSamples
    if s.followsPair then s1 else s1.enterHoldover
  else s

/-- The source personality starts again: its posts are taken. -/
def State.sourceBack (s : State) (c : Fin 4) : State :=
  if s.tim.tsrc = 1 && s.tim.srcCl = c.1 then s.updTim fun t => { t with stoppedSrc := false } else s

/-- No sample for SRC_TIMEOUT (R223). -/
def srcTimeout (s : State) : State :=
  if s.tim.st == tFree then s else s.enterHoldover

/-- A slew is over (R217, R220): ACQUIRE restarts; FREE, HOLDOVER and JUMP_WAIT are left by their own conditions only. -/
def State.slewOver (s : State) : State :=
  let s1 := s.updTim fun t => { t with slewLeft := 0, lastAt := none, avg := [] }
  if s.tim.st == tFree || s.tim.st == tHoldover || s.tim.st == tJump then s1.putTstat else s1.servoState tAcquire

/-- SLEW_END: what a running slew has still to remove is removed (log 1). -/
def slewEnd (s : State) : State := if s.tim.slewLeft = 0 then s else s.slewOver

/-- STEP_HOLD_END: the rest of the hold has passed and the timebase runs on (R221, log 1). -/
def stepHoldEnd (s : State) : State := s.updTim fun t => { t with stepHold := 0 }

/-- FREE: the rate is FREE_ADJ (R217). -/
def State.goFree (s : State) : State :=
  let s1 := s.updTim fun t => { t with rate := t.freeAdj, jumpPend := false, slewLeft := 0, lastAt := none, avg := [] }
  if s.tim.st == tFree then s1.putTstat else s1.servoState tFree

/-- The source that steers changes as the module begins or ceases to follow its partner (R228): as after a change of TSRC
(R217, R225), HOLDOVER until the first sample, or FREE with TSRC = 0 (DEDUCED, log 84). `was`: the module followed before. -/
def State.sourceTurns (s : State) (was : Bool) : State :=
  if s.followsPair = was || s.tim.tsrc = 3 then s
  else if s.tim.tsrc = 0 && was then s.goFree
  else s.enterHoldover

/-- The setting changes of TIME_CONFIG that act at once (R214, R217, R225); none changes the source while the module
follows its partner (R228). `was` is the unit before the command. -/
def State.timeApplied (s : State) (was : Tim) (initStep : Option Bool) : State :=
  let s := s.updTim fun t => { t with freeStep := initStep.getD t.freeStep }
  let t := s.tim
  let moved := t.tsrc ≠ was.tsrc || t.srcCl ≠ was.srcCl
  let s := if moved then
      (s.updTim fun t => { t with stoppedSrc := t.tsrc = 1 && !(s.started (finOf 4 t.srcCl)) }).dropSamples else s
  if s.followsPair then s.putTstat
  else if t.tsrc = 0 then s.goFree
  else if was.tsrc = 0 || moved || t.hold then (s.enterHoldover).putTstat
  else s.putTstat

/-- TIME_ACCEPT_JUMP in JUMP_WAIT (R220): step or slew by the latest sample's offset. -/
def State.acceptJump (s : State) (slew : Bool) : State :=
  let o := offNs s.tim.offset
  if slew then
    (s.updTim fun t => { t with slewLeft := o, slewRate := t.slewMax, jumpPend := false, lastAt := none, avg := [] }).servoState tAcquire
  else s.step_ o

/-! ### Milestones, TNS, SYNC pins (R201, R229–R233) -/

/-- MS written: armed with the new value, whatever was armed before (R229). -/
def Engine.armMs (g : Engine) (v : W32) : Engine := { g with ms := v, milestone := true, arm := g.arm + 1 }

/-- The armed milestone fires once, when the timebase has reached it (R203, R229); `arm` names which arming the event belongs
to. -/
def milestoneFire (e : Fin 16) (arm : BitVec 2) (s : State) : State :=
  let g := Vec.at s.eng e
  if g.msDue s.ns && g.arm = arm then (s.updEng e fun g => { g with milestone := false }).evp e 1 else s

/-- A read of TNS captures TNS_HI and TNS_FRAC for the engine (R201). -/
def tnsRead (e : Fin 16) (s : State) : State :=
  s.updEng e fun g => { g with tnsHi := BitVec.ofNat 32 (s.tim.t / 2 ^ 71), tnsFrac := s.tim.frac }

/-- A read of SYNCIN_NS captures SYNCIN_AUX (R232). -/
def syncinRead (e : Fin 16) (s : State) : State :=
  let i := s.tim.syncIn
  s.updEng e fun g => { g with syncAux := place i.seq.toNat 16 16 ||| place i.frac.toNat 0 16 }

/-- The offset of an edge from the nearest instant n × PERIOD + PHASE, in units of 2^-8 ns (R232). -/
def edgeOffset (period phase ns : Nat) (frac : W16) : W64 :=
  if period = 0 then 0
  else
    let d := (ns + period - phase % period) % period
    let u : Int := (d * 256 + frac.toNat / 256 : Nat)
    if 2 * d < period then BitVec.ofInt 64 u else BitVec.ofInt 64 (u - period * 256)

/-- An edge of SYNC_IN (R232): stamped when selected and at least 100 ns after the last stamp; in mode 2 a sample. -/
def syncInEdge (rising : Bool) (ns : W64) (frac : W16) (s : State) : State :=
  let i := s.tim.syncIn
  let sel := i.edge = 2 || (i.edge = 0 && rising) || (i.edge = 1 && !rising)
  if i.mode = 0 || !sel then s
  else if i.stamped && ns.toNat * 65536 + frac.toNat < (i.stamp.toNat + 100) * 65536 + i.frac.toNat then s.tinc cSyncInLost
  else
    let s1 := s.updTim fun t => { t with syncIn := { i with stamp := ns, frac := frac, seq := i.seq + 1, stamped := true } }
    if i.mode = 2 && s.tim.tsrc = 2 then
      s1.sourceSample ⟨edgeOffset i.period.toNat i.phase.toNat ns.toNat frac, ns.setWidth 32, false⟩
    else s1

/-- The instant of the pulse of a SYNC_OUT pin that is due (R233): the latest n × PERIOD + PHASE that has not raised one, or
the time of an armed one-shot. -/
def SyncOut.due (o : SyncOut) (now : Nat) : Option Nat :=
  if o.mode = 1 then
    let at_ := (now - o.phase.toNat) / o.period.toNat * o.period.toNat + o.phase.toNat
    if o.phase.toNat ≤ now && decide (o.last < at_) then some at_ else none
  else if o.mode = 3 && o.armed && decide (o.time.toNat ≤ now) then some o.time.toNat
  else none

/-- The pin rises for WIDTH; a one-shot leaves it low after that. -/
def SyncOut.rise (o : SyncOut) (at_ : Nat) : SyncOut :=
  { o with pulses := o.pulses + 1, last := at_, high := o.width.toNat, armed := false }

/-- SYNC_OUT_PULSE: the pulse of SYNC_OUTn that is due rises (R233). -/
def syncOutPulse (i : Fin 2) (s : State) : State :=
  let o := Vec.at s.tim.syncOut i
  match o.due s.ns.toNat with
  | some at_ => s.updTim fun t => { t with syncOut := Vec.put t.syncOut i (o.rise at_) }
  | none => s

/-- The pulses that a drumbeat of a cluster raises (R233). -/
def State.beatPulses (s : State) (c : Fin 4) : State :=
  s.updTim fun t => { t with syncOut := t.syncOut.map fun o =>
    if o.mode = 2 && o.cluster.toNat = c.1 then o.rise s.ns.toNat else o }

/-- One CK_TIME edge at the time unit: the timebase, the end of a slew, the milestones that fall due, the SYNC_OUT pins
(R199, R220, R221, R229, R233). -/
def State.timeTick (s : State) : State :=
  let s1 := s.updTim fun t => { t.tick with syncOut := t.syncOut.map fun o => { o with high := o.high - 2 } }
  let s2 := if s.tim.slewLeft ≠ 0 && s1.tim.slewLeft = 0 then s1.slewOver else s1
  (allFin 2).foldl (fun s i => syncOutPulse i s) s2.fireDue

end Sys2Proof.Machine
end

