-- ==== Sys2Proof/Machine/Frame.lean ====
section
/-!
DEFINITION. Frames: Ethernet and Drumline headers, datagrams (R240–R249), checksums (R164, R165) and small codes.
-/
namespace Sys2Proof.Machine

/-- The octet at an offset, 0 beyond the end. -/
def octet (bs : List Byte) (i : Nat) : Byte := bs.getD i 0

/-- One step of a CRC of width `w` (most significant bit first). -/
def crcStep (w : Nat) (poly r : Nat) (bit : Bool) : Nat :=
  let top := (r / 2 ^ (w - 1) % 2 = 1) != bit
  let sh := r * 2 % 2 ^ w
  if top then sh ^^^ poly else sh

/-- The bits of an octet, most significant first. -/
def bitsMsb (b : Byte) : List Bool := (List.range 8).map fun i => b.getLsbD (7 - i)
/-- The bits of an octet, least significant first. -/
def bitsLsb (b : Byte) : List Bool := (List.range 8).map fun i => b.getLsbD i

/-- A CRC over octets, most significant bit first. -/
def crcMsb (w poly init : Nat) (bs : List Byte) : Nat :=
  bs.foldl (fun r b => (bitsMsb b).foldl (crcStep w poly) r) init

/-- HCHK: CRC-8 with polynomial 0x07 and initial value 0 (R244). -/
def crc8 (bs : List Byte) : Byte := BitVec.ofNat 8 (crcMsb 8 0x07 0 bs)

/-- The polynomial of CRC-64 of ECMA-182 (R325; log 22). -/
def ecmaPoly : Nat := 0x42F0E1EBA9EA3693

/-- Fold octets into a digest (R325). -/
def digestFold (d : W64) (bs : List Byte) : W64 := BitVec.ofNat 64 (crcMsb 64 ecmaPoly d.toNat bs)

/-- Ones' complement sum of octets as 16-bit words, most significant octet first (R164). -/
def onesSum : List Byte → Nat
  | [] => 0
  | [a] => a.toNat * 256
  | a :: b :: r => a.toNat * 256 + b.toNat + onesSum r

/-- Fold a sum into 16 bits. -/
def onesFold (n : Nat) : Nat := if n = 0 then 0 else if n % 65535 = 0 then 65535 else n % 65535

/-- The Internet checksum of octets. -/
def inetSum (n : Nat) : Nat := 65535 - onesFold n

/-! ### Ethernet (R156–R159) -/

/-- What the MAC reads of a frame (R158, R159). -/
structure Eth where
  dst : BitVec 48
  src : BitVec 48
  tagged : Bool
  tci : Nat
  etype : Nat
  body : Nat
deriving DecidableEq, Repr

/-- Parse a frame without FCS; only C-VLAN tags are parsed. -/
def parseEth (bs : List Byte) : Eth :=
  let e := beAt bs 12 2
  let base := Eth.mk (BitVec.ofNat 48 (beAt bs 0 6)) (BitVec.ofNat 48 (beAt bs 6 6))
  if e = 0x8100 then base true (beAt bs 14 2) (beAt bs 16 2) 18 else base false 0 e 14

/-- Broadcast. -/
def broadcast : BitVec 48 := 0xFFFFFFFFFFFF

/-- What R164 asks of a frame: the IPv4 header's offset and length, when the frame is checked at all. A header that is longer than
the frame is not checked (DESIGN CHOICE, log 102). -/
def ipv4At (bs : List Byte) : Option (Nat × Nat) :=
  let e := parseEth bs
  let ihl := fld (octet bs e.body) 0 4
  if e.etype = 0x0800 && 5 ≤ ihl && e.body + 4 * ihl ≤ bs.length then some (e.body, 4 * ihl) else none

/-- The UDP or TCP segment that may be checked (R164): protocol, offset, length; none for fragments and others. -/
def l4At (bs : List Byte) : Option (Nat × Nat × Nat) :=
  match ipv4At bs with
  | none => none
  | some (o, h) =>
    let proto := (octet bs (o + 9)).toNat
    let frag := beAt bs (o + 6) 2
    if frag % 8192 = 0 && frag / 8192 % 2 = 0 && (proto = 6 || proto = 17) then
      some (proto, o + h, beAt bs (o + 2) 2 - h)
    else none

/-- Sum of the pseudo-header and a segment. -/
def l4Sum (bs : List Byte) (ip proto off len : Nat) : Nat :=
  onesSum (slice bs (ip + 12) 8) + proto + len + onesSum (slice bs off len)

/-- Receive checksum status IP4 and L4 (R164). -/
def rxChecks (bs : List Byte) : Nat × Nat :=
  match ipv4At bs with
  | none => (0, 0)
  | some (o, h) =>
    let ip4 := if onesFold (onesSum (slice bs o h)) = 65535 then 1 else 2
    match l4At bs with
    | none => (ip4, 0)
    | some (proto, off, len) =>
      if bs.length < off + len then (ip4, 3)
      else if proto = 17 && beAt bs (off + 6) 2 = 0 then (ip4, 0)
      else if onesFold (l4Sum bs o proto off len) = 65535 then (ip4, if proto = 17 then 1 else 2) else (ip4, 3)

/-- Write the IPv4 header checksum, if R164's conditions hold. -/
def putIpSum (bs : List Byte) : Option (List Byte) :=
  (ipv4At bs).map fun (o, h) =>
    let z := putBytes bs (o + 10) [0, 0]
    putBytes z (o + 10) (beBytes 2 (inetSum (onesSum (slice z o h))))

/-- The FCS of a frame, as it stands on the line. -/
def fcsOctets (bs : List Byte) : List Byte := leBytes 4 (crc32 bs)

/-- Write the UDP (17) or TCP (6) checksum (R165); frames of at most 4096 octets, FCS included. -/
def putL4Sum (bs : List Byte) (want : Nat) : Option (List Byte) :=
  match ipv4At bs, l4At bs with
  | some (o, _), some (proto, off, len) =>
    if proto = want && off + len ≤ bs.length && bs.length + 4 ≤ 4096 then
      let at_ := off + (if proto = 17 then 6 else 16)
      let z := putBytes bs at_ [0, 0]
      let v := inetSum (l4Sum z o proto off len)
      some (putBytes z at_ (beBytes 2 (if proto = 17 && v = 0 then 65535 else v)))
    else none
  | _, _ => none

/-- Insert a C-VLAN tag after the source address (R194). -/
def putTag (bs : List Byte) (pcp vid : Nat) : List Byte :=
  bs.take 12 ++ beBytes 2 0x8100 ++ beBytes 2 (pcp * 8192 + vid) ++ bs.drop 12

/-- Pad to 60 octets (R169). -/
def padFrame (bs : List Byte) : List Byte := bs ++ List.replicate (60 - bs.length) 0

/-! ### Event messages (R207–R212) -/

/-- The offset of a PTP message in a frame, by the port's settings: in EtherType 0x88F7, or UDP/IPv4 port 319. -/
def ptpAt (bs : List Byte) (eth udp : Bool) : Option (Nat × Bool) :=
  let e := parseEth bs
  if eth && e.etype = 0x88F7 then some (e.body, false)
  else if udp then
    match l4At bs with
    | some (17, off, _) => if beAt bs (off + 2) 2 = 319 then some (off + 8, true) else none
    | _ => none
  else none

/-- Add to correctionField (units of 2^-16 ns). -/
def addCorrection (bs : List Byte) (o : Nat) (v : Int) : List Byte :=
  putBytes bs (o + 8) (beBytes 8 (BitVec.ofInt 64 ((BitVec.ofNat 64 (beAt bs (o + 8) 8)).toInt + v)).toNat)

/-! ### The drum frame (R240–R244) -/

/-- Header fields of a frame with the Drumline EtherType. -/
def dfVer (bs : List Byte) : Nat := fld (octet bs 14) 4 4
def dfType (bs : List Byte) : Nat := fld (octet bs 14) 0 4
def dfRoute (bs : List Byte) : Nat := fld (octet bs 15) 5 3
def dfTurned (bs : List Byte) : Bool := (octet bs 15).getLsbD 4
def dfOrig (bs : List Byte) : Bool := (octet bs 15).getLsbD 3
def dfCycle (bs : List Byte) : W16 := BitVec.ofNat 16 (beAt bs 16 2)
def dfSeq (bs : List Byte) : W16 := BitVec.ofNat 16 (beAt bs 18 2)
def dfHops (bs : List Byte) : Nat := (octet bs 20).toNat
def dfFrame (bs : List Byte) : Fin 4 := finOf 4 (octet bs 21).toNat

/-- The frame as a node forwards it: HOPS one more. -/
def dfHop (bs : List Byte) : List Byte := putBytes bs 20 [octet bs 20 + 1]
/-- The frame turned (R238). -/
def dfTurn (bs : List Byte) : List Byte := putBytes bs 15 [octet bs 15 ||| 0x10]

/-- A datagram of a frame: where it starts, and its fields (R244). -/
structure DgHead where
  pos : Nat
  laddr : W32
  cmd : Nat
  na : Bool
  len : Nat
  texp : W16
  dtag : W16
  endBit : Bool
deriving DecidableEq, Repr

/-- Where a datagram's data and tally lie. -/
def DgHead.data (d : DgHead) : Nat := d.pos + 12
def DgHead.tally (d : DgHead) : Nat := d.pos + 12 + d.len

/-- The fields at a position. -/
def dgHead (bs : List Byte) (pos : Nat) : DgHead :=
  let dl := beAt bs (pos + 4) 2
  { pos := pos, laddr := BitVec.ofNat 32 (beAt bs pos 4), cmd := dl / 4096, na := dl / 2048 % 2 = 1, len := dl % 2048,
    texp := BitVec.ofNat 16 (beAt bs (pos + 6) 2), dtag := BitVec.ofNat 16 (beAt bs (pos + 8) 2),
    endBit := (octet bs (pos + 10)).getLsbD 7 }

/-- A datagram is malformed (R248); `n` datagrams stand before it. -/
def dgMalformed (bs : List Byte) (d : DgHead) (n : Nat) : Bool :=
  decide (32 ≤ n) || decide (bs.length < d.pos + 12) || decide (8 < d.cmd) ||
  (d.na && d.cmd != 1 && d.cmd != 2) || fld (octet bs (d.pos + 10)) 0 7 != 0 ||
  crc8 (slice bs d.pos 11) != octet bs (d.pos + 11) || decide (bs.length < d.tally + 2) ||
  (!d.endBit && decide (bs.length < d.tally + 2 + 12))

/-- The datagrams of a frame up to the end or the first malformed one, and whether one is malformed. -/
def datagrams (bs : List Byte) : Nat → Nat → Nat → List DgHead × Bool
  | 0, _, _ => ([], true)
  | k + 1, pos, n =>
    let d := dgHead bs pos
    if dgMalformed bs d n then ([], true)
    else if d.endBit then ([d], false)
    else
      let (r, m) := datagrams bs k (d.tally + 2) (n + 1)
      (d :: r, m)

/-- The datagrams of a drum frame (R244, R248). -/
def dfDatagrams (bs : List Byte) : List DgHead × Bool := datagrams bs 33 22 0

/-- The tally field. -/
def tallyOf (bs : List Byte) (d : DgHead) : Nat := beAt bs d.tally 2
/-- The tally with a weight added, saturating (R246). -/
def addTally (bs : List Byte) (d : DgHead) (w : Nat) : List Byte :=
  if w = 0 then bs else putBytes bs d.tally (beBytes 2 (satTo 0xFFFF (tallyOf bs d + w)))

/-! ### Mapping (R249, R250) -/

/-- A mapping entry. -/
structure MapEntry where
  ix : Nat
  laddr : Nat
  len : Nat
  give : Bool
  spad : Nat
deriving DecidableEq, Repr

/-- The entries in use (R447: MAP gives their number). -/
def Dl.entries (d : Dl) : List MapEntry :=
  (List.range (satTo 1024 (row d.sets 20))).map fun i =>
    let b := memReadN d.maps (16 * i) 16
    { ix := i, laddr := leAt b 0 4, len := leAt b 4 2 % 2048, give := octet b 6 = 1, spad := leAt b 8 4 }

/-- The scratchpad offset of a half of an entry (R250). -/
def MapEntry.half (m : MapEntry) (h : Nat) : Nat := m.spad + h * (8 * ((m.len + 7) / 8))

/-- The part of a datagram that an entry covers: offset in the datagram, offset in the entry, octets. -/
def MapEntry.overlap (m : MapEntry) (d : DgHead) : Option (Nat × Nat × Nat) :=
  let a := d.laddr.toNat
  let lo := max a m.laddr
  let hi := min (a + d.len) (m.laddr + m.len)
  if lo < hi then some (lo - a, lo - m.laddr, hi - lo) else none

end Sys2Proof.Machine
end

