-- ==== Sys2Proof/Machine/Drum.lean ====
section
/-!
DEFINITION. The Drumline personality: who processes a drum frame, the action on each datagram, records, the duplicate
window, election and device states, time on the drum (chapter 08) and route agreement (chapter 09).
-/
namespace Sys2Proof.Machine

/-- Roles of a Drumline personality (R258). -/
inductive DlRole where
  | controller | device | hub
deriving DecidableEq, Repr

/-- The role that a personality ID gives (R235). -/
def roleOfId (id : W16) : Option DlRole :=
  if id = 1 then some .controller else if id = 2 then some .device else if id = 3 then some .hub else none

/-- The role of a cluster's personality. -/
def Cluster.role (k : Cluster) : Option DlRole := roleOfId k.id

/-- Settings of R236. -/
def Dl.etype (d : Dl) : Nat := row d.sets 1
def Dl.topo (d : Dl) : Nat := row d.sets 3
def Dl.portA (d : Dl) : Nat := rowLo d.sets 4
def Dl.portB (d : Dl) : Nat := rowHi d.sets 4
def Dl.node (d : Dl) : Nat := row d.sets 5
def Dl.prio (d : Dl) : Nat := row d.sets 6
def Dl.ct (d : Dl) : Nat := row d.sets 7
def Dl.phase (d : Dl) : Nat := row d.sets 8
def Dl.naBase (d : Dl) : Nat := row d.sets 19

/-- States of a controller (R273) and of a device or hub (R274). -/
abbrev dStopped : Fin 5 := 0
abbrev dListen : Fin 5 := 1
abbrev dClaim : Fin 5 := 2
abbrev dMaster : Fin 5 := 3
abbrev dBackup : Fin 5 := 4
abbrev dSeek : Fin 5 := 1
abbrev dSync : Fin 5 := 2
abbrev dRun : Fin 5 := 3
abbrev dSafe : Fin 5 := 4

/-- A drum port's place: port A, port B, or a hub branch. -/
inductive Side where
  | a | b
  | branch (i : Fin 8)
deriving DecidableEq, Repr

/-- The branch of a hub on a port (R281). -/
def Dl.branchOf (d : Dl) (p : Fin 12) : Option (Fin 8) :=
  (allFin 8).find? fun b => (Vec.at d.branchPorts b).toNat = p.1

/-- The Drumline personality, role and side of a drum port. -/
def State.drumAt (s : State) (p : Fin 12) : Option (Fin 4 × DlRole × Side) :=
  match (Vec.at s.port p).owner with
  | none => none
  | some c =>
    let k := Vec.at s.cl c
    match k.role with
    | none => none
    | some r =>
      if k.dl.portA = p.1 then some (c, r, .a)
      else if k.dl.portB = p.1 then some (c, r, .b)
      else if r = .hub then (k.dl.branchOf p).map fun b => (c, r, .branch b)
      else none

/-- A port by number, when it exists. -/
def portNo (n : Nat) : Option (Fin 12) := if h : n < 12 then some ⟨n, h⟩ else none

/-- A port is in UP. -/
def State.isUp (s : State) (p : Fin 12) : Bool := (Vec.at s.port p).st == pUp

/-- A port that carries a cluster's drum frames: joined to it, and in UP. -/
def State.carries (s : State) (c : Fin 4) (p : Fin 12) : Bool := s.isUp p && (Vec.at s.port p).owner == some c

/-- The other drum port, when it is in UP. -/
def State.otherPort (s : State) (c : Fin 4) (side : Side) : Option (Fin 12) :=
  let d := (Vec.at s.cl c).dl
  let o := match side with
    | .a => portNo d.portB
    | .b => portNo d.portA
    | .branch _ => none
  o.filter fun p => s.carries c p

/-- A frame of the wayside unit's own joins a port's outgoing control frames, and wakes a transmitter in LPI (R148). -/
def State.emitCtrl (s : State) (p : Fin 12) (bytes : List Byte) (fcs : Fcs) : State :=
  s.updPort p fun x => { x with lpiTx := false, ctrlOut := x.ctrlOut ++ [⟨bytes, fcs, .frame⟩] }

/-- The timebase in ns at a stamp in units of 2^-16 ns (R260), near the present time. -/
def State.stampNs (s : State) (v : W64) : Int :=
  let now := s.ns.toNat
  now + (BitVec.ofNat 48 (v.toNat / 2 ^ 16) - BitVec.ofNat 48 now).toInt

/-- Nanoseconds from the drumbeat of the running cycle to a stamp. -/
def State.sinceDrumbeat (s : State) (c : Fin 4) (v : W64) : Int :=
  let k := Vec.at s.cl c
  s.stampNs v - (k.cycle.toInt * k.period + k.phaseNs)

/-- The duration of a frame in ns at a speed code: octets and preamble (R254). -/
def frameNs (speed : BitVec 4) (octets : Nat) : Nat :=
  let tenth := if speed = 1 then 8000 else if speed = 2 then 800 else if speed = 3 then 80 else if speed = 4 then 32 else 0
  ((octets + 8) * tenth + 9) / 10

/-! ### The line of a drum port (R167, R173, R177, R255) -/

/-- Preemption is active (R172). -/
def Port.preempts (x : Port) : Bool := x.mm = 2
/-- A class is preemptable while preemption is active. -/
def Port.preemptable (x : Port) (cls : Nat) : Bool := x.preempts && (row x.pre 2 / 2 ^ cls) % 2 = 1

/-- Octets of a frame already on the line at a stamp (R173). -/
def TxRun.progress (t : TxRun) (speed : BitVec 4) (stamp : W64) : Nat :=
  let ns := (stamp - t.since).toNat / 65536
  let per := frameNs speed 92
  t.sent + (if per = 0 then 0 else ns * 100 / per)

/-- Octets of a frame as sent, with the FCS that the MAC appends. -/
def TxRun.total (t : TxRun) : Nat := t.bytes.length + if t.nofcs then 0 else 4

/-- The preemptable frame on the line is preempted, where the fragment rules allow it, by an express or drum frame or as a
hold: the fragment ends with its mCRC (R173). -/
def State.preempt (s : State) (p : Fin 12) (stamp : W64) (hold : Bool) : State :=
  let x := Vec.at s.port p
  match x.tx with
  | none => s
  | some t =>
    let least := 64 * (1 + row x.pre 3) - 4
    let sent := max (t.progress x.speed stamp) (t.sent + least)
    if !x.preempts || !t.pre || t.total ≤ 64 * row x.pre 3 + 123 || t.total < sent + 64 then s
    else s.updPort p fun x => { x with
      wire := some (t.line false sent .good)
      tx := none, preempted := some { t with sent := sent, held := hold }, ctr := x.ctr.inc cTxFrag }

/-- A frame passes out of a port's wayside unit at a stamp. Its passage counts for the next cycle's window, from the start of
its preamble (R255); in the first cycle after a switch it closes the window that stands open (R301); a transmitter in LPI
wakes (R148). -/
def State.passOut (s : State) (p : Fin 12) (w : WireFrame) (tx : W64) : State :=
  let x := Vec.at s.port p
  let (start, guard) := match x.owner with
    | some c => (s.sinceDrumbeat c tx - frameNs x.speed 0, row (Vec.at s.cl c).dl.sets 16)
    | none => (0, 0)
  let stop := start + frameNs x.speed (w.bytes.length + 4)
  s.updPort p fun x => { x with
    wire := some w, lpiTx := false
    ways := { x.ways with
      passed := x.ways.passed ++ [(start, stop)], windows := if x.ways.first then [(0, stop + guard)] else x.ways.windows } }

/-- The stamp of the present time, in units of 2^-16 ns. -/
def State.nowStamp (s : State) : W64 := BitVec.ofNat 64 (s.tim.t / 2 ^ 23)

/-- Octets of the elastic store (R254), and what it holds of waiting frames. -/
def storeSize : Nat := 2048
def Ways.stored (w : Ways) : Nat := (w.store.map fun f => f.bytes.length + 4).foldl (· + ·) 0

/-- Nothing keeps a drum frame from a port's line: no frame on it, no pause, no drum frame that waits before it. -/
def Port.drumReady (x : Port) : Bool := x.tx.isNone && x.pauseLeft = 0 && x.ways.store.isEmpty

/-- A frame of the wayside unit is ready for a port's line (R167, R177, R255): a preemptable frame gives way, for any other
frame and for a pause it waits in the elastic store; where the store would overflow, it is cut with an inverted FCS. -/
def State.emit (s : State) (p : Fin 12) (bytes : List Byte) (fcs : Fcs) (tx : W64) : State :=
  let s := s.preempt p tx false
  let x := Vec.at s.port p
  if x.drumReady then s.passOut p ⟨bytes, fcs, .frame⟩ tx
  else
    let room := storeSize - x.ways.stored
    let cut := decide (room < bytes.length + 4)
    let w : WireFrame := if cut then ⟨bytes.take (room - 4), .inverted, .frame⟩ else ⟨bytes, fcs, .frame⟩
    let s := if x.tx.isSome then s.pinc p cDlWait else s
    let s := if cut then s.pinc p cDlStore else s
    s.updPort p fun x => { x with ways := { x.ways with store := x.ways.store ++ [w] } }

/-- What waited for a port's line goes out once nothing keeps it: the frames in the elastic store, then the copies that wait
as LAN B (R167, R177, R180; log 23). -/
def State.lineFree (s : State) (p : Fin 12) : State :=
  let x := Vec.at s.port p
  if x.st != pUp || x.tx.isSome || x.pauseLeft ≠ 0 then s
  else
    let s1 := s.updPort p fun x => { x with ways := { x.ways with store := [] }, copies := [] }
    let s2 := x.ways.store.foldl (fun s w => s.passOut p w s.nowStamp) s1
    x.copies.foldl (fun s w => s.updPort p fun x => { x with wire := some w, lpiTx := false }) s2

/-- The servo steers well enough for a device in RUN (R274). -/
def State.servoLocked (s : State) : Bool := s.tim.st == tTrack || s.tim.st == tFine

/-! ### Records (R256, R257) -/

/-- The FLAGS word of a record. -/
def recFlags (good dup turned late malformed onB : Bool) (f : Fin 4) (hops n : Nat) : W32 :=
  bitAt 32 31 good ||| bitAt 32 30 dup ||| bitAt 32 29 turned ||| bitAt 32 28 late ||| bitAt 32 27 malformed |||
    bitAt 32 26 onB ||| place f.1 24 2 ||| place hops 16 8 ||| place n 8 8

/-- Write a frame's record into the port's ring, after its takes, then EVP bit 15. -/
def State.putRecord (s : State) (c : Fin 4) (p : Fin 12) (id flags bad rxt : W32) : State :=
  let w := (Vec.at s.port p).ways
  let a := w.base.toNat * 256 + 16 * w.head.toNat
  let bs := leBytes 4 id.toNat ++ leBytes 4 flags.toNat ++ leBytes 4 bad.toNat ++ leBytes 4 rxt.toNat
  ((s.wr (.spad c) (portCode p) a bs).updPort p fun x => { x with
    ways := { x.ways with head := x.ways.head + 1, arr := rxt }
    ctr := if flags.getLsbD 31 then x.ctr.inc cDlGood else x.ctr }).evpCl c 15

/-! ### Routes (R297–R305) -/

/-- Route `n` is loaded: a device has route 0 without loading it (R298). -/
def State.routeLoaded (s : State) (c : Fin 4) (n : Fin 8) : Bool :=
  let k := Vec.at s.cl c
  (Vec.at k.dl.routes n).isSome || (k.role == some .device && n = 0)

/-- ROUTE_RESULT to subscribed sessions, and the ring of the cluster (R305, R483). -/
def State.routeResult (s : State) (c : Fin 4) (n : Fin 8) (result : Nat) (cycle : W64) : State :=
  (s.notify 0xF007 (s.objAt 1 c.1) ([BitVec.ofNat 8 n.1, BitVec.ofNat 8 result, 0, 0] ++ leBytes 4 cycle.toNat)).supdb c 2

/-- The full number of a cycle from its low 16 bits, near the running cycle. -/
def fullCycle (own : W64) (low : W16) : W64 := own + (low - own.setWidth 16).signExtend 64

/-- What a ROUTE datagram asks of a node (R302, R305): its tally weight and the new proposal. -/
def State.routeDatagram (s : State) (c : Fin 4) (op : Nat) (n : Fin 8) (sw : W16) : Nat × State :=
  let k := Vec.at s.cl c
  let d := k.dl
  let able := match k.role with
    | some .controller => d.st == dBackup
    | some _ => d.st == dRun
    | none => false
  let held := match d.proposal with
    | some q => q.committed && q.route ≠ n
    | none => false
  if op = 1 then
    if able && s.routeLoaded c n && !held then
      let keep := match d.proposal with
        | some q => q.committed
        | none => false
      (1, if keep then s else s.updDl c fun d => { d with proposal := some ⟨n, fullCycle k.cycle sw, false⟩ })
    else (0, s)
  else if op = 2 then (0, s.updDl c fun d => { d with proposal := d.proposal.map fun q => { q with committed := true } })
  else if op = 3 then
    match d.proposal with
    | some q => (0, (s.updDl c fun d => { d with proposal := none }).routeResult c q.route 1 q.cycle)
    | none => (0, s)
  else (0, s)

/-- The drum windows of the first cycle after a switch: in DW_MODE 1 they open at the drumbeat, and close after the passage
(R301). -/
def State.firstCycle (s : State) (c : Fin 4) : State :=
  let k := Vec.at s.cl c
  s.each (n := 12) fun s p =>
    match s.drumAt p with
    | some (c', _, _) =>
      if c' = c && row k.dl.sets 15 = 1 then
        s.updPort p fun x => { x with ways := { x.ways with windows := [(0, (k.period : Int))], first := true } }
      else s
    | none => s

/-- Late resolution of an uncommitted proposal on the first good frame of cycle s or later (R305). -/
def State.routeLate (s : State) (c : Fin 4) (p : Fin 12) (route : Nat) (good : Bool) : State :=
  let k := Vec.at s.cl c
  match k.dl.proposal with
  | some q =>
    if good && !q.committed && q.cycle.toInt ≤ k.cycle.toInt then
      if route = q.route.1 then
        (((s.updDl c fun d => { d with proposal := none, active := q.route }).firstCycle c).pinc p cRouteLate).routeResult
          c q.route 2 q.cycle
      else (s.updDl c fun d => { d with proposal := none }).routeResult c q.route 3 q.cycle
    else s
  | none => s

/-- A node that does not run, nor is MASTER, takes the ROUTE of the first good drum frame as its active route, provided that
route is loaded (R300); a frame whose route is not loaded leaves it to a later one (DEDUCED, log 103). -/
def State.adoptRoute (s : State) (c : Fin 4) (route : Nat) (good : Bool) : State :=
  let k := Vec.at s.cl c
  let open_ := if k.role == some .controller then k.dl.st == dListen || k.dl.st == dBackup else k.dl.st != dRun
  if open_ && good && !k.dl.routeTaken && s.routeLoaded c (finOf 8 route) then
    s.updDl c fun d => { d with active := finOf 8 route, routeTaken := true }
  else s

/-- The cycle of the newest frame that a node may use, which is GOOD, not DUP and not LATE, and the half it stands in (R265). -/
def State.noteUsable (s : State) (c : Fin 4) (lag : Int) : State :=
  let cyc := (Vec.at s.cl c).cycle - BitVec.ofInt 64 lag
  s.updDl c fun d =>
    if d.usable.any fun u => decide (cyc.toInt < u.1.toInt) then d else { d with usable := some (cyc, cyc.getLsbD 0) }

/-! ### Datagrams at a node (R245–R248, R260) -/

/-- What a pass over a frame needs to know. -/
structure Pass where
  c : Fin 4
  p : Fin 12
  role : DlRole
  takes : Bool
  half : Nat
  rx : W64
  tx : W64
deriving DecidableEq, Repr

/-- A pass in progress: the state, the frame's octets, and whether a give met an uncorrectable word. -/
structure Passing where
  s : State
  bytes : List Byte
  bad : Bool

/-- The mapping entries a route leaves active (R297, R298). -/
def Dl.activeEntries (d : Dl) : List MapEntry :=
  match Vec.at d.routes d.active with
  | some r => d.entries.filter fun m => r.entries.getLsbD m.ix
  | none => d.entries

/-- Store the arriving octets through the take entries. -/
def Passing.take (x : Passing) (c : Fin 4) (p : Fin 12) (ms : List MapEntry) (d : DgHead) (half : Nat) (orIn : Bool) : Passing :=
  ms.foldl (fun x m =>
    match m.overlap d with
    | some (dOff, eOff, n) =>
      let a := m.half half + eOff
      let v := slice x.bytes (d.data + dOff) n
      let v := if orIn then (v.zip (x.s.peek (.spad c) a n)).map fun q => q.1 ||| q.2 else v
      { x with s := x.s.wr (.spad c) (portCode p) a v }
    | none => x) x

/-- Where the data of a node-addressed datagram lies in a node's area (R247). -/
def Dl.naAt (l : Dl) (d : DgHead) : Option Nat :=
  let off := fld d.laddr 0 12
  if l.naBase ≠ 0xFFFFFFFF && fld d.laddr 12 12 = 0 && off + d.len ≤ 4096 then some (l.naBase + off) else none

/-- Replace, or OR into, the octets that give entries cover. -/
def Passing.give (x : Passing) (c : Fin 4) (p : Fin 12) (ms : List MapEntry) (d : DgHead) (half : Nat) (orOut : Bool) : Passing :=
  ms.foldl (fun x m =>
    match m.overlap d with
    | some (dOff, eOff, n) =>
      let ((v, bad), s) := x.s.rd (.spad c) (portCode p) (m.half half + eOff) n
      let v := if orOut then (v.zip (slice x.bytes (d.data + dOff) n)).map fun q => q.1 ||| q.2 else v
      { s := s, bytes := putBytes x.bytes (d.data + dOff) v, bad := x.bad || bad }
    | none => x) x

/-- A tally's weight is written unless the node is silent (R246, R294). -/
def Passing.tally (x : Passing) (d : DgHead) (w : Nat) (silent : Bool) : Passing :=
  if silent then x else { x with bytes := addTally x.bytes d w }

/-- The wayside unit posts a sample through the registers of R215 when its cluster is the servo source (R262). -/
def State.wayPost (s : State) (c : Fin 4) (off : W64) (at_ : W32) : State :=
  if s.tim.tsrc = 1 && s.tim.srcCl = c.1 then
    (s.updCl c fun k => { k with tsOffLo := off.setWidth 32, tsOffHi := (off >>> 32).setWidth 32, tsAt := at_ }).postSample c
      ⟨off, at_, false⟩
  else s

/-- A TIME datagram (R260): ACCUM on its way, and the sample it makes when the personality is the servo source (R262). -/
def Passing.time (x : Passing) (w : Pass) (d : DgHead) : Passing :=
  if d.len ≠ 16 then x
  else
    let origin := BitVec.ofNat 64 (beAt x.bytes d.data 8)
    let accum := BitVec.ofNat 64 (beAt x.bytes (d.data + 8) 8)
    let link : W64 := (Vec.at x.s.port w.p).ways.ldly.setWidth 64 * 256
    let o := w.rx - (origin * 65536 + accum + link)
    let s := x.s.wayPost w.c (o.sshiftRight 8) (BitVec.ofNat 32 (w.rx.toNat / 2 ^ 16))
    { x with s := s, bytes := putBytes x.bytes (d.data + 8) (beBytes 8 (accum + link + (w.tx - w.rx)).toNat) }

/-- The action of a node on one datagram (R245): of a device, or of a BACKUP controller, which forwards as one (R273); of a
hub under R282. -/
def Passing.act (w : Pass) (x : Passing) (d : DgHead) : Passing :=
  let dl := (Vec.at x.s.cl w.c).dl
  let silent := dl.silent
  let dev := w.role != .hub
  let ms := match w.role with
    | .device => dl.activeEntries
    | .controller => dl.entries
    | .hub => []
  let takes := ms.filter fun m => !m.give && (m.overlap d).isSome
  let gives := ms.filter fun m => m.give && (m.overlap d).isSome
  if d.na then
    match dl.naAt d with
    | some a =>
      if !dev || d.laddr.toNat / 2 ^ 24 ≠ dl.node then x
      else if d.cmd = 1 then
        if silent then x
        else
          let ((v, bad), s) := x.s.rd (.spad w.c) (portCode w.p) a d.len
          ({ s := s, bytes := putBytes x.bytes d.data v, bad := x.bad || bad } : Passing).tally d 1 silent
      else
        let x := if w.takes then { x with s := x.s.wr (.spad w.c) (portCode w.p) a (slice x.bytes d.data d.len) } else x
        x.tally d 1 silent
    | none => x
  else
    let giveOr := fun (x : Passing) (o : Bool) => if silent then x else x.give w.c w.p gives d w.half o
    let take := fun (x : Passing) => if w.takes then x.take w.c w.p takes d w.half false else x
    match d.cmd with
    | 1 => (giveOr x false).tally d (bit (!gives.isEmpty)) silent
    | 2 => (take x).tally d (bit (!takes.isEmpty)) silent
    | 3 => (giveOr (take x) false).tally d (bit (!gives.isEmpty || !takes.isEmpty)) silent
    | 4 => (giveOr x true).tally d (bit (!gives.isEmpty)) silent
    | 5 => x.tally d 1 silent
    | 6 =>
      if d.len = 8 then
        let bs := x.bytes
        let s := if w.role == .device && dfFrame bs = 0 then
            x.s.updDl w.c fun l => { l with guardIn := BitVec.ofNat 16 (beAt bs (d.data + 4) 2) }
          else x.s
        let (wt, s) := s.routeDatagram w.c (octet bs d.data).toNat (finOf 8 (octet bs (d.data + 1)).toNat)
          (BitVec.ofNat 16 (beAt bs (d.data + 2) 2))
        ({ x with s := s } : Passing).tally d wt silent
      else x
    | 7 => (x.time w d).tally d 1 silent
    | 8 =>
      let i := dl.node
      let x := if dl.evtPend && !silent && i < 8 * d.len && dev then
          { x with bytes := putBytes x.bytes (d.data + i / 8) [octet x.bytes (d.data + i / 8) ||| bitAt 8 (i % 8) true] }
        else x
      x.tally d 1 silent
    | _ => x

/-- The actions of a hub: CNT, ROUTE and the tally of TIME; its other datagrams pass unchanged (R282). -/
def Passing.actHub (w : Pass) (x : Passing) (d : DgHead) : Passing :=
  if d.cmd = 5 || d.cmd = 6 || d.cmd = 7 then x.act w d else x

/-! ### The duplicate window (R269) -/

/-- What the window says of a sequence number: duplicate, too old; and the window after it. -/
def Dl.seqTest (d : Dl) (seq : W16) : Bool × Bool × Dl :=
  match d.newest with
  | none => (false, false, { d with newest := some seq, seen := 1 })
  | some n =>
    let k := (seq - n).toInt
    if 0 < k then (false, false, { d with newest := some seq, seen := (d.seen <<< k.toNat) ||| 1 })
    else if -128 < k then
      if d.seen.getLsbD k.natAbs then (true, false, d) else (false, false, { d with seen := d.seen ||| bitAt 128 k.natAbs true })
    else (true, true, d)

/-- The newer of the newest SEQ seen and another one (R268, R269). -/
def Dl.newerSeq (d : Dl) (seq : W16) : W16 :=
  match d.newest with
  | some n => if (seq - n).toInt < 0 then n else seq
  | none => seq

/-- The window is cleared (R269). -/
def Dl.clearWindow (d : Dl) : Dl := { d with newest := none, seen := 0, hubSeen := [] }

/-! ### Self-silencing (R294) -/

/-- The device falls silent when its latest servo offset exceeds GUARD / 2, and counts it once per cycle. -/
def State.silenceCheck (s : State) (c : Fin 4) : State :=
  let k := Vec.at s.cl c
  let off := (BitVec.ofNat 64 s.tim.lastOff.toNat).toInt.natAbs
  let g := k.dl.guardIn.toNat
  let far := k.role == some .device && k.st == .started && k.dl.st != dStopped && g ≠ 0 && decide (g * 256 < 2 * off)
  let s1 := if far && !k.dl.silent then
      (s.updDl c fun d => { d with silent := true, silentCount := 0 }).warn 0x060A (s.objAt 1 c.1) 0 false
    else s
  if (far || k.dl.silent) && k.dl.silentCycle ≠ some k.cycle then
    match portNo k.dl.portA with
    | some p => (s1.updDl c fun d => { d with silentCycle := some k.cycle }).pinc p cDlSilent
    | none => s1
  else s1

/-- A servo sample at a silent device: it resumes after 4 consecutive samples of at most GUARD / 4 (R294). -/
def State.silenceSample (s : State) (c : Fin 4) : State :=
  let k := Vec.at s.cl c
  if k.dl.silent then
    let off := s.tim.lastOff.toInt.natAbs
    let calm := decide (4 * off ≤ k.dl.guardIn.toNat * 256)
    let n := if calm then k.dl.silentCount + 1 else 0
    let s1 := s.updDl c fun d => { d with silentCount := n }
    if 4 ≤ n then (s1.updDl c fun d => { d with silent := false, silentCount := 0 }).warn 0x060A (s.objAt 1 c.1) 0 true
    else s1.silenceCheck c
  else s.silenceCheck c

/-! ### States of controllers, devices and hubs (R273, R274) -/

/-- The outputs of a device as SUBST has them outside RUN: zeros, or the octets last applied (R236, R274). -/
def Dl.subst (d : Dl) : Dl :=
  if row d.sets 14 = 0 then { d with outs := d.outs.map fun o => List.replicate o.length 0 } else d

/-- A device or hub leaves for a state other than RUN: its outputs stand as SUBST says (R274, R277); SEEK and SAFE clear the
duplicate window. -/
def State.dlState (s : State) (c : Fin 4) (st : Fin 5) : State :=
  s.updDl c fun d =>
    let d := { d.subst with st := st, goodRun := 0, missed := 0, agreed := false, routeTaken := d.routeTaken && d.st != dRun }
    if st == dSeek || st == dSafe then d.clearWindow else d

/-- A device or hub in SYNC or SAFE enters RUN with the servo in TRACK or FINE and 2 consecutive good frames of the current
cycle (R274). -/
def State.dlRun (s : State) (c : Fin 4) : State :=
  let l := (Vec.at s.cl c).dl
  if (l.st == dSync || l.st == dSafe) && s.servoLocked && 2 ≤ l.goodRun then
    s.updDl c fun l => { l with st := dRun, missed := 0 }
  else s

/-- The servo leaves TRACK and FINE, and RUN falls back to SYNC; or it steers again (R274). -/
def State.dlServo (s : State) : State :=
  s.each (n := 4) fun s c =>
    let k := Vec.at s.cl c
    if k.role == some .device || k.role == some .hub then
      if s.servoLocked then s.dlRun c else if k.dl.st == dRun then s.dlState c dSync else s
    else s

/-- What a drum frame does to the state of a device or hub: SEEK to SYNC on a good one; RUN after 2 consecutive good
ones of the current cycle with the servo in TRACK or FINE. -/
def State.dlHeard (s : State) (c : Fin 4) (good : Bool) (d : Int) : State :=
  let k := Vec.at s.cl c
  let s1 := if k.dl.st == dSeek && good then s.dlState c dSync else s
  let s2 := s1.updDl c fun l => { l with
    goodRun := if good && d = 0 then l.goodRun + 1 else 0
    agreed := l.agreed || (good && d = 0) }
  s2.dlRun c

/-- A cluster is named in an active PAIR_CONFIG (R314). -/
def State.inPair (s : State) (c : Fin 4) : Bool := s.pair.st != 0 && (row s.pair.sets 2).testBit c.1

/-- A paired controller outside the active module takes no part in elections (R272). -/
def State.noElection (s : State) (c : Fin 4) : Bool := s.inPair c && (s.pair.st = 1 || s.pair.st = 3 || s.pair.st = 4)

/-- The rank of a claim against the own one (R272). -/
def Dl.betterClaim (d : Dl) (own : W64) (prio : Nat) (clock : W64) : Bool :=
  decide (prio < d.prio) || (prio = d.prio && decide (clock.toNat < own.toNat))

/-- A CLAIM frame of a controller (R271). -/
def State.claimFrame (s : State) (c : Fin 4) (p : Fin 12) (master : Bool) : List Byte :=
  let k := Vec.at s.cl c
  let d := k.dl
  padFrame (beBytes 6 (row d.sets 2) ++ macBytes (s.stationOf p) ++ beBytes 2 d.etype ++
    [0x12, 0] ++ beBytes 2 k.cycle.toNat ++ beBytes 2 0 ++ [0, 0] ++
    [BitVec.ofNat 8 d.prio, BitVec.ofNat 8 d.node] ++ beBytes 2 (bit master) ++ beBytes 8 s.clockId.toNat ++
    beBytes 4 d.ct ++ beBytes 4 d.phase)

/-- A CLAIM leaves on the drum ports that are in UP. -/
def State.sendClaim (s : State) (c : Fin 4) (master : Bool) : State :=
  let d := (Vec.at s.cl c).dl
  [portNo d.portA, portNo d.portB].foldl (fun s o =>
    match o with
    | some p => if s.carries c p then s.emitCtrl p (s.claimFrame c p master) .good else s
    | none => s) s

/-- Enter BACKUP: the cycles without a good drum frame are counted from the next one (R273). -/
def Dl.backup (d : Dl) : Dl := { d with
  st := dBackup, idleCycles := 0, heardGood := true, claims := 0, deposed := false, routeTaken := d.routeTaken && d.st == dListen }

/-- Enter CLAIM with the first CLAIM (R273). -/
def State.enterClaim (s : State) (c : Fin 4) : State :=
  (s.updDl c fun d => { d with st := dClaim, claims := 1 }).sendClaim c false

/-- Enter MASTER: SEQ starts at the newest heard plus 1024, or 0 (R268). -/
def State.enterMaster (s : State) (c : Fin 4) : State :=
  s.updDl c fun d => { d with
    st := dMaster, claims := 0, deposed := false, mNode := BitVec.ofNat 8 d.node, mPrio := BitVec.ofNat 8 d.prio,
    mClock := s.clockId, seqOut := match d.newest with
      | some n => n + 1024
      | none => 0 }

/-- A controller hears a CLAIM (R272, R273). -/
def State.hearClaim (s : State) (c : Fin 4) (bs : List Byte) : State :=
  let d := (Vec.at s.cl c).dl
  let prio := (octet bs 22).toNat
  let clock := BitVec.ofNat 64 (beAt bs 26 8)
  let better := d.betterClaim s.clockId prio clock
  let s := if beAt bs 34 4 ≠ d.ct || beAt bs 38 4 ≠ d.phase then s.warn 0x0604 (s.objAt 1 c.1) 0 false else s
  let learn := fun (s : State) => s.updDl c fun d => { d with
    mNode := octet bs 23, mPrio := octet bs 22, mClock := clock, elect := if prio = d.prio then 3 else 2 }
  if d.st == dListen then
    if better then (learn s).updDl c Dl.backup
    else if s.noElection c then s
    else (s.updDl c fun d => { d with elect := if prio = d.prio then 3 else 2 }).enterClaim c
  else if d.st == dClaim then
    if better then (learn s).updDl c Dl.backup
    else s.updDl c fun d => { d with elect := if prio = d.prio then 3 else 2 }
  else if d.st == dMaster then
    if better then (learn s).updDl c fun d => { d with deposed := true } else s
  else if d.st == dBackup && better then learn s
  else s

/-- The FCS a node sends: the correct value inverted once the arriving one was not good (R252). -/
def fcsOut (f : Fcs) (bad : Bool) : Fcs := if f = .good && !bad then .good else .inverted

/-- Count the FCS finding of a node (R252). -/
def State.fcsCount (s : State) (p : Fin 12) (f : Fcs) : State :=
  match f with
  | .good => s
  | .bad => s.pinc p cDlFcsErr
  | .inverted => s.pinc p cDlFcsFwd

/-- A node with two drum ports turns a frame because the other port is down (R238). -/
def State.countTurned (s : State) (c : Fin 4) (p : Fin 12) : State :=
  let d := (Vec.at s.cl c).dl
  if (portNo d.portA).isSome && (portNo d.portB).isSome then s.pinc p cDlTurned else s

/-- Forward a frame without processing: out of the other drum port, or back out of the arrival port (R238, R243); there
`turn` sets TURNED on a frame that is not turned yet, as for CLAIM frames (R242). -/
def State.forward (s : State) (c : Fin 4) (p : Fin 12) (side : Side) (f : DrumIn) (turn : Bool) : State :=
  let out := fcsOut f.fcs false
  match s.otherPort c side with
  | some o => s.emit o (dfHop f.bytes) out f.tx
  | none =>
    if turn && !dfTurned f.bytes then (s.countTurned c p).emit p (dfHop (dfTurn f.bytes)) out f.tx
    else s.emit p (dfHop f.bytes) out f.tx

/-- A CLAIM frame at a drum port: controllers act on a good one; devices, hubs and backups pass it on (R242, R284). -/
def State.claimAt (s : State) (p : Fin 12) (f : DrumIn) : State :=
  match s.drumAt p with
  | none => s
  | some (c, r, side) =>
    let k := Vec.at s.cl c
    if k.st != .started || k.dl.st == dStopped then s
    else if dfHops f.bytes = 255 then s.pinc p cDlHop
    else
      let s := s.fcsCount p f.fcs
      match r with
      | .device => s.forward c p side f true
      | .controller =>
        let s1 := if f.fcs = .good then s.hearClaim c f.bytes else s
        if k.dl.st == dBackup then s1.forward c p side f true else s1
      | .hub => s

/-! ### A frame passing a node (R238, R242–R250, R256, R300, R318) -/

/-- The module sends this controller's frames: the MASTER, or a paired module that sends relayed frames (R317). -/
def State.drumSender (s : State) (c : Fin 4) : Bool :=
  let k := Vec.at s.cl c
  k.dl.st == dMaster || (s.inPair c && k.pair.tx && !k.pair.own)

/-- The ORIG bit of the module's own frames: 1 while they are relayed (R317, R330). -/
def State.ownOrig (s : State) (c : Fin 4) : Bool := s.inPair c && !(Vec.at s.cl c).pair.own

/-- The end of a branch holds a frame that RET_AT applies to (R286): only in RUN; else the turned frame is discarded. The
routes of a controller give no RET_AT: it turns at once. -/
def State.holdOrTurn (s : State) (c : Fin 4) (p : Fin 12) (r : DlRole) (bs : List Byte) (fcs : Fcs) (tx : W64) : State :=
  let d := (Vec.at s.cl c).dl
  let f := dfFrame bs
  let ret := match r, Vec.at d.routes d.active with
    | .device, some r => Vec.at r.retAt f
    | _, _ => 0xFFFFFFFF
  let out := dfHop (dfTurn bs)
  if ret = 0xFFFFFFFF then s.emit p out fcs tx
  else if d.st == dRun then s.updPort p fun x => { x with ways := { x.ways with hold := x.ways.hold ++ [(f, ⟨out, fcs, .frame⟩)] } }
  else s

/-- A DRUM frame at a device or at a controller that does not send: the pass, the record, the state (R238, R250, R269). A
controller in LISTEN or CLAIM sends nothing and processes nothing (R273). A controller that sends passes its partner's frames on
as a device does one with TURNED = 1: unchanged, out of the other port or back (R238, R318). -/
def State.drumPass (s : State) (c : Fin 4) (p : Fin 12) (r : DlRole) (side : Side) (f : DrumIn) : State :=
  let bs := f.bytes
  let (dgs, malformed) := dfDatagrams bs
  let fcsGood := f.fcs == .good
  let good := fcsGood && !malformed
  let s := s.fcsCount p f.fcs
  let s := if malformed then s.pinc p cDlMalformed else s
  let s := s.routeLate c p (dfRoute bs) good
  let k := Vec.at s.cl c
  let run := if r = .controller then k.dl.st == dMaster else k.dl.st == dRun
  let s := s.adoptRoute c (dfRoute bs) good
  let k := Vec.at s.cl c
  let mismatch := run && dfRoute bs ≠ k.dl.active.1
  let s := if mismatch then s.pinc p cRouteMismatch else s
  let turned := dfTurned bs
  let foreign := r = .controller && (k.dl.st == dMaster || s.drumSender c)
  let mute := r = .controller && (k.dl.st == dListen || k.dl.st == dClaim)
  let process := !turned && !mismatch && !foreign && !mute
  let lag := (k.cycle.setWidth 16 - dfCycle bs).toInt
  let (dup, old, dl') := if process then k.dl.seqTest (dfSeq bs) else (false, false, k.dl)
  let s := s.updDl c fun _ => dl'
  let s := if dup then (s.pinc p (if old then cDlOld else cDlDup)).updPort p fun x =>
      { x with ways := { x.ways with dups := x.ways.dups + 1 } } else s
  let late := process && !(lag = 0 || lag = 1)
  let s := if late then s.pinc p cDlStale else s
  let w : Pass := { c := c, p := p, role := r, takes := !dup && !late, half := (dfCycle bs).toNat % 2, rx := f.rx, tx := f.tx }
  let x : Passing := if process then dgs.foldl (Passing.act w) ⟨s, bs, false⟩ else ⟨s, bs, false⟩
  let fcs := fcsOut f.fcs x.bad
  let s := x.s
  let s := if mute then s else match s.otherPort c side with
    | some o => s.emit o (dfHop x.bytes) fcs f.tx
    | none =>
      if turned || foreign then s.emit p (dfHop x.bytes) fcs f.tx
      else (s.countTurned c p).holdOrTurn c p r x.bytes fcs f.tx
  let s := s.putRecord c p ((dfCycle bs).setWidth 32 <<< 16 ||| (dfSeq bs).setWidth 32)
    (recFlags good dup turned late malformed (side == .b) (dfFrame bs) (dfHops bs) dgs.length) 0
    (BitVec.ofNat 32 (f.rx.toNat / 2 ^ 16))
  let s := if good && process && !dup && !late then s.noteUsable c lag else s
  let s := s.updDl c fun d => { d with hops := octet bs 20 }
  match r with
  | .controller =>
    let s := if good then s.updDl c fun d => { d with idleCycles := 0, heardGood := true, newest := some (d.newerSeq (dfSeq bs)) } else s
    if (Vec.at s.cl c).dl.st == dListen then s.updDl c Dl.backup else s
  | _ => (s.dlHeard c good lag).silenceCheck c

/-! ### A frame coming home (R239, R246, R266, R270, R304) -/

/-- The agreement on a route (R304): a good frame 0 returning with a full tally and the OP it was sent with. -/
def Dl.agreeRoute (d : Dl) (good : Bool) (f : Fin 4) (cycle : W64) (sent : Option (Nat × Nat)) : Dl :=
  match d.switch, sent with
  | some w, some (op, t) =>
    if w.done.isNone && f = 0 && w.first.toInt ≤ cycle.toInt && cycle.toInt + 2 ≤ w.cycle.toInt then
      let w := { w with maxTally := if w.maxTally.toNat < t then BitVec.ofNat 16 t else w.maxTally }
      { d with switch := some (if good && op = 1 && t = w.nodes then { w with committed := true } else w) }
    else d
  | _, _ => d

/-- The TX_OFFSET of the active route, or the setting where no route is loaded, in ns (R236, R297). -/
def Dl.txOffset (d : Dl) : Nat :=
  125 * match Vec.at d.routes d.active with
    | some r => r.txOffset.toNat
    | none => row d.sets 10

/-- What a returned frame of the running cycle tells for the input status (R264, R266, R275, R276). -/
def CycStat.note (w : CycStat) (cycle : W64) (f : Fin 4) (good late : Bool) (fails : Nat) (hops : Byte) : CycStat :=
  if w.cycle = cycle then
    { w with back := Vec.put w.back f true, bad := w.bad || !good, late := w.late || late, fails := w.fails + fails, hops := hops }
  else w

/-- What a controller stores of a datagram that has come home: through its take entries what RD, WR, RW and OR carry, and the
bitmap of EVENT; in its node-addressed area what a node-addressed RD carries (R245, R247; DEDUCED, log 103). -/
def Passing.home (x : Passing) (c : Fin 4) (p : Fin 12) (takes : List MapEntry) (half : Nat) (second : Bool) (d : DgHead) : Passing :=
  if d.na then
    match (Vec.at x.s.cl c).dl.naAt d with
    | some a => if d.cmd = 1 then { x with s := x.s.wr (.spad c) (portCode p) a (slice x.bytes d.data d.len) } else x
    | none => x
  else if (1 ≤ d.cmd && d.cmd ≤ 4) || d.cmd = 8 then x.take c p (takes.filter fun m => (m.overlap d).isSome) d half second
  else x

/-- The controller's drum frame returns: takes, tallies, SPLIT, round time, record. Its times run from the drumbeat of the
cycle in which it was sent (R266). A MASTER does not process a frame of another route than its active one (R300). -/
def State.drumReturn (s : State) (c : Fin 4) (p : Fin 12) (side : Side) (f : DrumIn) : State :=
  let bs := f.bytes
  let (dgs, malformed) := dfDatagrams bs
  let good := f.fcs == .good && !malformed
  let s := s.fcsCount p f.fcs
  let s := if malformed then s.pinc p cDlMalformed else s
  let k := Vec.at s.cl c
  let fr := dfFrame bs
  let cyc := fullCycle k.cycle (dfCycle bs)
  let half := (dfCycle bs).toNat % 2
  let second := k.dl.split && Vec.at k.dl.returned (finOf 8 (4 * half + fr.1))
  let takes := k.dl.entries.filter fun m => !m.give
  let mismatch := k.dl.st == dMaster && dfRoute bs ≠ k.dl.active.1
  let s := if mismatch then s.pinc p cRouteMismatch else s
  let count := dgs.length
  let dgs := if mismatch then [] else dgs
  let x : Passing := dgs.foldl (fun x d => x.home c p takes half second d) ⟨s, bs, false⟩
  let bads := (dgs.zip (List.range dgs.length)).filter fun q => tallyOf bs q.1 ≠ q.1.texp.toNat
  let s := x.s.padd p cDlTally bads.length
  let s := if bads.isEmpty then s else s.warn 0x0602 (s.objAt 1 c.1) 0 false
  let routeTally := (dgs.find? fun d => d.cmd = 6).map fun d => ((octet bs d.data).toNat, tallyOf bs d)
  let lateNs := (k.period : Int) - row k.dl.sets 11 * 1000
  let speed := (Vec.at s.port p).speed
  let begun := s.sinceDrumbeat c f.rx + (k.cycle - cyc).toInt * k.period
  let endNs := begun + frameNs speed (bs.length + 4) - frameNs speed 0
  let round := endNs - k.dl.txOffset
  let late := decide (lateNs < endNs)
  let s := if late then (s.pinc p cDlLate).warn 0x0603 (s.objAt 1 c.1) 0 false else s
  let openRing := k.dl.topo = 1 && side == .a && dfTurned bs && !k.dl.split && k.dl.splitTaken.isNone
  let closed := k.dl.topo = 1 && side == .b && !dfTurned bs && k.dl.split && k.dl.splitBack.isNone
  let s := if openRing then s.warn 0x0600 (s.objAt 1 c.1) 0 false else s
  let s := if closed then s.notice 0x0601 (s.objAt 1 c.1) 0 else s
  let s := s.updDl c fun d =>
    let d := d.agreeRoute good fr cyc routeTally
    { d with
      returned := Vec.put d.returned (finOf 8 (4 * half + fr.1)) true, hops := octet bs 20
      stat := d.stat.map fun w => w.note cyc fr good late bads.length (octet bs 20)
      roundMax := if 0 < round && d.roundMax.toNat < round.toNat then BitVec.ofNat 32 round.toNat else d.roundMax
      splitTaken := if openRing then some k.cycle else d.splitTaken
      splitBack := if closed then some k.cycle else d.splitBack }
  let badMask := bads.foldl (fun m q => m ||| bitAt 32 q.2 true) (0 : W32)
  s.putRecord c p ((dfCycle bs).setWidth 32 <<< 16 ||| (dfSeq bs).setWidth 32)
    (recFlags good false (dfTurned bs) late malformed (side == .b) fr (dfHops bs) count) badMask
    (BitVec.ofNat 32 (f.rx.toNat / 2 ^ 16))

/-! ### The frames that a controller builds (R239–R241, R244, R264, R268, R302, R304) -/

/-- A datagram as the controller builds it: HCHK computed, the tally 0. -/
def dgOctets (cmd : Nat) (na : Bool) (laddr len texp dtag : Nat) (last : Bool) (data : List Byte) : List Byte :=
  let head := beBytes 4 laddr ++ beBytes 2 (cmd * 4096 + bit na * 2048 + len) ++ beBytes 2 texp ++ beBytes 2 dtag ++
    [if last then 0x80 else 0]
  head ++ [crc8 head] ++ data ++ [0, 0]

/-- Shared-memory offset of a relay half (R314). -/
def State.relayAt (s : State) (c : Fin 4) (h : Nat) : Nat :=
  (Vec.at s.pair.relayBase c).toNat + h * (16 + (Vec.at s.pair.buildLen c).toNat)

/-- OP, the route, the cycle s and NODES of the ROUTE datagram in frame 0 of a cycle (R302, R304); `none` where there is
none: in LINE and RING outside the cycles of a switch. A switch that is given up still has its ABANDON in cycle s − 1. -/
def Dl.routeOp (d : Dl) (cycle : W64) : Option (Nat × Nat × W64 × Nat) :=
  match d.switch.filter fun w => decide (w.first.toInt ≤ cycle.toInt) && decide (cycle.toInt < w.cycle.toInt) with
  | some w => some (if w.committed then 2 else if cycle.toInt + 2 ≤ w.cycle.toInt then 1 else 3, w.route.1, w.cycle, w.nodes)
  | none => if d.topo = 2 then some (0, 0, 0, 0) else none

/-- The datagrams of a frame of a cycle under a route, in order; their data is zeros until the wayside unit gives
(R245, R264, R297). -/
def Dl.frameDgs (d : Dl) (cycle : W64) (route : Fin 8) (f : Nat) : List Byte :=
  match Vec.at d.routes route with
  | none => []
  | some r =>
    let ds := r.dgs.filter fun g => g.frame.toNat = f
    let rt := match (if f = 0 then d.routeOp cycle else none) with
      | some (op, n, sw, nodes) => dgOctets 6 false 0 8 (if op = 1 then nodes else 0) 0 ds.isEmpty
          ([BitVec.ofNat 8 op, BitVec.ofNat 8 n] ++ beBytes 2 (sw.toNat % 65536) ++ [0, 0, 0, 0])
      | none => []
    rt ++ (ds.zip (List.range ds.length)).flatMap fun (g, i) =>
      dgOctets g.cmd.toNat g.na g.laddr.toNat g.len.toNat g.texp.toNat g.dtag.toNat (i + 1 = ds.length) (List.replicate g.len.toNat 0)

/-- Drum frame `f` of the running cycle under a route, as it leaves from a port. -/
def State.buildFrame (s : State) (c : Fin 4) (p : Fin 12) (route : Fin 8) (f : Nat) (seq : W16) : List Byte :=
  let k := Vec.at s.cl c
  let d := k.dl
  padFrame (beBytes 6 (row d.sets 2) ++ macBytes (s.stationOf p) ++ beBytes 2 d.etype ++
    [0x11, BitVec.ofNat 8 (route.1 * 32 + bit (s.ownOrig c) * 8)] ++ beBytes 2 (k.cycle.toNat % 65536) ++ beBytes 2 seq.toNat ++
    [0, BitVec.ofNat 8 f] ++ d.frameDgs k.cycle route f)

/-- What the frames of a cycle are built from: route, number, first SEQ, and the delay after TX_OFFSET in ns. -/
structure Build where
  route : Fin 8
  frames : Nat
  seq : W16
  lag : Nat
deriving DecidableEq, Repr

/-- What a controller builds the frames of the cycle that begins from: the MASTER its active route; a module that sends relayed
frames the header of the relay half in use, with SEQ advanced by FRAMES for each cycle since that half was built, at STBY_LAG
(R317, R320, R321). -/
def State.cycleBuild (s : State) (c : Fin 4) : Option Build :=
  let k := Vec.at s.cl c
  let d := k.dl
  if k.role != some .controller then none
  else if d.st == dMaster then
    (Vec.at d.routes d.active).map fun r => { route := d.active, frames := min r.frames.toNat 4, seq := d.seqOut, lag := 0 }
  else if s.drumSender c && (Vec.atD k.pair.relay (bit k.pair.relayHalf) none).isSome then
    let b := s.peek .shm (s.relayAt c (bit k.pair.relayHalf)) 16
    let n := min (leAt b 7 1) 4
    some { route := finOf 8 (leAt b 6 1), frames := n, lag := row s.pair.sets 9
           seq := BitVec.ofNat 16 (leAt b 4 2) + BitVec.ofNat 16 n * (k.cycle.setWidth 16 - BitVec.ofNat 16 (leAt b 0 4)) }
  else none

/-- A controller builds the drum frames of the cycle that begins, each with the SEQ after the one before it, for port A, and in
SPLIT for port B too with the same SEQ (R239, R268). They launch at TX_OFFSET (R264). -/
def State.buildCycle (s : State) (c : Fin 4) : State :=
  match s.cycleBuild c with
  | none => s
  | some b =>
    let k := Vec.at s.cl c
    let d := k.dl
    let at_ : W32 := BitVec.ofInt 32 (k.cycle.toInt * k.period + k.phaseNs + d.txOffset + b.lag)
    let put := fun (s : State) (o : Option (Fin 12)) => match o with
      | some p => s.updPort p fun x => { x with ways := { x.ways with
          launches := (List.range b.frames).map fun f => (at_, s.buildFrame c p b.route f (b.seq + BitVec.ofNat 16 f)) } }
      | none => s
    let s1 := put s (portNo d.portA)
    let s2 := if d.split then put s1 (portNo d.portB) else s1
    s2.updDl c fun d => { d with
      seqOut := b.seq + BitVec.ofNat 16 b.frames
      stat := some { cycle := k.cycle, frames := b.frames, back := Vec.fill 4 false, bad := false, late := false, fails := 0
                     hops := d.hops } }

/-- The input status block of a cycle (R264, R266, R275, R276): VALID when every frame came back GOOD and in time; a frame that
is not back at the deadline counts as LATE (log 85). -/
def CycStat.octets (w : CycStat) (split : Bool) : List Byte :=
  let all := (allFin 4).all fun f => decide (w.frames ≤ f.1) || Vec.at w.back f
  let late := w.late || !all
  leBytes 4 w.cycle.toNat ++
    leBytes 4 (bit (all && !w.bad && !late) + 2 * bit late + 4 * bit split + 8 * bit (0 < w.fails)) ++
    leBytes 4 w.fails ++ leBytes 4 w.hops.toNat

/-- The standby notes that a frame of the active arrived, for the loss check (R326). -/
def State.noteOrig (s : State) (c : Fin 4) (bs : List Byte) : State :=
  if dfOrig bs then s
  else s.updPc c fun q => { q with origSeen := (fullCycle (Vec.at s.cl c).cycle (dfCycle bs) :: q.origSeen).take 8 }

end Sys2Proof.Machine
end

