-- ==== Sys2Proof/Machine/Toll.lean ====
section
/-!
DEFINITION. The star hub: downstream frames, admission of returns, the adaptive guard, branch states and the merge
(chapter 09).
-/
namespace Sys2Proof.Machine

/-- Branch states (R292). -/
abbrev bOff : Fin 5 := 0
abbrev bNormal : Fin 5 := 1
abbrev bIsolated : Fin 5 := 2
abbrev bProbation : Fin 5 := 3
abbrev bLocked : Fin 5 := 4

/-- Settings of R281. -/
def Dl.violMax (d : Dl) : Nat := (Vec.at d.tgSets 0).toNat
def Dl.isoCycles (d : Dl) : Nat := (Vec.at d.tgSets 1).toNat
def Dl.probCycles (d : Dl) : Nat := (Vec.at d.tgSets 2).toNat
def Dl.isoLimit (d : Dl) : Nat := (Vec.at d.tgSets 3).toNat
def Dl.guardFreeze (d : Dl) : Bool := Vec.at d.tgSets 4 = 1

/-- Change one branch. -/
def State.updBr (s : State) (c : Fin 4) (b : Fin 8) (f : Branch → Branch) : State :=
  s.updDl c fun d => { d with branches := Vec.upd d.branches b f }

/-- The port of a branch. -/
def Dl.branchPort (d : Dl) (b : Fin 8) : Option (Fin 12) := portNo (Vec.at d.branchPorts b).toNat

/-- What the active route says of a branch. -/
def Dl.routeBr (d : Dl) (b : Fin 8) : Option RouteBr :=
  match Vec.at d.routes d.active with
  | some r => let x := Vec.at r.branches b; if x.inRoute then some x else none
  | none => none

/-- The integer square root. -/
def isqrt (n : Nat) : Nat :=
  (List.range 40).reverse.foldl (fun r k => if (r + 2 ^ k) * (r + 2 ^ k) ≤ n then r + 2 ^ k else r) 0

/-- The guard that variance gives: BASE_GUARD + 4σ, clamped (R290). -/
def guardOf (base : Nat) (var : Rat) : Nat :=
  let g := base + isqrt (16 * var).floor.toNat
  if g < 200 then 200 else if 5000 < g then 5000 else g

/-- SLOT_EDGE of a branch: raised when |m| exceeds g / 2, cleared when it falls below g / 4 (R291). -/
def State.edgeCheck (s : State) (c : Fin 4) (b : Fin 8) : State :=
  let d := (Vec.at s.cl c).dl
  let x := Vec.at d.branches b
  let obj := match d.branchPort b with
    | some p => s.objAt 2 p.1
    | none => s.objAt 1 c.1
  if !x.edge && (x.guard : Rat) < 2 * ratAbs x.drift then
    (s.updBr c b fun x => { x with edge := true }).warn 0x060B obj 0 false
  else if x.edge && 4 * ratAbs x.drift < (x.guard : Rat) then
    (s.updBr c b fun x => { x with edge := false }).warn 0x060B obj 0 true
  else s

/-- One sample of the guard loop (R290), frozen by the setting, the branch state or the servo. The guard that it gives applies
from the next drumbeat. -/
def State.guardSample (s : State) (c : Fin 4) (b : Fin 8) (e : Int) : State :=
  let d := (Vec.at s.cl c).dl
  let x := Vec.at d.branches b
  if d.guardFreeze || !(x.st == bNormal || x.st == bProbation) || !s.servoLocked then s
  else
    let m := x.drift + ((e : Rat) - x.drift) / 16
    let v := x.var + (((e : Rat) - m) * ((e : Rat) - m) - x.var) / 16
    let g := (d.routeBr b).map fun r => guardOf r.baseGuard.toNat v
    (s.updBr c b fun x => { x with drift := m, var := v, guardNext := g.or x.guardNext }).edgeCheck c b

/-- A branch becomes ISOLATED (R292). -/
def State.isolate (s : State) (c : Fin 4) (b : Fin 8) (p : Fin 12) : State :=
  let k := Vec.at s.cl c
  ((s.updBr c b fun x => { x with
    st := bIsolated, isorun := satTo 15 (x.isorun + 1), left := k.dl.isoCycles, isoCycle := k.cycle }).pinc p cTgIsolate).warn
    0x060C (s.objAt 2 p.1) 0 false

/-- A violation (R289, R292). -/
def State.violation (s : State) (c : Fin 4) (b : Fin 8) (p : Fin 12) (ctr : Nat) : State :=
  let s1 := (s.pinc p ctr).updBr c b fun x => { x with viol := satTo 255 (x.viol + 1) }
  let d := (Vec.at s1.cl c).dl
  let x := Vec.at d.branches b
  if (x.st == bNormal && d.violMax ≤ x.viol) || x.st == bProbation then s1.isolate c b p else s1

/-- The registers of a branch as they are written once per drumbeat (R295). -/
def Branch.written (x : Branch) (b : Fin 8) : Branch :=
  let drift := (x.drift + 1 / 2).floor
  let clip : Int := if 32767 < drift then 32767 else if drift < -32767 then -32767 else drift
  { x with
    tgStat := place x.st.1 29 3 ||| place b.1 26 3 ||| place x.isorun 22 4 ||| place (satTo 63 x.violLast) 16 6 ||| place x.left 0 16
    tgGuard := place x.guard 16 16 ||| (BitVec.ofInt 16 clip).setWidth 32 }

/-- The end of an isolation (R292), at a drumbeat, whose registers show it (R295): PROBATION, or LOCKED on the ISO_LIMIT-th
consecutive one. -/
def State.isolationEnd (s : State) (c : Fin 4) (b : Fin 8) : State :=
  let d := (Vec.at s.cl c).dl
  let x := Vec.at d.branches b
  if x.st != bIsolated || x.left ≠ 0 then s
  else if d.isoLimit ≠ 0 && d.isoLimit ≤ x.isorun then
    let s1 := s.updBr c b fun x => { x with st := bLocked }.written b
    match d.branchPort b with
    | some p => s1.alarm 0x060D (s.objAt 2 p.1) 0 true
    | none => s1
  else s.updBr c b fun x => { x with st := bProbation, left := d.probCycles, viol := 0 }.written b

/-- The end of a probation without violation: NORMAL, and the isolation run restarts (R292, R295). -/
def State.probationEnd (s : State) (c : Fin 4) (b : Fin 8) : State :=
  let x := Vec.at (Vec.at s.cl c).dl.branches b
  if x.st == bProbation && x.left = 0 then s.updBr c b fun x => { x with st := bNormal, isorun := 0 }.written b else s

/-- A branch is OFF while it is not in the active route or its port is not in UP; it comes back to the state it left
(R292). -/
def State.branchRefresh (s : State) (c : Fin 4) (b : Fin 8) : State :=
  let d := (Vec.at s.cl c).dl
  let x := Vec.at d.branches b
  let on := (d.routeBr b).isSome && (match d.branchPort b with
    | some p => s.carries c p
    | none => false)
  if !on && x.st != bOff then s.updBr c b fun x => { x with offFrom := x.st, st := bOff, left := 0 }
  else if on && x.st == bOff then
    s.updBr c b fun x => { x with
      st := x.offFrom
      left := if x.offFrom == bIsolated then d.isoCycles else if x.offFrom == bProbation then d.probCycles else 0
      isoCycle := (Vec.at s.cl c).cycle }
  else s

/-- Every branch of a hub follows its route and port. -/
def State.branchesRefresh (s : State) (c : Fin 4) : State :=
  if (Vec.at s.cl c).role == some .hub then s.each (n := 8) fun s b => s.branchRefresh c b else s

/-- Every hub's branches follow the ports. -/
def State.hubsRefresh (s : State) : State := s.each (n := 4) fun s c => s.branchesRefresh c

/-- REARM (R281, R292): LOCKED to PROBATION, also as it leaves OFF. -/
def State.rearm (s : State) (c : Fin 4) (mask : Nat) : State :=
  s.each (n := 8) fun s b =>
    if mask / 2 ^ b.1 % 2 = 0 then s
    else
      let d := (Vec.at s.cl c).dl
      let x := Vec.at d.branches b
      if x.st == bLocked then s.updBr c b fun x => { x with st := bProbation, left := d.probCycles, viol := 0 }
      else if x.st == bOff && x.offFrom == bLocked then s.updBr c b fun x => { x with offFrom := bProbation }
      else s

/-! ### Downstream (R282–R285) -/

/-- The octets of TIME data as they arrived: the merged frame carries them (R287). -/
def keepTime (orig sent : List Byte) (dgs : List DgHead) : List Byte :=
  dgs.foldl (fun bs d => if d.cmd = 7 then putBytes bs d.data (slice orig d.data d.len) else bs) sent

/-- The GUARD of a branch in the ROUTE datagram (R302). -/
def putGuard (bs : List Byte) (dgs : List DgHead) (g : Nat) : List Byte :=
  dgs.foldl (fun bs d => if d.cmd = 6 && d.len = 8 then putBytes bs (d.data + 4) (beBytes 2 g) else bs) bs

/-- The stamp at which a hub's copy of a frame leaves on a branch port. -/
def copyStamp (f : DrumIn) (p : Fin 12) : W64 := ((f.copies.find? fun q => q.1 = p).map (·.2)).getD f.tx

/-- ACCUM moves on by the difference of two transmit stamps: a hub writes it for each output port (R282). -/
def moveAccum (bs : List Byte) (dgs : List DgHead) (dt : W64) : List Byte :=
  dgs.foldl (fun bs d =>
    if d.cmd = 7 && d.len = 16 then
      putBytes bs (d.data + 8) (beBytes 8 (BitVec.ofNat 64 (beAt bs (d.data + 8) 8) + dt).toNat)
    else bs) bs

/-- Every branch of the active route that is not OFF gets a frame (R285), with its own GUARD and ACCUM. -/
def State.toBranches (s : State) (c : Fin 4) (bs : List Byte) (dgs timed : List DgHead) (fcs : Fcs) (f : DrumIn) : State :=
  (allFin 8).foldl (fun s b =>
    let d := (Vec.at s.cl c).dl
    let br := Vec.at d.branches b
    match d.branchPort b, d.routeBr b with
    | some q, some _ =>
      if br.st != bOff && s.carries c q then
        s.emit q (moveAccum (putGuard bs dgs br.guard) timed (copyStamp f q - f.tx)) fcs (copyStamp f q)
      else s
    | _, _ => s) s

/-- A branch of the active route has a slot window for a frame index; one with OPEN = CLOSE is empty. -/
def RouteBr.slotted (r : RouteBr) (f : Fin 4) : Bool := Vec.at r.opens f ≠ Vec.at r.closes f

/-- The spans of a hub's merged frames on its uplinks, from MERGE_AT to their end (R288). Until the frame has come from the
controller its length is not known, and a frame of the greatest length stands for it (DEDUCED, log 103). -/
def Dl.mergeSpans (d : Dl) (speed : BitVec 4) : List (Int × Int) :=
  match Vec.at d.routes d.active with
  | none => []
  | some r => (allFin 4).filterMap fun f =>
    let a := ((Vec.at r.mergeAt f).toNat : Int)
    match Vec.at d.sentFrames f with
    | some b => some (a, a + frameNs speed (b.length + 4))
    | none =>
      if (allFin 8).any fun b => (d.routeBr b).any fun x => x.slotted f then some (a, a + frameNs speed 1518) else none

/-- A hub's uplinks keep queued frames out of those spans, DW_GUARD on either side (R288). -/
def State.mergeWindows (s : State) (c : Fin 4) : State :=
  s.each (n := 12) fun s p =>
    let d := (Vec.at s.cl c).dl
    let spans := fun (x : Port) => (d.mergeSpans x.speed).map fun (a, b) => (a - row d.sets 16, b + row d.sets 16)
    match s.drumAt p with
    | some (c', .hub, .a) => if c' = c then s.updPort p fun x => { x with ways := { x.ways with merges := spans x } } else s
    | some (c', .hub, .b) => if c' = c then s.updPort p fun x => { x with ways := { x.ways with merges := spans x } } else s
    | _ => s

/-- The record of a DRUM frame at a port of the hub (R256, R257). -/
def State.hubRecord (s : State) (c : Fin 4) (p : Fin 12) (side : Side) (f : DrumIn) (good dup : Bool) : State :=
  let bs := f.bytes
  let (dgs, malformed) := dfDatagrams bs
  s.putRecord c p ((dfCycle bs).setWidth 32 <<< 16 ||| (dfSeq bs).setWidth 32)
    (recFlags good dup (dfTurned bs) false malformed (side == .b) (dfFrame bs) (dfHops bs) dgs.length) 0
    (BitVec.ofNat 32 (f.rx.toNat / 2 ^ 16))

/-- A drum frame on an uplink of the hub. In RUN a copy of one that the other uplink has brought is discarded (R285); the hub
knows the last 128 of them, as many as the window of R269 (DESIGN CHOICE, log 103). -/
def State.hubDown (s : State) (c : Fin 4) (p : Fin 12) (side : Side) (f : DrumIn) : State :=
  let bs := f.bytes
  let (dgs, malformed) := dfDatagrams bs
  let good := f.fcs == .good && !malformed
  let s := s.fcsCount p f.fcs
  let s := if malformed then s.pinc p cDlMalformed else s
  let k := Vec.at s.cl c
  let lag := (k.cycle.setWidth 16 - dfCycle bs).toInt
  let copy := fun (x : W16 × W16 × Byte × Fin 12) =>
    x.1 = dfCycle bs && x.2.1 = dfSeq bs && x.2.2.1 = octet bs 21 && x.2.2.2 ≠ p
  if k.dl.st == dRun && k.dl.hubSeen.any copy then
    ((s.pinc p cDlDup).updPort p fun x => { x with ways := { x.ways with dups := x.ways.dups + 1 } }).hubRecord c p side f good true
  else
    let s := s.updDl c fun d => { d with
      hubSeen := ((dfCycle bs, dfSeq bs, octet bs 21, p) :: d.hubSeen).take 128, newest := some (d.newerSeq (dfSeq bs)), hops := octet bs 20 }
    let s := ((s.routeLate c p (dfRoute bs) good).adoptRoute c (dfRoute bs) good).branchesRefresh c
    let run := (Vec.at s.cl c).dl.st == dRun
    let mismatch := run && dfRoute bs ≠ (Vec.at s.cl c).dl.active.1
    let s := if mismatch then s.pinc p cRouteMismatch else s
    let w : Pass := { c := c, p := p, role := .hub, takes := false, half := 0, rx := f.rx, tx := f.tx }
    let x : Passing := if mismatch then ⟨s, bs, false⟩ else dgs.foldl (Passing.actHub w) ⟨s, bs, false⟩
    let s := x.s
    let s := if run && !mismatch then
        (s.updDl c fun d => { d with
          sentFrames := Vec.put d.sentFrames (dfFrame bs) (some (keepTime bs x.bytes dgs)) }).mergeWindows c else s
    let s := s.toBranches c x.bytes dgs (if mismatch then [] else dgs) (fcsOut f.fcs false) f
    let s := if good && !mismatch && (lag = 0 || lag = 1) then s.noteUsable c lag else s
    (s.hubRecord c p side f good false).dlHeard c good lag

/-- A CLAIM at the hub: to every other drum port (R284). A further one from a branch in the same cycle is a FOREIGN violation. -/
def State.hubClaim (s : State) (c : Fin 4) (p : Fin 12) (side : Side) (f : DrumIn) : State :=
  let d := (Vec.at s.cl c).dl
  let s := s.fcsCount p f.fcs
  let again := match side with
    | .branch b => (Vec.at d.branches b).claimed
    | _ => false
  match side, again with
  | .branch b, true => s.violation c b p cTgForeign
  | _, _ =>
    let s := match side with
      | .branch b => s.updBr c b fun x => { x with claimed := true }
      | _ => s
    let outs := [portNo d.portA, portNo d.portB] ++ (allFin 8).map d.branchPort
    outs.foldl (fun s o =>
      match o with
      | some q => if q ≠ p && s.carries c q then s.emit q (dfHop f.bytes) (fcsOut f.fcs false) (copyStamp f q) else s
      | none => s) s

/-! ### Admission (R289) -/

/-- Where a frame on a branch stands: what becomes of it. -/
inductive Verdict where
  | accept | cutLate | early | late | foreign | cutOpen | pass | block
deriving DecidableEq, Repr

/-- A frame starts before OPEN − g of a slot window and still arrives then (R289). -/
def RouteBr.crossed (r : RouteBr) (g : Int) (a : BranchIn) : Bool :=
  (allFin 4).any fun i =>
    r.slotted i && decide (a.start < (Vec.at r.opens i).toNat - g) && decide ((Vec.at r.opens i).toNat - g < a.stop)

/-- The judgement of R289 over the windows of the branch. -/
def judge (d : Dl) (r : RouteBr) (x : Branch) (own : W16) (a : BranchIn) : Verdict :=
  let bs := a.frame.bytes
  let f := dfFrame bs
  let g : Int := x.guard
  let opn := fun (i : Fin 4) => ((Vec.at r.opens i).toNat : Int)
  let cls := fun (i : Fin 4) => ((Vec.at r.closes i).toNat : Int)
  let inAny := (allFin 4).any fun i => r.slotted i && decide (opn i - g ≤ a.start) && decide (a.start ≤ cls i + g)
  let fits := a.drumEtype && dfType bs = 1 && dfVer bs = 1 && dfCycle bs = own && r.slotted f &&
    (match Vec.at d.sentFrames f with
     | some sent => sent.length = bs.length
     | none => false) && !(Vec.at x.admitted f)
  if fits && decide (opn f - g ≤ a.start) && decide (a.start ≤ cls f - g) then
    if cls f + g < a.stop then .cutLate else .accept
  else if a.drumEtype && r.slotted f && decide (a.start < opn f - g) then .early
  else if a.drumEtype && r.slotted f && decide (cls f - g < a.start) then .late
  else if inAny then .foreign
  else if r.crossed g a then .cutOpen
  else if a.drumEtype then .block
  else .pass

/-- A blocked frame that still arrives at the opening of a window is cut there, a violation of its own (R289). -/
def State.cutAtOpen (s : State) (c : Fin 4) (b : Fin 8) (p : Fin 12) (r : RouteBr) (a : BranchIn) : State :=
  if r.crossed (Vec.at (Vec.at s.cl c).dl.branches b).guard a then s.violation c b p cTgTrunc else s

/-- What the Tollgate makes of a frame on a branch port that is no CLAIM (R283, R289, R292). The flag says that the frame goes on
to the hub's receive path. -/
def State.branchJudged (s : State) (c : Fin 4) (b : Fin 8) (p : Fin 12) (a : BranchIn) : State × Bool :=
  let k := Vec.at s.cl c
  let d := k.dl
  let x := Vec.at d.branches b
  let bs := a.frame.bytes
  if d.st != dRun then (s, !a.drumEtype)
  else if !(x.st == bNormal || x.st == bProbation) then (s.pinc p cTgBlocked, false)
  else
    match d.routeBr b with
    | none => (s.pinc p cTgBlocked, false)
    | some r =>
      let f := dfFrame bs
      let taken := ((s.pinc p cTgAdmit).updBr c b fun x => { x with admitted := Vec.put x.admitted f true }).guardSample c b
        (a.start - (Vec.at r.opens f).toNat)
      match judge d r x (k.cycle.setWidth 16) a with
      | .accept =>
        if a.frame.fcs = .good && dfHops bs ≠ 255 then
          (taken.updBr c b fun x => { x with returns := Vec.put x.returns f (some bs) }, false)
        else (taken.fcsCount p a.frame.fcs, false)
      | .cutLate => (taken.violation c b p cTgTrunc, false)
      | .early => ((s.cutAtOpen c b p r a).violation c b p cTgEarly, false)
      | .late => ((s.cutAtOpen c b p r a).violation c b p cTgLate, false)
      | .foreign => ((s.cutAtOpen c b p r a).violation c b p cTgForeign, false)
      | .cutOpen => (s.violation c b p cTgTrunc, false)
      | .block => (s, false)
      | .pass => (s, true)

/-- A frame on a branch port. Each DRUM frame has its record, an admitted frame that is cut not being GOOD (R256, R289); one
with HOPS = 255 counts, and is left out of the merge (R243). The flag is that of `branchJudged`. -/
def State.branchArrival (s : State) (c : Fin 4) (b : Fin 8) (p : Fin 12) (a : BranchIn) : State × Bool :=
  let bs := a.frame.bytes
  if a.drumEtype && dfType bs = 2 && dfVer bs = 1 then
    (if dfHops bs = 255 then s.pinc p cDlHop else s.hubClaim c p (.branch b) a.frame, false)
  else
    let s := if a.drumEtype && dfHops bs = 255 then s.pinc p cDlHop else s
    let s := if a.drumEtype && (dfVer bs ≠ 1 || dfType bs = 0 || 4 < dfType bs) then s.pinc p cDlUnknown else s
    let k := Vec.at s.cl c
    let x := Vec.at k.dl.branches b
    let cut := k.dl.st == dRun && (x.st == bNormal || x.st == bProbation) && match k.dl.routeBr b with
      | some r => judge k.dl r x (k.cycle.setWidth 16) a == .cutLate
      | none => false
    let (t, on) := s.branchJudged c b p a
    (if a.drumEtype && dfType bs = 1 && dfVer bs = 1 then
      t.hubRecord c p (.branch b) a.frame (a.frame.fcs == .good && !(dfDatagrams bs).2 && !cut) false else t, on)

/-- A drum frame on a branch port, with the times that its stamps give (R204, R289). -/
def State.asBranch (s : State) (c : Fin 4) (p : Fin 12) (f : DrumIn) (drumEtype : Bool) : BranchIn :=
  let speed := (Vec.at s.port p).speed
  let start := s.sinceDrumbeat c f.rx
  { frame := f, start := start, stop := start + frameNs speed (f.bytes.length + 4) - frameNs speed 0, drumEtype := drumEtype }

/-- CLOSE of a slot window (R289): nothing admitted counts tg_missing; an admitted frame still arriving is cut. -/
def State.slotClose (s : State) (c : Fin 4) (b : Fin 8) (f : Fin 4) (arriving : Bool) : State :=
  let d := (Vec.at s.cl c).dl
  let x := Vec.at d.branches b
  match d.branchPort b, d.routeBr b with
  | some p, some r =>
    if d.st != dRun || !r.slotted f || !(x.st == bNormal || x.st == bProbation) then s
    else if !(Vec.at x.admitted f) then s.pinc p cTgMissing
    else if arriving && (Vec.at x.returns f).isSome then
      (s.updBr c b fun x => { x with returns := Vec.put x.returns f none }).violation c b p cTgTrunc
    else s
  | _, _ => s

/-! ### The merge (R287) -/

/-- One octet of RD, WR and RW data: the first branch's that differs from the sent one. -/
def mergeOctet (sent : Byte) (rs : List Byte) : Byte := (rs.find? (· ≠ sent)).getD sent

/-- The data octets of a datagram merged. -/
def mergeData (cmd : Nat) (sent : List Byte) (rs : List (List Byte)) (off len : Nat) : List Byte :=
  (List.range len).map fun i =>
    let v := octet sent (off + i)
    let xs := rs.map fun r => octet r (off + i)
    if cmd = 4 || cmd = 8 then xs.foldl (· ||| ·) v
    else if cmd = 1 || cmd = 2 || cmd = 3 then mergeOctet v xs
    else v

/-- The merged frame. -/
def mergeFrame (sent : List Byte) (rs : List (List Byte)) : List Byte :=
  let (dgs, _) := dfDatagrams sent
  let body := dgs.foldl (fun bs d =>
    let bs := putBytes bs d.data (mergeData d.cmd sent rs d.data d.len)
    let sum := rs.foldl (fun t r => t + (tallyOf r d - tallyOf sent d)) (tallyOf sent d)
    putBytes bs d.tally (beBytes 2 (satTo 0xFFFF sum))) sent
  let rise := rs.foldl (fun m r => max m (dfHops r - dfHops sent)) 0
  dfTurn (putBytes (putGuard body dgs 0) 20 [BitVec.ofNat 8 (satTo 255 (dfHops sent + rise))])

/-- MERGE_AT: the merged frame leaves on each uplink (R287). -/
def State.mergedFrame (s : State) (c : Fin 4) (f : Fin 4) : State :=
  let d := (Vec.at s.cl c).dl
  if d.st != dRun then s
  else match Vec.at d.sentFrames f with
    | none => s
    | some sent =>
      let rs := (allFin 8).filterMap fun b =>
        let x := Vec.at d.branches b
        if (x.st == bNormal || x.st == bProbation) && (d.routeBr b).isSome then Vec.at x.returns f else none
      let m := mergeFrame sent rs
      [portNo d.portA, portNo d.portB].foldl (fun s o =>
        match o with
        | some p => if s.carries c p then s.emit p m .good s.nowStamp else s
        | none => s) s

/-! ### At the hub's drumbeat -/

/-- One branch at a drumbeat: the violations of the cycle that ends, LEFT, the guard that its samples have given (R290, R292). -/
def branchBeat (d : Dl) (cycle : W64) (x : Branch) : Branch :=
  { x with
    viol := 0, violLast := x.viol, guard := x.guardNext.getD x.guard, guardNext := none, claimed := false
    left :=
      if x.st == bIsolated then (if x.isoCycle.toInt + 1 < cycle.toInt then d.isoCycles - (cycle.toInt - x.isoCycle.toInt - 1).toNat else d.isoCycles)
      else if x.st == bProbation then x.left - 1 else 0
    returns := Vec.fill 4 none, admitted := Vec.fill 4 false }

/-- The hub's drumbeat: its settings and branches, then SLOT_EDGE for the new guards, and the registers (R281, R291, R295). -/
def State.hubBeat (s : State) (c : Fin 4) : State :=
  let k := Vec.at s.cl c
  if k.role == some .hub then
    let s1 := s.updDl c fun d =>
      let d := { d with tgSets := d.tgNext.getD d.tgSets, tgNext := none, sentFrames := Vec.fill 4 none }
      { d with branches := Vec.mapIx d.branches fun _ x => branchBeat d k.cycle x }
    let s2 := (s1.branchesRefresh c).each (n := 8) fun s b => s.edgeCheck c b
    s2.updDl c fun d => { d with branches := Vec.mapIx d.branches fun b x => x.written b }
  else s

/-- ROUTE_STAT, written once per drumbeat (R295). -/
def Dl.routeWord (d : Dl) : W32 :=
  place d.active.1 29 3 ||| (match d.proposal with
    | some q => bitAt 32 28 true ||| place q.route.1 25 3 ||| bitAt 32 24 q.committed ||| place q.cycle.toNat 0 16
    | none => 0)

/-! ### The dispatch of a drum frame (R242, R243) -/

/-- Invalid symbols or code groups received in UP count in symbol_err, which S ports do not keep (R147). -/
def State.symbolErrs (s : State) (p : Fin 12) (n : Nat) : State := if portKind p = .s then s else s.padd p cSymbolErr n

/-- A frame with the Drumline EtherType at a drum port of a started personality; a drum frame has 64 to 1518 octets (R240,
R279), and any other length ends at stages 1 and 2 of R156 (log 86). A frame of an unknown version or type goes on without
processing (R243): at a hub, from an uplink to the branches. On a branch port the Tollgate judges it (R289). -/
def State.drumFrame (s : State) (p : Fin 12) (f : DrumIn) (returning : Bool) : State :=
  match s.drumAt p with
  | none => s
  | some (c, r, side) =>
    let k := Vec.at s.cl c
    let bs := f.bytes
    if k.st != .started || k.dl.st == dStopped || !s.isUp p then s
    else
      let s := (s.arrived p).symbolErrs p f.symErrs
      match side with
      | .branch b => (s.branchArrival c b p (s.asBranch c p f true)).1
      | _ =>
      if bs.length + 4 < 64 then s.pinc p cRxRunt
      else if 1518 < bs.length + 4 then s.pinc p cRxOversize
      else if dfHops bs = 255 then s.pinc p cDlHop
      else if dfVer bs ≠ 1 || dfType bs = 0 || 4 < dfType bs then
        let s := (s.fcsCount p f.fcs).pinc p cDlUnknown
        match r with
        | .hub => s.toBranches c (dfHop bs) [] [] (fcsOut f.fcs false) f
        | .device => s.forward c p side f false
        | .controller => if k.dl.st == dBackup then s.forward c p side f false else s
      else if dfType bs = 2 then
        match r with
        | .hub => s.hubClaim c p side f
        | _ => s.claimAt p f
      else if dfType bs ≠ 1 then s
      else
        let s := s.noteOrig c bs
        match r with
        | .hub => s.hubDown c p side f
        | .device => s.drumPass c p r side f
        | .controller =>
          let own := s.drumSender c && dfOrig bs = s.ownOrig c
          if own && (returning || k.dl.st == dMaster || k.pair.tx) then s.drumReturn c p side f
          else s.drumPass c p r side f

end Sys2Proof.Machine
end

