-- ==== Sys2Proof/Machine/Mac.lean ====
section
/-!
DEFINITION. The frame MAC: the receive stages, classification and delivery (R156–R164, R175–R180), transmit selection,
gates, launch times, preemption and completion (R165–R174, R189), and what a frame gains on its way out (R207–R212).
-/
namespace Sys2Proof.Machine

/-! ### Receive -/

/-- How a frame reaches a receive queue. -/
structure RxMeta where
  err : Bool
  code : Nat
  tagged : Bool
  pcp : Nat
  vid : Nat
  etype : Nat
  ip4 : Nat
  l4 : Nat
deriving DecidableEq, Repr

/-- The receive queue that classification chooses (R159, R440). -/
def Port.rxQueue (x : Port) (m : RxMeta) : Nat :=
  match (allFin 8).find? fun i => (Vec.at x.etypes i).getLsbD 24 && fld (Vec.at x.etypes i) 0 16 = m.etype with
  | some i => fld (Vec.at x.etypes i) 16 2
  | none => fld x.pcpMap (2 * m.pcp) 2

/-- Fill buffers from a free-buffer queue: the descriptors taken with the octets each holds, and what is left over. -/
def State.takeBuffers (s : State) (f : Fin 256) : Nat → List Byte → List (Desc × List Byte) → List (Desc × List Byte) × List Byte × State
  | 0, bs, acc => (acc, bs, s)
  | _, [], acc => (acc, [], s)
  | n + 1, bs, acc =>
    match (Vec.at s.hq f).items with
    | [] => (acc, bs, s)
    | _ =>
      let (d, s1) := s.pop f
      State.takeBuffers s1 f n (bs.drop d.size) (acc ++ [(d, bs.take d.size)])

/-- The descriptors of a received frame as pushed (R191–R193). `cut` marks a frame that ran out of buffers (R162). -/
def rxDescs (p : Fin 12) (q : Nat) (m : RxMeta) (stamp : W32) (tfrac : BitVec 2) (cut : Bool) (bufs : List (Desc × List Byte)) : List Desc :=
  let n := bufs.length
  (bufs.zip (List.range n)).map fun ((d, bs), i) =>
    let first := i = 0
    let last := i + 1 = n
    { w0 := d.w0
      w1 := bitAt 32 31 first ||| bitAt 32 30 last ||| bitAt 32 29 cut ||| bitAt 32 28 (cut || m.err) ||| bitAt 32 27 first |||
        place d.bsz 24 3 ||| place p.1 20 4 ||| place bs.length 0 16
      w2 := if first then stamp else 0
      w3 := (if first then place tfrac.toNat 30 2 ||| bitAt 32 29 m.tagged ||| place m.pcp 26 3 ||| place m.vid 12 12 else 0) |||
        (if last then place m.ip4 10 2 ||| place m.l4 8 2 ||| place (if cut then 5 else m.code) 4 4 ||| place q 2 2 else 0) }

/-- Deliver a frame to a receive queue (R160–R163): the state, and whether the frame was delivered. A frame that ran out of
buffers and whose queue lacks room for its descriptors too is dropped as R163 gives, and counts rx_qfull alone (the manual
does not say which: DESIGN CHOICE, log 87). -/
def State.deliver (s : State) (c : Fin 4) (p : Fin 12) (m : RxMeta) (bs : List Byte) (stamp : W32) (tfrac : BitVec 2) : State × Bool :=
  let q := (Vec.at s.port p).rxQueue m
  let h := rxHq p q
  match (Vec.at s.hq h).fbq with
  | none => (s.pinc p cRxNobuf, false)
  | some f =>
    let (bufs, rest, s1) := s.takeBuffers f (bs.length + 1) bs []
    if bufs.isEmpty then (s.pinc p cRxNobuf, false)
    else
      let cut := !rest.isEmpty
      let hq := Vec.at s1.hq h
      if hq.depth < hq.items.length + bufs.length then
        ((bufs.foldl (fun s b => s.push f b.1) s1).pinc p cRxQfull, false)
      else
        let s2 := bufs.foldl (fun s b => s.dmaWrite c (portCode p) b.1.w0.toNat b.2) s1
        let s3 := (rxDescs p q m stamp tfrac cut bufs).foldl (fun s d => s.push h d) s2
        let s4 := if cut then s3.pinc p cRxNobuf
          else if m.err then s3 else (s3.pinc p cRxGood).padd p cRxBytes bs.length
        let s5 := if m.ip4 = 2 || m.l4 = 3 then s4.pinc p cRxCsum else s4
        (s5.evpCl c 15, !cut)

/-- Remove a received C-VLAN tag (R158). -/
def stripTag (bs : List Byte) : List Byte := bs.take 12 ++ bs.drop 16

/-- The PRP pair of a port, when both ports are in it and joined to one cluster (R180): pair, LAN B. -/
def State.prpOf (s : State) (p : Fin 12) : Option (Fin 2 × Bool) :=
  if p.1 < 4 then
    let q : Fin 12 := finOf 12 (if p.1 % 2 = 0 then p.1 + 1 else p.1 - 1)
    let x := Vec.at s.port p
    let y := Vec.at s.port q
    if row x.t2 12 = 1 && row y.t2 12 = 1 && x.owner.isSome && x.owner = y.owner then
      some (finOf 2 (p.1 / 2), p.1 % 2 = 1)
    else none
  else none

/-- The redundancy control trailer of IEC 62439-3 (R180; log 23): sequence number, LAN nibble. -/
def rctOf (bs : List Byte) : Option (W16 × Nat) :=
  let n := bs.length
  let o := n - 6
  if 20 ≤ n && beAt bs (o + 4) 2 = 0x88FB && beAt bs (o + 2) 2 % 4096 = n - 14 then
    some (BitVec.ofNat 16 (beAt bs o 2), beAt bs (o + 2) 2 / 4096)
  else none

/-- The trailer a frame carries on LAN A (0xA) or B (0xB). -/
def rct (seq : W16) (lan size : Nat) : List Byte :=
  beBytes 2 seq.toNat ++ beBytes 2 (lan * 4096 + size % 4096) ++ beBytes 2 0x88FB

/-- Note a delivered frame in the duplicate table, 512 sources at most: the oldest source gives way. Entries of the source that
lie half the sequence space away are forgotten with it (log 23). -/
def Prp.note (t : Prp) (e : PrpEntry) : Prp :=
  let known := t.entries.any fun x => x.src = e.src
  let srcs := (t.entries.map (·.src)).eraseDups
  let es := if known || srcs.length < 512 then t.entries
    else match t.entries with
      | o :: _ => t.entries.filter fun x => x.src ≠ o.src
      | [] => []
  { t with entries := (es.filter fun x => x.src ≠ e.src || (e.seq - x.seq).toNat < 0x8000) ++ [e] }

/-- What stage 7 of R156 makes of a frame: a duplicate; or its octets without the trailer, with the entry that its delivery
notes, and whether its trailer names the wrong LAN (R180). -/
inductive PrpView where
  | duplicate
  | pass (bytes : List Byte) (entry : Option (Fin 2 × PrpEntry)) (wrongLan : Bool)
deriving DecidableEq, Repr

/-- Stage 7 of R156. -/
def State.prpView (s : State) (p : Fin 12) (bs : List Byte) : PrpView :=
  match s.prpOf p, rctOf bs with
  | some (k, lanB), some (seq, lan) =>
    let src := (parseEth bs).src
    let body := bs.take (bs.length - 6)
    if lan ≠ (if lanB then 0xB else 0xA) then .pass body none true
    else if (Vec.at s.prp k).entries.any fun x => x.src = src && x.seq = seq && x.lanB ≠ lanB then .duplicate
    else .pass body (some (k, ⟨src, seq, lanB⟩)) false
  | _, _ => .pass bs none false

/-- Note a frame once it has been delivered. -/
def State.prpNote (s : State) (e : Option (Fin 2 × PrpEntry)) : State :=
  match e with
  | some (k, e) => { s with prp := Vec.upd s.prp k fun t => t.note e }
  | none => s

/-- One pause quantum, 512 bit times, in tenths of a nanosecond at a speed code (R177). -/
def quantum (speed : BitVec 4) : Nat :=
  if speed = 1 then 512000 else if speed = 2 then 51200 else if speed = 3 then 5120 else if speed = 4 then 2048 else 0

/-- A pause ends: what waited for the line goes out (R177). -/
def State.pauseOver (s : State) (p : Fin 12) : State :=
  (s.updPort p fun x => { x with pauseLeft := 0, pauseSub := 0 }).lineFree p

/-- A PAUSE frame honoured (R177): the pause time replaces what remains; 0 ends the pause. S ports neither honour nor count it
(R197). -/
def State.pauseReceived (s : State) (p : Fin 12) (bs : List Byte) : State :=
  let s1 := if portKind p = .s then s else s.pinc p cRxPause
  let x := Vec.at s1.port p
  if x.pauseRx && portKind p != .s && beAt bs 14 2 = 1 then
    if beAt bs 16 2 = 0 then s1.pauseOver p
    else s1.updPort p fun x => { x with pauseLeft := BitVec.ofNat 16 (beAt bs 16 2), pauseSub := quantum x.speed }
  else s1

/-- Stages 5–8 of R156 for a frame that passed the first four. A priority-tagged frame (VID 0) counts as untagged for
VLAN_FILTER, as it does for PVID (the manual does not say whether it passes: DESIGN CHOICE, log 87). -/
def State.rxAccept (s : State) (c : Fin 4) (p : Fin 12) (bs : List Byte) (err : Bool) (code : Nat) (stamp : W32) (tfrac : BitVec 2) : State :=
  let x := Vec.at s.port p
  let e := parseEth bs
  let tag := e.tagged && e.tci % 4096 ≠ 0
  let vid := if tag then e.tci % 4096 else row x.t2 5
  let pcp := if e.tagged then e.tci / 8192 else row x.t2 6
  let (ip4, l4) := if portKind p = .g || portKind p = .x then rxChecks bs else (0, 0)
  let m : RxMeta := { err := err, code := code, tagged := e.tagged, pcp := pcp, vid := vid, etype := e.etype, ip4 := ip4, l4 := l4 }
  let out := fun (bs : List Byte) => if row x.t2 4 = 1 && e.tagged then stripTag bs else bs
  if err then (s.deliver c p m (out bs) stamp tfrac).1
  else
    let mine := e.dst = s.stationOf p || e.dst = broadcast ||
      (allFin 32).any fun i => Vec.at x.mcast i ≠ 0 && (Vec.at x.mcast i).toNat = e.dst.toNat
    if !mine && row x.t2 2 = 0 then s.pinc p cRxFiltered
    else if row x.t2 7 = 1 && tag && !((allFin 64).any fun i => (Vec.at x.vids i).toNat = vid) then s.pinc p cRxVlan
    else
      match s.prpView p bs with
      | .duplicate => s.pinc p cPrpDup
      | .pass body entry wrong =>
        let (t, delivered) := (if wrong then s.pinc p cPrpWrong else s).deliver c p m (out body) stamp tfrac
        if delivered then t.prpNote entry else t

/-- A whole frame, its FCS checked (R156); `symErrs` counts the invalid symbols inside it. A frame that RX_KEEP_BAD = 1
delivers counts in rx_runt, rx_fcs_err or rx_oversize as a dropped one does (DESIGN CHOICE, log 102). -/
def State.rxWhole (s : State) (c : Fin 4) (p : Fin 12) (bs : List Byte) (fcs : Fcs) (symErrs : Nat) (stamp : W32) (tfrac : BitVec 2) : State :=
  let x := Vec.at s.port p
  let n := bs.length + 4
  let keep := row x.t2 3 = 1
  let bad := fun (s : State) (code : Nat) => if keep then s.rxAccept c p bs true code stamp tfrac else s
  if n < 64 then bad (s.pinc p cRxRunt) 3
  else if fcs != .good then bad (s.pinc p cRxFcs) 1
  else if 0 < symErrs then bad s 4
  else if row x.t2 1 < n then
    let s := s.pinc p cRxOversize
    if keep then s.rxAccept c p (bs.take (row x.t2 1)) true 2 stamp tfrac else s
  else
    let e := beAt bs 12 2
    let k := Vec.at s.cl c
    if e = 0x8808 then s.pauseReceived p bs
    else if k.role.isSome && e = k.dl.etype then
      if portKind p = .s then s.pinc p cDlUnknown else s
    else s.rxAccept c p bs false 0 stamp tfrac

/-- The frame in reassembly is discarded (R175). -/
def State.dropReasm (s : State) (p : Fin 12) : State := (s.updPort p fun x => { x with reasm := none }).pinc p cRxReasm

/-- A fragment joins a frame in reassembly (R175): the frame goes on, is whole, or is discarded. -/
def State.rxJoin (s : State) (c : Fin 4) (p : Fin 12) (r : Reasm) (tail : FragEnd) (fcs : Fcs) : State :=
  match tail with
  | .mcrc => s.updPort p fun x => { x with reasm := some r }
  | .badMcrc => s.dropReasm p
  | .fcs => (s.updPort p fun x => { x with reasm := none }).rxWhole c p r.bytes fcs r.symErrs r.stamp r.tfrac

/-- A frame or fragment received on a port in UP (R125, R156, R175); symbol_err counts the invalid symbols (R147). S ports
have no preemption and drop fragments (R172). A start fragment that comes while a frame is in progress discards that frame
and begins another (DEDUCED, log 87). -/
def State.rxFrame (s : State) (p : Fin 12) (f : RxFrame) : State :=
  let x := Vec.at s.port p
  match x.owner with
  | none => s
  | some c =>
    if x.st != pUp then s
    else
      let s := s.symbolErrs p (f.symErrs + f.lineErrs)
      let got := s.arrived p
      match f.asm with
      | .begins => s.updPort p fun x => { x with receiving := true }
      | .whole => got.rxWhole c p f.bytes f.fcs f.symErrs f.stamp f.tfrac
      | .first n tail =>
        if portKind p = .s then got
        else (if x.reasm.isSome then got.dropReasm p else got).rxJoin c p ⟨f.bytes, n, 0, f.symErrs, f.stamp, f.tfrac⟩ tail f.fcs
      | .more n count tail =>
        if portKind p = .s then got
        else match x.reasm with
          | none => got.pinc p cRxReasm
          | some r =>
            if r.n ≠ n || r.count ≠ count then got.dropReasm p
            else got.rxJoin c p { r with bytes := r.bytes ++ f.bytes, count := r.count + 1, symErrs := r.symErrs + f.symErrs } tail f.fcs

/-! ### What a frame carries when it leaves -/

/-- A frame put together from its descriptors' buffers (R169, R194). -/
def State.gather (s : State) (c : Fin 4) (p : Fin 12) : List Desc → (List Byte × Bool) × State
  | [] => (([], false), s)
  | d :: r =>
    let ((b, e), s1) := s.dmaRead c (portCode p) d.w0.toNat d.len
    let ((bs, e2), s2) := State.gather s1 c p r
    ((b ++ bs, e || e2), s2)

/-- Event messages: one-step insertion and residence times (R207–R212): the frame, whether a message over UDP was changed,
whether any was. A Sync to which both R208 and R210 apply takes both. `stamp` is the transmit stamp in 2^-16 ns. -/
def State.insertTime (s : State) (p : Fin 12) (bs : List Byte) (d : Desc) (stamp : W64) : List Byte × Bool × Bool × State :=
  let x := Vec.at s.port p
  match ptpAt bs (row x.t3 1 = 1) (row x.t3 2 = 1) with
  | none => (bs, false, false, s)
  | some (o, udp) =>
    let ty := fld (octet bs o) 0 4
    let twoStep := (octet bs (o + 6)).getLsbD 1
    let one := row x.t3 3 = 1
    let tc := row x.t3 4
    let ns := (s.stampNs stamp).toNat
    let frac := stamp.toNat % 65536
    let own := s.clockId.toNat
    let dt : Int := timeDiff (BitVec.ofNat 32 (stamp.toNat / 65536)) d.w2
    let res := fun (bs : List Byte) (half : Nat) =>
      if d.lt || dt < 0 || 100000000 < dt then (bs, false, s.pinc p cTcResidence)
      else (addCorrection bs o (dt * 65536 + frac + half), true, s)
    if 3 < ty then (bs, false, false, s)
    else
      let sync := one && ty = 0 && !twoStep
      let b1 := if sync then
          addCorrection (putBytes bs (o + 34) (beBytes 6 (ns / 1000000000) ++ beBytes 4 (ns % 1000000000))) o frac
        else bs
      let (b2, ch, s) :=
        if one && (tc = 0 || tc = 2) && ty = 3 && !twoStep then res b1 0
        else if ((tc = 1 && (ty = 0 || ty = 1)) || (tc = 2 && ty = 0)) && beAt bs (o + 20) 8 ≠ own then res b1 32768
        else (b1, false, s)
      (b2, udp && (sync || ch), sync || ch, s)

/-- A UDP checksum the MAC gives up (R211). -/
def zeroUdpSum (bs : List Byte) : List Byte :=
  match l4At bs with
  | some (17, off, _) => putBytes bs (off + 6) [0, 0]
  | _ => bs

/-- Checksums asked for (R165): the frame and whether one could not be inserted. -/
def insertSums (kind : PortKind) (bs : List Byte) (ip4 : Bool) (l4 : Nat) : List Byte × Bool :=
  if kind = .l || kind = .s then (bs, false)
  else
    let (b1, k1) := if ip4 then (match putIpSum bs with
      | some b => (b, false)
      | none => (bs, true)) else (bs, false)
    let (b2, k2) := if l4 = 1 || l4 = 2 then (match putL4Sum b1 (if l4 = 1 then 17 else 6) with
      | some b => (b, false)
      | none => (b1, true)) else (b1, false)
    if k1 || k2 then (bs, true) else (b2, false)

/-- Everything the MAC does to a queued frame before it leaves (R165, R169, R194, R207–R211). With NOFCS the last four octets
are the FCS: they stand, unless R208–R210 change the frame, whose FCS then covers the modified octets (R211). -/
def State.dress (s : State) (p : Fin 12) (raw : List Byte) (d : Desc) (nofcs : Bool) (stamp : W64) : List Byte × Bool × State :=
  let kind := portKind p
  let bs := if nofcs then raw.take (raw.length - 4) else raw
  let b1 := if d.w3.getLsbD 27 then putTag bs (fld d.w3 24 3) (fld d.w3 12 12) else bs
  let (b2, udp, changed, s1) := s.insertTime p b1 d stamp
  let l4 := fld d.w3 28 2
  let (b3, skip) := insertSums kind b2 (d.w3.getLsbD 30) l4
  let b4 := if udp && !((kind = .g || kind = .x) && l4 = 1 && !skip) then zeroUdpSum b3 else b3
  (if nofcs then b4 ++ (if changed then fcsOctets b4 else raw.drop (raw.length - 4)) else padFrame b4, skip, s1)

/-- A controller's own drum frame passes the wayside unit as it leaves (R167, R260, R264, R325): gives, what a node-addressed WR
carries, which comes from the controller's own area (R247; DEDUCED, log 103), TIME, and the digest of the octets given, in
order of transmission. -/
def State.drumLeaves (s : State) (c : Fin 4) (p : Fin 12) (bs : List Byte) (stamp : W64) : List Byte × Bool × State :=
  let (dgs, _) := dfDatagrams bs
  let half := (dfCycle bs).toNat % 2
  let dl := (Vec.at s.cl c).dl
  let gives := dl.entries.filter (·.give)
  let x : Passing := dgs.foldl (fun x d =>
    let x := match (if d.na && d.cmd = 2 then dl.naAt d else none) with
      | some a =>
        let ((v, bad), s) := x.s.rd (.spad c) (portCode p) a d.len
        ({ s := s, bytes := putBytes x.bytes d.data v, bad := x.bad || bad } : Passing)
      | none =>
        if !d.na && 1 ≤ d.cmd && d.cmd ≤ 4 then x.give c p (gives.filter fun m => (m.overlap d).isSome) d half false else x
    let from_ : List (Nat × Nat) := if d.na then
        match (if d.cmd = 2 then dl.naAt d else none) with
        | some a => (List.range d.len).map fun i => (i, a + i)
        | none => []
      else if d.cmd = 0 || 4 < d.cmd then [] else (List.range d.len).filterMap fun i =>
        let a := d.laddr.toNat + i
        (gives.find? fun m => m.laddr ≤ a && a < m.laddr + m.len).map fun m => (i, m.half half + (a - m.laddr))
    let x := { x with s := x.s.updPc c fun q => { q with
      digest := digestFold q.digest (from_.map fun g => octet x.bytes (d.data + g.1)), given := q.given ++ from_.map (·.2) } }
    if d.cmd = 7 && d.len = 16 then
      { x with bytes := putBytes x.bytes d.data (beBytes 8 (x.s.stampNs stamp).toNat ++ beBytes 8 (stamp.toNat % 65536)) }
    else x) ⟨s, bs, false⟩
  let s := x.s.updDl c fun d => { d with
    seqOut := if (dfSeq bs - d.seqOut).toInt < 0 then d.seqOut else dfSeq bs + 1
    newest := some (d.newerSeq (dfSeq bs)) }
  (x.bytes, x.bad, s)

/-! ### Gates and windows (R170, R171, R255) -/

/-- The interval of a gate entry in ns. -/
def gateNs (e : W32) : Nat := fld e 0 24 * 8

/-- How long the gate of a class stays open over the first entries of a list, and whether one of them closes it. -/
def openRun (c : Nat) : List W32 → Nat × Bool
  | [] => (0, false)
  | e :: r =>
    if !(e.getLsbD (24 + c)) then (0, true)
    else
      let (n, shut) := openRun c r
      (gateNs e + n, shut)

/-- How long from now the gate of a class stays open, at most for `left`: what is left of the running pass of the list, then
the list over and over (R170). -/
def gateOpenFor (rest all : List W32) (c left : Nat) : Nat :=
  let (n, shut) := openRun c rest
  min left (if shut then n else
    let (m, shutAgain) := openRun c all
    if shutAgain then n + m else left)

/-- Nanoseconds to the next drumbeat. -/
def State.toBeat (s : State) (c : Fin 4) (ns : Nat) : Nat :=
  let k := Vec.at s.cl c
  k.period - k.sinceBeat ns

/-- Where a list stands at an offset from the drumbeat: the rest of its entries, the first one shortened. -/
def gateAt : Nat → List W32 → List W32 → Nat → List W32
  | 0, _, all, _ => all
  | n + 1, [], all, off => gateAt n all all off
  | n + 1, e :: r, all, off =>
    let t := gateNs e
    if off < t then (place (fld e 24 8) 24 8 ||| place ((t - off) / 8) 0 24) :: r
    else gateAt n r all (off - t)

/-- What is left of the running pass of a port's active gate list at a time in ns (R170). -/
def State.gateRest (s : State) (c : Fin 4) (p : Fin 12) (ns : Nat) : List W32 :=
  let all := (Vec.at s.port p).gate.active
  let total := (all.map gateNs).foldl (· + ·) 0
  gateAt (all.length + 1) all all (if total = 0 then 0 else (Vec.at s.cl c).sinceBeat ns % total)

/-- How long a frame of a class may still be on the line (R171): to the close of its gate, and for a frame that cannot be
preempted at most to the next drumbeat, where the list begins again. -/
def State.lineTime (s : State) (c : Fin 4) (p : Fin 12) (cls : Nat) (pre : Bool) (ns : Nat) : Nat :=
  let x := Vec.at s.port p
  let left := s.toBeat c ns
  let all := x.gate.active
  let next := x.gate.pending.getD all
  let period := (Vec.at s.cl c).period
  let after := if !pre then 0 else if next.isEmpty then period else gateOpenFor next next cls period
  let now :=
    if all.isEmpty then left
    else gateOpenFor (s.gateRest c p ns) all cls left
  if now = left then left + after else now

/-- The drum windows that the passages of a cycle set for the next one, or that are fixed (R255). -/
def windowsOf (mode guard start len : Nat) (passed : List (Int × Int)) : List (Int × Int) :=
  if mode = 1 then passed.map fun (a, b) => (a - guard, b + guard)
  else if mode = 2 then [((start : Int), (start + len : Nat))] else []

/-- The windows of a port for the cycle after this one, as its passages have set them so far. -/
def State.windowsNext (s : State) (c : Fin 4) (p : Fin 12) : List (Int × Int) :=
  let d := (Vec.at s.cl c).dl
  windowsOf (row d.sets 15) (row d.sets 16) (rowLo d.sets 17 * 125) (rowHi d.sets 17 * 125) (Vec.at s.port p).ways.passed

/-- A frame that ends at `stop` (ns from the drumbeat) runs into a drum window, of this cycle or the next, that closes after
its start (R255, R288). -/
def State.inWindow (s : State) (c : Fin 4) (p : Fin 12) (start stop : Nat) : Bool :=
  let w := (Vec.at s.port p).ways
  let period : Int := (Vec.at s.cl c).period
  let next := if (s.drumAt p).isSome then (s.windowsNext c p ++ w.merges).map fun (a, b) => (a + period, b + period) else []
  (w.windows ++ w.merges ++ next).any fun (a, b) => decide ((start : Int) < b) && decide (a < stop)

/-- The frame at the head of a class: its descriptors up to LAST. -/
def State.headFrame (s : State) (p : Fin 12) (cls : Nat) : Option (List Desc) :=
  let q := (Vec.at s.hq (txHq p cls)).items
  if q.any Desc.last then some ((q.takeWhile fun d => !d.last) ++ ((q.dropWhile fun d => !d.last).take 1)) else none

/-- Octets of a frame as sent, FCS included; `trailer`: of the redundancy control trailer (R180). -/
def frameLen (ds : List Desc) (tag nofcs : Bool) (trailer : Nat) : Nat :=
  let n := (ds.map Desc.len).foldl (· + ·) 0 + (if tag then 4 else 0)
  (if nofcs then n else max 60 n + 4) + trailer

/-- The EtherType of a queued frame, as its buffers hold it. -/
def State.queuedEtype (s : State) (c : Fin 4) (ds : List Desc) : Nat :=
  beAt (ds.flatMap fun d => match memAt c d.w0.toNat with
    | some (r, a) => s.peek r a d.len
    | none => []) 12 2

/-- A queued frame is a drum frame that a controller launches: class 7, LT = 1, untagged, with the personality's EtherType
(R167, R240). -/
def State.launchesDrum (s : State) (p : Fin 12) (cls : Nat) (ds : List Desc) : Bool :=
  match ds, s.drumAt p with
  | d :: _, some (c, .controller, _) =>
    cls = 7 && d.lt && !d.w3.getLsbD 27 && s.queuedEtype c ds = (Vec.at s.cl c).dl.etype
  | _, _ => false

/-- Octets that the redundancy control trailer adds to a frame: 6 on LAN A with DUP, never to a drum frame (R180). -/
def State.trailer (s : State) (p : Fin 12) (cls : Nat) (ds : List Desc) : Nat :=
  match ds with
  | [] => 0
  | d :: _ => if d.dup && !s.launchesDrum p cls ds && (s.prpOf p).any (fun q => !q.2) then 6 else 0

/-- The head of a class leaves its queue. -/
def State.dropHead (s : State) (p : Fin 12) (cls n : Nat) : State :=
  (s.updHq (txHq p cls) fun q => { q with items := q.items.drop n }).headMoved (txHq p cls)

/-- A head that cannot be sent completes at once (R168, R169): LATE when its launch time lay more than 1 µs in the past as it
reached the head of its queue. FIRST on a later descriptor of the frame gives BADSEQ too (the manual names only a frame that
begins without FIRST: DESIGN CHOICE, log 87). -/
def State.headFault (s : State) (p : Fin 12) (cls : Nat) (ds : List Desc) : Option (Fin 6) :=
  match ds with
  | [] => none
  | d :: _ =>
    let x := Vec.at s.port p
    if !d.first || (ds.drop 1).any Desc.first then some rBadseq
    else if row x.t2 1 < frameLen ds (d.w3.getLsbD 27) (ds.all Desc.nofcs) 0 then some rOversize
    else if d.lt && timeDiff d.w2 (Vec.atD x.headAt cls 0) < -1000 then some rLate
    else none

/-- Frames that cannot be sent leave the heads of a class. A frame that never started has the transmit timestamp 0, where
TS = 1 asks for one (DESIGN CHOICE, log 102). -/
def State.clearHeads (p : Fin 12) (cls : Nat) : Nat → State → State
  | 0, s => s
  | n + 1, s =>
    match s.headFrame p cls with
    | none => s
    | some ds =>
      match s.headFault p cls ds with
      | none => s
      | some r => State.clearHeads p cls n ((s.dropHead p cls ds.length).completeTx p ds r false 0)

/-- What a paired personality may not send in its module's pair state: drum frames while TX is 0, and on a module that
is not the active only the relayed queues of a raw-frame personality (R311, R324, R335); nothing in the gap of a fall-back
(R332). -/
def State.txMuted (s : State) (c : Fin 4) (h : Fin 256) (drum : Bool) : Bool :=
  let k := Vec.at s.cl c
  s.inPair c &&
    ((drum && k.role == some .controller && !k.pair.tx) ||
     (k.id = 0x0040 && (k.pair.fallBack ≠ 0 || (!k.pair.own && !(k.pair.tx && (Vec.at s.hq h).relayed)))))

/-- A frame of a class may go on the line (R166, R171, R255): its gate is open, and what must be on the line, the whole frame
or the first fragment of a preemptable one, ends before the gate closes and, unless it is a drum frame, before a drum window
opens. -/
def State.fits (s : State) (c : Fin 4) (p : Fin 12) (cls n : Nat) (pre drum : Bool) (ns : Nat) : Bool :=
  let x := Vec.at s.port p
  let need := frameNs x.speed (if pre then min n (64 * (1 + row x.pre 3)) else n)
  let since := (Vec.at s.cl c).sinceBeat ns
  x.gate.gates.getLsbD cls && need ≤ s.lineTime c p cls pre ns && (drum || !s.inWindow c p since (since + need))

/-- The head of a class may start (R166, R168, R171). A drum frame is never preemptable (R167). -/
def State.ready (s : State) (c : Fin 4) (p : Fin 12) (cls ns : Nat) : Bool :=
  match s.headFrame p cls with
  | none => false
  | some ds =>
    let x := Vec.at s.port p
    match ds with
    | [] => false
    | d :: _ =>
      let due := !d.lt || Vec.atD x.launched cls false || 0 ≤ timeDiff (BitVec.ofNat 32 ns) d.w2
      let drum := s.launchesDrum p cls ds
      let n := frameLen ds (d.w3.getLsbD 27) (ds.all Desc.nofcs) (s.trailer p cls ds)
      due && s.fits c p cls n (x.preemptable cls && !drum) drum ns && !s.txMuted c (txHq p cls) drum

/-- The next drum frame that the controller has built may start: its launch time is reached (R166, R264). -/
def State.launchReady (s : State) (c : Fin 4) (p : Fin 12) (ns : Nat) : Bool :=
  match (Vec.at s.port p).ways.launches with
  | [] => false
  | (at_, bs) :: _ =>
    0 ≤ timeDiff (BitVec.ofNat 32 ns) at_ && s.fits c p 7 (bs.length + 4) false true ns && !s.txMuted c (txHq p 7) true

/-- A port may send: it is in UP, and an S port has an opportunity (R139). -/
def Port.maySend (x : Port) (p : Fin 12) : Bool :=
  x.st == pUp && (portKind p != .s || (x.opportunity && row x.t1 13 ≠ 255))

/-- Some frame that preempts has become ready: a drum frame, or one of a class that is not preemptable (R167, R173). -/
def State.expressReady (s : State) (c : Fin 4) (p : Fin 12) (ns : Nat) : Bool :=
  s.launchReady c p ns || (List.range 8).any fun cls =>
    s.ready c p cls ns && (!(Vec.at s.port p).preemptable cls ||
      (match s.headFrame p cls with
       | some ds => s.launchesDrum p cls ds
       | none => false))

/-- A copy of a frame leaves on LAN B, or waits for its line (R177, R180; log 23). -/
def State.sendCopy (s : State) (q : Fin 12) (w : WireFrame) : State :=
  let x := Vec.at s.port q
  if x.st != pUp then s
  else if x.drumReady then s.updPort q fun x => { x with wire := some w, lpiTx := false }
  else s.updPort q fun x => { x with copies := x.copies ++ [w] }

/-- A frame with a redundancy control trailer, which stands before the FCS where the buffer held it (R180). -/
def withTrailer (bs : List Byte) (nofcs : Bool) (seq : W16) (lan : Nat) : List Byte :=
  let body := if nofcs then bs.take (bs.length - 4) else bs
  let out := body ++ rct seq lan (body.length + 6 - 14)
  if nofcs then out ++ fcsOctets out else out

/-- A frame goes on a port's line (R125, R173): what the line carries, and the run to its end. -/
def State.onLine (s : State) (p : Fin 12) (t : TxRun) (fcs : Fcs) : State :=
  s.updPort p fun x => { x with tx := some t, wire := some (t.whole fcs), lpiTx := false, smd := if t.pre && t.sent = 0 then x.smd + 1 else x.smd }

/-- The passage of a controller's own drum frame counts for the next cycle's window (R255). -/
def State.ownPassage (s : State) (p : Fin 12) (bytes : List Byte) (stamp : W64) : State :=
  let w := (Vec.at s.port p).wire
  (s.passOut p ⟨bytes, .good, .frame⟩ stamp).updPort p fun x => { x with wire := w }

/-- A drum frame that the controller has built starts (R167, R264). -/
def State.startLaunch (s : State) (c : Fin 4) (p : Fin 12) (stamp : W64) : State :=
  match (Vec.at s.port p).ways.launches with
  | [] => s
  | (_, raw) :: r =>
    let s := s.updPort p fun x => { x with ways := { x.ways with launches := r } }
    let (bs, bad, s) := s.drumLeaves c p raw stamp
    (s.ownPassage p bs stamp).onLine p
      { cls := 7, descs := [], raw := raw, bytes := bs, stamp := stamp, since := stamp, cskip := false, result := rSent,
        drum := true, pre := false, sent := 0, smd := 0, frag := 0, held := false }
      (if bad then .inverted else .good)

/-- Start the frame at the head of a class: gather, dress, put on the line; with DUP also on LAN B (R180). The buffers of a
frame hold its FCS where NOFCS stands in all of its descriptors (the manual does not say what a frame is whose descriptors
differ: DESIGN CHOICE, log 102). -/
def State.startFrame (s : State) (c : Fin 4) (p : Fin 12) (cls : Nat) (ds : List Desc) (stamp : W64) : State :=
  match ds with
  | [] => s
  | d :: _ =>
    let nofcs := ds.all Desc.nofcs
    let drum := s.launchesDrum p cls ds
    let pre := (Vec.at s.port p).preemptable cls && !drum
    let s := s.dropHead p cls ds.length
    let ((raw, bad), s) := s.gather c p ds
    let (bs, skip, bad2, s) :=
      if drum then
        let (b, e, s) := s.drumLeaves c p (padFrame raw) stamp
        (b, false, e, s)
      else
        let (b, k, s) := s.dress p raw d nofcs stamp
        (b, k, false, s)
    let fcs := if bad then Fcs.bad else if bad2 then .inverted else .good
    let dup := if d.dup && !drum then (s.prpOf p).filter fun q => !q.2 else none
    let (bsA, s) := match dup with
      | some (k, _) =>
        let t := Vec.at s.prp k
        let s := { s with prp := Vec.put s.prp k { t with seq := t.seq + 1 } }
        let form := if nofcs then LineForm.noFcs else .frame
        (withTrailer bs nofcs t.seq 0xA, s.sendCopy (finOf 12 (p.1 + 1)) ⟨withTrailer bs nofcs t.seq 0xB, fcs, form⟩)
      | none => (bs, s)
    let s := if skip then s.pinc p cTxCskip else s
    let s := if drum then s.ownPassage p bsA stamp else s
    s.onLine p
      { cls := finOf 8 cls, descs := ds, raw := raw, bytes := bsA, stamp := stamp, since := stamp, cskip := skip,
        result := if bad then rCut else rSent, drum := drum, pre := pre, sent := 0, smd := (Vec.at s.port p).smd, frag := 0, held := false }
      fcs

/-- A frame that collided goes out again, put together anew for the instant of its start (R142, R211). -/
def State.retryFrame (s : State) (p : Fin 12) (stamp : W64) : State :=
  match (Vec.at s.port p).tx with
  | none => s
  | some t =>
    let s := s.updPort p fun x => { x with retry := false }
    match t.descs with
    | [] => s
    | d :: _ =>
      let (bs, skip, s) := s.dress p t.raw d t.nofcs stamp
      s.onLine p { t with bytes := bs, stamp := stamp, since := stamp, cskip := skip } (if t.result = rCut then .bad else .good)

/-- A preempted frame goes on with a continuation fragment (R173). -/
def State.resumeFrame (s : State) (p : Fin 12) (t : TxRun) (stamp : W64) : State :=
  (s.updPort p fun x => { x with preempted := none }).onLine p { t with since := stamp, frag := t.frag + 1, held := false }
    (if t.result = rCut then .bad else .good)

/-- A preempted frame may go on (R173, R255): after a hold its gate is open again, and its next fragment ends before a drum
window opens. -/
def State.mayResume (s : State) (c : Fin 4) (p : Fin 12) (t : TxRun) (ns : Nat) : Bool :=
  let x := Vec.at s.port p
  let since := (Vec.at s.cl c).sinceBeat ns
  let need := frameNs x.speed (min (t.total - t.sent) (64 * (1 + row x.pre 3)))
  (!t.held || x.gate.gates.getLsbD t.cls.1) && !s.inWindow c p since (since + need)

/-- The launch time of the frame at the head of a class is reached: it is not late any more (R168). -/
def State.launch (s : State) (p : Fin 12) (q : Fin 8) : State :=
  match s.headFrame p q.1 with
  | some (d :: _) => if d.lt then s.updPort p fun x => { x with launched := Vec.put x.launched q true } else s
  | _ => s

/-- The first class, from the highest, that satisfies a test. -/
def topClass (f : Nat → Bool) : Option Nat := [7, 6, 5, 4, 3, 2, 1, 0].find? f

/-- A preempted frame goes on when it may and the line is free. -/
def State.tryResume (s : State) (c : Fin 4) (p : Fin 12) (stamp : W64) : State :=
  let x := Vec.at s.port p
  match x.tx, x.preempted with
  | none, some t => if s.mayResume c p t (s.stampNs stamp).toNat then s.resumeFrame p t stamp else s
  | _, _ => s

/-- Transmit selection (R142, R166, R167, R173): a frame that collided goes first; heads that cannot go complete; a ready drum
or express frame preempts; the controller's drum frame goes before the frames of every class; a preempted frame resumes when
no express frame is ready; otherwise the highest ready class starts. A pause keeps frames from starting; one that was
preempted is in progress, and goes on (R177; DEDUCED, log 102). -/
def State.selectTx (s : State) (p : Fin 12) (stamp : W64) : State :=
  let x := Vec.at s.port p
  match x.owner with
  | none => s
  | some c =>
    if !x.maySend p then s
    else if x.pauseLeft ≠ 0 then s.tryResume c p stamp
    else if x.retry then s.retryFrame p stamp
    else
      let ns := (s.stampNs stamp).toNat
      let s := (List.range 8).foldl (fun s cls => State.clearHeads p cls (Vec.at s.hq (txHq p cls)).items.length s) s
      let s := if x.tx.isSome && s.expressReady c p ns then s.preempt p stamp false else s
      let x := Vec.at s.port p
      if x.tx.isSome then s
      else
        let go := fun (cls : Nat) => match s.headFrame p cls with
          | some ds => s.startFrame c p cls ds stamp
          | none => s
        let drumFirst := s.ready c p 7 ns && (match s.headFrame p 7 with
          | some ds => s.launchesDrum p 7 ds
          | none => false)
        if s.launchReady c p ns then s.startLaunch c p stamp
        else if drumFirst then go 7
        else match x.preempted with
          | some _ =>
            match topClass fun cls => !x.preemptable cls && s.ready c p cls ns with
            | some cls => go cls
            | none => s.tryResume c p stamp
          | none => match topClass fun cls => s.ready c p cls ns with
            | some cls => go cls
            | none => s

/-- Octets of a frame that tx_bytes counts: without its FCS (log 29). -/
def TxRun.counted (t : TxRun) : Nat := t.total - 4

/-- The frame on the line ends: completion and counts (R189, R197). -/
def State.endFrame (s : State) (p : Fin 12) (memErr : Bool) : State :=
  match (if (Vec.at s.port p).retry then none else (Vec.at s.port p).tx) with
  | none => s
  | some t =>
    let result := if memErr then rCut else t.result
    let s1 := s.updPort p fun x => { x with
      tx := none, attempts := 0, burst := x.burst + 1
      opportunity := x.opportunity && decide (x.burst < x.burstMax)
      wire := if memErr then some (t.whole .bad) else x.wire }
    let s2 := if result = rSent then (s1.pinc p cTxGood).padd p cTxBytes t.counted else s1
    s2.completeTx p t.descs result t.cskip t.stamp

/-- A frame ends, and what waited for the line goes out. -/
def State.txEnd (s : State) (p : Fin 12) (memErr : Bool) : State :=
  if (Vec.at s.port p).retry || (Vec.at s.port p).tx.isNone then s else (s.endFrame p memErr).lineFree p

/-- A memory error met by the MAC's transmit DMA (R526): a word of the frame's first buffer is uncorrectable. -/
def State.txMemErr (s : State) (p : Fin 12) : State :=
  match (Vec.at s.port p).tx, (Vec.at s.port p).owner with
  | some t, some c =>
    match t.descs with
    | d :: _ =>
      match memAt c d.w0.toNat with
      | some (r, a) => (s.damage r (a / 8)).memUncorr r (portCode p) (a / 8)
      | none => s
    | [] => s
  | _, _ => s

/-- The gates have changed: the close of the gates of all preemptable classes holds the preemptable frame in progress, on the
line or preempted already (R173). -/
def State.gateHold (s : State) (p : Fin 12) : State :=
  let x := Vec.at s.port p
  if (List.range 8).all fun cls => !x.preemptable cls || !x.gate.gates.getLsbD cls then
    ((s.updPort p fun x => { x with preempted := x.preempted.map fun t => { t with held := true } }).preempt p s.nowStamp true).lineFree p
  else s

/-- The next entry of a gate list applies (R170). -/
def State.gateStep (s : State) (p : Fin 12) : State :=
  let g := (Vec.at s.port p).gate
  match g.active with
  | [] => s
  | a :: r =>
    let i := if g.entry + 1 < (a :: r).length then g.entry + 1 else 0
    let e := (a :: r).getD i a
    (s.updPort p fun x => { x with gate := { x.gate with entry := i, gates := BitVec.ofNat 8 (fld e 24 8) } }).gateHold p

/-- The longest time that the gate of a class stays open in a cycle, which the drumbeat cuts for a frame that cannot be
preempted and which for another goes on over it (R170, R171): the windows that begin with each entry, in the first pass of the
list and in the last two. -/
def widestOpen (list : List W32) (cls period : Nat) (pre : Bool) : Nat :=
  let total := (list.map gateNs).foldl (· + ·) 0
  let passes := if total = 0 then [] else [0, period / total - 1, period / total]
  let atEntry := fun (i pass : Nat) =>
    let start := pass * total + ((list.take i).map gateNs).foldl (· + ·) 0
    if period ≤ start then 0
    else
      let n := gateOpenFor (list.drop i) list cls (period - start)
      if pre && n = period - start then n + gateOpenFor list list cls period else n
  (List.range list.length).foldl (fun m i => passes.foldl (fun m pass => max m (atEntry i pass)) m) 0

/-- The class's head never fits, because it is longer than every open window of its class (R171). -/
def State.neverFits (s : State) (c : Fin 4) (p : Fin 12) (active : List W32) (cls : Nat) : Bool :=
  let x := Vec.at s.port p
  let period := (Vec.at s.cl c).period
  match s.headFrame p cls with
  | some (d :: ds) =>
    let n := frameLen (d :: ds) (d.w3.getLsbD 27) ((d :: ds).all Desc.nofcs) (s.trailer p cls (d :: ds))
    let pre := x.preemptable cls && !s.launchesDrum p cls (d :: ds)
    let need := frameNs x.speed (if pre then min n (64 * (1 + row x.pre 3)) else n)
    let wide := if active.isEmpty then (if pre then 2 * period else period) else widestOpen active cls period pre
    x.st == pUp && decide (wide < need)
  | _ => false

/-- A drumbeat at a port: a pending list replaces the running one, which starts with entry 0 (R170). A class whose
frame never fits counts tx_gate_blocked once per cycle (R171). -/
def State.gateBeat (s : State) (c : Fin 4) (p : Fin 12) : State :=
  let x := Vec.at s.port p
  if x.owner != some c then s
  else
    let g := x.gate
    let active := if g.clear then [] else g.pending.getD g.active
    let gates := match active with
      | e :: _ => BitVec.ofNat 8 (fld e 24 8)
      | [] => 0xFF
    let s := (s.updPort p fun x => { x with
      gate := { g with active := active, pending := none, clear := false, entry := 0, gates := gates } }).gateHold p
    s.padd p cTxGateBlocked ((List.range 8).filter fun cls => s.neverFits c p active cls).length

/-- Every drum port of a personality takes its windows for the cycle that begins (R255, R288, R301); `switched`: the active
route has changed at this drumbeat. -/
def State.windowBeat (s : State) (c : Fin 4) (switched : Bool) : State :=
  let s := s.each (n := 12) fun s p =>
    match s.drumAt p with
    | some (c', _, _) =>
      if c' ≠ c then s
      else s.updPort p fun x => { x with ways := { x.ways with
        windows := s.windowsNext c p, first := false, last := x.ways.passed, passed := [] } }
    | none => s
  (if switched then s.firstCycle c else s).mergeWindows c

/-- A drum window has opened: a preemptable frame on the line is held as at a gate close (R255). -/
def State.windowHold (s : State) (p : Fin 12) : State :=
  let x := Vec.at s.port p
  match x.tx, x.owner with
  | some t, some c =>
    let since := (Vec.at s.cl c).sinceBeat s.ns.toNat
    if t.pre && s.inWindow c p since since then (s.preempt p s.nowStamp true).lineFree p else s
  | _, _ => s

end Sys2Proof.Machine
end

