-- ==== Sys2Proof/Machine/Can.lean ====
section
/-!
DEFINITION. The CAN FD controllers: states, bit timing rules, filters, receive, transmit buffers, errors and recovery
(R342–R367).
-/
namespace Sys2Proof.Machine

/-- States of a controller (R343). -/
abbrev nHeld : Fin 6 := 0
abbrev nIdle : Fin 6 := 1
abbrev nIntegrating : Fin 6 := 2
abbrev nActive : Fin 6 := 3
abbrev nPassive : Fin 6 := 4
abbrev nBusOff : Fin 6 := 5

/-- Counter slots of a controller (R536). -/
abbrev nRxGood : Nat := 0
abbrev nRxFd : Nat := 1
abbrev nRxFiltered : Nat := 2
abbrev nRxNobuf : Nat := 3
abbrev nRxQfull : Nat := 4
abbrev nTxGood : Nat := 5
abbrev nArbLost : Nat := 6
abbrev nRetry : Nat := 7
abbrev nLate : Nat := 8
abbrev nAborted : Nat := 9
abbrev nFlushed : Nat := 10
abbrev nRetqOvf : Nat := 11
abbrev nErr : Nat := 12
abbrev nPex : Nat := 17
abbrev nTdcRange : Nat := 18
abbrev nPassiveEntry : Nat := 19
abbrev nBusoff : Nat := 20
abbrev nClash : Nat := 21
abbrev nBusBusy : Nat := 54
abbrev nTecMax : Nat := 55
abbrev nRecMax : Nat := 56
abbrev nTdcvMin : Nat := 57
abbrev nTdcvMax : Nat := 58

/-- A controller counter counts one. -/
def State.ninc (s : State) (n : Fin 4) (i : Nat) : State := s.updCan n fun x => { x with ctr := x.ctr.inc i }

/-- Settings of a controller (R344). -/
def Can.enable (x : Can) : Bool := row x.sets 1 = 1
def Can.mode (x : Can) : Nat := row x.sets 2
def Can.fd (x : Can) : Bool := row x.sets 3 = 1
def Can.pex (x : Can) : Bool := row x.sets 4 = 1
def Can.lateWin (x : Can) : Nat := row x.sets 16

/-- Ranges of the rows of R344. -/
def canRange : Nat → Nat × Nat
  | 1 | 3 | 4 => (0, 1)
  | 2 => (0, 3)
  | 5 => (1, 256)
  | 6 => (2, 256)
  | 7 | 8 => (1, 128)
  | 9 | 10 => (1, 32)
  | 11 | 12 => (1, 16)
  | 13 | 17 => (0, 2)
  | 14 | 15 => (0, 127)
  | _ => (0, 65535)

/-- A value in the range of its row. -/
def canRowOk (r v : Nat) : Bool := 1 ≤ r && r ≤ 17 && (canRange r).1 ≤ v && v ≤ (canRange r).2

/-- The rules of R344 and R345 on a settings table: every value in its range, bit lengths, rates and jump widths. -/
def canSetsOk (t : Vec W64 17) : Bool :=
  let v := row t
  let bit := 1 + v 6 + v 7
  let dbit := 1 + v 10 + v 11
  (List.range 17).all (fun i => canRowOk (i + 1) (v (i + 1))) &&
  8 ≤ bit && bit ≤ 385 && 80 ≤ v 5 * bit && v 5 * bit ≤ 8000 &&
  5 ≤ dbit && dbit ≤ 49 && v 9 * dbit ≤ v 5 * bit && 10 ≤ v 9 * dbit &&
  v 8 ≤ v 7 && v 8 ≤ v 6 && v 12 ≤ v 11 && v 12 ≤ v 10

/-- A row of R344 takes effect only in IDLE. -/
def canIdleRow (r : Nat) : Bool := 2 ≤ r && r ≤ 15

/-! ### Engine registers (R366) -/

/-- CSTAT. -/
def Can.cstat (x : Can) : W32 :=
  place x.st.1 29 3 ||| place x.mode 27 2 ||| bitAt 32 26 x.fd |||
    place (if x.st = nBusOff then 255 else satTo 255 x.tec) 16 8 ||| place (satTo 255 x.rxErr) 8 8 ||| place x.chg.toNat 0 8
/-- CERR. -/
def Can.cerr (x : Can) : W32 :=
  place x.last.toNat 29 3 ||| bitAt 32 28 x.lastData ||| bitAt 32 27 x.lastTx ||| place x.recov.toNat 16 8 ||| place x.count.toNat 0 16
/-- CTDC. -/
def Can.ctdc (x : Can) : W32 :=
  bitAt 32 31 x.tdcValid ||| place x.tdcv.toNat 24 7 ||| place x.tdco.toNat 16 7 ||| place x.ssp.toNat 8 8
/-- CTXB. -/
def Can.ctxb (x : Can) : W32 :=
  (match x.onbus with | some b => bitAt 32 (16 + b.1) true | none => 0) |||
    (allFin 8).foldl (fun w b => w ||| bitAt 32 (8 + b.1) (Vec.at x.tb b).isSome) 0 ||| place x.abort.toNat 0 8

/-! ### States -/

/-- A change of state: CSTAT, EVP bit 13 in the owning cluster, LINK_CHANGE (R366), and the warning of entry into
PASSIVE (R343). -/
def State.canState (s : State) (n : Fin 4) (st : Fin 6) : State :=
  let x := Vec.at s.can n
  if x.st = st then s
  else
    let obj := s.objAt 3 n.1
    let s1 := s.updCan n fun x => { x with st := st, chg := x.chg + 1 }
    let s2 := match x.owner with
      | some c => s1.evpCl c 13
      | none => s1
    let s3 := s2.notify 0xF005 obj (leBytes 4 (Vec.at s2.can n).cstat.toNat)
    if st = nPassive then
      ((s3.ninc n nPassiveEntry).warn 0x0800 obj 0 false).updCan n fun x => { x with passiveWarn := true }
    else if st = nActive && x.passiveWarn then
      (s3.warn 0x0800 obj 0 true).updCan n fun x => { x with passiveWarn := false }
    else s3

/-- The error counters take values; the gauges follow (R367); ACTIVE and PASSIVE follow the counters (R343). -/
def State.canCounts (s : State) (n : Fin 4) (tec rec : Nat) : State :=
  let s1 := s.updCan n fun x => { x with
    tec := tec, rxErr := satTo 255 rec
    ctr := (x.ctr.gauge nTecMax fun v => if v.toNat < tec then BitVec.ofNat 32 (satTo 255 tec) else v).gauge nRecMax
      fun v => if v.toNat < rec then BitVec.ofNat 32 (satTo 255 rec) else v }
  let x := Vec.at s1.can n
  if x.st = nActive && (127 < tec || 127 < rec) then s1.canState n nPassive
  else if x.st = nPassive && tec ≤ 127 && rec ≤ 127 then s1.canState n nActive
  else s1

/-! ### Completion (R355, R356, R359) -/

/-- Results of a CAN frame (R359). -/
abbrev kSent : Nat := 0
abbrev kAborted : Nat := 1
abbrev kFlushed : Nat := 2
abbrev kLate : Nat := 3
abbrev kFailed : Nat := 4

/-- The descriptor as returned: with TS = 1 the start-of-frame stamp of its last start; one that never started keeps its word 2
(R357; DESIGN CHOICE, log 106). -/
def Desc.canReturned (d : Desc) (result attempts : Nat) (stamp : W32) : Desc :=
  { d with
    w2 := if d.w3.getLsbD 29 && (result = kSent || 0 < attempts) then stamp else d.w2
    w3 := place result 27 3 ||| place (satTo 255 attempts) 16 8 ||| place (fld d.w3 12 4) 12 4 }

/-- A frame completes: counted by result, its descriptor returned under RET, EVP bit 14 set (R354–R356, R360). A return to a
free-buffer queue of a buffer that is named elsewhere leaves that queue in the error of R196, as `State.returnTo` does; a CAN
descriptor gives no size, and its buffer counts as the smallest. After UNLOAD there is no RETQ and no cluster left. -/
def State.canComplete (s : State) (n : Fin 4) (d : Desc) (result attempts : Nat) (stamp : W32) : State :=
  let s1 :=
    if result = kSent then s.ninc n nTxGood
    else if result = kAborted then s.ninc n nAborted
    else if result = kFlushed then s.ninc n nFlushed
    else if result = kLate then s.ninc n nLate else s
  match (Vec.at s.can n).owner with
  | none => s1
  | some c =>
    let s2 := if !d.ret then s1
      else
        let bad := s1.isFbq d.retq && s1.namedElsewhere c { d with w1 := 0 }
        ((if (Vec.at s1.hq d.retq).full then s1.ninc n nRetqOvf else s1).push d.retq (d.canReturned result attempts stamp)).updHq d.retq
          fun q => { q with bad := q.bad || bad }
    s2.evpCl c 14

/-- A buffer empties and its frame completes; `stamp` is that of a frame sent. -/
def State.bufDone (s : State) (n : Fin 4) (b : Fin 8) (result : Nat) (stamp : W32) : State :=
  match Vec.at (Vec.at s.can n).tb b with
  | none => s
  | some t =>
    (s.updCan n fun x => { x with
      tb := Vec.put x.tb b none
      onbus := if x.onbus = some b then none else x.onbus
      abort := x.abort &&& ~~~(bitAt 8 b.1 true) }).canComplete n t.desc result t.attempts (if result = kSent then stamp else t.stamp)

/-- Everything loaded or queued, apart from a frame on the bus, completes with FLUSHED (R356). -/
def State.canFlush (s : State) (n : Fin 4) : State :=
  let s1 := s.each (n := 8) fun s b =>
    if (Vec.at s.can n).onbus = some b then s else s.bufDone n b kFlushed 0
  [2, 3].foldl (fun s i =>
    let h := canHq n i
    (Vec.at s.hq h).items.foldl (fun s d => s.canComplete n d kFlushed 0 0) (s.updHq h fun q => { q with items := [] })) s1

/-- Into IDLE: STOP, ENABLE = 0 (R343, R356). A frame on the bus completes its current attempt; what is loaded or queued is
flushed in IDLE too. -/
def State.canIdle (s : State) (n : Fin 4) : State :=
  let x := Vec.at s.can n
  if x.st = nHeld then s
  else if x.st = nIdle then s.canFlush n
  else
    (((s.updCan n fun x => { x with retry := false, resting := false, tec := 0, rxErr := 0, recov := 0 }).canState n nIdle)).canFlush n

/-- ENABLE = 1 with the personality started: INTEGRATING. -/
def State.canGo (s : State) (n : Fin 4) : State :=
  let x := Vec.at s.can n
  if x.st = nIdle && x.enable && (match x.owner with | some c => s.started c | none => false) then
    (s.updCan n fun x => { x with retry := true, past := [], tec := 0, rxErr := 0, recov := 0 }).canState n nIntegrating
  else s

/-- STOP for every controller of a cluster. -/
def State.stopCans (s : State) (c : Fin 4) : State :=
  s.each (n := 4) fun s n => if (Vec.at s.can n).owner = some c then s.canIdle n else s

/-- START for every controller of a cluster. -/
def State.startCans (s : State) (c : Fin 4) : State :=
  s.each (n := 4) fun s n => if (Vec.at s.can n).owner = some c then s.canGo n else s

/-! ### Filters and reception (R349–R351) -/

/-- A filter matches an identifier in TYPE, ID and MASK. -/
def Filter.matchesId (f : Filter) (ide : Bool) (id : BitVec 29) : Bool :=
  f.valid && (f.typ = 2 || f.typ = (if ide then 1 else 0)) &&
    (let m := if ide then f.mask.setWidth 29 else (f.mask &&& 0x7FF).setWidth 29
     id &&& m == f.id.setWidth 29 &&& m)

/-- The bit of FRAMES that admits a frame. -/
def canKindBit (x : CanFrame) : Nat := if x.fdf then 2 else if x.rtr then 1 else 0

/-- The filter set and the NOFILT_RXQ that judge a frame: those in force at its start of frame (R344, R349). -/
def Can.judging (x : Can) (changes : Nat) : Vec Filter 32 × W64 :=
  if changes = 0 then (x.filters, Vec.atD x.sets 16 0) else x.past.getD (changes - 1) (x.filters, Vec.atD x.sets 16 0)

/-- The filter that decides a frame, and the queue it names (0 reject). -/
def Can.decide (x : Can) (f : CanFrame) : Option (Fin 32) × Nat :=
  let (set, nofilt) := x.judging f.changes
  match (allFin 32).find? fun i =>
      let k := Vec.at set i
      k.matchesId f.ide f.id && k.frames.getLsbD (canKindBit f) with
  | some i => (some i, (Vec.at set i).action.toNat)
  | none => (none, nofilt.toNat)

/-- A valid frame goes through the filters into a buffer of the queue they choose (R349–R351, R357, R359). -/
def State.canDeliver (s : State) (n c : Fin 4) (f : CanFrame) : State :=
  let (fi, act) := (Vec.at s.can n).decide f
  let s1 := s.updCan n fun x => { x with past := [] }
  if act = 0 then s1.ninc n nRxFiltered
  else
    let q := act - 1
    let h := canHq n q
    match (Vec.at s1.hq h).fbq with
    | none => s1.ninc n nRxNobuf
    | some fb =>
      match (Vec.at s1.hq fb).items with
      | [] => s1.ninc n nRxNobuf
      | _ =>
        let (d, s2) := s1.pop fb
        if (Vec.at s2.hq h).full then (s2.push fb d).ninc n nRxQfull
        else
          let s3 := s2.dmaWrite c (canCode n) d.w0.toNat (f.data.take 64)
          let out : Desc :=
            { w0 := d.w0
              w1 := bitAt 32 31 f.ide ||| bitAt 32 30 f.fdf ||| bitAt 32 29 f.rtr ||| (if f.ide then f.id else f.id &&& 0x7FF).setWidth 32
              w2 := f.stamp
              w3 := bitAt 32 29 f.brs ||| bitAt 32 28 f.esi ||| place (match fi with | some i => i.1 | none => 31) 16 5 |||
                place f.dlc.toNat 12 4 ||| bitAt 32 11 fi.isNone ||| place q 10 1 }
          let s4 := (s3.push h out).ninc n nRxGood
          (if f.fdf then s4.ninc n nRxFd else s4).evpCl c 15

/-- A frame from the bus becomes valid: acknowledged unless in listen-only, counted in REC unless in MODE 2, delivered (R350,
R351, R361). In MODE 3 the receiver hears only the controller itself. -/
def State.canReceive (s : State) (n : Fin 4) (f : CanFrame) : State :=
  let x := Vec.at s.can n
  match x.owner with
  | none => s
  | some c =>
    if (x.st != nActive && x.st != nPassive) || x.mode = 3 || x.resting then s
    else
      let s1 := s.updCan n fun x => { x with acked := decide (x.mode ≠ 1) }
      (if x.mode = 2 then s1 else s1.canCounts n x.tec (if 127 < x.rxErr then 120 else x.rxErr - 1)).canDeliver n c f

/-! ### Transmission (R352–R356) -/

/-- Fields of a CAN descriptor (R357, R358). -/
def Desc.ide (d : Desc) : Bool := d.w1.getLsbD 31
def Desc.fdf (d : Desc) : Bool := d.w1.getLsbD 30
def Desc.rtr (d : Desc) : Bool := d.w1.getLsbD 29
def Desc.single (d : Desc) : Bool := d.w3.getLsbD 28
def Desc.brs (d : Desc) : Bool := d.w3.getLsbD 30

/-- Data bytes of a DLC (R358). -/
def dlcBytes (fdf : Bool) (dlc : Nat) : Nat :=
  if dlc ≤ 8 then dlc else if fdf then [12, 16, 20, 24, 32, 48, 64].getD (dlc - 9) 64 else 8

/-- The conditions of R360 on a descriptor for a transmit queue. -/
def State.canDescOk (s : State) (c : Fin 4) (n : Fin 4) (d : Desc) : Bool :=
  (d.ide || fld d.w1 11 18 = 0) && (d.fdf || !d.brs) && (!d.rtr || !d.fdf) && (!d.fdf || (Vec.at s.can n).fd) &&
  (Vec.at s.cl c).bufferOk d.w0.toNat (max 1 (if d.rtr then 0 else dlcBytes d.fdf (fld d.w3 12 4))) && fld d.w3 16 12 = 0 && fld d.w3 0 3 = 0 &&
  (!d.ret || s.hqServer d.retq == some c)

/-- A transmit buffer loads from its group's queue, in every state of a joined controller with MODE 0 or 3 (R352, R353); an
uncorrectable word leaves it unloaded and the frame completes with FAILED (R526). -/
def State.canLoad (s : State) (n : Fin 4) (b : Fin 8) (memErr : Bool) : State :=
  let x := Vec.at s.can n
  let h := canHq n (if b.1 < 4 then 2 else 3)
  match x.owner, (Vec.at s.hq h).items with
  | some c, _ :: _ =>
    if x.st = nHeld || x.mode = 1 || x.mode = 2 || (Vec.at x.tb b).isSome then s
    else
      let (d, s1) := s.pop h
      let len := if d.rtr then 0 else dlcBytes d.fdf (fld d.w3 12 4)
      let s2 := if memErr then
          match memAt c d.w0.toNat with
          | some (r, a) => s1.damage r (a / 8)
          | none => s1
        else s1
      let ((bs, bad), s3) := s2.dmaRead c (canCode n) d.w0.toNat (if memErr then (if len = 0 then 1 else len) else len)
      if bad then s3.canComplete n d kFailed 0 0
      else s3.updCan n fun x => { x with
        order := x.order + 1
        tb := Vec.put x.tb b (some { desc := d, data := bs.take len, attempts := 0, order := x.order, stamp := 0, past := 0 }) }
  | _, _ => s

/-- The arbitration key of a frame as a number, lower going first (R353): base identifier, SRR and IDE, extended
identifier, RTR. -/
def Desc.key (d : Desc) : Nat :=
  let id := fld d.w1 0 29
  if d.ide then id / 2 ^ 18 * 2 ^ 21 + 3 * 2 ^ 19 + id % 2 ^ 18 * 2 + bit d.rtr
  else id % 2 ^ 11 * 2 ^ 21 + bit d.rtr * 2 ^ 20

/-- A buffer is eligible: its launch time has come (R354). -/
def State.canEligible (s : State) (t : TxBuf) : Bool := !t.desc.lt || 0 ≤ timeDiff s.tim.eng t.desc.w2

/-- The buffer a start point offers (R353). -/
def State.canBest (s : State) (x : Can) : Option (Fin 8) :=
  (allFin 8).foldl (fun acc b =>
    match Vec.at x.tb b with
    | none => acc
    | some t =>
      if !s.canEligible t then acc
      else match acc.bind fun a => (Vec.at x.tb a) with
        | none => some b
        | some u => if t.desc.key < u.desc.key || (t.desc.key = u.desc.key && t.order < u.order) then some b else acc) none

/-- The cluster is a standby whose paired CAN application never transmits (R335), or in the gap of a fall-back (R332). -/
def State.canMuted (s : State) (c : Fin 4) : Bool :=
  let k := Vec.at s.cl c
  k.id = 0x0030 && s.inPair c && (!k.pair.own || k.pair.fallBack ≠ 0)

/-- A start point (R353, R354). The start of frame is stamped (R357). -/
def State.canStart (s : State) (n : Fin 4) : State :=
  let x := Vec.at s.can n
  match x.owner with
  | none => s
  | some c =>
    if (x.st != nActive && x.st != nPassive) || x.resting || x.mode = 1 || x.mode = 2 || x.onbus.isSome || s.canMuted c then s
    else match s.canBest x with
      | none => s
      | some b =>
        let again := match Vec.at x.tb b with | some t => decide (0 < t.attempts) | none => false
        (if again then s.ninc n nRetry else s).updCan n fun x => { x with
          onbus := some b
          tb := Vec.upd x.tb b (·.map fun t => { t with attempts := t.attempts + 1, stamp := s.tim.eng, past := x.past.length }) }

/-- The frame on the bus did not succeed: aborted, single or stopped frames complete, others wait (R354–R356). -/
def State.canUnsent (s : State) (n : Fin 4) : State :=
  let x := Vec.at s.can n
  match x.onbus with
  | none => s
  | some b =>
    match Vec.at x.tb b with
    | none => s
    | some t =>
      if x.abort.getLsbD b.1 then s.bufDone n b kAborted 0
      else if t.desc.single || !x.retry then s.bufDone n b kFailed 0
      else s.updCan n fun x => { x with onbus := none }

/-- Arbitration is lost (R354). -/
def State.canArbLost (s : State) (n : Fin 4) : State :=
  if (Vec.at s.can n).onbus.isSome then (s.ninc n nArbLost).canUnsent n else s

/-- The offset of the secondary sample point in use, with the automatic value (R347); none where it cannot apply. -/
def Can.tdcOffset (x : Can) : Option Nat :=
  if row x.sets 13 = 0 then none
  else if row x.sets 14 ≠ 0 then some (row x.sets 14)
  else
    let o := row x.sets 9 * (1 + row x.sets 10)
    if 127 < o then none else some o

/-- The measurement of a frame being transmitted with FDF = 1 and BRS = 1; `none`: no edge within 127 cycles (R347, R348). -/
def Can.measure (x : Can) (m : Option (BitVec 7)) : Can :=
  match x.tdcOffset with
  | none => { x with tdco := 0, ssp := 0 }
  | some o =>
    let v : BitVec 7 := m.getD 127
    let x1 := if m.isNone then { x with ctr := x.ctr.inc nTdcRange } else x
    if v.toNat < row x.sets 15 then x1
    else
      { x1 with
        tdcValid := true, tdcv := v, tdco := BitVec.ofNat 7 o
        ssp := BitVec.ofNat 8 (if row x.sets 13 = 1 then v.toNat + o else o)
        ctr := (x1.ctr.gauge nTdcvMin fun w => if v.toNat < w.toNat then v.setWidth 32 else w).gauge nTdcvMax
          fun w => if w.toNat < v.toNat then v.setWidth 32 else w }

/-- The measurement that the frame on the bus brings, if it has FDF = 1 and BRS = 1 (R347). -/
def State.canMeasure (s : State) (n : Fin 4) (tdcv : Option (BitVec 7)) : State :=
  let x := Vec.at s.can n
  match x.onbus.bind fun b => Vec.at x.tb b with
  | some t => if t.desc.fdf && t.desc.brs then s.updCan n (·.measure tdcv) else s
  | none => s

/-- The frame of a transmit buffer as the bus carries it: ESI is the controller's own (R357, R358). `held` changes of the filter
set are held as it ends, `t.past` of them from before its start of frame (R344, R349). -/
def TxBuf.frame (t : TxBuf) (passive : Bool) (stamp : W32) (held : Nat) : CanFrame :=
  { ide := t.desc.ide, fdf := t.desc.fdf, rtr := t.desc.rtr, brs := t.desc.brs, esi := t.desc.fdf && passive
    id := BitVec.ofNat 29 (fld t.desc.w1 0 29), dlc := BitVec.ofNat 4 (fld t.desc.w3 12 4)
    data := if t.desc.rtr then [] else t.data, stamp := stamp, changes := held - t.past }

/-- In MODE 3 the controller's frame loops back: its own receiver takes it, from the sixth bit of its end of frame (R350,
R361). -/
def State.canLoop (s : State) (n : Fin 4) (t : TxBuf) (stamp : W32) : State :=
  let x := Vec.at s.can n
  match x.owner with
  | some c =>
    if x.mode = 3 && (x.st = nActive || x.st = nPassive) then s.canDeliver n c (t.frame (x.st = nPassive) stamp x.past.length) else s
  | none => s

/-- A transmitted frame completes (R356). -/
def State.canSent (s : State) (n : Fin 4) (stamp : W32) (tdcv : Option (BitVec 7)) : State :=
  let x := Vec.at s.can n
  match x.onbus with
  | none => s
  | some b =>
    match Vec.at x.tb b with
    | none => s
    | some t => ((((s.canMeasure n tdcv).canLoop n t stamp).bufDone n b kSent stamp)).canCounts n (x.tec - 1) x.rxErr

/-- CTXB.ABORT and CAN_ABORT (R355): a loaded frame not on the bus completes at once. -/
def State.canAbortMask (s : State) (n : Fin 4) (mask : BitVec 8) : State :=
  s.each (n := 8) fun s b =>
    let x := Vec.at s.can n
    if !mask.getLsbD b.1 || (Vec.at x.tb b).isNone then s
    else if x.onbus = some b then s.updCan n fun x => { x with abort := x.abort ||| bitAt 8 b.1 true }
    else s.bufDone n b kAborted 0

/-- A frame not started within LATE_WIN of its launch time (R354). -/
def State.canLateEnd (s : State) (n : Fin 4) (b : Fin 8) : State :=
  let x := Vec.at s.can n
  match Vec.at x.tb b with
  | some t =>
    if t.desc.lt && x.lateWin ≠ 0 && t.attempts = 0 && x.onbus ≠ some b &&
        decide ((1000 * x.lateWin : Nat) ≤ timeDiff s.tim.eng t.desc.w2) then s.bufDone n b kLate 0 else s
  | none => s

/-! ### Errors (R361–R365) -/

/-- Code of CERR.LAST. -/
def canErrCode : CanErrKind → Nat
  | .bit => 1
  | .stuff => 2
  | .form => 3
  | .crc => 4
  | .ack => 5

/-- Changes of TEC and REC for an error, by the fault confinement rules of ISO 11898-1. -/
def canErrCounts (e : CanErr) (tec rec : Nat) : Nat × Nat :=
  if e.transmitter then (if e.exempt then tec else tec + 8, rec)
  else (tec, if e.flagError then rec + 8 else rec + 1)

/-- An identifier clash counted for the filter that matches, and the warning once per statistics period (R364). -/
def State.canClash (s : State) (n : Fin 4) : State :=
  let x := Vec.at s.can n
  match x.onbus.bind fun b => Vec.at x.tb b with
  | none => s
  | some t =>
    let ide := t.desc.ide
    let id := BitVec.ofNat 29 (fld t.desc.w1 0 29)
    let i := match (allFin 32).find? fun i => (Vec.at x.filters i).matchesId ide id with
      | some i => i.1
      | none => 32
    let s1 := s.ninc n (nClash + i)
    if x.clashSeen then s1
    else (s1.updCan n fun x => { x with clashSeen := true }).warn 0x0803 (s.objAt 3 n.1) 0 false

/-- A bus error (R361, R362); the ALARM of bus-off is an event (R540). In MODE 2 the controller rests until 11 recessive bits have passed; in MODE 3 it hears only
itself. -/
def State.canErr (s : State) (n : Fin 4) (e : CanErr) : State :=
  let x := Vec.at s.can n
  if (x.st != nActive && x.st != nPassive && x.onbus.isNone) || (x.mode = 3 && !e.transmitter) || x.resting then s
  else
    let s := match e.tdc with
      | some m => if e.transmitter then s.canMeasure n m else s
      | none => s
    let s1 := (s.ninc n (nErr + (canErrCode e.kind - 1))).updCan n fun x => { x with
      last := BitVec.ofNat 3 (canErrCode e.kind), lastData := e.dataPhase, lastTx := e.transmitter, count := x.count + 1 }
    let s2 := if e.kind = .bit && e.transmitter && e.afterArbitration then s1.canClash n else s1
    if x.mode = 2 then s2.updCan n fun x => { x with resting := true }
    else if x.st != nActive && x.st != nPassive then (if e.transmitter then s2.canUnsent n else s2)
    else
      let (tec, rec') := canErrCounts e x.tec x.rxErr
      let s3 := s2.canCounts n tec rec'
      if 255 < tec then
        let s4 := match x.onbus.bind fun b => (Vec.at x.tb b).map fun t => (b, t) with
          | some (b, t) =>
            if x.abort.getLsbD b.1 then s3.bufDone n b kAborted 0
            else if t.desc.single then s3.bufDone n b kFailed 0
            else s3.updCan n fun x => { x with onbus := none }
          | none => s3
        (((s4.updCan n fun x => { x with recov := 0 }).canState n nBusOff).ninc n nBusoff).alarm 0x0801 (s.objAt 3 n.1) 0 true
      else if e.transmitter then s3.canUnsent n else s3

/-- The 128th recessive sequence (R363). -/
def State.canRecover (s : State) (n : Fin 4) : State :=
  if (Vec.at s.can n).st = nBusOff then
    let obj := s.objAt 3 n.1
    ((s.updCan n fun x => { x with tec := 0, rxErr := 0, recov := 128 }).canState n nActive).notice 0x0802 obj 0
  else s

/-- 11 recessive bits end INTEGRATING (R343), and in MODE 2 the wait after an error (R361). -/
def State.canIntegrated (s : State) (n : Fin 4) : State :=
  let x := Vec.at s.can n
  if x.st = nIntegrating then s.canState n (if 127 < x.tec || 127 < x.rxErr then nPassive else nActive)
  else if x.resting then s.updCan n fun x => { x with resting := false } else s

/-- A recessive res or FDF bit (R365): a protocol exception, or with PEX = 0 a form error. -/
def State.canException (s : State) (n : Fin 4) (tx : Bool) : State :=
  let x := Vec.at s.can n
  if (x.st != nActive && x.st != nPassive) || x.resting then s
  else if x.pex then
    let s1 := (s.ninc n nPex).updCan n fun x => { x with
      last := 6, lastData := false, lastTx := tx, count := x.count + 1 }
    (if tx then s1.canUnsent n else s1).canState n nIntegrating
  else s.canErr n { kind := .form, dataPhase := false, transmitter := tx, afterArbitration := true, flagError := false, exempt := false, tdc := none }

/-! ### What passes on the bus unseen by any row -/

/-- One period of CK_TIME for a controller: in BUS_OFF a sequence of 11 recessive bits may end (R363), and at each microsecond
the bus was busy or idle (R367). What the bus carries then is no input of the model, so both are free values (log 92). -/
def State.canTick (s : State) (n : Fin 4) : State :=
  let x := Vec.at s.can n
  if x.st = nHeld || x.st = nIdle then s
  else
    let s1 : State := { s with free := s.free + 2 }
    let s2 := if x.st = nBusOff && x.recov.toNat < 127 && Config.freeBit s.free then s1.updCan n fun x => { x with recov := x.recov + 1 } else s1
    if s.ns.toNat % 1000 < 2 && Config.freeBit (s.free + 1) then s2.ninc n nBusBusy else s2

end Sys2Proof.Machine
end

