-- ==== Sys2Proof/Machine/PioEng.lean ====
section
/-!
DEFINITION. The PIO engines: registers, queues and joins, the driver-enable sequencer, and the operations behind the
PIO instructions (R368–R389).
-/
namespace Sys2Proof.Machine

/-- States of a PIO engine (R369). -/
abbrev oHeld : Fin 5 := 0
abbrev oIdle : Fin 5 := 1
abbrev oRun : Fin 5 := 2
abbrev oStall : Fin 5 := 3
abbrev oFault : Fin 5 := 4

/-- A counter of a PIO engine counts `i` more events. -/
def State.oadd (s : State) (k : Fin 8) (i n : Nat) : State := s.updPio k fun x => { x with ctr := x.ctr.add i n }

/-- Register fields (R370). -/
def Pio.odir (x : Pio) : Bool := x.pfmt.getLsbD 31
def Pio.idir (x : Pio) : Bool := x.pfmt.getLsbD 30
def Pio.frameSet (x : Pio) : Nat := fld x.pfmt 24 6
def Pio.link (x : Pio) : Option (Fin 8) := if x.pfmt.getLsbD 19 then some (finOf 8 (fld x.pfmt 16 3)) else none
def Pio.outBase (x : Pio) : Nat := fld x.ppins 27 5
def Pio.outCnt (x : Pio) : Nat := fld x.ppins 23 4
def Pio.setBase (x : Pio) : Nat := fld x.ppins 18 5
def Pio.inBase (x : Pio) : Nat := fld x.ppins 13 5
def Pio.deEn (x : Pio) : Bool := x.ppins.getLsbD 12
def Pio.dePin (x : Pio) : Nat := fld x.ppins 7 5
def Pio.deLead (x : Pio) : Nat := fld x.pde 0 4
def Pio.deLag (x : Pio) : Nat := fld x.pde 8 8

/-- PSTAT (R370). -/
def Pio.pstat (x : Pio) : W32 :=
  place x.st.1 29 3 ||| place x.pc.toNat 23 6 ||| place x.stallc.toNat 20 3 ||| place x.txq.length 15 5 |||
    place (if x.link.isSome then 0 else x.rxq.length) 10 5 ||| bitAt 32 9 x.txovf ||| bitAt 32 8 x.rxund |||
    bitAt 32 7 x.rxdrop ||| bitAt 32 6 x.tout ||| place x.bc 0 6
/-- PCTL as read: RUN and START. -/
def Pio.pctl (x : Pio) : W32 := bitAt 32 31 x.run ||| place x.start.1 0 6

/-- The level an engine sees on a pin: 0 outside its input mask (R380). -/
def Pio.pin (x : Pio) (pins : W32) (i : Nat) : Bool := pins.getLsbD (i % 32) && x.inMask.getLsbD (i % 32)

/-- A pin written within the output mask (R380). -/
def Pio.setLevel (x : Pio) (i : Nat) (b : Bool) : Pio :=
  let j := i % 32
  if x.outMask.getLsbD j then { x with level := (x.level &&& ~~~(bitAt 32 j true)) ||| bitAt 32 j b } else x
/-- A direction written within the output mask. -/
def Pio.setDir (x : Pio) (i : Nat) (b : Bool) : Pio :=
  let j := i % 32
  if x.outMask.getLsbD j then { x with dir := (x.dir &&& ~~~(bitAt 32 j true)) ||| bitAt 32 j b } else x

/-- What an engine drives: levels, and which pins it drives; the sequencer wins on DE_PIN (R381). -/
def Pio.driven (x : Pio) : W32 × W32 :=
  let d := bitAt 32 x.dePin x.deEn &&& x.outMask
  ((x.level &&& x.dir &&& x.outMask &&& ~~~d) ||| (if x.de then d else 0), (x.dir &&& x.outMask) ||| d)

/-- EVP events of the owning cluster (R384). -/
def State.pioEvent (s : State) (k : Fin 8) (b : Nat) : State :=
  match (Vec.at s.pio k).owner with
  | some c => s.evpCl c b
  | none => s

/-- A change of PSTAT.STATE (R384). -/
def State.pioState (s : State) (k : Fin 8) (st : Fin 5) (stallc : BitVec 3) : State :=
  let was := (Vec.at s.pio k).st
  let s1 := s.updPio k fun x => { x with st := st, stallc := stallc }
  if was = st then s1 else s1.pioEvent k 13

/-- Entry into IDLE: owned pins at their idle values, DE_PIN low (R381). -/
def State.pioIdle (s : State) (k : Fin 8) : State :=
  (s.updPio k fun x => { x with
    level := x.idleVal, dir := x.idleDir, de := false, deTail := false, latched := none }).pioState k oIdle 0

/-- IDLE to RUN at PCTL.START (R369, R370, R373). -/
def State.pioGo (s : State) (k : Fin 8) : State :=
  let x := Vec.at s.pio k
  if x.st = oIdle && x.run && (match x.owner with | some c => s.started c | none => false) then
    (s.updPio k fun x => { x with
      pc := BitVec.ofNat 6 x.start.1, frame := x.frameSet, divAcc := 0, latched := none }).pioState k oRun 0
  else s

/-- RESTART (R387). -/
def State.pioRestart (s : State) (k : Fin 8) : State :=
  let x := Vec.at s.pio k
  if x.st = oHeld || x.st = oIdle then s
  else (s.updPio k fun x => { x with
      pc := BitVec.ofNat 6 x.start.1, sr := 0, bc := 0, lc0 := 0, lc1 := 0, tcnt := 0, tout := false,
      frame := x.frameSet, divAcc := 0, latched := none, deTail := x.de }).pioState k oRun 0

/-- STOP and START for the engines of a cluster (R369, R388). -/
def State.stopPios (s : State) (c : Fin 4) : State :=
  s.each (n := 8) fun s k =>
    let x := Vec.at s.pio k
    if x.owner = some c && x.st != oHeld && x.st != oIdle then s.pioIdle k else s
def State.startPios (s : State) (c : Fin 4) : State :=
  s.each (n := 8) fun s k => if (Vec.at s.pio k).owner = some c then s.pioGo k else s

/-! ### Queues (R383–R385) -/

/-- A pop of the transmit queue raises the transmit event when its level falls to TXTHR. -/
def State.pioTxPopped (s : State) (k : Fin 8) : State :=
  let x := Vec.at s.pio k
  if x.pevt.getLsbD 30 && x.txq.length = fld x.pevt 0 5 then s.pioEvent k 14 else s

/-- A store finds room in the receive queue, or in the joined target's transmit queue. -/
def State.pioRoom (s : State) (k : Fin 8) : Bool :=
  let x := Vec.at s.pio k
  match x.link with
  | some t => (Vec.at s.pio t).txq.length < 16
  | none => x.rxq.length < 16

/-- A word stored where there is room. -/
def State.pioPut (s : State) (k : Fin 8) (w : W32) : State :=
  let x := Vec.at s.pio k
  match x.link with
  | some t => s.updPio t fun y => { y with txq := y.txq ++ [w] }
  | none =>
    let s1 := s.updPio k fun y => { y with rxq := y.rxq ++ [w] }
    if x.pevt.getLsbD 31 && x.rxq.length + 1 = fld x.pevt 8 5 then s1.pioEvent k 15 else s1

/-- A word of engine firmware for the transmit queue (R383). -/
def State.pioTxPush (s : State) (k : Fin 8) (w : W32) : State :=
  if (Vec.at s.pio k).txq.length < 16 then s.updPio k fun x => { x with txq := x.txq ++ [w] }
  else (s.updPio k fun x => { x with txovf := true }).oadd k 0 1

/-- A load of PRXQ (R383). -/
def State.pioRxPop (s : State) (k : Fin 8) : W32 × State :=
  match (Vec.at s.pio k).rxq with
  | w :: r => (w, s.updPio k fun x => { x with rxq := r })
  | [] => (0, (s.updPio k fun x => { x with rxund := true }).oadd k 1 1)

/-- The BC bits received, right-justified (R378). -/
def Pio.received (x : Pio) : W32 :=
  if x.idir then x.sr &&& BitVec.ofNat 32 (2 ^ x.bc - 1) else if x.bc = 0 then 0 else x.sr >>> (32 - x.bc)

/-- STORE where there is room: the word moves, SR and BC clear. -/
def State.pioStoreFrame (s : State) (k : Fin 8) : State :=
  (s.pioPut k (Vec.at s.pio k).received).updPio k fun x => { x with sr := 0, bc := 0 }

/-- LOAD from a queue that is not empty. -/
def State.pioLoadWord (s : State) (k : Fin 8) : State :=
  match (Vec.at s.pio k).txq with
  | w :: r => (s.updPio k fun x => { x with txq := r, sr := w, bc := 0 }).pioTxPopped k
  | [] => s

/-! ### Instruction words (R374–R377) -/

/-- An instruction word from its OP and operand bits. -/
def pioWord (op : Nat) (ops : BitVec 28) : W32 := BitVec.ofNat 32 (op * 2 ^ 28 + ops.toNat)

/-- The operand bits that R375 lists for an OP. -/
def pioListed : Nat → Nat
  | 0x1 => 0x0FFFF000
  | 0x2 => 0x08000000
  | 0x3 => 0x08000000
  | 0x4 => 0x0FF00000
  | 0x5 => 0x08000000
  | 0x6 => 0x0FF8003F
  | 0x7 => 0x0FFFFC00
  | 0x8 => 0x0E00FFFF
  | 0x9 => 0x00000007
  | 0xA => 0x0C000000
  | _ => 0

/-- Fields of XFER. -/
def xN (w : W32) : Nat := fld w 23 5 + 1
def xOe (w : W32) : Bool := w.getLsbD 22
def xIe (w : W32) : Bool := w.getLsbD 21
def xBt (w : W32) : Nat := fld w 17 4 + 1
def xSp (w : W32) : Nat := fld w 13 4
def xAuto (w : W32) : Bool := w.getLsbD 12

/-- An invalid instruction word (R377). -/
def pioInvalid (w : W32) : Bool :=
  let op := fld w 28 4
  0xB ≤ op ||
  (w &&& 0x0FFFFFFF &&& ~~~(BitVec.ofNat 32 (pioListed op))) ≠ 0 ||
  (op = 6 && 11 ≤ fld w 24 4) ||
  (op = 4 && fld w 26 2 = 3) ||
  (op = 8 && (fld w 25 3 = 7 || (fld w 25 3 = 4 && (fld w 0 16 = 0 || 32 < fld w 0 16)))) ||
  (op = 7 && fld w 26 2 = 3) ||
  (op = 1 && xIe w && xBt w ≤ xSp w)

/-- The next instruction's address. -/
def Pio.advance (x : Pio) : Pio := { x with pc := x.pc + 1, latched := none }

/-- The divider at the next tick (R373): NUM is added each CK_PIO cycle until the accumulator reaches DEN, which is then
subtracted. -/
def Pio.divided (x : Pio) : Nat :=
  let num := fld x.pclk 0 16
  let den := fld x.pclk 16 16
  x.divAcc + (den - x.divAcc + num - 1) / num * num - den

/-- DE_PIN falls at a tick DE_LAG ticks after the last bit sent (R381). -/
def Pio.deDue (x : Pio) : Pio := if x.deTail && decide (x.deLag ≤ x.deAgo) then { x with de := false, deTail := false } else x

/-- Words of a PIO_PROGRAM land, one in each CK_PIO cycle (R386). -/
def Pio.land (x : Pio) (cycles : Nat) : Pio :=
  { x with
    pimem := (x.landing.take cycles).foldl (fun t w => Vec.updN t w.1 fun _ => w.2) x.pimem
    landing := x.landing.drop cycles }

/-- CK_PIO cycles to the next tick (R373). -/
def Pio.cycles (x : Pio) : Nat := (fld x.pclk 16 16 - x.divAcc + fld x.pclk 0 16 - 1) / fld x.pclk 0 16

/-- PIO_PROGRAM's words: the first lands at once, one more in each CK_PIO cycle after it; an engine that does not run has them all
before it can fetch (R386; log 93). -/
def Pio.program (x : Pio) (ws : List (Nat × W32)) : Pio :=
  let y := { x with landing := x.landing ++ ws }
  if x.st = oHeld || x.st = oIdle then y.land y.landing.length else y.land 1

/-- One tick passes: a fall of DE_PIN that is due, the timer, the divider, the words of a PIO_PROGRAM that land until it; the pins
of the tick become those of the tick before (R370, R373, R379, R381, R386). -/
def Pio.tick (x : Pio) (pins : W32) : Pio :=
  let y := x.deDue.land x.cycles
  { y with tcnt := if x.tcnt = 0 then 0 else x.tcnt - 1, prevPins := pins, divAcc := x.divided, deAgo := x.deAgo + 1 }

/-- One CK_PIO cycle in which no row runs the engine (log 93): a word of a PIO_PROGRAM lands, and in FAULT the ticks go on, with
the timer and the lag of DE_PIN (R373, R377, R381, R386). -/
def Pio.cycle (x : Pio) : Pio :=
  let y := x.land 1
  if y.st != oFault then y
  else
    let acc := y.divAcc + fld y.pclk 0 16
    if acc < fld y.pclk 16 16 then { y with divAcc := acc }
    else { y.deDue with tcnt := if y.tcnt = 0 then 0 else y.tcnt - 1, deAgo := y.deAgo + 1, divAcc := acc - fld y.pclk 16 16 }

/-- The levels an engine sees at a tick: the newest sample, or with IN_FILT the majority of three (R370, R382). -/
def Pio.seen (x : Pio) (t : PinTick) : W32 :=
  if x.pfmt.getLsbD 23 then (t.now &&& t.mid) ||| (t.now &&& t.old) ||| (t.mid &&& t.old) else t.now

/-- The word at PC is `w`; the spec does not say what is fetched past PIMEM47 (log 93). -/
def Pio.fetches (x : Pio) (w : W32) : Bool := 48 ≤ x.pc.toNat || Vec.atD x.pimem x.pc.toNat 0 == w

/-- The pins of tick `i`; past the list the last levels hold. -/
def pinsAt (ticks : List W32) (old : W32) (i : Nat) : W32 := ticks.getD i (ticks.getLastD old)

/-- An invalid word is fetched, in a tick with levels `pins` (R377). -/
def State.pioBad (s : State) (k : Fin 8) (pins : W32) : State :=
  (((s.updPio k (·.tick pins)).oadd k 3 1).pioState k oFault 0).warn 0x0900 (s.objAt 4 k.1) 0 false

/-! ### XFER (R378, R381) -/

/-- One bit of an XFER: driven at its first tick, sampled at tick SP, BT ticks long. -/
def Pio.xferBit (x : Pio) (w : W32) (ticks : List W32) (t0 : Nat) : Pio :=
  let oe := xOe w
  let ie := xIe w
  let b := if x.odir then x.sr.getLsbD (x.frame - 1) else x.sr.getLsbD 0
  let x1 := if oe then x.setLevel x.outBase b else x
  let inb := x.pin (pinsAt ticks x.prevPins (t0 + xSp w)) x.inBase
  let right := if ie then !x.idir else !x.odir
  let sr :=
    if !oe && !ie then x.sr
    else if right then (x.sr >>> 1) ||| (bitAt 32 31 (ie && inb))
    else (x.sr <<< 1) ||| (bitAt 32 0 (ie && inb))
  let x2 := { x1 with sr := sr, bc := satTo 32 (x.bc + 1) }
  let x3 := (List.range (xBt w)).foldl (fun y i => y.tick (pinsAt ticks x.prevPins (t0 + i))) x2
  { x3 with deAgo := if oe then 0 else x3.deAgo }

/-- A frame boundary under AUTO: done, or stalled for the store or for the load. -/
inductive Boundary where
  | done (s : State)
  | store
  | load (s : State)

/-- The store and load of a frame boundary; `storing`: the store is still to be done. -/
def State.pioBoundary (s : State) (k : Fin 8) (w : W32) (storing : Bool) : Boundary :=
  if xIe w && storing then
    if s.pioRoom k then
      let s1 := s.pioStoreFrame k
      if xOe w then (if (Vec.at s1.pio k).txq.isEmpty then .load s1 else .done (s1.pioLoadWord k)) else .done s1
    else .store
  else if xOe w then (if (Vec.at s.pio k).txq.isEmpty then .load s else .done (s.pioLoadWord k))
  else .done s

/-- XFER at its end: with OE = 1 DE_PIN's lag begins; another leaves a lag as it is (R381). -/
def Pio.xferEnd (x : Pio) (w : W32) : Pio := { x with deTail := if xOe w then x.de else x.deTail }.advance

/-- The bits of an XFER from bit `i` on, with the tick each begins at. -/
def State.xferBits (k : Fin 8) (w : W32) (ticks : List W32) : Nat → Nat → Nat → State → State
  | 0, _, _, s => (s.updPio k fun x => x.xferEnd w).pioState k oRun 0
  | left + 1, i, t0, s =>
    let s1 := s.updPio k fun x => x.xferBit w ticks t0
    let t1 := t0 + xBt w
    let x := Vec.at s1.pio k
    if left ≠ 0 && xAuto w && x.bc = x.frame then
      match s1.pioBoundary k w true with
      | .done s2 => State.xferBits k w ticks left (i + 1) t1 s2
      | .store => (s1.updPio k fun x => { x with latched := some ⟨w, i + 1, true⟩ }).pioState k oStall 6
      | .load s2 => (s2.updPio k fun x => { x with latched := some ⟨w, i + 1, false⟩ }).pioState k oStall 5
    else State.xferBits k w ticks left (i + 1) t1 s1

/-- An XFER begins: the driver enable leads its first bit (R381). -/
def State.xferStart (s : State) (k : Fin 8) (w : W32) (ticks : List W32) : State :=
  let x := Vec.at s.pio k
  let lead := if xOe w && x.deEn && !x.de then x.deLead else 0
  let s1 := s.updPio k fun x =>
    let x1 := if xOe w && x.deEn then { x with de := true, deTail := false } else x
    (List.range lead).foldl (fun y i => y.tick (pinsAt ticks x.prevPins i)) x1
  State.xferBits k w ticks (xN w) 0 lead s1

/-! ### Waits (R375, R379) -/

/-- The result of a test of a waiting instruction at a tick. -/
inductive Tested where
  | no
  | yes (x : Pio)

/-- WAITE at a tick: the timer has counted, `x.prevPins` are the levels of the tick before. -/
def Pio.testEdge (x : Pio) (w : W32) (pins : W32) : Tested :=
  let i := fld w 21 5
  let now := x.pin pins i
  let was := x.pin x.prevPins i
  let hit := match fld w 26 2 with
    | 0 => now && !was
    | 1 => !now && was
    | _ => now != was
  let x1 := x.tick pins
  let timed := w.getLsbD 20
  if hit then .yes (if timed then { x1 with tout := false } else x1)
  else if timed && x1.tcnt = 0 then .yes { x1 with tout := true }
  else .no

/-- WAITT at a tick. -/
def Pio.testTimer (x : Pio) (w : W32) (pins : W32) : Tested :=
  let x1 := x.tick pins
  if x1.tcnt = 0 then .yes (if w.getLsbD 27 then { x1 with tcnt := x1.tcmp } else x1) else .no

/-- Ticks of a wait, one after another, until its condition holds; it stalls from the first tick that fails. -/
def State.pioWait (k : Fin 8) (w : W32) (edge : Bool) : List W32 → State → State
  | [], s => s
  | pins :: r, s =>
    let x := Vec.at s.pio k
    match (if edge then x.testEdge w pins else x.testTimer w pins) with
    | .yes y => (s.updPio k fun _ => y.advance).pioState k oRun 0
    | .no =>
      let s1 := ((s.updPio k fun x => { (x.tick pins) with latched := some ⟨w, 0, false⟩ }).pioState k oStall
        (if edge then 3 else 4)).oadd k 4 1
      State.pioWait k w edge r s1

/-- Ticks as given, at least one. -/
def atLeastOne (ticks : List W32) (old : W32) : List W32 := if ticks.isEmpty then [old] else ticks

/-! ### One instruction -/

/-- LOAD and STORE at a tick; stalled with BLK = 1 where the queue is not ready. -/
def State.pioMove (s : State) (k : Fin 8) (w : W32) (load : Bool) : State :=
  let blk := w.getLsbD 27
  let ready := if load then !(Vec.at s.pio k).txq.isEmpty else s.pioRoom k
  if ready then ((if load then s.pioLoadWord k else s.pioStoreFrame k).updPio k (·.advance)).pioState k oRun 0
  else if blk then
    ((s.updPio k fun x => { x with latched := some ⟨w, 0, false⟩ }).pioState k oStall (if load then 1 else 2)).oadd k 4 1
  else if load then s.updPio k (·.advance)
  else (s.updPio k fun x => { x with rxdrop := true, sr := 0, bc := 0 }.advance).oadd k 2 1

/-- COND of BR (R376): whether it holds, and the counters after the test. -/
def State.pioCond (s : State) (k : Fin 8) (w pins : W32) : Bool × Pio :=
  let x := Vec.at s.pio k
  let p := x.pin pins (fld w 19 5)
  match fld w 24 4 with
  | 0 => (true, x)
  | 1 => (x.lc0 ≠ 0, if x.lc0 ≠ 0 then { x with lc0 := x.lc0 - 1 } else x)
  | 2 => (x.lc1 ≠ 0, if x.lc1 ≠ 0 then { x with lc1 := x.lc1 - 1 } else x)
  | 3 => (p, x)
  | 4 => (!p, x)
  | 5 => (x.bc < x.frame, x)
  | 6 => (!x.txq.isEmpty, x)
  | 7 => (!s.pioRoom k, x)
  | 8 => (x.tcnt ≠ 0, x)
  | 9 => ((x.received.setWidth 16 &&& x.mmask) == (x.pmatch &&& x.mmask), x)
  | 10 => (x.tout, x)
  | _ => (false, x)

/-- PINS (R375). -/
def Pio.pinsOp (x : Pio) (w : W32) : Pio :=
  (List.range 8).foldl (fun x i =>
    if w.getLsbD (18 + i) then
      let v := w.getLsbD (10 + i)
      match fld w 26 2 with
      | 0 => x.setLevel (x.setBase + i) v
      | 1 => x.setDir (x.setBase + i) v
      | _ => x.setLevel (x.setBase + i) (!x.level.getLsbD ((x.setBase + i) % 32))
    else x) x

/-- LDC (R375). -/
def Pio.ldc (x : Pio) (w : W32) : Pio :=
  let v : W16 := w.setWidth 16
  match fld w 25 3 with
  | 0 => { x with lc0 := v }
  | 1 => { x with lc1 := v }
  | 2 => { x with tcnt := v }
  | 3 => { x with tcmp := v }
  | 4 => { x with frame := v.toNat }
  | 5 => { x with pmatch := v }
  | _ => { x with mmask := v }

/-- SRX (R375). -/
def Pio.srx (x : Pio) (w pins : W32) : Pio :=
  match fld w 26 2 with
  | 0 => { x with sr := 0, bc := 0 }
  | 1 => { x with sr := ~~~x.sr }
  | 2 => { x with sr := (List.range 8).foldl (fun v i => v ||| bitAt 32 i (x.pin pins (x.inBase + i))) 0, bc := 8 }
  | _ => (List.range x.outCnt).foldl (fun y i => y.setLevel (x.outBase + i) (x.sr.getLsbD i)) x

/-- ODIR ≠ IDIR under an XFER with OE and IE: an error of engine firmware (R371). -/
def Pio.xferError (x : Pio) (w : W32) : Bool := xOe w && xIe w && x.odir != x.idir

/-- The synchronised levels after some ticks (R370, PGPIN). -/
def State.pinsNow (s : State) (ticks : List PinTick) : State :=
  match ticks.getLast? with
  | some t => { s with gpIn := t.now, gpAt := some s.ns }
  | none => s

/-- The synchronised levels at a load of PGPIN: those of a tick at this instant, else a free value, since no row brings the levels
of the contacts (R370, R382; log 93). -/
def State.pinsRead (s : State) : W32 × State :=
  if s.gpAt = some s.ns then (s.gpIn, s)
  else
    let (k, s1) := s.draw
    (Config.freeWord k, { s1 with gpIn := Config.freeWord k, gpAt := some s.ns })

/-- A valid instruction fetched by an engine in RUN, executed over its ticks. -/
def State.pioExec (s : State) (k : Fin 8) (w : W32) (raw : List PinTick) : State :=
  let x := Vec.at s.pio k
  let ticks := raw.map x.seen
  let pins := pinsAt ticks x.prevPins 0
  let s1 := s.pinsNow raw
  let tick1 := s1.updPio k (·.tick pins)
  match fld w 28 4 with
  | 0x1 => s1.xferStart k w ticks
  | 0x2 => tick1.pioMove k w true
  | 0x3 => tick1.pioMove k w false
  | 0x4 => State.pioWait k w true (atLeastOne ticks x.prevPins) s1
  | 0x5 => State.pioWait k w false (atLeastOne ticks x.prevPins) s1
  | 0x6 =>
    let (holds, y) := tick1.pioCond k w pins
    tick1.updPio k fun _ => if holds then { y with pc := BitVec.ofNat 6 (fld w 0 6) } else y.advance
  | 0x7 => tick1.updPio k fun x => (x.pinsOp w).advance
  | 0x8 => tick1.updPio k fun x => (x.ldc w).advance
  | 0x9 => (tick1.updPio k fun x => { x with pflag := x.pflag ||| bitAt 8 (fld w 0 3) true }.advance).pioEvent k 15
  | 0xA => tick1.updPio k fun x => (x.srx w pins).advance
  | _ => tick1.updPio k (·.advance)

/-- One instruction of a PIO program: fetched from PIMEM at PC and executed in RUN (R386), FAULT when the word is invalid
(R377). -/
def pioInstr (k : Fin 8) (w : W32) (ticks : List PinTick) (s : State) : Host.Outcome State Fault Refusal :=
  let x := Vec.at s.pio k
  if x.st ≠ oRun || !x.fetches w then .next s
  else if pioInvalid w then .next ((s.pinsNow ticks).pioBad k (pinsAt (ticks.map x.seen) x.prevPins 0))
  else if fld w 28 4 = 1 && x.xferError w then
    .fault (s.fwError 4 k.1)
  else .next (s.pioExec k w ticks)

/-- Ticks of a stall (R379): the latched instruction tests its condition at each and completes at the first at which
it holds. -/
def State.pioStall (s : State) (k : Fin 8) (raw : List PinTick) : State :=
  let x := Vec.at s.pio k
  let ticks := raw.map x.seen
  match x.latched with
  | none => s
  | some l =>
    if x.st ≠ oStall then s
    else
      let s0 := s.pinsNow raw
      let w := l.word
      let idle := fun (s : State) => (ticks.foldl (fun s p => s.updPio k (·.tick p)) s).oadd k 4 ticks.length
      match fld w 28 4 with
      | 0x2 => if x.txq.isEmpty then idle s0 else (s0.updPio k (·.tick (pinsAt ticks x.prevPins 0))).pioMove k w true
      | 0x3 => if s.pioRoom k then (s0.updPio k (·.tick (pinsAt ticks x.prevPins 0))).pioMove k w false else idle s0
      | 0x4 => State.pioWait k w true ticks s0
      | 0x5 => State.pioWait k w false ticks s0
      | 0x1 =>
        match s0.pioBoundary k w l.storing with
        | .done s1 => State.xferBits k w ticks (xN w - l.bits) l.bits 0 (s1.pioState k oRun 0)
        | .store => idle s0
        | .load s1 => (idle s1).updPio k fun x => { x with latched := some ⟨w, l.bits, false⟩, stallc := 5 }
      | _ => s

/-! ### Register writes by engine firmware (R370, R371) -/

/-- DE_PIN_FALL: what is left of DE_LAG passes and DE_PIN falls (R381). -/
def Pio.deFall (x : Pio) : Pio := if x.deTail then { x with de := false, deTail := false } else x

/-- Values of PCLK, PFMT, PPINS, PDE and PEVT that R371 calls errors. -/
def pclkOk (v : W32) : Bool := fld v 16 16 ≠ 0 && fld v 0 16 ≠ 0 && fld v 0 16 ≤ fld v 16 16
def pfmtOk (v : W32) : Bool := 1 ≤ fld v 24 6 && fld v 24 6 ≤ 32 && fld v 20 3 = 0 && fld v 0 16 = 0
def ppinsOk (v : W32) : Bool := fld v 23 4 ≤ 8 && fld v 0 7 = 0
def pdeOk (v : W32) : Bool := fld v 16 16 = 0 && fld v 4 4 = 0
def pevtOk (v : W32) : Bool :=
  1 ≤ fld v 8 5 && fld v 8 5 ≤ 16 && fld v 0 5 ≤ 15 && fld v 13 17 = 0 && fld v 5 3 = 0

/-- A LINK names another engine of the same cluster that no other engine is joined to (R371). -/
def State.linkOk (s : State) (k : Fin 8) (v : W32) : Bool :=
  if v.getLsbD 19 then
    let t : Fin 8 := finOf 8 (fld v 16 3)
    t ≠ k && (Vec.at s.pio t).owner = (Vec.at s.pio k).owner &&
      (allFin 8).all fun j => j = k || (Vec.at s.pio j).link ≠ some t
  else true

/-- PFMT takes a value; a change of LINK_EN or LINK empties the receive queue. -/
def Pio.putPfmt (x : Pio) (v : W32) : Pio :=
  { x with pfmt := v, rxq := if fld v 16 4 = fld x.pfmt 16 4 then x.rxq else [] }

/-- PCTL written: RUN and START, RESTART, CLRTX, CLRRX. -/
def State.pctlWrite (s : State) (k : Fin 8) (v : W32) : State :=
  let x := Vec.at s.pio k
  if x.st = oHeld then s
  else
    let s1 := s.updPio k fun x => { x with
      run := v.getLsbD 31, start := finOf 48 (fld v 0 6)
      txq := if v.getLsbD 29 then [] else x.txq
      rxq := if v.getLsbD 28 then [] else x.rxq }
    let s2 := if v.getLsbD 29 && x.pevt.getLsbD 30 && decide (fld x.pevt 0 5 < x.txq.length) then s1.pioEvent k 14 else s1
    if !v.getLsbD 31 then (if x.st = oIdle then s2 else s2.pioIdle k)
    else if x.st = oIdle then s2.pioGo k
    else if v.getLsbD 30 then s2.pioRestart k
    else s2

/-- A PIO window store by an engine of the owning cluster; none: an error of engine firmware (R371). -/
def State.pioStoreReg (s : State) (k : Fin 8) (off : Nat) (v : W32) : Option State :=
  let x := Vec.at s.pio k
  let idle := x.st = oIdle
  match off with
  | 0x00 => if fld v 6 22 ≠ 0 || 48 ≤ fld v 0 6 then none else some (s.pctlWrite k v)
  | 0x04 => some (s.updPio k fun x => { x with
      txovf := x.txovf && !v.getLsbD 9, rxund := x.rxund && !v.getLsbD 8, rxdrop := x.rxdrop && !v.getLsbD 7 })
  | 0x08 => some (s.pioTxPush k v)
  | 0x10 => if !idle then some s else if pclkOk v then some (s.updPio k fun x => { x with pclk := v }) else none
  | 0x14 => if !idle then some s else if pfmtOk v && s.linkOk k v then some (s.updPio k (·.putPfmt v)) else none
  | 0x18 => if !idle then some s else if ppinsOk v then some (s.updPio k fun x => { x with ppins := v }) else none
  | 0x1C => some (s.updPio k fun x => { x with tcmp := v.setWidth 16 })
  | 0x20 => if !idle then some s else if pdeOk v then some (s.updPio k fun x => { x with pde := v }) else none
  | 0x24 =>
    if idle then (if pevtOk v then some (s.updPio k fun x => { x with pevt := v }) else none)
    else if fld v 13 17 ≠ 0 || fld v 5 3 ≠ 0 then none
    else some (s.updPio k fun x => { x with pevt := (x.pevt &&& 0x3FFFFFFF) ||| (v &&& 0xC0000000) })
  | 0x2C => some (s.updPio k fun x => { x with mmask := BitVec.ofNat 16 (fld v 16 16), pmatch := v.setWidth 16 })
  | 0x30 => if fld v 8 24 ≠ 0 then none else some (s.updPio k fun x => { x with pflag := x.pflag &&& ~~~(v.setWidth 8) })
  | _ =>
    if 0x40 ≤ off && off < 0x100 && off % 4 = 0 then
      some (s.updPio k fun x => { x with pimem := Vec.updN x.pimem ((off - 0x40) / 4) fun _ => v })
    else some s

/-- A PIO window load; PRXQ pops. None: a load from PRXQ of a joined engine, which is a bus error (R383). -/
def State.pioLoadReg (s : State) (k : Fin 8) (off : Nat) : Option (W32 × State) :=
  let x := Vec.at s.pio k
  match off with
  | 0x00 => some (x.pctl, s)
  | 0x04 => some (x.pstat, s)
  | 0x0C => if x.link.isSome then none else some (s.pioRxPop k)
  | 0x10 => some (x.pclk, s)
  | 0x14 => some (x.pfmt, s)
  | 0x18 => some (x.ppins, s)
  | 0x1C => some (place x.tcnt.toNat 16 16 ||| place x.tcmp.toNat 0 16, s)
  | 0x20 => some (x.pde, s)
  | 0x24 => some (x.pevt, s)
  | 0x28 => some (place x.lc0.toNat 16 16 ||| place x.lc1.toNat 0 16, s)
  | 0x2C => some (place x.mmask.toNat 16 16 ||| place x.pmatch.toNat 0 16, s)
  | 0x30 => some (x.pflag.setWidth 32, s)
  | 0x34 =>
    let (v, s1) := s.pinsRead
    some (v &&& x.inMask, s1)
  | _ => some (if 0x40 ≤ off && off < 0x100 && off % 4 = 0 then Vec.atD x.pimem ((off - 0x40) / 4) 0 else 0, s)

end Sys2Proof.Machine
end

