-- ==== Sys2Proof/Machine/Fio.lean ====
section
/-!
DEFINITION. The isolated 24 V field inputs and outputs: commands and drive states, faults, thresholds, counters and
frequency gates, supply sag (R390–R418).
-/
namespace Sys2Proof.Machine

/-- Output states (R407). -/
abbrev uOff : Fin 8 := 0
abbrev uOn : Fin 8 := 1
abbrev uLimit : Fin 8 := 2
abbrev uTsd : Fin 8 := 3
abbrev uUvlo : Fin 8 := 4
abbrev uLost : Fin 8 := 5
abbrev uHeldOff : Fin 8 := 6
abbrev uOvertemp : Fin 8 := 7

/-- Fault codes (R414). -/
abbrev fbHigh : Nat := 1
abbrev fbLow : Nat := 2
abbrev fOverload : Nat := 3
abbrev fOpenLoad : Nat := 4
abbrev fLplusLow : Nat := 5
abbrev fUvlo : Nat := 6
abbrev fLink : Nat := 7
abbrev fOvertemp : Nat := 8
abbrev fCntOvf : Nat := 9
abbrev fSumHigh : Nat := 10

/-- A counter of an output counts one. -/
def State.dinc (s : State) (d : Fin 8) (i : Nat) : State := s.updDo d fun x => { x with ctr := x.ctr.inc i }

/-- The driver is on. -/
def Dout.driven (x : Dout) : Bool := x.st == uOn || x.st == uLimit

/-- An output enters a state; a healthy readback follows a change of its driver. -/
def Dout.enter (x : Dout) (st : Fin 8) : Dout :=
  let y := { x with st := st }
  if y.driven = x.driven then y else { y with rb := y.driven }

/-- The state of the current command. -/
def Dout.ofCmd (x : Dout) : Fin 8 := if x.cmd then uOn else uOff

/-- The output is wired to the partner's (DO_SHARED, R314). -/
def State.doShared (s : State) (d : Fin 8) : Bool := (row s.pair.sets 10).testBit d.1

/-! ### Faults (R414, R415) -/

/-- Class of a fault code. -/
def fioClass (code : Nat) : Fin 4 :=
  if code = fOpenLoad || code = fLplusLow || code = fSumHigh then 1 else if code = fCntOvf then 2 else 0

/-- A raise or a clear: the log and FIO_FAULT. -/
def State.fioEvent (s : State) (code : Nat) (obj : W16) (st : Nat) (ref rb cleared : Bool) : State :=
  let s1 := match fioClass code with
    | 0 => if cleared then s.log 0 (0x0A00 + code) obj 0 true else s.alarm (0x0A00 + code) obj 0 false
    | k => s.log k (0x0A00 + code) obj 0 cleared
  s1.notify 0xF006 obj (leBytes 2 code ++ [BitVec.ofNat 8 st, BitVec.ofNat 8 (bit ref), BitVec.ofNat 8 (bit rb), BitVec.ofNat 8 (bit cleared)] ++
    leBytes 2 (s.fio.lplus.toNat / 10) ++ leBytes 8 s.ns.toNat)

/-- A fault of an output raised, once. -/
def State.doRaise (s : State) (d : Fin 8) (code : Nat) (slot : Nat) : State :=
  let x := Vec.at s.fio.do_ d
  if x.faults.getLsbD code then s
  else
    ((s.updDo d fun x => { x with faults := x.faults ||| bitAt 8 code true }).dinc d slot).fioEvent code (s.objAt 6 d.1) x.st.1 x.cmd x.rb false

/-- A fault of an output cleared, when it was raised. -/
def State.doClear (s : State) (d : Fin 8) (code : Nat) : State :=
  let x := Vec.at s.fio.do_ d
  if x.faults.getLsbD code then
    (s.updDo d fun x => { x with faults := x.faults &&& ~~~(bitAt 8 code true) }).fioEvent code (s.objAt 6 d.1) x.st.1 x.cmd x.rb true
  else s

/-! ### Commands (R391–R395, R407) -/

/-- The state an output takes when nothing but its command and the conditions on all outputs hold it. -/
def Fio.settle (f : Fio) (want : Fin 8) : Fin 8 :=
  if f.uvlo && f.hot then (if f.hotFirst then uOvertemp else uUvlo)
  else if f.uvlo then uUvlo
  else if f.hot then uOvertemp
  else want

/-- A command for an output: recorded, and applied unless its state holds it off. A LOST output whose keep-alive has
resumed takes the state of the next applied command. With the FIO domain down every output stays off, and the domain
keeps no command (R13, R395, R396; log 51). A shared output is off in SYNCING: whatever comes, command 0 is applied to it
(R409; DEDUCED, log 101). -/
def State.doApply (s : State) (d : Fin 8) (w : Bool) : State :=
  let f := s.fio
  let v := w && !(s.doShared d && s.pair.st = 1)
  if !s.powered 11 then s
  else s.updDo d fun x =>
    let y := { x with cmd := v }
    if x.st == uUvlo || x.st == uHeldOff || x.st == uOvertemp then y
    else if x.st == uLost then (if x.faults.getLsbD fLink then y else y.enter (f.settle y.ofCmd))
    else if v then (if x.st == uOff then { y with retries := 0 }.enter uOn else y)
    else { y with retries := 0 }.enter uOff

/-- A write of FIO_DOCMD is younger than 50 ns. -/
def docmdFresh (ns : W64) (w : W64 × Byte) : Bool := w.1.toNat ≤ ns.toNat && ns.toNat < w.1.toNat + 50

/-- The FIO_DOCMD value that landed at least 50 ns ago (R393); a later write is applied at the next drumbeat. -/
def Cluster.docmdIn (k : Cluster) (ns : W64) : Byte :=
  match k.docmdPast.find? fun w => !docmdFresh ns w with
  | some w => w.2
  | none => k.docmdOld

/-- FIO_DOCMD written: of the writes that have landed for 50 ns only the last one is kept. -/
def Cluster.setDocmd (k : Cluster) (ns : W64) (v : Byte) : Cluster :=
  { k with docmdPast := (ns, v) :: k.docmdPast.filter (docmdFresh ns), docmdOld := k.docmdIn ns, docmd := v }

/-- The committed checkpoint is no more than 4 cycles older than the cycle that begins (R331). -/
def Cluster.ckptFresh (k : Cluster) : Bool := k.pair.ckptValid && decide ((k.cycle - k.pair.ckptCycle).toNat ≤ 4)

/-- A drumbeat from the takeover drumbeat t to t + 2 of a fall-back (R332). -/
def State.inGap (s : State) (c : Fin 4) : Bool :=
  let k := Vec.at s.cl c
  decide (2 ≤ k.pair.fallBack) || (s.pair.st = 4 && k.pair.takeover && !k.ckptFresh)

/-- DO_APPLY at a drumbeat: the command register drives the cluster's outputs (R393); in the gap of a fall-back they hold the
last command (R334). -/
def State.docApply (s : State) (c : Fin 4) : State :=
  let v := (Vec.at s.cl c).docmdIn s.ns
  if s.inGap c then s
  else s.each (n := 8) fun s d => if (Vec.at s.fio.do_ d).owner = some c then s.doApply d (v.getLsbD d.1) else s

/-- The field channels of a personality that stops: outputs off or held (R395); no drumbeat ends the running gates (R403). -/
def State.stopOutputs (s0 : State) (c : Fin 4) : State :=
  let s := s0.each (n := 8) fun s d =>
    if (Vec.at s.fio.di d).owner = some c then s.updDi d fun x => { x with gateOpen := false } else s
  s.each (n := 8) fun s d =>
    let x := Vec.at s.fio.do_ d
    if x.owner = some c && row x.sets 1 = 0 then s.doApply d false else s

/-- A withdrawal switches the shared outputs off (R327). -/
def State.sharedOff (s : State) : State :=
  s.each (n := 8) fun s d => if s.doShared d then s.doApply d false else s

/-- REARM (R406): out of HELD_OFF, to the state of the current command. -/
def State.doRearm (s : State) (d : Fin 8) : State :=
  s.updDo d fun x => if x.st == uHeldOff then { x with retries := 0 }.enter x.ofCmd else x

/-! ### Protection (R407, R408, R412, R413) -/

/-- Current at the limit. -/
def State.doLimit (s : State) (d : Fin 8) : State :=
  s.updDo d fun x => if x.st == uOn then x.enter uLimit else x
/-- Current below the limit again. -/
def State.doUnlimit (s : State) (d : Fin 8) : State :=
  s.updDo d fun x => if x.st == uLimit then x.enter uOn else x

/-- The driver reaches 150 °C: TSD with the alarm OVERLOAD; RETRY = 0 latches it off at once. -/
def State.doTsd (s : State) (d : Fin 8) : State :=
  if (Vec.at s.fio.do_ d).driven then
    let s1 := ((s.updDo d (·.enter uTsd)).dinc d 1).doRaise d fOverload 0
    s1.updDo d fun x => if row x.sets 2 = 0 then x.enter uHeldOff else x
  else s

/-- RETRY has passed in TSD. -/
def State.doRetry (s : State) (d : Fin 8) : State :=
  let x := Vec.at s.fio.do_ d
  if x.st == uTsd && x.cmd then
    if row x.sets 2 = 0 || (row x.sets 3 ≠ 0 && row x.sets 3 ≤ x.retries) then s.updDo d (·.enter uHeldOff)
    else (s.updDo d fun x => { x with retries := x.retries + 1 }.enter uOn).dinc d 2
  else s

/-- 5 ms in LIMIT. -/
def State.doOverload (s : State) (d : Fin 8) : State :=
  if (Vec.at s.fio.do_ d).st == uLimit then s.doRaise d fOverload 0 else s

/-- 1 s in ON or OFF. -/
def State.doOverloadClear (s : State) (d : Fin 8) : State :=
  let x := Vec.at s.fio.do_ d
  if x.st == uOn || x.st == uOff then (s.updDo d fun x => { x with retries := 0 }).doClear d fOverload else s

/-- L+ below 18 V. -/
def State.fioLow (s : State) (mv : W16) : State :=
  let s1 := { s with fio := { s.fio with lplus := mv } }
  if s.fio.low then s1
  else (({ s1 with fio := { s1.fio with low := true, sag := true } }).madd cLplusLow 1).fioEvent fLplusLow (s.objAt 0 0) 0 false false false

/-- L+ below 14 V: every output but the LOST ones enters UVLO. -/
def State.fioUvlo (s : State) (mv : W16) : State :=
  let s1 := { s with fio := { s.fio with lplus := mv } }
  if s.fio.uvlo then s1
  else
    let s2 := { s1 with fio := { s1.fio with
      uvlo := true
      do_ := s1.fio.do_.map fun (x : Dout) => if x.st == uLost || x.st == uOvertemp then x else x.enter uUvlo } }
    (s2.madd cUvlo 1).fioEvent fUvlo (s.objAt 0 0) 0 false false false

/-- L+ above 16 V for 10 ms. -/
def State.fioUvloEnd (s : State) (mv : W16) : State :=
  let s1 := { s with fio := { s.fio with lplus := mv } }
  if !s.fio.uvlo then s1
  else
    let s2 := { s1 with fio := { s1.fio with
      uvlo := false, hotFirst := s1.fio.hot
      do_ := s1.fio.do_.map fun (x : Dout) =>
        if x.st == uUvlo then x.enter (if s1.fio.hot then uOvertemp else if s1.fio.uvRestore = 1 then x.ofCmd else uHeldOff) else x } }
    s2.fioEvent fUvlo (s.objAt 0 0) 0 false false true

/-- L+ above 18.5 V: the warning clears; readback checking resumes 10 ms later. -/
def State.fioLowEnd (s : State) (mv : W16) : State :=
  let s1 := { s with fio := { s.fio with lplus := mv } }
  if !s.fio.low then s1
  else ({ s1 with fio := { s1.fio with low := false } }).fioEvent fLplusLow (s.objAt 0 0) 0 false false true

/-- 10 ms after L+ last rose above 18.5 V. -/
def State.fioResume (s : State) : State := if s.fio.low then s else { s with fio := { s.fio with sag := false } }

/-- The isolated side above 135 °C (R413). -/
def State.fioHot (s : State) : State :=
  if s.fio.hot then s
  else
    ({ s with fio := { s.fio with
      hot := true, hotFirst := !s.fio.uvlo
      do_ := s.fio.do_.map fun (x : Dout) => if x.st == uLost || x.st == uUvlo then x else x.enter uOvertemp } }).fioEvent
        fOvertemp (s.objAt 0 0) 0 false false false

/-- Below 120 °C for 1 s. -/
def State.fioCool (s : State) : State :=
  if !s.fio.hot then s
  else
    ({ s with fio := { s.fio with
      hot := false, hotFirst := false
      do_ := s.fio.do_.map fun (x : Dout) => if x.st == uOvertemp then x.enter (if s.fio.uvlo then uUvlo else x.ofCmd) else x } }).fioEvent
        fOvertemp (s.objAt 0 0) 0 false false true

/-- The sum of the output currents against 4.0 A and 3.8 A (R405, R414). -/
def State.fioSum (s : State) (high : Bool) : State :=
  if s.fio.sumHigh = high then s
  else ({ s with fio := { s.fio with sumHigh := high } }).fioEvent fSumHigh (s.objAt 0 0) 0 false false (!high)

/-! ### Keep-alive (R396) -/

/-- A channel's keep-alive has been missing for 1 ms. -/
def State.fioLost (s : State) (ch : Fin 16) : State :=
  let d : Fin 8 := finOf 8 ch.1
  if ch.1 < 8 then
    let x := Vec.at s.fio.di d
    if x.lost then s
    else (s.updDi d fun x => { x with lost := true, ctr := x.ctr.inc 0 }).fioEvent fLink (s.objAt 5 d.1) 0 false false false
  else (s.updDo d (·.enter uLost)).doRaise d fLink 6

/-- The keep-alive goes out over every coupler: a channel that had lost it has it again, where its coupler passes it. -/
def State.fioKeepAlive (s : State) (reach : BitVec 16) : State :=
  let s0 := { s with fio := { s.fio with keepAlives := s.fio.keepAlives + 1 } }
  let s1 := s0.each (n := 8) fun s d =>
    if (Vec.at s.fio.di d).lost && reach.getLsbD d.1 then
      (s.updDi d fun x => { x with lost := false }).fioEvent fLink (s.objAt 5 d.1) 0 false false true
    else s
  s1.each (n := 8) fun s d => if reach.getLsbD (8 + d.1) then s.doClear d fLink else s

/-! ### Readback (R409–R411) -/

/-- The comparison is active for an output. -/
def State.rbActive (s : State) (d : Fin 8) : Bool :=
  let st := (Vec.at s.fio.do_ d).st
  (st == uOff || st == uOn || st == uLimit) && !s.fio.sag && !(s.doShared d && s.pair.st = 1)

/-- A counted mismatch with a reference raises its fault (R410). -/
def State.rbRaise (s : State) (d : Fin 8) (ref : Bool) : State := if ref then s.doRaise d fbLow 4 else s.doRaise d fbHigh 3

/-- The terminal of an output has read against its reference for RB_TIME. At the current limit OVERLOAD comes under R408
(R410); for a shared output of a pair the reports of the cycle decide (R411). Where the comparison is not active, the level
is read and nothing more (R409). -/
def State.rbMismatch (s : State) (d : Fin 8) (rb : Bool) : State :=
  let x := Vec.at s.fio.do_ d
  let s1 := s.updDo d fun x => { x with rb := rb }
  if !s.rbActive d || x.cmd = rb || (x.cmd && x.st == uLimit) then s1
  else if s.doShared d && (s.pair.st = 2 || s.pair.st = 3) then s1.updDo d fun y => { y with rbTimed := some x.cmd }
  else s1.rbRaise d x.cmd

/-- The reports of the cycle that ended decide the mismatches of a personality's shared outputs, and of the host's (R411). -/
def State.rbReports (s : State) (c : Fin 4) (counts : Bool) : State :=
  s.each (n := 8) fun s d =>
    let x := Vec.at s.fio.do_ d
    if x.owner = some c || x.owner = none then
      ((s.when counts fun s => s.withSome x.rbDue fun s ref => s.rbRaise d ref)).updDo d fun x => { x with rbDue := none }
    else s

/-- 1 s without mismatch. -/
def State.rbClear (s : State) (d : Fin 8) : State :=
  if s.rbActive d then
    ((s.updDo d fun x => { x with rb := x.driven, rbTimed := none, rbDue := none }).doClear d fbHigh).doClear d fbLow
  else s

/-- A terminal as read at a drumbeat: a mismatch that has lasted RB_TIME and still holds goes to the REPORTs of the cycle that
ends (R411). -/
def Dout.readBeat (x : Dout) (rb : Bool) : Dout :=
  let t := x.rbTimed.filter (· != rb)
  { x with rb := rb, rbTimed := t, rbDue := t }

/-- Below 5 mA for 100 ms with OL_EN = 1. -/
def State.rbOpen (s : State) (d : Fin 8) : State :=
  let x := Vec.at s.fio.do_ d
  if row x.sets 5 = 1 && x.st == uOn && s.rbActive d && x.rb then s.doRaise d fOpenLoad 5 else s

/-! ### Inputs (R397–R403) -/

/-- INV inverts the input after its filter (R401). -/
def Din.inv (x : Din) : Bool := row x.sets 6 = 1

/-- Type 3 inputs; thresholds that track. -/
def Din.type3 (x : Din) : Bool := row x.sets 1 = 3
def Din.track (x : Din) : Bool := row x.sets 2 = 1

/-- VON of a group for an L+ in mV, in steps of 50 mV within the range of its type (R400). -/
def vonOf (type3 track : Bool) (mv : Nat) : W16 :=
  let raw := if track then mv else 24000
  let v := (if type3 then raw * 40 / 100 else raw * 55 / 100) / 50 * 50
  let lo := if type3 then 6500 else 9000
  let hi := if type3 then 10500 else 14500
  BitVec.ofNat 16 (if v < lo then lo else if hi < v then hi else v)

/-- One update of both groups, and of FIO_SUPPLY (R400). -/
def State.thresholds (s : State) (mv : W16) : State :=
  { s with fio := { s.fio with
    lplus := mv
    von := Vector.ofFn fun g =>
      let x := Vec.atD s.fio.di (4 * g.1) Din.zero
      vonOf x.type3 x.track mv.toNat } }

/-- A filtered edge: inverted under INV, counted under CNT_EDGE, stamped for the gate (R401–R403). -/
def State.diEdgeAt (s : State) (d : Fin 8) (level : Bool) (stamp : W32) : State :=
  let x := Vec.at s.fio.di d
  let now := level != x.inv
  if now = x.level then s.updDi d fun x => { x with filt := level }
  else
    let counts := if now then row x.sets 7 % 2 = 1 else 2 ≤ row x.sets 7
    let wraps := counts && x.count = 0xFFFFFFFF
    let s1 := s.updDi d fun x => { x with
      filt := level, level := now, chg := true
      count := if counts then x.count + 1 else x.count
      carry := if wraps then x.carry + 1 else x.carry
      gateN := if now then x.gateN + 1 else x.gateN
      gateFirst := if now && x.gateN = 0 then stamp else x.gateFirst
      gateLast := if now then stamp else x.gateLast }
    if wraps then s1.notice (0x0A00 + fCntOvf) (s.objAt 5 d.1) 0 else s1

/-- The end of a frequency gate (R403). -/
def Din.gateEnd (x : Din) : Din :=
  { x with fedges := x.gateN, fspan := if x.gateN = 0 then 0 else x.gateLast - x.gateFirst, gateN := 0 }

/-- CARRY of the counter block (R418). -/
def Din.carryWord (x : Din) : W32 := place x.carry.toNat 16 16 ||| bitAt 32 0 (2 ≤ x.fedges.toNat)

/-- A read of COUNT captures the block for the engine (R15, R418). -/
def State.diRead (s : State) (e : Fin 16) (d : Fin 8) : W32 × State :=
  let x := Vec.at s.fio.di d
  if x.owner = some (clOf e) then
    (x.count, s.updEng e fun g => { g with diHold := Vec.put g.diHold d #v[x.carryWord, x.fedges, x.fspan] })
  else (0, s.updEng e fun g => { g with diHold := Vec.put g.diHold d (Vec.fill 3 0) })

/-! ### Cluster registers at the drumbeat (R394) -/

/-- Bits of the channels of a cluster that hold. -/
def chanBits (f : Fin 8 → Bool) (lo : Nat) : W32 := (allFin 8).foldl (fun w d => w ||| bitAt 32 (lo + d.1) (f d)) 0

/-- FIO_DI as it is written at a drumbeat, with the unfiltered levels then. -/
def State.fioDiWord (s : State) (c : Fin 4) (levels : BitVec 8) : W32 :=
  let own := fun d => (Vec.at s.fio.di d).owner = some c
  chanBits (fun d => own d && (Vec.at s.fio.di d).chg) 16 ||| chanBits (fun d => own d && levels.getLsbD d.1) 8 |||
    chanBits (fun d => own d && (Vec.at s.fio.di d).level) 0

/-- FIO_DOSTAT as it is written at a drumbeat. -/
def State.fioDostatWord (s : State) (c : Fin 4) : W32 :=
  let own := fun d => (Vec.at s.fio.do_ d).owner = some c
  bitAt 32 31 s.fio.uvlo |||
    chanBits (fun d => own d && ((Vec.at s.fio.do_ d).faults &&& 0x8E) ≠ 0) 16 |||
    chanBits (fun d => own d && (Vec.at s.fio.do_ d).driven) 8 ||| chanBits (fun d => own d && (Vec.at s.fio.do_ d).rb) 0

/-- FIO_SUPPLY. -/
def State.fioSupply (s : State) : W32 := bitAt 32 31 s.fio.sag ||| s.fio.lplus.setWidth 32

/-- The gate of a personality's input at a drumbeat: a gate that ran from the drumbeat before ends, and the next begins (R403). -/
def Din.gateBeat (x : Din) : Din :=
  let y := if x.gateOpen then x.gateEnd else { x with gateN := 0 }
  { y with gateOpen := true, chg := false }

/-- What the outputs' own input stages read at a drumbeat of a cluster: its own and, of the host's, the shared ones are compared
there (R409, R411). -/
def State.fioRead (s : State) (c : Fin 4) (levels : BitVec 8) : State :=
  s.each (n := 8) fun s d =>
    let x := Vec.at s.fio.do_ d
    if x.owner = some c || (x.owner = none && s.doShared d) then s.updDo d fun x => x.readBeat (levels.getLsbD d.1) else s

/-- What field I/O does at a drumbeat: the terminals are read, outputs apply, inputs are sampled, gates close (R393, R394,
R403, R409). -/
def State.fioBeat (s : State) (c : Fin 4) (terminals : FieldPins) : State :=
  let s1 := (s.fioRead c terminals.do_).docApply c
  let s2 := s1.updCl c fun k => { k with fioDi := s1.fioDiWord c terminals.di, fioDostat := s1.fioDostatWord c }
  s2.each (n := 8) fun s d =>
    if (Vec.at s.fio.di d).owner = some c then s.updDi d Din.gateBeat else s

end Sys2Proof.Machine
end

