-- ==== Sys2Proof/Machine/Jobs.lean ====
section
/-!
DEFINITION. Sundom's answers: responses, jobs and their ends, the objects a running job holds (R88, R97, R101–R108, R426, R427).
-/
namespace Sys2Proof.Machine

/-- Status codes (R102). -/
abbrev stOk : Nat := 0x0000
abbrev stAccepted : Nat := 0x0001
abbrev stBusy : Nat := 0x0010
abbrev stStaleGen : Nat := 0x0012
abbrev stBadCmd : Nat := 0x0020
abbrev stBadState : Nat := 0x0022
abbrev stNoResource : Nat := 0x0030
abbrev stAuthFail : Nat := 0x0040
abbrev stHwFault : Nat := 0x0050
abbrev stPeerRefused : Nat := 0x0060

/-- A final status with its DETAIL and response payload. -/
structure Answer where
  status : Nat
  detail : Nat
  payload : List Byte
deriving DecidableEq, Repr

/-- OK with DETAIL 0 and no payload. -/
def Answer.ok : Answer := ⟨stOk, 0, []⟩
/-- OK with a payload. -/
def Answer.data (bs : List Byte) : Answer := ⟨stOk, 0, bs⟩
/-- A refusal. -/
def Answer.err (status detail : Nat) : Answer := ⟨status, detail, []⟩

/-- The mailbox of a carrying channel; none for commands of other modules of the group. -/
def chanOf (n : Fin 9) : Option (Fin 8) := if h : n.1 < 8 then some ⟨n.1, h⟩ else none

/-- The response to a command (R88), with its trace entry (R545). A command of another module is answered over Aklos to
the position in the reserved bits of its GEN field, where AKLOS_CMD keeps it (log 24). -/
def State.answer (s : State) (cmd : Nat) (m : Msg) (a : Answer) : State :=
  (s.log 3 0x0F00 m.target (place cmd 16 16 ||| place a.status 0 16) false).reply m.chan m.gen
    { code := BitVec.ofNat 16 (0x8000 + cmd), tag := m.tag, status := BitVec.ofNat 16 a.status,
      detail := BitVec.ofNat 32 a.detail, target := m.target, payload := a.payload, held := false }

/-- An object a target names: its class and instance (R91). -/
def tgtClass (t : W16) : Nat := fld t 8 6
def tgtInst (t : W16) : Nat := fld t 0 8
def tgtPos (t : W16) : Fin 4 := finOf 4 (fld t 14 2)

/-- Instances of each class (R91); 0 for a class outside the table. -/
def classSize : Nat → Nat
  | 0 => 1
  | 1 => 4
  | 2 => 12
  | 3 => 4
  | 4 => 8
  | 5 => 8
  | 6 => 8
  | 7 => 256
  | 8 => 8
  | 9 => 16
  | 10 => 4
  | 11 => 2
  | 12 => 1
  | _ => 0

/-- A job starts: the next number, which skips 0, and its trace entry (R106, R545). -/
def State.startJob (s : State) (kind : JobKind) (m : Msg) : W32 × State :=
  let n := s.sup.jobNext
  let j : Job := { num := n, kind := kind, chan := m.chan, gen := m.gen, tag := m.tag, flags := m.flags, target := m.target }
  let s1 := s.updSup fun u => { u with jobs := u.jobs ++ [j], jobNext := if n = 0xFFFFFFFF then 1 else n + 1 }
  (n, s1.log 3 0x0F01 m.target n false)

/-- The running jobs of the session that a command names, here and on other modules (R107, R115). -/
def State.sessionJobs (s : State) (m : Msg) : Nat :=
  (s.sup.jobs.filter fun j => j.chan = m.chan && j.gen = m.gen).length +
    (s.sup.remotes.filter fun j => j.chan = m.chan && j.gen = m.gen).length

/-- The session that a command names has 8 running jobs. A command of another module is counted there (R107, log 78). -/
def State.sessionFull (s : State) (m : Msg) : Bool := m.chan.1 < 8 && decide (8 ≤ s.sessionJobs m)

/-- A job limit of R107 is reached: 8 running jobs of the session, 32 of the module. -/
def State.jobLimit (s : State) (m : Msg) : Bool := 32 ≤ s.sup.jobs.length || s.sessionFull m

/-- The running jobs of a kind. -/
def State.jobWhere (s : State) (f : JobKind → Bool) : Option Job := s.sup.jobs.find? fun j => f j.kind

/-- The channel a JOB_DONE goes to (R108): DONECH if enabled and in session, else the carrying channel. -/
def State.doneChan (s : State) (j : Job) : Option (Fin 8) :=
  let d := finOf 8 (fld j.flags 0 3)
  match chanOf j.chan with
  | none => none
  | some n => if j.flags.getLsbD 3 && (Vec.at s.mbx d).session.isSome then some d else some n

/-- The session that carried a job's command still lives (R97); jobs of other modules have no session here (R113). -/
def State.jobLives (s : State) (j : Job) : Bool :=
  match chanOf j.chan with
  | none => true
  | some n => match (Vec.at s.mbx n).session with
    | some x => x.gen = j.gen
    | none => false

/-- The JOB_DONE of a job, here or of another module, or the NOTICE JOB_ORPHANED; the final status stays in the record
of the last job that ended, and for each orphaned job in one of its own (R97, R108, log 79). `detail` replaces the JOB number where R333 gives a DETAIL of its own. -/
def State.jobDone (s : State) (j : Job) (status : W16) (detail : Option W32) (payload : List Byte) : State :=
  let x : JobEnd := ⟨j.num, status, detail.getD 0, !s.jobLives j⟩
  let s1 := s.updSup fun u => { u with lastEnd := some x, orphans := if x.orphaned then u.orphans ++ [x] else u.orphans }
  let msg : OutMsg := { code := 0xF000, tag := j.tag, status := status, detail := detail.getD j.num,
                        target := j.target, payload := payload, held := false }
  if !s.jobLives j then s1.notice 0x0101 (s.objAt 0 0) j.num
  else match s1.doneChan j with
    | some n => s1.send n msg
    | none => s1.reply j.chan j.gen msg

/-- A job of this module ends (R108). -/
def State.endJob (s : State) (j : Job) (status : Nat) (detail : Option W32) (payload : List Byte) : State :=
  (s.updSup fun u => { u with jobs := u.jobs.filter fun x => x.num ≠ j.num }).jobDone j (BitVec.ofNat 16 status) detail payload

/-- A job fails for a reason that R102 puts into DETAIL. JOB_DONE carries the JOB number there (R89), so the reason stands
in the record of the last job that ended (log 79). -/
def State.failJob (s : State) (j : Job) (status reason : Nat) : State :=
  (s.endJob j status none []).updSup fun u => { u with
    lastEnd := u.lastEnd.map fun e => { e with detail := BitVec.ofNat 32 reason } }

/-- End every job of a kind. -/
def State.endJobs (s : State) (f : JobKind → Bool) (status : Nat) : State :=
  (s.sup.jobs.filter fun j => f j.kind).foldl (fun s j => s.endJob j status none []) s

/-! ### Objects held by running jobs (R427) -/

/-- The units a LOAD payload names, as object numbers without position (R432). -/
def loadUnits (p : List Byte) : List Nat :=
  ((List.range 12).filter fun i => (leAt p 8 2).testBit i).map (0x200 + ·) ++
    ((List.range 4).filter fun i => (leAt p 10 1).testBit i).map (0x300 + ·) ++
    ((List.range 8).filter fun i => (leAt p 11 1).testBit i).map (0x400 + ·) ++
    ((List.range 8).filter fun i => (leAt p 12 1).testBit i).map (0x500 + ·) ++
    ((List.range 8).filter fun i => (leAt p 13 1).testBit i).map (0x600 + ·) ++
    ((List.range (leAt p 15 1)).map fun i => 0x700 + leAt p (0x90 + 4 * i) 1)

/-- The units joined to a cluster, as object numbers without position. -/
def State.clUnits (s : State) (c : Fin 4) : List Nat :=
  let k := Vec.at s.cl c
  ((List.range 12).filter fun i => k.ports.getLsbD i).map (0x200 + ·) ++
    ((List.range 4).filter fun i => k.cans.getLsbD i).map (0x300 + ·) ++
    ((List.range 8).filter fun i => k.pios.getLsbD i).map (0x400 + ·) ++
    ((List.range 8).filter fun i => k.dis.getLsbD i).map (0x500 + ·) ++
    ((List.range 8).filter fun i => k.dos.getLsbD i).map (0x600 + ·) ++
    ((List.range 256).filter fun i => (Vec.at s.hq (hqOf i)).grant == some c).map (0x700 + ·)

/-- What a job on a cluster holds: the cluster, its process image and the units of its resource list. -/
def JobKind.holds (s : State) (obj : Nat) : JobKind → Bool
  | .load c _ p => obj = 0x100 + c.1 || obj = 0xA00 + c.1 || (loadUnits p).contains obj
  | .resetCluster c => obj = 0x100 + c.1 || obj = 0xA00 + c.1 || (s.clUnits c).contains obj
  | _ => false

/-- A job on a cluster (LOAD, LOAD_CUSTOM, RESET_OBJECT) that holds the target of a command. -/
def State.heldBy (s : State) (target : W16) : Option Job :=
  s.sup.jobs.find? fun j => j.kind.holds s (fld target 0 14)

/-- An active cable test runs on a port. -/
def State.cableJob (s : State) (p : Nat) : Option Job :=
  s.jobWhere fun
    | .cableTest q => q.1 = p
    | _ => false

/-- A route switch runs on a cluster. -/
def State.switchJob (s : State) (c : Nat) : Option Job :=
  s.jobWhere fun
    | .routeSwitch k => k.1 = c
    | _ => false

/-- A PAIR_SWITCH runs. -/
def State.pairJob (s : State) : Option Job :=
  s.jobWhere fun
    | .pairSwitch => true
    | _ => false

/-- A self-test runs on an object. -/
def State.testJob (s : State) (obj : W16) : Option Job :=
  s.jobWhere fun
    | .selftest o _ => o = obj
    | _ => false

/-- An attestation runs. -/
def State.attestJob (s : State) : Option Job :=
  s.jobWhere fun
    | .attest _ => true
    | _ => false

end Sys2Proof.Machine
end

