-- ==== Sys2Proof/Machine/Cluster.lean ====
section
/-!
DEFINITION. Starting and stopping a personality, and the process image it runs with (R116, R122, R124, R225, R273, R274,
R290, R298, R343, R369, R395, R423, R435, R444, R465).
-/
namespace Sys2Proof.Machine

/-- State code of a cluster in BAD_STATE responses (R423). -/
def ClState.code : ClState → Nat
  | .empty => 0
  | .loading => 1
  | .stopped => 2
  | .started => 3

/-! ### The process image's control block (R116) -/

/-- Write a word of a cluster's control block as the process-image unit. -/
def State.pbWrite (s : State) (c : Fin 4) (off : Nat) (v : W32) : State :=
  s.wr .shm piCode ((Vec.at s.cl c).pi.base.toNat + off) (leBytes 4 v.toNat)

/-- Read a word of a cluster's control block: the word, whether it was uncorrectable, and the state after. -/
def State.pbRead (s : State) (c : Fin 4) (off : Nat) : (W32 × Bool) × State :=
  let ((bs, bad), s1) := s.rd .shm piCode ((Vec.at s.cl c).pi.base.toNat + off) 4
  ((BitVec.ofNat 32 (leNat bs), bad), s1)

/-- The control block as PI_DEFINE leaves it: IN_STATE 4, all other words 0; no last take is held (R116, R120). -/
def State.pbInit (s : State) (c : Fin 4) : State :=
  (s.wr .shm piCode (Vec.at s.cl c).pi.base.toNat (leBytes 64 4)).updPi c fun p => { p with
    newest := 0, takeMiss := 0, inLate := 0, inDone := false, inFill := 1, outTaken := 0, outValid := false, lastTake := none,
    rewrite := false }

/-- The waiting values of PI_COMMIT that a test admits govern from now on; the later one stands (R444). -/
def PiUnit.commit (p : PiUnit) (due : PiNew → Bool) : PiUnit :=
  let q := (p.news.filter due).foldl (fun p n => { p with lead := n.lead, watchdog := n.watchdog, pflags := n.pflags }) p
  { q with news := p.news.filter fun n => !due n }

/-- What a stop does to the process image: waiting values take effect, a waiting rewrite happens (R431, R444). -/
def State.pbStop (s : State) (c : Fin 4) : State :=
  let s1 := s.updPi c (·.commit fun _ => true)
  if (Vec.at s.cl c).pi.rewrite then s1.pbInit c else s1

/-! ### Engines -/

/-- Change the four engines of a cluster. -/
def State.engines (s : State) (c : Fin 4) (f : Fin 16 → Engine → Engine) : State :=
  (allFin 4).foldl (fun s k => s.updEng (engOf c k) (f (engOf c k))) s

/-- An engine is held in reset; its memories keep their contents (R465). -/
def Engine.hold' (e : Fin 16) (checked : Bool) (g : Engine) : Engine :=
  Engine.atReset e checked g.imem g.dmem g.badI g.badD

/-- Every engine of a cluster is held in reset. -/
def State.resetEngines (s : State) (c : Fin 4) : State := s.engines c fun e => Engine.hold' e (Vec.at s.cl c).checked

/-- Every engine of a cluster leaves reset; a pending ring of ENG_DB sets EVP bit 2 (R465). -/
def State.releaseEngines (s : State) (c : Fin 4) : State :=
  let s1 := (s.resetEngines c).engines c fun _ g => { g with run := true }
  (allFin 4).foldl (fun s k =>
    let e := engOf c k
    if (Vec.at s.emb e).ring then (s.updEmb e fun b => { b with ring := false }).evp e 2 else s) s1

/-! ### Drumline at START and STOP (R273, R274, R290, R298) -/

/-- A Drumline personality at START: LISTEN or SEEK (both code 1), route 0 active, nothing heard. Each branch of a hub keeps its
state, which only R292 changes. -/
def Dl.start (d : Dl) : Dl :=
  { d.subst with
    st := 1, split := false, active := 0, proposal := none, switch := none, newest := none, seen := 0, seqOut := 0
    elect := 0, claims := 0, deposed := false, idleCycles := 0, heardGood := false, stat := none, usable := none, goodRun := 0
    agreed := false, missed := 0, evtPend := false, silent := false, silentCount := 0
    silentCycle := none, sentFrames := Vec.fill 4 none, returned := Vec.fill 8 false, splitTaken := none
    splitBack := none, hubSeen := [], routeTaken := false
    branches := d.branches.map fun x => { Branch.zero with st := x.st, offFrom := x.offFrom, isorun := x.isorun, edge := x.edge } }

/-- Each branch of a hub starts with the BASE_GUARD of route 0 (R290). -/
def Dl.startGuards (d : Dl) : Dl :=
  { d with branches := Vec.mapIx d.branches fun b x =>
      match d.routeBr b with
      | some r => { x with guard := r.baseGuard.toNat }
      | none => x }

/-- A Drumline personality at STOP. -/
def Dl.stop (d : Dl) : Dl := { d with st := 0, switch := none, proposal := none, claims := 0, silent := false }

/-- Give up what the drum ports of a cluster hold (R286). -/
def State.dropHolds (s : State) (c : Fin 4) : State :=
  s.each (n := 12) fun s p =>
    if (Vec.at s.port p).owner == some c then s.updPort p fun x => { x with ways := { x.ways with hold := [], launches := [] } } else s

/-! ### The personality -/

/-- The personality of a cluster stops (R435): its units as their chapters give, its engines held in reset, its
route-switch job ended (R427). -/
def State.stopPersonality (s : State) (c : Fin 4) : State :=
  if (Vec.at s.cl c).st != .started then s
  else
    let s := s.updCl c fun k => { k with st := .stopped, dl := k.dl.stop }
    let s := ((s.resetEngines c).dropHolds c).stopPorts c
    let s := ((s.stopCans c).stopPios c).stopOutputs c
    let s := ((s.sourceGone c).dlServo).pbStop c
    let s := s.endJobs (fun | .routeSwitch k => k = c | _ => false) stBadState
    s.hubsRefresh

/-- START (R435), the checks of R315 apart: refused outside STOPPED and for a controller or hub without route 0. -/
def State.startCheck (s : State) (c : Fin 4) : Option Answer :=
  let k := Vec.at s.cl c
  if k.st != .stopped then some (.err stBadState k.st.code)
  else match k.role with
    | some .controller => if (Vec.at k.dl.routes 0).isNone then some (.err stBadState 0x100) else none
    | some .hub => if (Vec.at k.dl.routes 0).isNone then some (.err stBadState 0x100) else none
    | _ => none

/-- A personality starts: the generator, the engines, the ports, controllers and engines of its units, its process
image's marks, and its Drumline state. -/
def State.startPersonality (s : State) (c : Fin 4) : State :=
  let s := s.updCl c fun k => { k with
    st := .started, cycle := BitVec.ofInt 64 (k.cycleOf s.ns.toNat)
    dl := if k.role.isSome then k.dl.start.startGuards else k.dl
    pi := { k.pi with inDone := false, stale := 0 } }
  let s := s.each (n := 8) fun s b => s.edgeCheck c b
  let s := ((s.sourceBack c).releaseEngines c).startPorts c
  let s := (s.startCans c).startPios c
  let s := s.each (n := 8) fun s d => if (Vec.at s.fio.di d).owner = some c then s.updDi d fun x => { x with chg := false } else s
  s.hubsRefresh

end Sys2Proof.Machine
end

