-- ==== Sys2Proof/Machine/Pair.lean ====
section
/-!
DEFINITION. Aklos links and pairing: pair states, health, relay, state copy, reports, loss, takeover, switch-over,
replacement (chapter 10).
-/
namespace Sys2Proof.Machine

/-- Pair states (R311). -/
abbrev qSolo : Fin 6 := 0
abbrev qSyncing : Fin 6 := 1
abbrev qActive : Fin 6 := 2
abbrev qStandby : Fin 6 := 3
abbrev qTakeover : Fin 6 := 4
abbrev qOrphan : Fin 6 := 5

/-- Settings of R314. -/
def Pair.auto (p : Pair) : Bool := row p.sets 3 = 1
def Pair.prefer (p : Pair) : Bool := row p.sets 4 = 1

/-- The paired clusters. -/
def State.paired (s : State) : List (Fin 4) := (allFin 4).filter fun c => s.inPair c
/-- The paired clusters whose personality is started. -/
def State.pairedRunning (s : State) : List (Fin 4) := s.paired.filter fun c => s.started c
/-- A paired cluster runs a Drumline controller. -/
def State.isController (s : State) (c : Fin 4) : Bool := (Vec.at s.cl c).role == some .controller

/-- PAIR_STAT of a cluster; 0 in a module that is not paired (R324). -/
def State.pairStat (s : State) (c : Fin 4) : W32 :=
  let q := (Vec.at s.cl c).pair
  if !s.inPair c then 0
  else place s.pair.st.1 29 3 ||| bitAt 32 28 q.tx ||| bitAt 32 27 q.own ||| bitAt 32 26 q.relayOk ||| bitAt 32 25 q.relayHalf |||
    bitAt 32 24 q.ckptValid ||| bitAt 32 23 q.ckptBuf ||| place q.ckptCycle.toNat 0 16

/-! ### Health (R329) -/

/-- CL_OK of a cluster: no fault seen, and not below its F_SET. -/
def State.clHealthy (s : State) (c : Fin 4) : Bool := s.pair.clOk.getLsbD c.1 && !(Vec.at s.cl c).avs.limited

/-- Every drum port of every paired personality is UP. -/
def State.portsOk (s : State) : Bool :=
  s.paired.all fun c =>
    let d := (Vec.at s.cl c).dl
    !s.isController c || [portNo d.portA, portNo d.portB].all fun o => match o with
      | some p => s.isUp p
      | none => true

/-- The servo is in TRACK or FINE, or follows over Aklos. -/
def State.timeOk (s : State) : Bool := s.servoLocked || (s.followsPair && s.partnerLink.isSome)

/-- No fault on an output named in DO_SHARED. -/
def State.fioOk (s : State) : Bool := (allFin 8).all fun d => !s.doShared d || (Vec.at s.fio.do_ d).faults = 0

/-- The standby held at its last take. -/
def State.relayLate (s : State) : Bool :=
  s.pair.st == qStandby && s.pairedRunning.any fun c =>
    let q := (Vec.at s.cl c).pair
    q.takenFor.isSome && !q.relayOk

/-- The standby's committed checkpoint is more than 4 cycles older than the current cycle. -/
def State.ckptOld (s : State) : Bool :=
  s.pair.st == qStandby && s.pairedRunning.any fun c =>
    let k := Vec.at s.cl c
    !k.pair.ckptValid || decide (4 < (k.cycle - k.pair.ckptCycle).toNat)

/-- The health word. -/
def State.health (s : State) : W32 :=
  place s.pair.st.1 29 3 ||| bitAt 32 28 s.pair.supOk |||
    (allFin 4).foldl (fun w c => w ||| bitAt 32 (24 + c.1) (s.clHealthy c)) (0 : W32) ||| bitAt 32 23 s.pair.memOk |||
    bitAt 32 22 s.selft.stOk ||| bitAt 32 21 s.portsOk ||| bitAt 32 20 s.timeOk ||| bitAt 32 19 s.fioOk |||
    bitAt 32 18 s.relayLate ||| bitAt 32 17 s.ckptOld ||| place s.selft.round.toNat 8 8 ||| place s.pair.reportSeq.toNat 0 8

/-- The five conditions that only warn, in code order from 0x0708. -/
def State.softFaults (s : State) : List Bool := [!s.portsOk, !s.timeOk, !s.fioOk, s.relayLate, s.ckptOld]

/-- Raise and clear the WARNINGs PORTS_OK to CKPT_OLD, in every pair state (R329, R551). -/
def State.healthWarns (s : State) : State :=
  (s.softFaults.zip (List.range 5)).foldl (fun s x =>
    let was := s.pair.clearWarn.getLsbD x.2
    if x.1 = was then s
    else (s.updPair fun p => { p with clearWarn := p.clearWarn ^^^ bitAt 5 x.2 true }).warn (0x0708 + x.2) (s.objAt 0 0) 0 was) s

/-! ### Pair states (R311–R313) -/

/-- The payload of PAIR_STATE. -/
def State.pairPayload (s : State) (reason : Nat) (periodic : Bool) : List Byte :=
  [BitVec.ofNat 8 s.pair.st.1, s.pair.peerState, BitVec.ofNat 8 reason, BitVec.ofNat 8 (bit periodic)] ++
    leBytes 4 s.health.toNat ++ leBytes 4 (if s.pair.st = qSolo then 0 else s.pair.peerHealth.toNat) ++
    leBytes 8 s.pair.peerSerial.toNat ++ leBytes 4 s.pair.mismatch.toNat ++ leBytes 4 s.pair.takeovers.toNat

/-- TX and OWN of the paired personalities in a state; TAKEOVER leaves them to each takeover drumbeat (R324, R330). -/
def PairCl.enter (q : PairCl) (st : Fin 6) : PairCl :=
  if st == qActive || st == qOrphan then { q with tx := true, own := true }
  else if st == qStandby then { q with tx := true, own := false }
  else if st == qTakeover then q
  else { q with tx := false, own := false }

/-- A change of pair state: the record, PAIR_STATE, STCHG, and the rings to the clusters (R313, R483). -/
def State.pairGo (s : State) (st : Fin 6) (reason : Nat) : State :=
  if s.pair.st = st then s
  else
    let cs := s.paired
    let s1 := s.updPair fun p => { p with
      st := st, reason := BitVec.ofNat 8 reason, orphanMs := 0
      takeovers := if st == qTakeover then p.takeovers + 1 else p.takeovers
      switchBad := p.switchBad || (s.pairJob.isSome && !(st == qActive || st == qStandby)) }
    let s2 := (if st == qTakeover then s1.madd cTakeover 1 else s1).when (st == qSyncing) State.sharedOff
    let s3 := cs.foldl (fun s c => s.updPc c (·.enter st)) s2
    let s4 := (s3.notify 0xF002 (s.objAt 0 0) (s3.pairPayload reason false)).setStchg
    ((cs.foldl (fun s c => s.supdb c 3) s4).sourceTurns s.followsPair).healthWarns

/-- A controller that no longer sends hears its partner as a backup does; a standby's is in BACKUP whatever it was (R317). -/
def State.backupControllers (s : State) (standby : Bool) : State :=
  s.paired.foldl (fun s c =>
    let st := (Vec.at s.cl c).dl.st
    if s.isController c && (st == dMaster || st == dClaim || (standby && st == dListen)) then
      s.updDl c Dl.backup
    else s) s

/-- Into SYNCING: nothing is sent, and with `discard` the checkpoints and relay halves are given up (R312, R322, R328). -/
def State.toSyncing (s : State) (reason : Nat) (discard : Bool) : State :=
  let s1 := s.pairGo qSyncing reason
  let s2 := s.paired.foldl (fun s c => s.updPc c fun q => { q with
    missed := 0, relayOk := false, takeover := false, fallBack := 0, switchAt := none, checkFrom := none, copied := false
    ckptValid := q.ckptValid && !discard, relay := if discard then Vec.fill 2 none else q.relay, copyBlocks := []
    copying := false, check := none }) s1
  (s2.updPair fun p => { p with bulkDone := false, quick := false, quickOwn := none, quickPeer := none }).backupControllers false

/-- A PAIRCTL message on the partner's link (R309; its layout is not given, log 24). -/
def pairCtlBytes (op a : Nat) (cycle : W64) : List Byte :=
  [BitVec.ofNat 8 op, BitVec.ofNat 8 a, BitVec.ofNat 8 (a / 256), 0] ++ beBytes 8 cycle.toNat

/-- Send a PAIRCTL to the partner. -/
def State.pairCtl (s : State) (op a : Nat) (cycle : W64) : State :=
  match s.pairLink with
  | some l => s.akSend l 0x21 (pairCtlBytes op a cycle)
  | none => s

/-- Withdrawal (R327). -/
def State.withdraw (s : State) : State :=
  if s.pair.st = qSolo then s
  else
    let cs := s.paired
    let s1 := s.each (n := 2) fun s l => if s.akUp l then s.akSend l 0x21 (pairCtlBytes 0 0 0) else s
    let s2 := (cs.foldl (fun s c => s.stopPersonality c) s1).sharedOff
    let s3 := s2.pairGo qSolo 5
    (cs.foldl (fun s c => s.updPc c fun _ => PairCl.zero) s3).alarm 0x0702 (s.objAt 0 0) 0 true

/-- The health word shows a reason to withdraw (R327). -/
def State.unhealthy (s : State) : Bool :=
  s.pair.st != qSolo && (!s.pair.supOk || !s.pair.memOk || !s.selft.stOk || s.paired.any fun c => !s.clHealthy c)

/-- A paired module withdraws on what a command has brought to its health word. -/
def State.settle (s : State) : State := if s.unhealthy then s.withdraw else s

/-- Into TAKEOVER: every running paired personality has its takeover drumbeat before it (R330). -/
def State.toTakeover (s : State) (reason : Nat) : State :=
  let s1 := s.pairGo qTakeover reason
  s1.pairedRunning.foldl (fun s c => s.updPc c fun q => { q with takeover := true, checkFrom := none }) s1

/-- An active partner can be reached. -/
def State.activeReachable (s : State) : Bool :=
  s.partnerLink.isSome && !s.pair.peerLost && (s.pair.peerState = 2 || s.pair.peerState = 4 || s.pair.peerState = 5)

/-- The paired personalities are all started while no partner is active: ORPHAN (R311, R312). -/
def State.tryOrphan (s : State) : State :=
  if s.pair.st == qSyncing && !s.paired.isEmpty && s.paired.all (fun c => s.started c) && !s.activeReachable then
    s.pairGo qOrphan 0
  else s

/-- All paired personalities have stopped: SYNCING (R311). -/
def State.pairStopped (s : State) : State :=
  if s.pair.st != qSolo && s.pair.st != qSyncing && s.pairedRunning.isEmpty then s.toSyncing 0 false else s

/-- Two ORPHAN modules (R312): the longer one stays; PREFER and then the lower position decide
when both have just started, unless they meet as the link enters UP. -/
def State.contest (s : State) (peerMs : Nat) (prefer atLink : Bool) : State :=
  if s.pair.st != qOrphan then s
  else
    let low := decide (s.pwr.mpos.1 < s.partnerPos.1)
    let fresh := !atLink && s.pair.orphanMs = 0 && peerMs = 0
    let win := if fresh then (if s.pair.prefer = prefer then low else s.pair.prefer)
      else decide (peerMs < s.pair.orphanMs) || (peerMs = s.pair.orphanMs && low)
    if fresh then (if win then s else s.toSyncing 0 true)
    else
      let s1 := if win then s else s.toSyncing 9 true
      s1.alarm 0x0700 (s.objAt 0 0) 0 true

/-! ### The budget (R315) -/

/-- Sum over the clusters a mask names. -/
def sumCl (mask : Nat) (f : Fin 4 → Nat) : Nat := ((allFin 4).filter fun c => mask.testBit c.1).foldl (fun a c => a + f c) 0

/-- Bytes of the bulk content of R338; the size of the Sundom objects is left open (at most 64 KiB). -/
def State.bulkBytes (s : State) (p : Pair) (mask : Nat) : Nat :=
  sumCl mask (fun c =>
    let i := (Vec.at s.cl c).pi
    (Vec.at p.stateLen c).toNat * 1024 + 2 * (16 + (Vec.at p.buildLen c).toNat) +
      (if i.defined then 3 * (64 * ((i.inLen.toNat + 63) / 64)) + 3 * (64 * ((i.outLen.toNat + 63) / 64)) else 0)) +
    min Config.objectBytes 65536

/-- The checks of R315 for the clusters a mask names, under given settings; times in ns. -/
def State.budgetOk (s : State) (p : Pair) (mask : Nat) : Bool :=
  let cs := (allFin 4).filter fun c => mask.testBit c.1
  let ct := fun c => (Vec.at s.cl c).period
  let ctMin := (cs.map ct).foldl min 100000000
  let sKib := sumCl mask fun c => (Vec.at p.stateLen c).toNat
  let build := sumCl mask fun c => (Vec.at p.buildLen c).toNat
  let tc := 1700 * sKib + 4000
  cs.isEmpty ||
  (125000 ≤ ctMin && cs.all (fun c => ct c % ctMin = 0 && (Vec.at s.cl c).phase = (Vec.at s.cl (cs.headD 0)).phase) &&
   sKib ≤ 256 && 2 * tc ≤ ctMin && tc + 80000 ≤ ctMin &&
   cs.all (fun c =>
     let lead := (Vec.at s.cl c).pi.lead.toNat * 125
     1700 * build + 4000 * 1024 ≤ lead * 1024 && lead ≤ 80000) &&
   s.bulkBytes p mask ≤ 1048576)

/-! ### Aklos links (R306–R310, R337) -/

/-- The settings that both modules must have alike (R314), in the order of its table, those of the clusters named. PREFER is not
among them: R312 tells the modules apart by it (DEDUCED, log 105). -/
def Pair.compared (p : Pair) : List W64 :=
  ([1, 2, 3].map fun r => BitVec.ofNat 64 (row p.sets r)) ++
    ((allFin 4).filter fun c => (row p.sets 2).testBit c.1).flatMap (fun c =>
      [Vec.at p.stateBase c, Vec.at p.stateLen c, Vec.at p.relayBase c, Vec.at p.buildLen c]) ++
    [9, 10].map fun r => BitVec.ofNat 64 (row p.sets r)

/-- A change of link state, posted as LINK_CHANGE (R308, R463). -/
def State.linkGo (s : State) (l : Fin 2) (st : Fin 3) : State :=
  let k := Vec.at s.pair.links l
  if k.st = st then s
  else
    let s1 := s.updPair fun p => { p with links := Vec.upd p.links l fun k => { k with
      st := st, chg := k.chg + 1, identOk := k.identOk && st = 2, heard := none, errs := [], master := none
      ctr := if st = 0 then k.ctr.inc 2 else k.ctr } }
    s1.notify 0xF005 (s.objAt 0xB l.1)
      (leBytes 4 (place st.1 0 3 ||| place (Vec.at s1.pair.links l).chg.toNat 8 8).toNat)

/-- A counter of a link counts. -/
def State.linkCount (s : State) (l : Fin 2) (i k : Nat) : State :=
  s.updPair fun p => { p with links := Vec.upd p.links l fun x => { x with ctr := x.ctr.add i k } }

/-- A lane that the wiring uses (R307). -/
def State.laneUsed (s : State) (l : Fin 2) : Bool := s.powered 9 && (l = 0 || s.pair.ak1mode != 0)

/-- The link leads to the partner (R307). -/
def State.toPartner (s : State) (l : Fin 2) : Bool := l = 0 || s.pair.ak1mode = 1

/-- A CRC error on a link: counted, and the 16th within 1 ms takes the link DOWN (R306, R308). -/
def State.crcError (s : State) (l : Fin 2) : State :=
  let now := s.ns.toNat
  let errs := ((Vec.at s.pair.links l).errs.filter fun t => decide (now < t + 1000000)) ++ [now]
  let s1 := (s.linkCount l 0 1).updPair fun p => { p with links := Vec.upd p.links l fun k => { k with errs := errs } }
  if 16 ≤ errs.length then s1.linkGo l 0 else s1

/-- A message with a bad CRC is discarded and counted; a good one on an UP link is acted on (R306). -/
def State.received (s : State) (l : Fin 2) (crcOk : Bool) (f : State → State) : State :=
  if !s.akUp l then s else if !crcOk then s.crcError l else f s

/-- A message other than BEAT, TIME and CMD, which alone pass before the partner's certificate is verified (R337); those of the
pair come from the partner, on a link that leads to it (R307, R327). -/
def State.receivedPair (s : State) (l : Fin 2) (crcOk : Bool) (f : State → State) : State :=
  s.received l crcOk fun s => if (Vec.at s.pair.links l).identOk && s.toPartner l then f s else s

/-- The partner is verified and its settings match. -/
def State.peerOk (s : State) : Bool :=
  s.pairLink.isSome && !s.pair.configMismatch

/-- The partner may be synchronised: verified, and known, approved or taken automatically (R337). -/
def State.syncAllowed (s : State) : Bool :=
  s.peerOk && (s.pair.auto || s.pair.approved || s.pair.peerSerial = s.pair.lastSerial)

/-- This module feeds a standby, or a joiner that may be synchronised. -/
def State.feeds (s : State) : Bool :=
  s.pairLink.isSome && !s.pair.peerLost &&
  (s.pair.st == qActive || (s.pair.st == qOrphan && (s.pair.peerState = 3 || (s.pair.peerState = 1 && s.syncAllowed))))

/-- Shared-memory offset of a block of a cluster's state area (R314). -/
def State.stateBlock (s : State) (c : Fin 4) (i : Nat) : Nat :=
  (Vec.at s.pair.stateBase c).toNat + i * ((Vec.at s.pair.stateLen c).toNat * 1024)

/-- The BULK blocks of one area: kind, place and 1 KiB of data each (R309; layout log 24). -/
def State.bulkArea (s : State) (l : Fin 2) (kind : Nat) (c : Fin 4) (cycle : W64) (at_ len place_ : Nat) : State :=
  (List.range ((len + 1023) / 1024)).foldl (fun s i =>
    let n := min 1024 (len - 1024 * i)
    let ((bs, _), s1) := s.rd .shm (akCode l) (at_ + 1024 * i) n
    s1.akSend l 0x30 ([BitVec.ofNat 8 kind, BitVec.ofNat 8 c.1] ++ beBytes 8 cycle.toNat ++ beBytes 4 (place_ + 1024 * i) ++ bs)) s

/-- The Sundom objects of a personality that the bulk synchronisation carries: the settings of its Drumline node and its
mapping, in blocks 16 c onward (their content is given by no rule: DESIGN CHOICE, log 24). -/
def State.bulkObjects (s : State) (l : Fin 2) (c : Fin 4) : State :=
  let d := (Vec.at s.cl c).dl
  let block := fun (s : State) (i : Nat) (bs : List Byte) =>
    s.akSend l 0x30 ([2, BitVec.ofNat 8 c.1] ++ beBytes 8 0 ++ beBytes 4 (16 * c.1 + i) ++ bs)
  let s1 := block s 0 ((allFin 20).flatMap fun i => beBytes 8 (Vec.at d.sets i).toNat)
  (List.range (min 15 ((row d.sets 20 + 63) / 64))).foldl (fun s i => block s (i + 1) (memReadN d.maps (1024 * i) 1024)) s1

/-- The bulk synchronisation of a joiner in SYNCING starts: checkpoints, process images, relay halves and Sundom objects go out,
once for each entry of the joiner into SYNCING (R338). -/
def State.bulkStart (s : State) : State :=
  match s.pairLink with
  | none => s
  | some l =>
    if s.pair.st == qOrphan && s.pair.peerState = 1 && !s.pair.bulkSent && s.syncAllowed then
      s.pairedRunning.foldl (fun s c =>
        let k := Vec.at s.cl c
        let q := k.pair
        let s1 := if q.ckptValid then
            s.bulkArea l 1 c q.ckptCycle (s.stateBlock c (2 + bit q.ckptBuf)) ((Vec.at s.pair.stateLen c).toNat * 1024) 0
          else s
        let i := k.pi
        let len := 3 * (64 * ((i.inLen.toNat + 63) / 64)) + 3 * (64 * ((i.outLen.toNat + 63) / 64))
        let s2 := if i.defined then s1.bulkArea l 0 c 0 (i.base.toNat + 64) len (i.base.toNat + 64) else s1
        let n := 2 * (16 + (Vec.at s.pair.buildLen c).toNat)
        (s2.bulkArea l 0 c 0 (s.relayAt c 0) n (s.relayAt c 0)).bulkObjects l c) (s.updPair fun p => { p with bulkSent := true })
    else s

/-- The position at the far end of a link (R307). -/
def State.farEnd (s : State) (l : Fin 2) : Fin 4 := finOf 4 (s.pwr.mpos.1 ^^^ if s.toPartner l then 1 else 2)

/-- The octets of a BEAT (R309). -/
def beatBytes (mpos : Fin 4) (state : Nat) (orphanMs count : Nat) : List Byte :=
  [BitVec.ofNat 8 mpos.1, BitVec.ofNat 8 state] ++ beBytes 4 orphanMs ++ beBytes 2 count

/-- The BEAT of another member goes on along the two-hop path through this pair (R326, R340): from the cross link to the
partner, and from the partner to the cross link. -/
def State.beatOn (s : State) (l : Fin 2) (mpos : Fin 4) (data : List Byte) : State :=
  let hop := finOf 4 (s.pwr.mpos.1 ^^^ (if l = 0 then 3 else 2))
  let out : Fin 2 := if l = 0 then 1 else 0
  if s.pair.ak1mode = 2 && mpos = hop && s.akUp out then s.akSend out 0x01 data else s

/-- A BEAT (R309–R312). One from the partner ends the presumption that it is lost, and with it the check of R326 (DEDUCED,
log 90). With settings that differ both modules keep their states (R314), and no pair forms with a partner whose certificate is
not verified (R337). A partner that has come to SYNCING gets the bulk content (R338). -/
def State.beat (s : State) (l : Fin 2) (mpos : Fin 4) (state : Fin 6) (orphanMs count : Nat) (prefer : Bool) : State :=
  let k := Vec.at s.pair.links l
  let miss := match k.heard with
    | some h => count - (h + 1)
    | none => 0
  let s1 := if mpos = s.farEnd l then
      (s.updPair fun p => { p with links := Vec.upd p.links l fun x => { x with heard := some count } }).linkCount l 1 miss
    else s
  if mpos ≠ s.partnerPos then s1.beatOn l mpos (beatBytes mpos state.1 orphanMs count)
  else
    let s2 := s1.updPair fun p => { p with
      peerState := BitVec.ofNat 8 state.1, peerLost := false, bulkSent := p.bulkSent && state == qSyncing }
    let s2 := s2.paired.foldl (fun s c => s.updPc c fun q => { q with checkFrom := none }) s2
    if s.pair.configMismatch then s2
    else if s.pair.st == qOrphan && state == qStandby then (if s.pairLink.isSome then s2.pairGo qActive 2 else s2)
    else if s.pair.st == qActive && state == qSyncing then (s2.pairGo qOrphan 7).bulkStart
    else if s.pair.st == qActive && state == qSolo then s2.pairGo qOrphan 4
    else if s.pair.st == qOrphan && state == qOrphan then s2.contest orphanMs prefer false
    else s2.bulkStart

/-- IDENT (R337). -/
def State.ident (s : State) (l : Fin 2) (serial : W64) (certOk : Bool) : State :=
  let put := fun (s : State) (ok : Bool) => s.updPair fun p => { p with links := Vec.upd p.links l fun k => { k with identOk := ok } }
  if !certOk then (put s false).alarm 0x0707 (s.objAt 0 0) 0 true
  else
    let s1 := put s true
    if !s.toPartner l then s1
    else
      let s2 := s1.updPair fun p => { p with peerSerial := serial, bulkSent := false }
      if serial = s.pair.lastSerial then s2.bulkStart
      else
        let s3 := s2.notify 0xF003 (s.objAt 0 0) (leBytes 8 s.pair.lastSerial.toNat ++ leBytes 8 serial.toNat ++
          [BitVec.ofNat 8 (row s.pair.sets 3), 0, 0, 0])
        if s.pair.auto then (s3.updPair fun p => { p with lastSerial := serial, pendingSerial := none }).bulkStart
        else s3.updPair fun p => { p with pendingSerial := some serial, approved := false }

/-! ### The relay (R320–R322) -/

/-- PAIR_CMD.BUILD_DONE: relay half c[0] of the coming cycle leaves as one RELAY message (R320). -/
def State.buildDone (s : State) (c : Fin 4) : State :=
  match s.partnerLink with
  | none => s
  | some l =>
    if s.inPair c && s.feeds then
      let h := ((Vec.at s.cl c).cycle.toNat + 1) % 2
      let ((bs, bad), s1) := s.rd .shm (akCode l) (s.relayAt c h) (16 + (Vec.at s.pair.buildLen c).toNat)
      if bad then s1 else s1.akSend l 0x11 bs
    else s

/-- A RELAY message lands (R320, R321): after the standby take of its cycle it is discarded and counted. -/
def State.relayIn (s : State) (l : Fin 2) (c : Fin 4) (data : List Byte) : State :=
  let k := Vec.at s.cl c
  if !s.inPair c || !s.toPartner l || k.pair.own || (s.pair.st == qOrphan || s.pair.st == qActive) then s
  else
    let low := BitVec.ofNat 32 (leAt data 0 4)
    let cyc : W64 := k.cycle + (low - k.cycle.setWidth 32).signExtend 64
    let late := match k.pair.takenFor with
      | some t => decide (cyc.toInt ≤ t.toInt)
      | none => false
    if late then s.madd cRelayLate 1
    else
      let h := cyc.toNat % 2
      let s1 := s.wr .shm (akCode l) (s.relayAt c h) (data.take (16 + (Vec.at s.pair.buildLen c).toNat))
      s1.updPc c fun q => { q with relay := Vec.updN q.relay h fun _ => some cyc }

/-- The standby take of the coming cycle (R321, R322). -/
def State.standbyTake (s : State) (c : Fin 4) : State :=
  let k := Vec.at s.cl c
  if !s.inPair c || k.st != .started || k.pair.own || s.pair.st == qOrphan || s.pair.st == qActive then s
  else
    let n := k.cycle + 1
    let h := n.toNat % 2
    let landed := Vec.atD k.pair.relay h none == some n
    let s1 := s.updPc c fun q => { q with
      relayOk := landed, relayHalf := if landed then h = 1 else q.relayHalf, takenFor := some n
      missed := if landed then 0 else q.missed + 1 }
    if !landed && 1 ≤ k.pair.missed && s.pair.st == qStandby && !s.pair.peerLost then
      (s1.toSyncing 7 false).warn 0x0706 (s.objAt 1 c.1) 0 false
    else s1

/-! ### The state copy (R323, R324) -/

/-- What stands before the data of a COPY block: with 1 KiB and the CRC, R309's 1044 octets (layout log 24). -/
def copyHead (c : Fin 4) (i : Nat) (cycle : W64) : List Byte :=
  [BitVec.ofNat 8 c.1, 0] ++ beBytes 2 i ++ beBytes 4 0 ++ beBytes 8 cycle.toNat

/-- At the drumbeat the completed live half goes to the standby in 1 KiB blocks; an error leaves the copy short. -/
def State.copyStart (s : State) (c : Fin 4) (old : W64) : State :=
  match s.partnerLink with
  | none => s
  | some l =>
    if !s.feeds then s
    else if (Vec.at s.cl c).pair.stateDone then
      let a := s.stateBlock c (old.toNat % 2)
      (List.range (Vec.at s.pair.stateLen c).toNat).foldl (fun s i =>
        let ((bs, bad), s1) := s.rd .shm (akCode l) (a + 1024 * i) 1024
        if bad then s1 else s1.akSend l 0x10 (copyHead c i old ++ bs)) (s.updPc c fun q => { q with copySent := some (old, s.ns, []) })
    else s.madd cCopySkip 1

/-- Time budget of the state copies of all paired personalities, from their drumbeat, in ns (R315). -/
def State.copyBudget (s : State) : Nat := 1700 * sumCl (row s.pair.sets 2) (fun c => (Vec.at s.pair.stateLen c).toNat) + 4000

/-- A block that reached the partner with a bad CRC is sent again, once, behind what has been sent, while the budget of R315
leaves room for it (R323; how the sender learns of it is given by no rule: DESIGN CHOICE, log 24). -/
def State.copyAgain (s : State) (c : Fin 4) (i : Nat) : State :=
  match s.pairLink, (Vec.at s.cl c).pair.copySent with
  | some l, some (old, at_, done) =>
    if !s.inPair c || !s.feeds || (Vec.at s.pair.stateLen c).toNat ≤ i || done.contains i ||
        at_.toNat + s.copyBudget < s.ns.toNat + 1700 then s
    else
      let ((bs, bad), s1) := s.rd .shm (akCode l) (s.stateBlock c (old.toNat % 2) + 1024 * i) 1024
      let s2 := s1.updPc c fun q => { q with copySent := some (old, at_, i :: done) }
      if bad then s2 else s2.akSend l 0x10 (copyHead c i old ++ bs)
  | _, _ => s

/-- Commit the checkpoint buffer that is not committed (R324). -/
def PairCl.commit (q : PairCl) (cycle : W64) : PairCl :=
  { q with ckptBuf := q.ckptValid && !q.ckptBuf, ckptValid := true, ckptCycle := cycle, copyBlocks := [], copying := false }

/-- The index of the checkpoint buffer that is not committed. -/
def PairCl.spare (q : PairCl) : Nat := 2 + bit (q.ckptValid && !q.ckptBuf)

/-- A COPY block of a cycle comes, good or not: a copy is under way, unless that cycle's is committed already. -/
def PairCl.copyOf (q : PairCl) (cycle : W64) : PairCl :=
  let q := if q.copyCycle = cycle then q else { q with copyCycle := cycle, copyBlocks := [] }
  { q with copying := !(q.ckptValid && q.ckptCycle = cycle) }

/-- The route state that a copy carries becomes the standby's (R303); a switch of this module's own that the copy no longer
has has ended on the active. -/
def Dl.followRoutes (d : Dl) (r : RouteCopy) : Dl :=
  { d with
    active := r.active
    switch := match r.switch with
      | some w => some { route := w.route, first := w.first, cycle := w.cycle, nodes := w.nodes, committed := w.committed,
                         maxTally := w.maxTally, job := (d.switch.map (·.job)).getD 0, done := none }
      | none => (d.switch.filter fun w => w.job ≠ 0).map fun w =>
          { w with done := some (w.done.getD (if r.active = w.route then 0 else 1)) } }

/-- This module takes state copies of a cluster. -/
def State.takesCopies (s : State) (c : Fin 4) : Bool := s.inPair c && (s.pair.st == qStandby || s.pair.st == qSyncing)

/-- A COPY block (R324). -/
def State.copyIn (s : State) (l : Fin 2) (c : Fin 4) (cycle : W64) (block : Nat) (data : List Byte) (route : RouteCopy)
    (memErr : Bool) : State :=
  if !s.takesCopies c then s
  else
    let n := (Vec.at s.pair.stateLen c).toNat
    let s1 := s.updPc c (·.copyOf cycle)
    let q := (Vec.at s1.cl c).pair
    if n ≤ block || memErr || !q.copying then s1
    else
      let s2 := s1.wr .shm (akCode l) (s1.stateBlock c q.spare + 1024 * block) (data.take 1024)
      let bs := if q.copyBlocks.contains block then q.copyBlocks else block :: q.copyBlocks
      if bs.length = n then
        let s3 := s2.updPc c fun q => { q.commit cycle with copied := true }
        if s.isController c then s3.updDl c (·.followRoutes route) else s3
      else s2.updPc c fun q => { q with copyBlocks := bs }

/-- A COPY block with a bad CRC: discarded and counted as every message, and told to the sender, who may send it once more
(R306, R323, R324; log 24). -/
def State.copyBad (s : State) (l : Fin 2) (c : Fin 4) (cycle : W64) (block : Nat) : State :=
  if !s.akUp l then s
  else
    let s1 := s.crcError l
    if !(Vec.at s.pair.links l).identOk || !s.toPartner l || !s.takesCopies c then s1
    else (s1.updPc c (·.copyOf cycle)).pairCtl 4 (c.1 + 256 * block) cycle

/-- The budget of a copy ends (R324). -/
def State.copyEnd (s : State) (c : Fin 4) : State :=
  if s.inPair c && (Vec.at s.cl c).pair.copying then
    (s.updPc c fun q => { q with copyBlocks := [], copying := false }).madd cCopyFail 1
  else s

/-- A block of Sundom objects at the joiner takes effect there (R338; the content as `State.bulkObjects` sends it). -/
def State.objectIn (s : State) (i : Nat) (data : List Byte) : State :=
  let c : Fin 4 := finOf 4 (i / 16)
  if 64 ≤ i || !s.inPair c then s
  else s.updDl c fun d =>
    if i % 16 = 0 then
      (if data.length < 160 then d else { d with sets := Vector.ofFn fun k => BitVec.ofNat 64 (beAt data (8 * k.1) 8) })
    else { d with maps := memWriteN d.maps (1024 * (i % 16 - 1)) (data.take 1024) }

/-- A BULK block at the joiner (R338). -/
def State.bulkIn (s : State) (l : Fin 2) (b : BulkPlace) (data : List Byte) : State :=
  if s.pair.st != qSyncing || !s.peerOk then s
  else match b with
    | .shm off => s.wr .shm (akCode l) off.toNat (data.take 1024)
    | .object i => (s.updPair fun p => { p with bulk := Vec.updN p.bulk i fun _ => data.take 1024 }).objectIn i data
    | .checkpoint c cycle off =>
      if !s.inPair c then s
      else
        let q := (Vec.at s.cl c).pair
        let n := (Vec.at s.pair.stateLen c).toNat * 1024
        if n < off + data.length then s
        else
          let s1 := s.wr .shm (akCode l) (s.stateBlock c q.spare + off) data
          if off + data.length = n then s1.updPc c (·.commit cycle) else s1

/-! ### Reports and the quick check (R325, R328) -/

/-- The REPORT of the cycle that ends (R325): the digest closes with the field output command applied in that cycle. -/
def State.sendReport (s : State) (c : Fin 4) (old : W64) : State :=
  let k := Vec.at s.cl c
  let q := k.pair
  let dig := digestFold q.digest [q.applied]
  let flags := bitAt 32 0 q.tx ||| bitAt 32 1 q.held
  let body := [BitVec.ofNat 8 0x12, BitVec.ofNat 8 c.1] ++ beBytes 2 old.toNat ++ beBytes 4 s.health.toNat ++ beBytes 8 dig.toNat ++
    beBytes 4 flags.toNat
  let s1 := match s.pairLink with
    | some l => s.akSend l 0x12 body
    | none => s
  (s1.updPc c fun q => { q with
    last := ⟨old, dig, q.given, q.applied⟩, lastFlags := flags, digest := 0, given := [], reportSeen := false, applied := k.docmdIn s.ns }).updPair
    fun p => { p with reportSeq := p.reportSeq + 1, supOk := true }

/-- A report's FLAGS allow a comparison. -/
def comparable (flags : W32) : Bool := flags.getLsbD 0 && !flags.getLsbD 1

/-- A received REPORT (R325, R328, R411). -/
def State.report (s : State) (r : Report) : State :=
  let s1 := s.updPair fun p => { p with peerHealth := r.health }
  let k := Vec.at s.cl r.cluster
  let q := k.pair
  if !s.inPair r.cluster || q.reportSeen || !(s.pair.st == qActive || s.pair.st == qStandby) then s1
  else
    let s2 := s1.updPc r.cluster fun q => { q with reportSeen := true }
    let same := r.cycle = (k.cycle - 1).setWidth 16
    let cmp := same && comparable q.lastFlags && comparable r.flags
    let s3 := s2.rbReports r.cluster cmp
    if !cmp then s3.madd cDigestSkip 1
    else if q.last.digest = r.digest then s3
    else
      (((s3.updPc r.cluster fun q => { q with check := some q.last }).madd cDigestMismatch 1).updPair fun p => { p with mismatch := p.mismatch + 1, quick := true, quickOwn := none, quickPeer := none }).warn
        0x0703 (s.objAt 1 r.cluster.1) 0 false

/-- A REPORT has not come in time (R325). -/
def State.reportLate (s : State) (c : Fin 4) : State :=
  if s.inPair c && s.started c && !(Vec.at s.cl c).pair.reportSeen && (s.pair.st == qActive || s.pair.st == qStandby) then
    ((s.updPc c fun q => { q with reportSeen := true }).rbReports c false).madd cDigestSkip 1
  else s

/-- The results of both modules decide (R328). -/
def State.quickResolve (s : State) : State :=
  match s.pair.quickOwn, s.pair.quickPeer with
  | some own, some peer =>
    let s1 := s.paired.foldl (fun s c => s.updPc c fun q => { q with check := none })
      (s.updPair fun p => { p with quick := false, quickOwn := none, quickPeer := none })
    if s.pair.st == qActive then
      if own && peer then s1.pairGo qOrphan 6
      else if own then s1.pairGo qOrphan 4
      else if peer then s1.withdraw
      else s1.alarm 0x0704 (s.objAt 0 0) 0 true
    else if s.pair.st == qStandby then
      if own && peer then s1.toSyncing 6 true
      else if own then s1.toTakeover 4
      else s1.withdraw
    else s1
  | _, _ => s

/-- The own digest of a cycle, computed again from the halves (R328). -/
def State.digestAgain (s : State) (c : Fin 4) (r : DigestRun) : W64 :=
  digestFold 0 ((r.given.flatMap fun a => s.peek (.spad c) a 1) ++ [r.applied])

/-- What the quick check of a paired cluster finds in the halves (R328): no uncorrectable error in the live state half nor in what
was given in cycle c, and the digest that was reported. -/
def State.quickFinds (s : State) (c : Fin 4) : Bool :=
  let q := (Vec.at s.cl c).pair
  let r := q.check.getD q.last
  !s.memBad .shm (s.stateBlock c (r.cycle.toNat % 2)) ((Vec.at s.pair.stateLen c).toNat * 1024) &&
    !(r.given.any fun a => s.memBad (.spad c) a 1) && s.digestAgain c r = r.digest

/-- The own quick check ends (R328): `pass` is what the compare slice and the signatures of the IMEMs and configurations gave,
which the block holds no reference for. -/
def State.quickOwnDone (s : State) (pass : Bool) : State :=
  if s.pair.quick then
    let ok := pass && s.pairedRunning.all fun c => s.quickFinds c
    ((s.updPair fun p => { p with quickOwn := some ok }).pairCtl 1 (bit ok) 0).quickResolve
  else s

/-- A result is missing after 250 µs: the silent module has failed (R328). -/
def State.quickLate (s : State) : State :=
  if s.pair.quick then
    (s.updPair fun p => { p with quickOwn := some (p.quickOwn.getD false), quickPeer := some (p.quickPeer.getD false) }).quickResolve
  else s

/-! ### Loss (R326) -/

/-- The partner is presumed lost. -/
def State.presumeLost (s : State) : State :=
  if s.pair.st = qSolo || s.pair.peerLost then s
  else
    let s1 := s.updPair fun p => { p with peerLost := true }
    if s.pair.st == qActive then s1.pairGo qOrphan 3
    else if s.pair.st == qStandby then
      s1.pairedRunning.foldl (fun s c =>
        if s.isController c then s.updPc c fun q => { q with checkFrom := some ((Vec.at s.cl c).cycle + 1), origSeen := [] } else s) s1
    else s1

/-- The check instant of the checked cycle. -/
def State.lossCheck (s : State) (c : Fin 4) : State :=
  let k := Vec.at s.cl c
  match k.pair.checkFrom with
  | some x =>
    if s.pair.st != qStandby || !s.inPair c || k.cycle.toInt < x.toInt then s
    else if k.pair.origSeen.contains k.cycle then s.toSyncing 3 false
    else s.toTakeover 3
  | none => s

/-! ### PAIRCTL (R327, R328, R333) -/

/-- Give up a role change. -/
def State.dropSwitch (s : State) : State :=
  (s.paired.foldl (fun s c => s.updPc c fun q => { q with switchAt := none }) s).updPair fun p => { p with switchBad := true }

/-- A PAIRCTL from the partner. -/
def State.pairCtlIn (s : State) (w : PairCtl) : State :=
  match w with
  | .withdraw =>
    if s.pair.st == qStandby then s.toTakeover 4
    else if s.pair.st == qActive then s.pairGo qOrphan 4
    else s
  | .copyBad c i => s.copyAgain c i
  | .quickResult pass =>
    if s.pair.st == qActive || s.pair.st == qStandby then
      (s.updPair fun p => { p with quick := true, quickPeer := some pass }).quickResolve
    else s
  | .roleChange c cyc =>
    if (s.pair.st == qActive || s.pair.st == qStandby) && s.inPair c && s.started c then s.updPc c fun q => { q with switchAt := some cyc }
    else s.pairCtl 3 0 0
  | .roleFailed =>
    if s.paired.any (fun c => (Vec.at s.cl c).pair.switchAt.isSome) then s.dropSwitch
    else if s.pair.st == qStandby then s.toSyncing 6 true
    else s

/-! ### The drumbeat of a paired personality (R325, R326, R330–R333, R338) -/

/-- A controller becomes MASTER without a claim (R330, R333), with the SEQ that R268 gives every node that becomes MASTER. -/
def State.masterNow (s : State) (c : Fin 4) : State := if s.isController c then s.enterMaster c else s

/-- The takeover drumbeat (R330–R332). -/
def State.takeoverBeat (s : State) (c : Fin 4) : State :=
  let k := Vec.at s.cl c
  let q := k.pair
  if s.pair.st != qTakeover || !q.takeover then s
  else
    let s1 :=
      if k.ckptFresh then (s.updPc c fun q => { q with takeover := false, own := true }).masterNow c
      else
        let n := (Vec.at s.pair.stateLen c).toNat * 1024
        let s1 := if q.ckptValid then
            let ((bs, _), s1) := s.rd .shm supCode (s.stateBlock c (2 + bit q.ckptBuf)) n
            s1.wr .shm supCode (s.stateBlock c (q.ckptCycle.toNat % 2)) bs
          else s
        ((s1.updPc c fun q => { q with takeover := false, own := true, tx := false, fallBack := 3 }).releaseEngines c).warn
          0x0705 (s.objAt 1 c.1) 0 false
    if s1.pairedRunning.any (fun c => (Vec.at s1.cl c).pair.takeover) then s1
    else
      let keep := s1.paired.map fun c => (c, (Vec.at s1.cl c).pair.tx)
      keep.foldl (fun s x => s.updPc x.1 fun q => { q with tx := x.2 }) (s1.pairGo qOrphan s.pair.reason.toNat)

/-- The gap of a fall-back runs out at drumbeat t + 3 (R332). -/
def State.fallBackBeat (s : State) (c : Fin 4) (was : Nat) : State :=
  if was = 0 then s
  else
    let s1 := s.updPc c fun q => { q with fallBack := was - 1 }
    if was = 1 then (s1.updPc c fun q => { q with tx := true }).masterNow c else s1

/-- A role change at its drumbeat (R333). -/
def State.switchBeat (s : State) (c : Fin 4) : State :=
  let k := Vec.at s.cl c
  if k.pair.switchAt = some k.cycle && (s.pair.st == qActive || s.pair.st == qStandby) then
    let s1 := s.updPc c fun q => { q with own := !q.own, switchAt := none, missed := 0, takenFor := none, stateDone := false }
    let s2 := if k.pair.own then s1.updDl c fun d => if s.isController c then d.backup else d
      else s1.masterNow c
    if s2.pairedRunning.any (fun c => (Vec.at s2.cl c).pair.switchAt.isSome) then s2
    else s2.pairGo (if s.pair.st == qActive then qStandby else qActive) 8
  else s

/-- A joiner with its bulk content, a committed checkpoint and a landed relay becomes the standby (R338). -/
def State.joinBeat (s : State) : State :=
  if s.pair.st == qSyncing && s.pair.bulkDone && !s.paired.isEmpty && s.peerOk && s.paired.all (fun c =>
      let k := Vec.at s.cl c
      k.st == .started && k.pair.copied && k.pair.relayOk) then
    (s.pairGo qStandby 2).backupControllers true
  else s

/-- What pairing does at the drumbeat that ends cycle `old`. With no paired controller a standby confirms the loss here, and its
takeover drumbeats are later ones (R326, R330). -/
def State.pairBeat (s : State) (c : Fin 4) (old : W64) : State :=
  if !s.inPair c || !s.started c then s
  else
    let s1 := (s.sendReport c old).copyStart c old
    let s2 := s1.updPc c fun q => { q with stateDone := false }
    let was := (Vec.at s2.cl c).pair.fallBack
    let s3 := (s2.switchBeat c).takeoverBeat c
    let s4 := if s3.pair.st == qStandby && s3.pair.peerLost && !(s3.pairedRunning.any fun c => s3.isController c) then s3.toTakeover 3 else s3
    let s5 := (s4.fallBackBeat c was).joinBeat
    let s6 := s5.updPc c fun q => { q with held := s5.pair.st == qStandby && !q.relayOk }
    s6.healthWarns

/-! ### Messages between modules (R113–R115, R340, R426) -/

/-- A command message in the octets of R87, with the sending position and its request number in GEN (log 24). -/
def cmdBytes (cmd : W16) (m : Msg) (src : Fin 4) (num : BitVec 30) : List Byte :=
  leBytes 2 cmd.toNat ++ leBytes 2 m.tag.toNat ++ leBytes 2 m.payload.length ++ leBytes 2 m.flags.toNat ++
    leBytes 4 (num.toNat * 4 + src.1) ++ leBytes 2 m.target.toNat ++ leBytes 2 0 ++ m.payload

/-- A CMD message (R113, R114, R340, R426): for this module it joins the ninth channel; for another one it goes on. -/
def State.cmdIn (s : State) (src : Fin 4) (num : BitVec 30) (cmd : W16) (m : Msg) : State :=
  let own := s.pwr.mpos
  let t := tgtPos m.target
  let joined := { s with group := s.group ++ [cmdBytes cmd m src num] }
  if t = own then
    if (Vec.at s.pair.allow own).getLsbD src.1 then joined
    else s.toMember { kind := 1, src := own, dst := src, num := num, code := cmd ||| 0x8000, tag := m.tag,
                      status := BitVec.ofNat 16 stPeerRefused, detail := 2, target := m.target, payload := [] }
  else if t = src && src = s.partnerPos then joined
  else s.toMember { kind := 0, src := src, dst := t, num := num, code := cmd, tag := m.tag, status := m.flags, detail := 0,
                    target := m.target, payload := m.payload }

/-- JOB_DONE of another module's job (R108, R115), found by the request number of its command, else by its JOB number: a
PAIR_SWITCH that fails carries DETAIL 4 in the number's place (R333). -/
def State.remoteDone (s : State) (g : GroupMsg) : State :=
  match (s.sup.remotes.find? fun r => r.pos = g.src && r.req = g.num).or
      (s.sup.remotes.find? fun r => r.pos = g.src && r.num = g.detail) with
  | none => s
  | some r =>
    (s.updSup fun u => { u with remotes := u.remotes.filter fun x => !(x.pos = r.pos && x.num = r.num) }).jobDone
      { num := r.num, kind := .pairSwitch, chan := r.chan, gen := r.gen, tag := r.tag, flags := r.flags, target := r.target }
      g.status (if g.detail = r.num then none else some g.detail) g.payload

/-- A mirrored command's response is posted; a differing or missing answer marks it and parts the pair (R426). -/
def State.mirrorEnd (s : State) (m : Mirror) (rest : List Mirror) (agreed : Bool) : State :=
  let r := if agreed then m.response else { m.response with detail := m.response.detail ||| 0x80000000 }
  let s1 := (s.updSup fun u => { u with mirrors := rest }).reply m.chan m.gen r
  if !agreed && s.pair.st == qActive then s1.pairGo qOrphan 6 else s1

/-- An answer, JOB_DONE or notification of another module (R109, R113–R115, R340, R426): one for another member goes on;
an answer whose request waits no longer came late, and is discarded. -/
def State.memberAnswer (s : State) (g : GroupMsg) : State :=
  if g.dst ≠ s.pwr.mpos then s.toMember g
  else if g.code = 0xF000 then s.remoteDone g
  else if 0xF000 < g.code.toNat then s.notifyFrom g.src g.code.toNat g.target g.payload
  else match takeFirst (fun (p : Proxy) => tgtPos p.target = g.src && p.num = g.num) s.sup.proxies with
    | some (p, rest) =>
      let s1 := s.updSup fun u => { u with
        proxies := rest
        remotes := if g.status.toNat = stAccepted then
            u.remotes ++ [⟨g.src, g.detail, p.num, p.chan, p.gen, p.tag, p.flags, p.target⟩] else u.remotes }
      s1.reply p.chan p.gen { code := p.cmd ||| 0x8000, tag := p.tag, status := g.status, detail := g.detail, target := p.target,
                              payload := g.payload, held := false }
    | none =>
      match takeFirst (fun (m : Mirror) => m.num = g.num) s.sup.mirrors with
      | some (m, rest) => if g.src = s.partnerPos then s.mirrorEnd m rest (g.status = m.response.status) else s
      | none => s

/-- No answer within 900 µs from a position: the oldest command there is refused (R114). -/
def State.memberSilent (s : State) (pos : Fin 4) : State :=
  match takeFirst (fun (p : Proxy) => tgtPos p.target = pos) s.sup.proxies with
  | some (p, rest) =>
    (s.updSup fun u => { u with proxies := rest }).reply p.chan p.gen
      { code := p.cmd ||| 0x8000, tag := p.tag, status := BitVec.ofNat 16 stPeerRefused, detail := 3, target := p.target,
        payload := [], held := false }
  | none => s

/-- The standby has not answered the oldest mirrored command within 900 µs (R426); it is told to resynchronise. -/
def State.mirrorSilent (s : State) : State :=
  match s.sup.mirrors with
  | m :: rest => (s.mirrorEnd m rest false).pairCtl 3 0 0
  | [] => s

end Sys2Proof.Machine
end

