-- ==== Sys2Proof/Machine/Pi.lean ====
section
/-!
DEFINITION. The process-image unit: publication, take, host watchdog (R116–R122, R431, R444).
-/
namespace Sys2Proof.Machine

/-- PI_STAT (R116). -/
def PiUnit.stat (p : PiUnit) : W32 :=
  bitAt 32 18 p.outValid ||| place p.outTaken.toNat 16 2 ||| bitAt 32 2 p.inDone ||| place p.inFill.toNat 0 2

/-- The doorbells of a drumbeat (R117). -/
def State.piRing (s : State) (c : Fin 4) : State :=
  let s1 := s.ringS2H (16 + c.1)
  if (Vec.at s.cl c).pi.pflags.getLsbD 0 then s1.ringS2H (20 + c.1) else s1

/-- The buffer to fill next: neither the new NEWEST nor the one held, else neither the new nor the old NEWEST (R117). -/
def nextFill (newest old : BitVec 2) (hold : W32) : BitVec 2 :=
  let h : BitVec 2 := hold.setWidth 2
  let other := if hold.getLsbD 2 && h != 3 && h != newest then h else old
  3 - newest - other

/-- Publication at a drumbeat (R117). -/
def State.piPublish (s : State) (c : Fin 4) : State :=
  let k := Vec.at s.cl c
  let late := fun (s : State) =>
    let n := (Vec.at s.cl c).pi.inLate + 1
    (((s.updPi c fun p => { p with inLate := n }).pbWrite c 0x18 n)).warn 0x0203 (s.objAt 0xA c.1) 0 false
  let s1 :=
    if !k.pi.inDone then late s
    else
      let ((hold, bad), s0) := s.pbRead c 4
      if bad then late s0
      else
        let new := k.pi.inFill
        let fill := nextFill new k.pi.newest hold
        (s0.updPi c fun p => { p with newest := new, inFill := fill, inDone := false }).pbWrite c 0
          (place new.toNat 0 2 ||| place fill.toNat 2 2 ||| place k.cycle.toNat 16 16)
  (s1.pbWrite c 0x10 (k.cycle.setWidth 32)).piRing c

/-- What the process-image unit does at a drumbeat (R117, R122, R431, R444). At the drumbeat of RESET_OBJECT's rewrite the CYCLE
word stays as PI_DEFINE leaves it, 0: R431 replaces the publication and does not say whether that word is still written
(DESIGN CHOICE, log 98). -/
def State.piBeat (s : State) (c : Fin 4) : State :=
  if !(Vec.at s.cl c).pi.defined then s
  else
    let cyc := (Vec.at s.cl c).cycle.toNat
    let s1 := s.updPi c fun p => { p.commit (fun n => n.at_.toNat ≤ cyc) with stale := p.stale + 1 }
    if (Vec.at s1.cl c).pi.rewrite then (s1.pbInit c).piRing c else s1.piPublish c

/-- The take (R120). -/
def State.piTake (s : State) (c : Fin 4) : State :=
  let k := Vec.at s.cl c
  if !k.pi.defined || k.st != .started then s
  else
    let ((pub, bad), s1) := s.pbRead c 8
    let key := (pub.setWidth 2, BitVec.ofNat 16 (fld pub 16 16))
    if !bad && pub.getLsbD 2 && k.pi.lastTake ≠ some key then
      (s1.updPi c fun p => { p with outTaken := key.1, outValid := true, lastTake := some key }).pbWrite c 0xC
        (place key.1.toNat 0 2 ||| bitAt 32 2 true ||| place key.2.toNat 16 16)
    else
      let n := k.pi.takeMiss + 1
      (s1.updPi c fun p => { p with takeMiss := n }).pbWrite c 0x14 n

/-- A ring of DB_H2S bit 16 + n, taken by Sundom (R119, R122). -/
def State.piRung (s : State) (c : Fin 4) : State :=
  let p := (Vec.at s.cl c).pi
  if !p.defined && !p.staleWarn then s
  else
    let s1 := s.updPi c fun p => { p with stale := 0, staleWarn := false }
    if p.staleWarn then s1.warn 0x0204 (s.objAt 0xA c.1) 0 true else s1

/-- The host has been silent for N drumbeats (R122). -/
def State.piStale (s : State) (c : Fin 4) : State :=
  let p := (Vec.at s.cl c).pi
  if p.defined && s.started c && p.watchdog ≠ 0 && p.watchdog.toNat ≤ p.stale && !p.staleWarn then
    (s.updPi c fun p => { p with staleWarn := true }).warn 0x0204 (s.objAt 0xA c.1) 0 false
  else s

/-- PI_CMD.IN_DONE (R116). -/
def State.piDone (s : State) (c : Fin 4) : State := s.updPi c fun p => if p.defined then { p with inDone := true } else p

end Sys2Proof.Machine
end

