-- ==== Sys2Proof/Machine/Diag.lean ====
section
/-!
DEFINITION. Latch groups, snapshots, intervals, the statistics area, reading the log, the background self-test
(chapter 18, R527–R530, R546–R550).
-/
namespace Sys2Proof.Machine

/-! ### Latch groups (R531–R533, R536) -/

/-- Gauges of a CAN controller. -/
def canGauge (i : Nat) : Gauge := if i = 55 || i = 56 || i = 58 then .highest else if i = 57 then .lowest else .count
/-- Gauges of a cluster: the eight longest stalls. -/
def clGauge (i : Nat) : Gauge := if 2 ≤ i && i ≤ 9 then .stall else .count
/-- Gauges of the module: the 32 longest stalls. -/
def modGauge (i : Nat) : Gauge := if 8 ≤ i && i ≤ 39 then .stall else .count

/-- What a CAN controller's gauges restart from (R367). -/
def Can.gaugeStart (x : Can) (i : Nat) : W32 :=
  if i = 55 then BitVec.ofNat 32 (satTo 255 x.tec)
  else if i = 56 then BitVec.ofNat 32 x.rxErr
  else if x.tdcValid then x.tdcv.setWidth 32
  else if i = 57 then 0xFFFFFFFF else 0

/-- A way of treating a block of counters, given its gauges and what they restart from. -/
abbrev CtrFun := (n : Nat) → (Nat → Gauge) → (Nat → W32) → Ctr n → Ctr n

/-- Latch every counter. -/
def latchFun : CtrFun := fun _ g start c => c.latch g start
/-- Close the interval. -/
def closeFun : CtrFun := fun _ g _ c => c.close g

/-- Treat the counters of the units of a latch group: a cluster's (with its own), or those of no cluster (R531). -/
def State.onGroup (s : State) (o : Option (Fin 4)) (f : CtrFun) : State :=
  let hq := Vec.mapIx s.hq fun h x => if s.hqServer h = o then { x with ctr := f 1 noGauge fromZero x.ctr } else x
  { s with
    port := Vec.mapIx s.port fun _ x => if x.owner = o then { x with ctr := f 61 noGauge fromZero x.ctr } else x
    can := Vec.mapIx s.can fun _ x => if x.owner = o then { x with ctr := f 59 canGauge x.gaugeStart x.ctr } else x
    pio := Vec.mapIx s.pio fun _ x => if x.owner = o then { x with ctr := f 5 noGauge fromZero x.ctr } else x
    fio := { s.fio with
      di := Vec.mapIx s.fio.di fun _ x => if x.owner = o then { x with ctr := f 1 noGauge fromZero x.ctr } else x
      do_ := Vec.mapIx s.fio.do_ fun _ x => if x.owner = o then { x with ctr := f 7 noGauge fromZero x.ctr } else x }
    hq := hq
    cl := Vec.mapIx s.cl fun c k => if some c = o then { k with ctr := f 21 clGauge fromZero k.ctr } else k }

/-- Treat the counters of the links, the time unit and the module. -/
def State.onModule (s : State) (f : CtrFun) : State :=
  { s with
    pair := { s.pair with links := Vec.mapIx s.pair.links fun _ x => { x with ctr := f 3 noGauge fromZero x.ctr } }
    tim := { s.tim with ctr := f 7 noGauge fromZero s.tim.ctr }
    modCtr := f 75 modGauge fromZero s.modCtr }

/-! ### Snapshots (R534, R535) -/

/-- The words of one object in a bank: its counters, and the words of its SAT bits at given offsets. -/
def snapWords {n : Nat} (base : Nat) (c : Ctr n) (g : Nat → Gauge) (sats : List Nat) : List (Nat × W32) :=
  let sat := fun (i : Nat) => g i = .count && Vec.atD c.live i 0 == 0xFFFFFFFF
  ((List.range n).map fun i => (base + 4 * i, Vec.atD c.live i 0)) ++
    (sats.zip (List.range sats.length)).map fun x =>
      (base + x.1, (List.range 32).foldl (fun w b => w ||| bitAt 32 b (decide (32 * x.2 + b < n) && sat (32 * x.2 + b))) (0 : W32))

/-- The bank as the latch writes it: the counters of the objects that the cluster owns, then whether a SAT bit is set. -/
def State.snapshot (s : State) (c : Fin 4) : Mem × Bool :=
  let own := fun (o : Option (Fin 4)) => o == some c
  let units :=
    (allFin 12).flatMap (fun p => let x := Vec.at s.port p
      if own x.owner then snapWords (0x100 * p.1) x.ctr noGauge [0xF8, 0xFC] else []) ++
    (allFin 4).flatMap (fun n => let x := Vec.at s.can n
      if own x.owner && x.st ≠ 1 then snapWords (0xC00 + 0x100 * n.1) x.ctr canGauge [0xF8, 0xFC] else []) ++
    (allFin 8).flatMap (fun k => let x := Vec.at s.pio k
      if own x.owner then snapWords (0x1000 + 0x40 * k.1) x.ctr noGauge [0x3C] else []) ++
    (allFin 8).flatMap (fun d => let x := Vec.at s.fio.di d
      if own x.owner then snapWords (0x1200 + 0x40 * d.1) x.ctr noGauge [0x3C] else []) ++
    (allFin 8).flatMap (fun d => let x := Vec.at s.fio.do_ d
      if own x.owner then snapWords (0x1400 + 0x40 * d.1) x.ctr noGauge [0x3C] else []) ++
    (allFin 256).flatMap (fun h =>
      if own (s.hqServer h) then snapWords (0x1600 + 4 * h.1) (Vec.at s.hq h).ctr noGauge [] else []) ++
    snapWords 0x1A00 (Vec.at s.cl c).ctr clGauge [0x7C]
  let isSat := fun (a : Nat) => (a < 0x1000 && a % 0x100 = 0xF8) || (a < 0x1000 && a % 0x100 = 0xFC) ||
    (0x1000 ≤ a && a < 0x1600 && a % 0x40 = 0x3C) || a = 0x1A7C
  (units.foldl (fun m x => memPutWord m x.1 x.2) [], units.any fun x => isSat x.1 && x.2 ≠ 0)

/-- SNAPSHOT_LATCH (R534): the bank that does not hold the newest snapshot is written, then SNAP_HDR as one word. A CAN controller
in IDLE is latched at the module statistics period instead (R367), and has no counts in the bank (DESIGN CHOICE, log 106). -/
def State.snapLatch (s : State) (c : Fin 4) : State :=
  let k := Vec.at s.cl c
  let bank := !k.snapHdr.getLsbD 31
  let (m, sat) := s.snapshot c
  let s1 := s.onGroup (some c) latchFun
  let s1 := { s1 with can := Vec.mapIx s1.can fun n x => if x.st = 1 then Vec.at s.can n else x }
  s1.updCl c fun k => { k with
    snap := Vec.updN k.snap (bit bank) fun _ => m
    snapHdr := bitAt 32 31 bank ||| bitAt 32 30 sat ||| place k.cycle.toNat 0 30
    spstall := Vec.fill 8 0 }

/-! ### The statistics area (R537, R538) -/

/-- A record's material: object without position, interval values with SAT, totals. -/
structure Rec where
  obj : Nat
  vals : List (W32 × Bool)
  tots : List W64
deriving DecidableEq, Repr

/-- The record of an object: interval values before the close, totals after it. -/
def recOf {n : Nat} (obj : Nat) (before after : Ctr n) : Rec :=
  { obj := obj, vals := (allFin n).map fun i => (Vec.at before.ival i, Vec.at before.isat i), tots := (allFin n).map fun i => Vec.at after.tot i }

/-- The records of a group's units, in the order of the object classes; of an HQ only when its counter is not zero. -/
def State.groupRecs (b a : State) (o : Option (Fin 4)) : List Rec :=
  (allFin 4).filterMap (fun c => if some c = o then some (recOf (0x100 + c.1) (Vec.at b.cl c).ctr (Vec.at a.cl c).ctr) else none) ++
  (allFin 12).filterMap (fun p => if (Vec.at b.port p).owner = o then some (recOf (0x200 + p.1) (Vec.at b.port p).ctr (Vec.at a.port p).ctr) else none) ++
  (allFin 4).filterMap (fun n => if (Vec.at b.can n).owner = o then some (recOf (0x300 + n.1) (Vec.at b.can n).ctr (Vec.at a.can n).ctr) else none) ++
  (allFin 8).filterMap (fun k => if (Vec.at b.pio k).owner = o then some (recOf (0x400 + k.1) (Vec.at b.pio k).ctr (Vec.at a.pio k).ctr) else none) ++
  (allFin 8).filterMap (fun d => if (Vec.at b.fio.di d).owner = o then some (recOf (0x500 + d.1) (Vec.at b.fio.di d).ctr (Vec.at a.fio.di d).ctr) else none) ++
  (allFin 8).filterMap (fun d => if (Vec.at b.fio.do_ d).owner = o then some (recOf (0x600 + d.1) (Vec.at b.fio.do_ d).ctr (Vec.at a.fio.do_ d).ctr) else none) ++
  (allFin 256).filterMap (fun h =>
    if b.hqServer h = o && Vec.at (Vec.at b.hq h).ctr.ival 0 ≠ 0 then some (recOf (0x700 + h.1) (Vec.at b.hq h).ctr (Vec.at a.hq h).ctr) else none)

/-- The records of the module's own objects. -/
def moduleRecs (b a : State) : List Rec :=
  [recOf 0 b.modCtr a.modCtr] ++ (allFin 2).map (fun l => recOf (0xB00 + l.1) (Vec.at b.pair.links l).ctr (Vec.at a.pair.links l).ctr) ++
    [recOf 0xC00 b.tim.ctr a.tim.ctr]

/-- A record's octets (R537). -/
def Rec.bytes (r : Rec) (totals : Bool) (cycle : W32) (now : W64) : List Byte :=
  let sat := (r.vals.zip (List.range r.vals.length)).foldl (fun w x => w ||| bitAt 64 x.2 x.1.2) (0 : W64)
  leBytes 2 r.obj ++ [BitVec.ofNat 8 r.vals.length, BitVec.ofNat 8 (bit totals)] ++ leBytes 4 cycle.toNat ++ leBytes 8 now.toNat ++
    leBytes 8 sat.toNat ++ r.vals.flatMap (fun v => leBytes 4 v.1.toNat) ++ (if totals then r.tots.flatMap fun t => leBytes 8 t.toNat else [])

/-- Octets of a record of `n` counters. -/
def recLen (n : Nat) (totals : Bool) : Nat := 24 + 4 * n + (if totals then 8 * n else 0)

/-- Sundom writes one record into AREA (R538). -/
def State.putStat (s : State) (r : Rec) (cycle : W32) : State :=
  let u := s.sup
  if u.area = 0xFFFFFFFF then s
  else
    let tot := u.sflags.getLsbD 0
    let bs := r.bytes tot cycle s.ns
    let base := u.area.toNat
    let w0 := if u.areaNew then 16 else u.wr.toNat
    let fits := w0 + bs.length ≤ u.areaLen.toNat
    let s1 := if !fits && w0 + 2 ≤ u.areaLen.toNat then s.wr .shm supCode (base + w0) [0xFF, 0xFF] else s
    let w := if fits then w0 else 16
    let s2 := s1.wr .shm supCode (base + w) bs
    let wraps := (if u.areaNew then 0 else u.wraps) + BitVec.ofNat 32 (bit !fits)
    let recs := (if u.areaNew then 0 else u.records) + 1
    let next := 8 * ((w + bs.length + 7) / 8)
    let s3 := s2.updSup fun u => { u with wr := BitVec.ofNat 32 next, wraps := wraps, records := recs, areaNew := false }
    s3.wr .shm supCode base (leBytes 4 next ++ leBytes 4 wraps.toNat ++ leBytes 4 recs.toNat ++ leBytes 4 0)

/-- Write records. -/
def State.putStats (s : State) (rs : List Rec) (cycle : W32) : State := rs.foldl (fun s r => s.putStat r cycle) s

/-- The largest round time of the statistics period that ends is the one that DL_TOPOLOGY reports (R266). -/
def Dl.closeRound (d : Dl) : Dl := { d with roundLast := d.roundMax, roundMax := 0 }

/-- INTERVAL_CLOSE of a cluster's group (R533), at its first drumbeat after a period boundary. -/
def State.closeGroup (s : State) (c : Fin 4) : State :=
  if !(Vec.at s.cl c).ival then s
  else
    let a := s.onGroup (some c) closeFun
    let a := a.updCl c fun k => { k with ival := false, dl := k.dl.closeRound }
    let a := a.each (n := 4) fun a n => if (Vec.at a.can n).owner = some c then a.updCan n fun x => { x with clashSeen := false } else a
    (a.putStats (s.groupRecs a (some c)) ((Vec.at s.cl c).cycle.setWidth 32)).supdb c 5

/-- The counters of a cluster's CAN controllers in IDLE are latched (R367). -/
def State.latchIdleCans (s : State) (c : Fin 4) : State :=
  { s with can := Vec.mapIx s.can fun _ x =>
      if x.owner = some c && x.st = 1 then { x with ctr := x.ctr.latch canGauge x.gaugeStart } else x }

/-- The boundary of the module statistics period (R531, R533, R538): the module group latches and closes; the groups of
clusters without a drumbeat latch; the others close at their next drumbeat. -/
def State.statsPeriod (s : State) : State :=
  let s1 := (s.onGroup none latchFun).onModule latchFun
  let s2 := s1.each (n := 4) fun s c => if s.started c then (s.latchIdleCans c).updCl c fun k => { k with ival := true }
    else (s.onGroup (some c) latchFun).updDl c Dl.closeRound
  let a := (s2.onGroup none closeFun).onModule closeFun
  let n := s.sup.periods + 1
  let a := a.updSup fun u => { u with periods := n, period := u.periodNext }
  let a := a.updTim fun t => { t with maxOff := 0 }
  let a := a.each (n := 4) fun a n => if (Vec.at a.can n).owner.all (fun c => !s.started c) then a.updCan n fun x => { x with clashSeen := false } else a
  a.putStats (moduleRecs s2 a ++ s2.groupRecs a none) n

/-! ### Reading the log (R457, R539) -/

/-- Insert by rising distance from a number. -/
def insertBy (from_ : W32) (e : LogEntry) : List LogEntry → List LogEntry
  | [] => [e]
  | x :: r => if (e.seq - from_).toNat < (x.seq - from_).toNat then e :: x :: r else x :: insertBy from_ e r

/-- The entries LOG_READ returns. -/
def Sup.readable (u : Sup) (classes : Nat) (from_ : W32) (max : Nat) : List LogEntry :=
  (((u.alarms ++ u.ring).filter fun e => classes.testBit e.cls.1 && decide (0 ≤ timeDiff e.seq from_)).foldl
    (fun acc e => insertBy from_ e acc) []).take max

/-- An entry as returned. -/
def LogEntry.bytes (e : LogEntry) : List Byte :=
  leBytes 4 e.seq.toNat ++ [BitVec.ofNat 8 e.cls.1, BitVec.ofNat 8 (bit e.cleared + 2 * bit e.summary)] ++ leBytes 2 e.code.toNat ++
    leBytes 2 e.obj.toNat ++ leBytes 2 e.count ++ leBytes 4 e.data.toNat ++ leBytes 8 e.first.toNat ++ leBytes 8 e.last.toNat

/-- The stores after entries were read: marked, and cleared ALARM entries gone (R539, R540). -/
def Sup.markRead (u : Sup) (es : List LogEntry) : Sup :=
  let mark := fun (e : LogEntry) => if es.any (fun x => x.seq = e.seq) then { e with read := true } else e
  { u with alarms := (u.alarms.map mark).filter fun e => !(e.read && e.cleared), ring := u.ring.map mark }

/-- MOD_STATUS.ALARM (R457). -/
def Sup.alarmOn (u : Sup) : Bool := u.alarms.any fun e => !e.read

/-! ### Stalls (R522, R523, R599) -/

/-- A stall gauge takes a stall of 1024 cycles of a master. -/
def stall1024 (code : BitVec 6) (old : W32) : W32 := Gauge.stall.keep old (place code.toNat 26 6 ||| 1024)

/-- A request has waited 1024 cycles: the WARNING MEM_STARVE, and the bank's gauge and total as they stand then. -/
def State.memStarve (s : State) (w : MemWhich) (code : BitVec 6) (word : BitVec 20) : State :=
  match w with
  | .spad c =>
    let b := word.toNat % 8
    let s1 := s.updCl c fun k => { k with
      spstall := Vec.updN k.spstall b (stall1024 code)
      ctr := (k.ctr.gauge (2 + b) (stall1024 code)).add (10 + b) 1024 }
    s1.warn 0x0B00 (s.objAt 1 c.1) (memData code.toNat 0 0 word.toNat) false
  | .shm =>
    let b := word.toNat % 32
    ({ s with modCtr := (s.modCtr.gauge (8 + b) (stall1024 code)).add (40 + b) 1024 } : State).warn 0x0B00 (s.objAt 0 0)
      (memData code.toNat 1 0 word.toNat) false

/-! ### Background self-test (R527, R530, R546–R548) -/

/-- The items of the powered domains (R546, R547). -/
def State.testItems (s : State) : List Nat :=
  ((List.range 4).filter fun n => s.powered (2 + n)).flatMap (fun n => [0x0100 + n, 0x0400 + n]) ++
    (if s.powered 6 then [0x0200] else []) ++ [0x0300, 0x0500] ++
    ((allFin 12).filter fun p => s.powered (portDomain p) && (Vec.at s.port p).st != pHeld).map fun p => 0x0600 + p.1

/-- An item has completed a pass; the round number rises when every item has (R547). -/
def State.itemDone (s : State) (item : Nat) : State :=
  let done := if s.selft.done.contains (BitVec.ofNat 16 item) then s.selft.done else BitVec.ofNat 16 item :: s.selft.done
  if s.testItems.all fun i => done.contains (BitVec.ofNat 16 i) then
    { s with selft := { s.selft with done := [], round := s.selft.round + 1 } }
  else { s with selft := { s.selft with done := done } }

/-- A fault found clears ST_OK until module reset (R548). -/
def State.testFault (s : State) : State := { s with selft := { s.selft with stOk := false } }

/-- One step of a borrow of a memory (R527, R530): COPY begins; its words are in the shadow: HELD; the patterns have run:
RESTORE, or PERMANENT after a faulty cell; the block is restored and the borrow ends. -/
def Borrow.step (b : Borrow) (m : Mem) (next : Nat) (faulty : Bool) : Borrow × Mem × Bool :=
  if !b.active then ({ active := true, phase := 0, block := next, copied := 0, shadow := [] }, m, false)
  else if b.phase = 0 then
    ({ b with phase := 1, copied := 32, shadow := memWriteN [] 0 (memReadN m (256 * b.block) 256) }, m, false)
  else if b.phase = 1 then ({ b with phase := if faulty then 3 else 2 }, m, false)
  else if b.phase = 2 then (Borrow.none, memWriteN m (256 * b.block) (memReadN b.shadow 0 256), true)
  else (b, m, false)

/-- The alarm MEM_BLOCK_FAULT of a block (R530, R599). -/
def State.blockFault (s : State) (r : MemRef) (block : Nat) : State :=
  match r with
  | .spad c => s.alarm 0x0B03 (s.objAt 1 c.1) (memData testCode 0 0 (32 * block)) true
  | .shm => s.alarm 0x0B03 (s.objAt 0 0) (memData testCode 1 0 (32 * block)) true

/-- A block found faulty stays PERMANENT, served by the shadow (R530); a borrow in progress is finished first (R549). A
memory whose shadow is taken already is not tested. -/
def State.memFault (s : State) (r : MemRef) (block : Nat) : State :=
  let (m, b, bad) := s.memOf r
  if b.active && b.phase = 3 then s
  else
    let m1 := if b.active && b.phase ≠ 0 then memWriteN m (256 * b.block) (memReadN b.shadow 0 256) else m
    (s.setMem r m1 { active := true, phase := 3, block := block, copied := 32, shadow := memWriteN [] 0 (memReadN m1 (256 * block) 256) }
      bad).blockFault r block

/-- A memory step of the self-test: `blocks` blocks make one pass. `corr` is the word of the block whose correctable error
the copy meets. -/
def State.memTest (s : State) (r : MemRef) (item blocks : Nat) (faulty : Bool) (corr : Option (BitVec 5)) : State :=
  let (m, b, bad) := s.memOf r
  let next := match r with
    | .spad c => (Vec.at s.cl c).nextBlock
    | .shm => s.selft.shmNext
  let (b', m', done) := b.step m next faulty
  let s1 := s.setMem r m' b' bad
  let n := if next + 1 < blocks then next + 1 else 0
  let s2 := if !done then s1 else match r with
    | .spad c => s1.updCl c fun k => { k with nextBlock := n }
    | .shm => { s1 with selft := { s1.selft with shmNext := n } }
  let s2 := if b.active && b.phase = 0 then s2.withSome corr fun s i => s.memCorr r testCode (32 * b.block + i.toNat) else s2
  let s3 := if b.active && b.phase = 1 && faulty then
      (s2.blockFault r b.block).testFault
    else s2
  if done && n = 0 then s3.itemDone item else s3

/-- A logic test's result (R548). -/
def State.logicTest (s : State) (obj : W16) (item : Nat) (pass : Bool) : State :=
  if pass then s.itemDone item else ((s.alarm 0x0103 obj (BitVec.ofNat 32 item) true).testFault).itemDone item

/-- SELFTEST_SLICE (R547). -/
def State.testSlice (s : State) (w : SliceWork) : State :=
  match w with
  | .spadStep c faulty corr => if s.powered (clDomain c) then s.memTest (.spad c) (0x0100 + c.1) 2048 faulty corr else s
  | .shmStep faulty corr => if s.powered 6 then s.memTest .shm 0x0200 32768 faulty corr else s
  | .sram done err =>
    let s1 := s.withSome err fun s x => if x.2 then s.sramUncorr testCode x.1.toNat else s.sramCorr x.1.toNat
    if done then s1.itemDone 0x0300 else s1
  | .logic c pass => if s.powered (clDomain c) then s.logicTest (s.objAt 1 c.1) (0x0400 + c.1) pass else s
  | .lockstep pass => s.logicTest (s.objAt 0 0) 0x0500 pass
  | .calStep p idle =>
    let x := Vec.at s.port p
    if x.st == pHeld || !s.powered (portDomain p) || !idle then s
    else if x.calStep + 1 < 64 then s.updPort p fun x => { x with calStep := x.calStep + 1 }
    else (s.updPort p fun x => { x with calStep := 0 }).itemDone (0x0600 + p.1)

/-- The scrub of an engine's IMEM or DMEM finds an error (R525, R526, R546). -/
def State.scrub (s : State) (e : Fin 16) (dmem : Bool) (word : Nat) (uncorr : Bool) : State :=
  let mem := if dmem then 3 else 2
  if uncorr then
    (s.updEng e fun g => if dmem then { g with badD := if g.badD.contains word then g.badD else word :: g.badD }
      else { g with badI := if g.badI.contains word then g.badI else word :: g.badI }).engUncorr e testCode mem word
  else s.engCorr e testCode mem word

end Sys2Proof.Machine
end

