-- ==== Sys2Proof/Machine/Crypto.lean ====
section
/-!
DEFINITION. The standards the spec names by title: SHA-256, ECDSA over P-256, AES and GCM (R461, R514, R570), PRESUMED
from FIPS 180-4, FIPS 186-4, FIPS 197 and NIST SP 800-38D (log 25); and the form and verification of an image (R570, R571).
-/
namespace Sys2Proof.Machine

/-! ### SHA-256 (FIPS 180-4) -/

/-- The round constants. -/
def shaK : List Nat :=
  [0x428A2F98, 0x71374491, 0xB5C0FBCF, 0xE9B5DBA5, 0x3956C25B, 0x59F111F1, 0x923F82A4, 0xAB1C5ED5, 0xD807AA98,
   0x12835B01, 0x243185BE, 0x550C7DC3, 0x72BE5D74, 0x80DEB1FE, 0x9BDC06A7, 0xC19BF174] ++
  [0xE49B69C1, 0xEFBE4786, 0x0FC19DC6, 0x240CA1CC, 0x2DE92C6F, 0x4A7484AA, 0x5CB0A9DC, 0x76F988DA, 0x983E5152,
   0xA831C66D, 0xB00327C8, 0xBF597FC7, 0xC6E00BF3, 0xD5A79147, 0x06CA6351, 0x14292967] ++
  [0x27B70A85, 0x2E1B2138, 0x4D2C6DFC, 0x53380D13, 0x650A7354, 0x766A0ABB, 0x81C2C92E, 0x92722C85, 0xA2BFE8A1,
   0xA81A664B, 0xC24B8B70, 0xC76C51A3, 0xD192E819, 0xD6990624, 0xF40E3585, 0x106AA070] ++
  [0x19A4C116, 0x1E376C08, 0x2748774C, 0x34B0BCB5, 0x391C0CB3, 0x4ED8AA4A, 0x5B9CCA4F, 0x682E6FF3, 0x748F82EE,
   0x78A5636F, 0x84C87814, 0x8CC70208, 0x90BEFFFA, 0xA4506CEB, 0xBEF9A3F7, 0xC67178F2]

/-- The initial hash value. -/
def shaInit : List W32 :=
  [0x6A09E667, 0xBB67AE85, 0x3C6EF372, 0xA54FF53A, 0x510E527F, 0x9B05688C, 0x1F83D9AB, 0x5BE0CD19]

/-- The schedule, newest word first, extended by `n` words. -/
def shaExpand : Nat → List W32 → List W32
  | 0, w => w
  | n + 1, w =>
    let g := fun i => w.getD i 0
    let s0 := (g 14).rotateRight 7 ^^^ (g 14).rotateRight 18 ^^^ (g 14) >>> 3
    let s1 := (g 1).rotateRight 17 ^^^ (g 1).rotateRight 19 ^^^ (g 1) >>> 10
    shaExpand n ((s1 + g 6 + s0 + g 15) :: w)

/-- One round over the eight working words. -/
def shaRound (h : List W32) (kw : W32) : List W32 :=
  match h with
  | [a, b, c, d, e, f, g, x] =>
    let t1 := x + (e.rotateRight 6 ^^^ e.rotateRight 11 ^^^ e.rotateRight 25) + ((e &&& f) ^^^ (~~~e &&& g)) + kw
    let t2 := (a.rotateRight 2 ^^^ a.rotateRight 13 ^^^ a.rotateRight 22) + ((a &&& b) ^^^ (a &&& c) ^^^ (b &&& c))
    [t1 + t2, a, b, c, d + t1, e, f, g]
  | _ => h

/-- One block of 64 octets. -/
def shaBlock (h : List W32) (b : List Byte) : List W32 :=
  let w0 := (List.range 16).map fun i => BitVec.ofNat 32 (beAt b (4 * i) 4)
  let w := (shaExpand 48 w0.reverse).reverse
  List.zipWith (· + ·) h ((List.zipWith (fun k x => BitVec.ofNat 32 k + x) shaK w).foldl shaRound h)

/-- Blocks one after another. -/
def shaBlocks : Nat → List W32 → List Byte → List W32
  | 0, h, _ => h
  | n + 1, h, bs => shaBlocks n (shaBlock h (bs.take 64)) (bs.drop 64)

/-- SHA-256 of a string of octets. -/
def sha256 (bs : List Byte) : List Byte :=
  let pad := bs ++ [0x80#8] ++ List.replicate ((119 - bs.length % 64) % 64) 0 ++ beBytes 8 (8 * bs.length)
  (shaBlocks (pad.length / 64) shaInit pad).flatMap fun w => beBytes 4 w.toNat

/-! ### ECDSA over P-256 (FIPS 186-4) -/

/-- The field's prime. -/
def ecP : Nat := 2 ^ 256 - 2 ^ 224 + 2 ^ 192 + 2 ^ 96 - 1
/-- The group's order. -/
def ecN : Nat := 0xFFFFFFFF00000000FFFFFFFFFFFFFFFFBCE6FAADA7179E84F3B9CAC2FC632551
/-- The curve's b; its a is -3. -/
def ecB : Nat := 0x5AC635D8AA3A93E7B3EBBD55769886BC651D06B0CC53B0F63BCE3C3E27D2604B
/-- The base point. -/
def ecG : Nat × Nat :=
  (0x6B17D1F2E12C4247F8BCE6E563A440F277037D812DEB33A0F4A13945D898C296,
   0x4FE342E2FE1A7F9B8EE7EB4A7C0F9E162BCE33576B315ECECBB6406837BF51F5)

/-- `a ^ e` modulo `m` over the low `n` bits of `e`, highest first. -/
def powMod (m a e : Nat) : Nat → Nat
  | 0 => 1 % m
  | n + 1 =>
    let r := powMod m a (e / 2) n
    if e % 2 = 1 then r * r % m * a % m else r * r % m

/-- The inverse modulo a 256-bit prime. -/
def invMod (m a : Nat) : Nat := powMod m (a % m) (m - 2) 256

/-- Subtraction modulo `ecP`. -/
def subP (a b : Nat) : Nat := (a + ecP - b % ecP) % ecP

/-- A point in Jacobian coordinates: x = X / Z², y = Y / Z³. -/
abbrev EcPoint := Nat × Nat × Nat

/-- The double of a point that is not its own opposite. -/
def ecDouble : EcPoint → EcPoint
  | (x, y, z) =>
    let d := z * z % ecP
    let g := y * y % ecP
    let b := x * g % ecP
    let a := 3 * subP x d * (x + d) % ecP
    let x3 := subP (a * a % ecP) (8 * b)
    (x3, subP (a * subP (4 * b % ecP) x3 % ecP) (8 * (g * g % ecP)), 2 * y * z % ecP)

/-- The sum of two points; none is the point at infinity. No point of the group is its own opposite. -/
def ecAdd : Option EcPoint → Option EcPoint → Option EcPoint
  | none, q => q
  | p, none => p
  | some (x1, y1, z1), some (x2, y2, z2) =>
    let a1 := z1 * z1 % ecP
    let a2 := z2 * z2 % ecP
    let u1 := x1 * a2 % ecP
    let u2 := x2 * a1 % ecP
    let s1 := y1 * a2 % ecP * z2 % ecP
    let s2 := y2 * a1 % ecP * z1 % ecP
    if u1 = u2 then (if s1 = s2 then some (ecDouble (x1, y1, z1)) else none)
    else
      let h := subP u2 u1
      let r := subP s2 s1
      let h2 := h * h % ecP
      let h3 := h2 * h % ecP
      let v := u1 * h2 % ecP
      let x3 := subP (r * r % ecP) (h3 + 2 * v)
      some (x3, subP (r * subP v x3 % ecP) (s1 * h3), h * z1 % ecP * z2 % ecP)

/-- A multiple of a point, over the low `n` bits of the factor. -/
def ecMul (p : EcPoint) (k : Nat) : Nat → Option EcPoint
  | 0 => none
  | n + 1 =>
    let d := (ecMul p (k / 2) n).map ecDouble
    if k % 2 = 1 then ecAdd d (some p) else d

/-- A signature (r then s) over a hash is valid under a public key (x then y), each 32 octets, most significant first (R570). -/
def ecdsaOk (pub hash sig : List Byte) : Bool :=
  let x := beAt pub 0 32
  let y := beAt pub 32 32
  let r := beAt sig 0 32
  let v := beAt sig 32 32
  if x < ecP && y < ecP && y * y % ecP = (x * x % ecP * x + (ecP - 3) * x + ecB) % ecP && 0 < r && r < ecN && 0 < v && v < ecN then
    let w := invMod ecN v
    match ecAdd (ecMul (ecG.1, ecG.2, 1) (beNat hash * w % ecN) 256) (ecMul (x, y, 1) (r * w % ecN) 256) with
    | some (rx, _, rz) =>
      let z2 := rz * rz % ecP
      r * z2 % ecP = rx || (r + ecN < ecP && (r + ecN) * z2 % ecP = rx)
    | none => false
  else false

/-! ### AES (FIPS 197) -/

/-- Doubling in the field of AES. -/
def gfDouble (a : Byte) : Byte := a <<< 1 ^^^ if a.getLsbD 7 then 0x1B else 0

/-- The product in the field of AES. -/
def gfMul (a b : Byte) : Byte :=
  ((List.range 8).foldl (fun (acc : Byte × Byte) i =>
    (if b.getLsbD i then acc.1 ^^^ acc.2 else acc.1, gfDouble acc.2)) (0, a)).1

/-- The substitution: the inverse (the 254th power) and the affine map. -/
def aesSub (a : Byte) : Byte :=
  let a2 := gfMul a a
  let a4 := gfMul a2 a2
  let a8 := gfMul a4 a4
  let a16 := gfMul a8 a8
  let a32 := gfMul a16 a16
  let a64 := gfMul a32 a32
  let a128 := gfMul a64 a64
  let v := gfMul (gfMul (gfMul a2 a4) (gfMul a8 a16)) (gfMul (gfMul a32 a64) a128)
  v ^^^ v.rotateLeft 1 ^^^ v.rotateLeft 2 ^^^ v.rotateLeft 3 ^^^ v.rotateLeft 4 ^^^ 0x63

/-- The key schedule: words, newest first, extended by `n` words; `nk` words of key, `i` the next word's number. -/
def aesExpand (nk : Nat) : Nat → Nat → Byte → List (List Byte) → List (List Byte)
  | 0, _, _, w => w
  | n + 1, i, rc, w =>
    let t := w.getD 0 []
    let u := w.getD (nk - 1) []
    let (t, rc') :=
      if i % nk = 0 then
        (List.zipWith (· ^^^ ·) ((t.drop 1 ++ t.take 1).map aesSub) [rc, 0, 0, 0], gfDouble rc)
      else if nk = 8 && i % nk = 4 then (t.map aesSub, rc)
      else (t, rc)
    aesExpand nk n (i + 1) rc' (List.zipWith (· ^^^ ·) t u :: w)

/-- Round keys of 16 octets for a key of 16 or 32 octets. -/
def aesKeys (key : List Byte) : List (List Byte) :=
  let nk := key.length / 4
  let w0 := (List.range nk).map fun i => slice key (4 * i) 4
  let bs := (aesExpand nk (4 * (nk + 7) - nk) nk 1 w0.reverse).reverse.flatten
  (List.range (nk + 7)).map fun i => slice bs (16 * i) 16

/-- ShiftRows over a column-major state. -/
def aesShift (b : List Byte) : List Byte := (List.range 16).map fun i => b.getD ((i + 4 * (i % 4)) % 16) 0

/-- MixColumns. -/
def aesMix (b : List Byte) : List Byte :=
  (List.range 16).map fun i =>
    let g := fun k => b.getD (i / 4 * 4 + (i + k) % 4) 0
    gfDouble (g 0) ^^^ gfDouble (g 1) ^^^ g 1 ^^^ g 2 ^^^ g 3

/-- The block cipher. -/
def aes (key block : List Byte) : List Byte :=
  match aesKeys key with
  | k0 :: ks =>
    let x := List.zipWith (· ^^^ ·) block k0
    let mid := (ks.take (ks.length - 1)).foldl (fun x k => List.zipWith (· ^^^ ·) (aesMix (aesShift (x.map aesSub))) k) x
    List.zipWith (· ^^^ ·) (aesShift (mid.map aesSub)) (ks.getD (ks.length - 1) [])
  | [] => block

/-! ### GCM (NIST SP 800-38D) -/

/-- The product of GHASH, bit 127 first. -/
def ghMul (x y : BitVec 128) : BitVec 128 :=
  ((List.range 128).foldl (fun (acc : BitVec 128 × BitVec 128) i =>
    (if x.getLsbD (127 - i) then acc.1 ^^^ acc.2 else acc.1,
     acc.2 >>> 1 ^^^ if acc.2.getLsbD 0 then 0xE1#128 <<< 120 else 0)) (0, y)).1

/-- GHASH over octets taken in blocks of 16, the last one padded with zeros. -/
def ghUpdate (h : BitVec 128) : Nat → BitVec 128 → List Byte → BitVec 128
  | 0, y, _ => y
  | n + 1, y, bs =>
    if bs.isEmpty then y
    else
      let b := bs.take 16
      ghUpdate h n (ghMul (y ^^^ BitVec.ofNat 128 (beNat (b ++ List.replicate (16 - b.length) 0))) h) (bs.drop 16)

/-- GHASH of a part. -/
def ghash (h y : BitVec 128) (bs : List Byte) : BitVec 128 := ghUpdate h (bs.length / 16 + 1) y bs

/-- The hash subkey of a key. -/
def gcmSub (key : List Byte) : BitVec 128 := BitVec.ofNat 128 (beNat (aes key (List.replicate 16 0)))

/-- The counter block of an IV and a counter. -/
def gcmBlock (iv : BitVec 96) (ctr : W32) : List Byte := beBytes 12 iv.toNat ++ beBytes 4 ctr.toNat

/-- Counter-mode output over octets, from a counter. -/
def gcmCtr (key : List Byte) (iv : BitVec 96) : Nat → W32 → List Byte → List Byte
  | 0, _, _ => []
  | n + 1, c, bs =>
    if bs.isEmpty then []
    else List.zipWith (· ^^^ ·) (bs.take 16) (aes key (gcmBlock iv c)) ++ gcmCtr key iv n (c + 1) (bs.drop 16)

/-- The tag from the running hash and the two lengths in octets. -/
def gcmTag (key : List Byte) (h y : BitVec 128) (iv : BitVec 96) (aad data : Nat) : List Byte :=
  let s := ghMul (y ^^^ BitVec.ofNat 128 (8 * aad * 2 ^ 64 + 8 * data)) h
  List.zipWith (· ^^^ ·) (beBytes 16 s.toNat) (aes key (gcmBlock iv 1))

/-! ### Images (R570, R571) -/

/-- MAGIC. -/
def imgMagic : Nat := 0x4B534A46

/-- Fields of an image's header. -/
def imgType (b : List Byte) : Nat := leAt b 4 2
def imgId (b : List Byte) : Nat := leAt b 6 2
def imgVersion (b : List Byte) : W32 := BitVec.ofNat 32 (leAt b 8 4)
def imgRollback (b : List Byte) : Nat := leAt b 0xC 4
def imgBodyLen (b : List Byte) : Nat := leAt b 0x10 4
def imgFclk (b : List Byte) : Nat := leAt b 0x14 1
def imgMinPers (b : List Byte) : Nat := leAt b 0x18 4
def imgPubkey (b : List Byte) : List Byte := slice b 0x40 64
def imgBody (b : List Byte) : List Byte := slice b 320 (imgBodyLen b)

/-- Every octet of a range is 0. -/
def zeroAt (b : List Byte) (off n : Nat) : Bool := (slice b off n).all (· = 0)

/-- The checks made before the key check: length, MAGIC, TYPE, and TYPE and ID against the use. -/
def imgShape (b : List Byte) (typ id : Nat) : Bool :=
  320 ≤ b.length && leAt b 0 4 = imgMagic && imgType b = typ && imgId b = id

/-- The header check: reserved fields, fields of other TYPEs, FCLK, SIG. -/
def imgHeader (b : List Byte) : Bool :=
  let t := imgType b
  zeroAt b 0x15 3 && zeroAt b 0x1C 4 && zeroAt b 0xC4 60 &&
    (t = 1 || imgMinPers b = 0) && (t = 3 || (zeroAt b 0x80 64 && zeroAt b 0xC0 4)) &&
    (if t = 1 then imgFclk b = 0 else 8 ≤ imgFclk b && imgFclk b ≤ 32) &&
    ecdsaOk (imgPubkey b) (sha256 (b.take 0x100)) (slice b 0x100 64)

/-- The body check. -/
def imgBodyOk (b : List Byte) : Bool :=
  320 + imgBodyLen b ≤ b.length && sha256 (imgBody b) = slice b 0x20 32

/-- Verification in order: none when it passes, else the DETAIL of AUTH_FAIL of the first check that fails (R571). -/
def State.imgFault (s : State) (b : List Byte) (typ id : Nat) : Option Nat :=
  if !imgShape b typ id then some 1
  else if !(if typ = 3 then ecdsaOk s.pwr.supPubkey (sha256 (imgPubkey b ++ slice b 0xC0 4)) (slice b 0x80 64)
            else sha256 (imgPubkey b) = s.pwr.keyHash) then some 3
  else if !imgHeader b || !imgBodyOk b then some 1
  else if imgRollback b < (if typ = 1 then s.pwr.rollback else if typ = 2 then s.pwr.minPers.toNat else leAt b 0xC0 4) then some 2
  else none

/-- The boot fault code of a failed check (R568, R571). -/
def bootFault (detail : Nat) : Nat := if detail = 3 then 6 else if detail = 2 then 5 else 4

end Sys2Proof.Machine
end

