-- ==== Sys2Proof/Machine/Power.lean ====
section
/-!
DEFINITION. Supply, power states, domains, the voltage loop, resets, start-up and the RTC (R42–R44, R72, R80, R200,
R552–R574, R579).
-/
namespace Sys2Proof.Machine

/-! ### Locks freed by events (R72) -/

/-- Free every lock whose owner satisfies a test. -/
def State.freeLocks (s : State) (f : Byte → Bool) : State :=
  { s with
    mbx := Vec.mapIx s.mbx fun _ x => if f x.lock then { x with lock := 0 } else x
    emb := Vec.mapIx s.emb fun _ x => if f x.lock then { x with lock := 0 } else x }

/-- PERST_N, or a power-down of the HIF domain: the link's state is lost, the host's locks are freed (R44, R72). -/
def State.hifReset (s : State) : State :=
  (s.updHif fun h => { h with
    pcie := Pcie.zero, parHold := 0, hd := 0, berr := false, parLow := none, spiPrevErr := false, spiBusy := false, spiOut := [],
    spiStatus := 0 }).freeLocks fun b => b = Master.id .host || b = Master.id .dma

/-! ### Domains (R10–R13, R558, R559) -/

/-- Counters of a unit lose the running period with the unit; the totals are Sundom's (R13, R533). -/
def Ctr.lose {n : Nat} (c : Ctr n) : Ctr n := { Ctr.zero n with tot := c.tot }

/-- A power-down ends a borrow; a PERMANENT mapping is configuration (R529, R530). -/
def Borrow.lose (b : Borrow) : Borrow := if b.active && b.phase = 3 then { b with shadow := [] } else Borrow.none

/-- A port as its domain's reset leaves it, with its configuration. -/
def Port.powerOff (x : Port) : Port :=
  { Port.held with
    st := if x.owner.isSome then 1 else 0, owner := x.owner, t1 := x.t1, t2 := x.t2, t3 := x.t3, station := x.station,
    mcast := x.mcast, vids := x.vids, pre := x.pre, etypes := x.etypes, pcpMap := x.pcpMap,
    gate := { Gate.zero with active := x.gate.active, pending := x.gate.pending, clear := x.gate.clear, staged := x.gate.staged }, ways := { Ways.zero with base := x.ways.base }, ctr := x.ctr.lose }

/-- A CAN controller as its domain's reset leaves it. -/
def Can.powerOff (x : Can) : Can :=
  { Can.held with
    st := if x.owner.isSome then 1 else 0, owner := x.owner, sets := x.sets, filters := x.filters, passiveWarn := x.passiveWarn,
    ctr := { Ctr.can with tot := x.ctr.tot } }

/-- A PIO engine as its domain's reset leaves it: what PIO_CONFIG and PIO_PROGRAM set is kept, and a joined engine in IDLE
has its pins at their idle values (R13, R369, R388). -/
def Pio.powerOff (x : Pio) : Pio :=
  { Pio.held with
    st := if x.owner.isSome then 1 else 0, owner := x.owner, start := x.start, pclk := x.pclk, pfmt := x.pfmt,
    ppins := x.ppins, pde := x.pde, pevt := x.pevt, pmatch := x.pmatch, mmask := x.mmask, pimem := (x.land x.landing.length).pimem,
    outMask := x.outMask, inMask := x.inMask, idleVal := x.idleVal, idleDir := x.idleDir,
    level := if x.owner.isSome then x.idleVal else 0, dir := if x.owner.isSome then x.idleDir else 0, ctr := x.ctr.lose }

/-- The field I/O complex as its domain's reset leaves it: every output off (R395). -/
def Fio.powerOff (f : Fio) : Fio :=
  { Fio.zero with
    uvRestore := f.uvRestore, fgate := f.fgate
    von := Vector.ofFn fun g => let x := Vec.atD f.di (4 * g.1) Din.zero; vonOf x.type3 x.track 24000
    di := Vec.mapIx f.di fun _ x => { Din.zero with owner := x.owner, sets := x.sets, level := x.inv, ctr := x.ctr.lose }
    do_ := Vec.mapIx f.do_ fun _ x => { Dout.zero with owner := x.owner, sets := x.sets, ctr := x.ctr.lose } }

/-- What a domain loses when it powers down (R13, R72, R529). -/
def State.domainLose (s : State) (d : Fin 12) : State :=
  match d.1 with
  | 6 => { s with shm := [], shmBad := [], selft := { s.selft with shmBorrow := s.selft.shmBorrow.lose, shmNext := 0 } }
  | 7 => { s with port := Vec.mapIx s.port fun p x => if portDomain p = 7 then x.powerOff else x, prp := Vec.fill 2 ⟨0, []⟩ }
  | 8 => { s with
      port := Vec.mapIx s.port fun p x => if portDomain p = 8 then x.powerOff else x
      can := Vec.mapIx s.can fun _ x => x.powerOff
      pio := Vec.mapIx s.pio fun _ x => x.powerOff
      gpIn := 0, gpAt := none }
  | 9 => (allFin 2).foldl (fun s l => s.linkGo l 0) { s with
      port := Vec.mapIx s.port fun p x => if portDomain p = 9 then x.powerOff else x
      pair := { s.pair with links := Vec.mapIx s.pair.links fun _ x =>
        { AkLink.zero with st := x.st, chg := x.chg, ctr := x.ctr.lose } }
      tim := { s.tim with
        syncIn := { SyncIn.zero with mode := s.tim.syncIn.mode, edge := s.tim.syncIn.edge, period := s.tim.syncIn.period,
                                     phase := s.tim.syncIn.phase }
        syncOut := Vec.mapIx s.tim.syncOut fun _ x => { x with high := 0 } } }
  | 10 => s.hifReset
  | 11 => { s with fio := s.fio.powerOff }
  | n =>
    if 2 ≤ n && n ≤ 5 then
      let c : Fin 4 := finOf 4 (n - 2)
      let s1 := s.updCl c fun k => { k with
        spad := [], badWords := [], borrow := k.borrow.lose, nextBlock := 0, avs := Avs.zero, supdb := 0, docmd := 0,
        docmdPast := [], docmdOld := 0,
        qsel := Vec.fill 8 0, spstall := Vec.fill 8 0, snap := Vec.fill 2 [], snapHdr := 0, ctr := k.ctr.lose }
      (allFin 4).foldl (fun s k =>
        (s.updEng (engOf c k) fun _ => Engine.atReset (engOf c k) (Vec.at s.cl c).checked [] [] [] []).updEmb (engOf c k)
          fun b => { b with lock := 0, inFull := false, outFull := false, inBuf := [], outBuf := [] }) s1
    else s

/-- A domain powers down; AON and SUP stay. -/
def State.domainDown (s : State) (d : Fin 12) : State :=
  if d.1 < 2 || !s.powered d.1 then s
  else
    let s1 := (s.domainLose d).updPwr fun p => { p with
      domains := p.domains &&& ~~~(bitAt 12 d.1 true), powering := p.powering &&& ~~~(bitAt 12 d.1 true) }
    if 2 ≤ d.1 && d.1 ≤ 5 then s1.sourceGone (finOf 4 (d.1 - 2)) else s1

/-- A domain's power-up completes: its bit is set; its units stand in their reset state with their configuration
(R13, R558). A cluster starts at 0.90 V and the frequency of R560. Each Aklos lane that the wiring uses enters DOWN, which is
counted (R307, R308, R341; log 105). Signals held toward HIF go out (R80, R81). -/
def State.domainUp (s : State) (d : Fin 12) : State :=
  if s.powered d.1 then s
  else
    let s1 := s.updPwr fun p => { p with
      domains := p.domains ||| bitAt 12 d.1 true, powering := p.powering &&& ~~~(bitAt 12 d.1 true) }
    if 2 ≤ d.1 && d.1 ≤ 5 then
      s1.updCl (finOf 4 (d.1 - 2)) fun k => { k with avs := { Avs.zero with fset := k.avs.fset, freq := k.avs.fset } }
    else if d = 9 then (allFin 2).foldl (fun s l => if l = 0 || s.pair.ak1mode != 0 then s.linkCount l 2 1 else s) s1
    else s1

/-- R12 with a cluster domain: SHM is powered too. -/
def State.domainNeed (s : State) (d : Fin 12) : State :=
  if 2 ≤ d.1 && d.1 ≤ 5 then (s.domainUp 6).domainUp d else s.domainUp d

/-- The power controller serves the next request (R559): a request that meets a transition of its domain waits. A
power-up completes with DOMAIN_POWER_UP_DONE; a power-down is done. -/
def State.servePower (s : State) : State :=
  match s.pwr.requests with
  | [] => s
  | r :: rest =>
    if s.pwr.powering.getLsbD r.dom.1 then s
    else
      let s1 := s.updPwr fun p => { p with requests := rest }
      if !r.up then s1.domainDown r.dom
      else if s.powered r.dom.1 then s1
      else s1.updPwr fun p => { p with powering := p.powering ||| bitAt 12 r.dom.1 true }

/-- A power-up in progress completes. -/
def State.powerUpDone (s : State) (d : Fin 12) : State :=
  if s.pwr.powering.getLsbD d.1 then s.domainNeed d else s

/-- Everything that waits at the power controller is served, as it is before a later request completes (R559). -/
def State.serveAll (s : State) : State :=
  let reqs := s.pwr.requests
  let s1 := (allFin 12).foldl (fun s d => s.powerUpDone d) (s.updPwr fun p => { p with requests := [] })
  reqs.foldl (fun s r => if r.up then s.domainNeed r.dom else s.domainDown r.dom) s1

/-! ### Reset (R553, R564, R579) -/

/-- The module in reset with a power block kept. -/
def State.inReset (s : State) (pwr : Power) : State := State.afterReset pwr s.free s.pending

/-- What survives every reset: the supply's state, the flash, the fuses, the RTC. -/
def Power.kept (p : Power) (phase : Phase) (cause : Nat) : Power :=
  { Power.zero with
    phase := phase, cause := cause, efuse := p.efuse, vinOn := p.vinOn, rstLow := p.rstLow, hifsel := p.hifsel,
    mpos := p.mpos, rtc := p.rtc, rtcSet := p.rtcSet, slots := p.slots, preferred := p.preferred,
    rollback := p.rollback, keyHash := p.keyHash }

/-- The module has lost power: every domain is reset, AON and the RTC included (R553). -/
def State.loseSupply (s : State) (efuse : Efuse) (vinOn : Bool) : State :=
  if s.pwr.phase = .noPower then s.updPwr fun p => { p with efuse := efuse, vinOn := vinOn }
  else s.inReset { s.pwr.kept .noPower 1 with
    efuse := efuse, vinOn := vinOn, rtc := 0, rtcSet := false, domains := 0 }

/-- Start-up begins at step 1 when VIN is on and the eFuse is closed (R553, R567). -/
def State.supplyStart (s : State) : State :=
  if s.pwr.phase = .noPower && s.pwr.vinOn && s.pwr.efuse = .closed then
    s.inReset (s.pwr.kept .ramping 1)
  else s

/-- VIN rises through VIN_ON. -/
def State.vinOn (s : State) : State := (s.updPwr fun p => { p with vinOn := true }).supplyStart
/-- VIN falls through VIN_OFF. -/
def State.vinOff (s : State) : State := s.loseSupply s.pwr.efuse false
/-- VIN rises through VIN_OVLO: the eFuse opens. -/
def State.vinOver (s : State) : State :=
  if s.pwr.efuse = .closed then s.loseSupply .openOvlo s.pwr.vinOn else s
/-- VIN falls below 37 V after an over-voltage. -/
def State.vinOverEnd (s : State) : State :=
  if s.pwr.efuse = .openOvlo then (s.updPwr fun p => { p with efuse := .closed }).supplyStart else s
/-- The eFuse trips (R552). -/
def State.efuseTrip (s : State) : State :=
  if s.pwr.efuse = .closed then s.loseSupply .openTrip s.pwr.vinOn else s
/-- The eFuse closes again after a trip (R552). -/
def State.efuseRetry (s : State) : State :=
  if s.pwr.efuse = .openTrip then (s.updPwr fun p => { p with efuse := .closed }).supplyStart else s
/-- Both MATE contacts have been low for 5 ms (R579). -/
def State.mateSettled (s : State) : State :=
  if s.pwr.efuse = .openMate then (s.updPwr fun p => { p with efuse := .closed }).supplyStart else s
/-- A MATE contact is high: the eFuse opens (R579). -/
def State.mateBreak (s : State) : State := s.loseSupply .openMate s.pwr.vinOn

/-- The module runs on its rails (not ramping, not without power). -/
def Power.railsUp (p : Power) : Bool := p.phase != .noPower && p.phase != .ramping

/-- A module reset that resumes at step 3 (R564, causes 0x02–0x05). -/
def State.moduleReset (s : State) (cause : Nat) : State := s.inReset (s.pwr.kept .inReset cause)

/-- RST_N low. While the rails still ramp, start-up only waits for RST_N (R567, R580). -/
def State.rstLow (s : State) : State :=
  let s1 := s.updPwr fun p => { p with rstLow := true }
  if s.pwr.railsUp then s1.moduleReset 2 else s1

/-- Sundom runs: RUN or STANDBY. -/
def Power.running (p : Power) : Bool := p.phase = .run || p.phase = .standby

/-- The supervisor watchdog (R564). -/
def State.supWatchdog (s : State) : State := if s.pwr.running then s.moduleReset 4 else s

/-- The supervisor cores disagree (R564). -/
def State.supLockstep (s : State) : State :=
  if s.pwr.running then (s.moduleReset 5).updPwr fun p => { p with lockstepSeen := true } else s

/-! ### Start-up (R565–R573) -/

/-- HEARTBEAT after a failed start-up (R566, R568). -/
def faultWord (code slot cause : Nat) : W32 := place 0xFA 24 8 ||| place code 16 8 ||| place slot 8 8 ||| place cause 0 8

/-- Start-up cannot complete (R568). -/
def State.startFault (s : State) (code slot : Nat) : State :=
  (s.updPwr fun p => { p with
    phase := .startFault, fault := true, heartbeat := faultWord code slot p.cause }).setStchg

/-- The Sundom image of a slot passes verification, or the DETAIL of its failure. -/
def State.slotFault (s : State) (i : Fin 2) : Option Nat := s.imgFault (Vec.at s.pwr.slots i).sundom 1 0

/-- A slot may boot automatically: TRIES left, and its image passes (R572). -/
def State.slotBoots (s : State) (i : Fin 2) : Bool := (Vec.at s.pwr.slots i).tries ≠ 0 && (s.slotFault i).isNone

/-- The slot that boots, or the fault code and the slot last tried (R572). -/
def State.bootSlot (s : State) (bootsel : Fin 4) : Except (Nat × Nat) (Fin 2) :=
  if bootsel.1 < 2 then
    let i : Fin 2 := finOf 2 bootsel.1
    match s.slotFault i with
    | some d => .error (bootFault d, i.1)
    | none => .ok i
  else
    let i := s.pwr.preferred
    let j : Fin 2 := finOf 2 (1 - i.1)
    if s.slotBoots i then .ok i else if s.slotBoots j then .ok j else .error (3, j.1)

/-- The rollback counter after step 7 (R573). -/
def State.rollbackNow (s : State) : Nat :=
  if (s.slotFault 0).isNone && (s.slotFault 1).isNone then
    let a := imgRollback (Vec.at s.pwr.slots 0).sundom
    let b := imgRollback (Vec.at s.pwr.slots 1).sundom
    let m := if a ≤ b then a else b
    if s.pwr.rollback < m then (if m ≤ 64 then m else 64) else s.pwr.rollback
  else s.pwr.rollback

/-- The timebase as loaded from the RTC, to within one cycle of CK_AON, 30.5 µs (R200); the error is a free value. -/
def rtcLoad (k rtc : Nat) : Nat := (rtc + (Config.freeLong k).toNat % 61001 - 30500) * 2 ^ 39

/-- Automatic boot takes one try of the slot before Sundom starts (R572). -/
def State.takeTry (s : State) (i : Fin 2) (auto : Bool) : State :=
  if auto then s.updPwr fun p => { p with slots := Vec.upd p.slots i fun x => { x with tries := x.tries - 1 } } else s

/-- Steps 6 to 8 of start-up from a chosen slot (R567); READY confirms the slot. -/
def State.startUp (s : State) (i : Fin 2) : State :=
  let img := (Vec.at s.pwr.slots i).sundom
  let roll := s.rollbackNow
  let lockstep := s.pwr.lockstepSeen
  let (k, s1) := s.draw
  let (g, s2) := s1.draw
  let s3 := { (s2.updPwr fun p => { p with
      phase := .run, ready := true, fault := false, bootimg := i = 1, domains := 0x443, heartbeat := 0, uptime := 0,
      rollback := roll, fwVer := Config.fwVersion (imgVersion img), supPubkey := imgPubkey img,
      minPers := BitVec.ofNat 32 (imgMinPers img), lockstepSeen := false
      slots := Vec.upd p.slots i fun x => { x with
        tries := 3, confirmed := true } }) with
      tim := Tim.zero (if s.pwr.rtcSet then rtcLoad k s.pwr.rtc else 0), sup := Sup.zero (Config.genStart g) }
  let s4 := s3.setStchg
  let s5 := if s.pwr.hifsel = 3 then s4.alarm 0x0100 (s.objAt 0 0) 0 false else s4
  if lockstep then s5.alarm 0x0102 (s.objAt 0 0) 5 true else s5

/-- The internal reset is released: straps, boot, READY or a fault (R565–R568). While RST_N is low nothing happens. -/
def State.release (s : State) (b : Boot) : State :=
  if !(s.pwr.phase = .inReset || s.pwr.phase = .ramping) || !b.rstHigh then s
  else
    let s1 := s.updPwr fun p => { p with rstLow := false, hifsel := b.hifsel, mpos := b.mpos, domains := 0x403 }
    if b.testen then s1.startFault 1 0xFF
    else if b.bootsel = 3 then s1.startFault 2 0xFF
    else if b.fuseErr then s1.startFault 8 0xFF
    else if b.memErr then s1.startFault 9 0xFF
    else if b.flashErr then s1.startFault 7 (if b.bootsel.1 < 2 then b.bootsel.1 else s.pwr.preferred.1)
    else match s1.bootSlot b.bootsel with
      | .error (code, slot) => s1.startFault code slot
      | .ok i =>
        let s2 := s1.takeTry i (b.bootsel = 2)
        if b.shmErr then
          (s2.updPwr fun p => { p with
            bootimg := i = 1, fwVer := Config.fwVersion (imgVersion (Vec.at p.slots i).sundom) }).startFault 9 i.1
        else s2.startUp i

/-! ### Low-power states (R554–R557) -/

/-- The RTC alarm of a WAKE word. -/
def Power.alarmOf (p : Power) (wake : W32) : Option Nat :=
  if wake.getLsbD 1 then some (p.rtc + fld wake 8 24 * 1000000000) else none

/-- STANDBY is entered: AON, SUP and HIF stay powered (R554). -/
def State.enterStandby (s : State) (wake : W32) : State :=
  let s1 := s.serveAll
  let s2 := s1.updPwr fun p => { p with restore := p.domains }
  let s3 := ([2, 3, 4, 5, 6, 7, 8, 9, 11] : List (Fin 12)).foldl State.domainDown s2
  s3.updPwr fun p => { p with phase := .standby, wakeWord := wake, rtcAlarm := p.alarmOf wake }

/-- HIBERNATE is entered: only AON keeps its state (R554). -/
def State.enterHibernate (s : State) (wake : W32) : State :=
  s.inReset { s.pwr.kept .hibernate 6 with
    domains := 1, wakeWord := wake, rtcAlarm := s.pwr.alarmOf wake }

/-- The domains powered at entry return, in the order of R557, as requests of the wake logic. -/
def State.wakeStandby (s : State) : State :=
  let ds := ([6, 2, 3, 4, 5, 7, 8, 9, 11] : List (Fin 12)).filter fun d => s.pwr.restore.getLsbD d.1
  s.updPwr fun p => { p with
    phase := .run, wakeWord := 0, rtcAlarm := none, restore := 0, requests := p.requests ++ ds.map fun d => ⟨d, true⟩ }

/-- A wake source of the selected bit acts (R556, R557). -/
def State.wakeBy (s : State) (bit : Nat) : State :=
  if !s.pwr.wakeWord.getLsbD bit then s
  else if s.pwr.phase = .standby then s.wakeStandby
  else if s.pwr.phase = .hibernate && bit ≠ 2 then s.inReset (s.pwr.kept .ramping 6)
  else s

/-- A due RTC alarm. -/
def State.rtcDue (s : State) : State := if s.pwr.rtcAlarm.isSome then s.wakeBy 1 else s

/-- A ring of DB_H2S, a write to ENG_DB or to a mailbox register (R556, HOST). -/
def State.hostWake (s : State) : State := if s.pwr.phase = .standby then s.wakeBy 2 else s

/-! ### The voltage loop (R561–R563) -/

/-- One step up of the rail. -/
def Avs.up (a : Avs) : Avs := { a with volt := if a.volt + 5 < 900 then a.volt + 5 else 900 }

/-- The frequency limit of R563, with a margin measured at a rail set point. -/
def Avs.limit (a : Avs) (m volt : Nat) : Avs :=
  if volt = 900 && (m < 8 || (a.lowering && m < 20)) then
    { a with freq := if 8 < a.freq then a.freq - 1 else 8, limited := true, lowering := true, rise := 0 }
  else
    let a := { a with lowering := false }
    if a.limited && 45 < m && volt ≤ 850 then
      if a.rise + 1 < 100 then { a with rise := a.rise + 1 }
      else { a with rise := 0, freq := a.freq + 1, limited := a.freq + 1 ≠ a.fset }
    else { a with rise := 0 }

/-- One period with margin `m`; `loading` while the LOAD job sets the clock. -/
def Avs.period (a : Avs) (m : Nat) (loading : Bool) : Avs :=
  let a := { a with margin := if m ≤ 255 then m else 255 }
  if loading then { a with frozen := true, volt := 900, calm := 10 }
  else if a.frozen then
    if 10 ≤ a.calm + 1 then { a with frozen := false, calm := 0 } else { a with calm := a.calm + 1 }
  else
    let b := a.limit m a.volt
    if m < 20 then { b with calm := 0 }.up
    else if 45 < m then
      if 10 ≤ b.calm + 1 then { b with calm := 0, volt := if 600 < b.volt then b.volt - 5 else 600 }
      else { b with calm := b.calm + 1 }
    else { b with calm := 0 }

/-- The period of a cluster's loop. -/
def State.avsPeriod (s : State) (c : Fin 4) (m : Nat) : State :=
  if !s.powered (clDomain c) then s
  else (s.updCl c fun k => { k with avs := k.avs.period m (k.st == .loading) }).settle

/-- A margin below 8 ps at an instant: five steps up (R561). -/
def State.avsFast (s : State) (c : Fin 4) : State :=
  if !s.powered (clDomain c) || (Vec.at s.cl c).avs.frozen then s
  else s.updCl c fun k => { k with avs := k.avs.up.up.up.up.up }

/-- CL_AVS (R561). -/
def Avs.word (a : Avs) : W32 :=
  bitAt 32 31 a.limited ||| bitAt 32 30 a.frozen ||| place a.freq 24 6 ||| place a.margin 16 8 ||| place a.volt 0 10

/-! ### RTC and HEARTBEAT (R46, R311, R574) -/

/-- Once per second: the correction against the crystal, or the timebase while the servo is in TRACK or FINE. -/
def State.rtcCorrect (s : State) (correction : Int) : State :=
  if !s.live then s
  else if s.servoLocked then s.updPwr fun p => { p with rtc := s.tim.ns.toNat, rtcSet := true }
  else s.updPwr fun p => { p with rtc := ((p.rtc : Int) + correction).toNat }

/-- Every millisecond from READY. -/
def State.heartbeat (s : State) : State :=
  if !s.live then s
  else
    let s1 := s.updPwr fun p => { p with heartbeat := p.heartbeat + 1, uptime := p.uptime + 1 }
    if s.pair.st == qOrphan then s1.updPair fun p => { p with orphanMs := p.orphanMs + 1 } else s1

end Sys2Proof.Machine
end

