-- ==== Sys2Proof/Machine/Mailbox.lean ====
section
/-!
DEFINITION. Locks, mailboxes, engine mailboxes, doorbells and the interrupt registers, as every master reaches them
(R41, R46, R51, R61–R83).
-/
namespace Sys2Proof.Machine

/-- Carry on from an outcome. -/
def andThen (o : Host.Outcome State Fault Refusal) (f : State → Host.Outcome State Fault Refusal) : Host.Outcome State Fault Refusal :=
  match o with
  | .next s => f s
  | .fault x => .fault x
  | .refused x => .refused x

/-! ### Locks (R67–R70) -/

/-- The owner of a lock: 0–7 LOCK_MB, 8–23 LOCK_EMB. -/
def State.lockOwner (s : State) (l : Fin 24) : Byte :=
  if h : l.1 < 8 then (Vec.at s.mbx ⟨l.1, h⟩).lock else (Vec.at s.emb (finOf 16 (l.1 - 8))).lock

/-- Replace the owner of a lock. -/
def State.setLock (s : State) (l : Fin 24) (b : Byte) : State :=
  if h : l.1 < 8 then s.updMbx ⟨l.1, h⟩ fun x => { x with lock := b }
  else s.updEmb (finOf 16 (l.1 - 8)) fun x => { x with lock := b }

/-- The lock of a mailbox and of an engine mailbox. -/
def mbLock (n : Fin 8) : Fin 24 := finOf 24 n.1
def embLock (e : Fin 16) : Fin 24 := finOf 24 (8 + e.1)

/-- A read of a lock: a free lock is acquired and reads 0, a held one returns its owner (R68). -/
def State.lockRead (s : State) (m : Master) (l : Fin 24) : W32 × State :=
  if s.lockOwner l = 0 then (0, s.setLock l (Master.id m)) else ((s.lockOwner l).setWidth 32, s)

/-- A write of a lock: the owner frees it with its own ID (R69). -/
def State.lockWrite (s : State) (m : Master) (l : Fin 24) (v : W32) : State :=
  if s.lockOwner l = Master.id m && v.setWidth 8 = Master.id m then s.setLock l 0 else s

/-- The master that wins a free lock among several in one cycle: the lowest ID (R70). -/
def lockWinner (m : Master) (others : List Master) : Master :=
  others.foldl (fun a b => if (Master.id b).toNat < (Master.id a).toNat then b else a) m

/-- A lock that a master can reach: LOCK_EMB of a powered cluster and not of a checker (R41), and for an engine only of
its own cluster (R65, R82). -/
def State.lockReach (s : State) (m : Master) (l : Fin 24) : Bool :=
  match m with
  | .eng e => 8 ≤ l.1 && clOf (finOf 16 (l.1 - 8)) == clOf e && !s.checker (finOf 16 (l.1 - 8)) && !s.checker e
  | _ => s.live && (l.1 < 8 || (s.powered (clDomain (clOf (finOf 16 (l.1 - 8)))) && !s.checker (finOf 16 (l.1 - 8))))

/-! ### Signals and interrupt registers (R46, R47, R51, R75, R76, R80) -/

/-- Messages whose vector is no longer masked, and signals that waited for the link, go out (R51, R80). -/
def State.flushSignals (s : State) : State :=
  let s1 := (List.range 32).foldl (fun s v =>
    if s.hif.pcie.pba.getLsbD v && !s.hif.pcie.masked v then
      s.updHif fun h => { h with
        pcie := { h.pcie with pba := h.pcie.pba &&& ~~~(bitAt 64 v true) }, signals := Vec.updN h.signals v (· + 1) }
    else s) s
  if s1.hif.pcie.linkUp && (s1.hif.pcie.msixEn || s1.hif.pcie.msiEn) then
    let o := s1.hif.pcie.owed
    (List.range 33).foldl (fun s b => if o.getLsbD b then s.signal (b % 32) (b = 32) else s)
      (s1.updHif fun h => { h with pcie := { h.pcie with owed := 0 } })
  else s1

/-- HIF_STAT written (R46). -/
def State.hifStatWrite (s : State) (v : W32) : State :=
  s.updHif fun h => { h with stat := h.stat &&& ~~~(v.setWidth 6), errcnt := 0, erraddr := 0 }

/-- INT_STATUS written: STCHG clears on 1. -/
def State.intStatusWrite (s : State) (v : W32) : State :=
  if v.getLsbD 2 then s.updHif fun h => { h with stchg := false } else s

/-- INT_ENABLE written. -/
def State.intEnableWrite (s : State) (v : W32) : State :=
  (s.updHif fun h => { h with intEn := v.setWidth 3 }).intRise s.hif

/-- DB_S2H written: pending bits clear on 1 (R75). -/
def State.s2hClear (s : State) (v : W32) : State := s.updHif fun h => { h with s2h := h.s2h &&& ~~~v }

/-- DB_S2H_MASK written: a pending bit that loses its mask signals at once (R75). -/
def State.s2hMaskWrite (s : State) (v : W32) : State :=
  let free := s.hif.s2h &&& s.hif.s2hMask &&& ~~~v
  let s1 := s.updHif fun h => { h with s2hMask := v }
  ((List.range 32).foldl (fun s b => if free.getLsbD b then s.signal b false else s) s1).intRise s.hif

/-! ### Supervisor mailboxes (R61–R63, R87, R98) -/

/-- The host error of a mailbox channel (R60). -/
def State.mbError (s : State) (n : Fin 8) : Fault := .hostError (s.objAt 8 n.1)

/-- A master may act on a mailbox channel: it owns the lock (R62), and no 33rd message has met the full queue (R85). -/
def State.mbHolds (s : State) (m : Master) (n : Fin 8) : Bool :=
  (Vec.at s.mbx n).lock = Master.id m && !(Vec.at s.mbx n).overrun

/-- Inbound post by the owner of the lock: Sundom copies the message, clears IN_FULL and rings DB_S2H bit 8 + n (R62,
R84). A header outside R87, a full buffer and a post by another master are host errors (R60, R62, log 8). -/
def State.mbPost (s : State) (m : Master) (n : Fin 8) : Host.Outcome State Fault Refusal :=
  let x := Vec.at s.mbx n
  let h := memReadN x.inBuf 0 16
  if !s.mbHolds m n || x.inFull || 1008 < leAt h 4 2 || leAt h 6 2 / 16 ≠ 0 || leAt h 14 2 ≠ 0 then .fault (s.mbError n)
  else
    .next ((s.updMbx n fun x => { x with
      inFull := false, taken := x.taken ++ [memReadN x.inBuf 0 (16 + leAt h 4 2)] }).ringS2H (8 + n.1))

/-- Outbound release by the owner of the lock: the next message may be posted (R62). With the buffer empty the ring has no
effect (R63). -/
def State.mbRelease (s : State) (m : Master) (n : Fin 8) : Host.Outcome State Fault Refusal :=
  if !(Vec.at s.mbx n).outFull then .next s
  else if !s.mbHolds m n then .fault (s.mbError n)
  else .next ((s.updMbx n fun x => { x with outFull := false }).postNext n)

/-- MB_STAT (R63). -/
def Mbx.stat (x : Mbx) : W32 := place x.outq.length 8 6 ||| bitAt 32 1 x.outFull ||| bitAt 32 0 x.inFull

/-- One bit of DB_H2S rings (R74). Bits 20–23 have no effect; Sundom takes 24–31 and does nothing. -/
def State.h2sBit (s : State) (m : Master) (b : Nat) : Host.Outcome State Fault Refusal :=
  if b < 8 then s.mbPost m (finOf 8 b)
  else if b < 16 then s.mbRelease m (finOf 8 (b - 8))
  else if b < 20 then .next (s.piRung (finOf 4 (b - 16)))
  else .next s

/-- DB_H2S written: its bits ring in rising order. -/
def State.h2sWrite (s : State) (m : Master) (v : W32) : Host.Outcome State Fault Refusal :=
  (List.range 32).foldl (fun o b => if v.getLsbD b then andThen o fun s => s.h2sBit m b else o) (.next s.hostWake)

/-! ### Engine mailboxes (R64–R66, R82, R83) -/

/-- EMB_STAT (R65). -/
def Emb.stat (x : Emb) : W32 := bitAt 32 1 x.outFull ||| bitAt 32 0 x.inFull

/-- The fault of a mailbox misused by a master, confined to that mailbox channel: the host's error or that of engine
firmware (R60, R66). -/
def State.embFault (s : State) (m : Master) (e : Fin 16) : Fault :=
  match m with
  | .eng _ => s.fwError 9 e.1
  | _ => .hostError (s.objAt 9 e.1)

/-- POST: the owner of the lock posts the inbound buffer; EVP bit 4 in engine e. Engine e's own write is ignored. -/
def State.embPost (s : State) (m : Master) (e : Fin 16) : Host.Outcome State Fault Refusal :=
  if m = .eng e then .next s
  else if (Vec.at s.emb e).lock ≠ Master.id m then
    (match m with
     | .eng _ => .next s
     | _ => .fault (s.embFault m e))
  else if (Vec.at s.emb e).inFull then .fault (s.embFault m e)
  else .next ((s.updEmb e fun x => { x with inFull := true }).evp e 4)

/-- OUT_REL by a reader: EVP bit 4 in engine e (R65). Engine e's own write is ignored. -/
def State.embOutRel (s : State) (m : Master) (e : Fin 16) : State :=
  if m = .eng e then s else (s.updEmb e fun x => { x with outFull := false }).evp e 4

/-- IN_REL by engine e. -/
def State.embInRel (s : State) (e : Fin 16) : State := s.updEmb e fun x => { x with inFull := false }
/-- OUT_POST by engine e. -/
def State.embOutPost (s : State) (e : Fin 16) : State := s.updEmb e fun x => { x with outFull := true }

/-- EMB_CMD written by a master. -/
def State.embCmd (s : State) (m : Master) (e : Fin 16) (v : W32) : Host.Outcome State Fault Refusal :=
  if fld v 4 28 ≠ 0 then .fault (s.embFault m e)
  else
    let s1 := if v.getLsbD 1 && m = .eng e then s.embInRel e else s
    let s2 := if v.getLsbD 2 && m = .eng e then s1.embOutPost e else s1
    andThen (if v.getLsbD 0 then s2.embPost m e else .next s2) fun s =>
      .next (if v.getLsbD 3 then s.embOutRel m e else s)

/-- Engine mailboxes that the host and the supervisor reach: of a powered cluster, not of a checker (R41, R59). -/
def State.embUp (s : State) (e : Fin 16) : Bool := s.powered (clDomain (clOf e)) && !s.checker e

/-- ENG_DBe.RING: delivered to an engine out of reset, else kept; with WAKEEN it powers the cluster up (R73, R80, R81). -/
def State.engDbRing (s : State) (e : Fin 16) : State :=
  let s := s.hostWake
  if s.checker e then s
  else if s.powered (clDomain (clOf e)) && (Vec.at s.eng e).run then s.evp e 2
  else
    let s1 := s.updEmb e fun x => { x with ring := true }
    if !s.powered (clDomain (clOf e)) && (Vec.at s.emb e).wakeEn then
      s1.updPwr fun p => { p with requests := p.requests ++ [⟨finOf 12 (clDomain (clOf e)), true⟩] }
    else s1

/-- ENG_DBe written. -/
def State.engDbWrite (s : State) (e : Fin 16) (v : W32) : Host.Outcome State Fault Refusal :=
  if fld v 1 30 ≠ 0 then .fault (.hostError (s.objAt 9 e.1))
  else
    let s1 := (s.updEmb e fun x => { x with wakeEn := v.getLsbD 31 }).hostWake
    .next (if v.getLsbD 0 then s1.engDbRing e else s1)

/-- ENG_S2H written by an engine: granted bits 24–31 ring (R83). -/
def State.engS2h (s : State) (e : Fin 16) (v : W32) : State :=
  (List.range 8).foldl (fun s b =>
    if v.getLsbD (24 + b) && (Vec.at s.cl (clOf e)).grant.getLsbD b then s.ringS2H (24 + b) else s) s

end Sys2Proof.Machine
end

