-- ==== Sys2Proof/Machine/HostBus.lean ====
section
/-!
DEFINITION. The host's access to BAR0 and BAR1 over its three interfaces, and the error responses (R26–R28, R45–R60, R71).
-/
namespace Sys2Proof.Machine

/-! ### Who is served (R42–R45, R554, R568) -/

/-- The host interface of a mode serves accesses: HIF powered and out of reset; on PCIe, with the link up and in D0. (That
memory accesses in D3hot have no effect and no response is the model's choice: R49 says only which logic D3hot affects,
log 72.) -/
def State.hostOn (s : State) (mode : Nat) : Bool :=
  s.powered 10 && s.pwr.hifsel.1 = mode && (s.pwr.phase = .run || s.pwr.phase = .standby || s.pwr.phase = .startFault) &&
    (mode ≠ 0 || (s.hif.pcie.linkUp && !s.hif.pcie.d3hot))

/-- The host interface of whichever mode the straps chose. -/
def State.hostServed (s : State) : Bool := s.pwr.hifsel.1 ≠ 3 && s.hostOn s.pwr.hifsel.1

/-! ### Error responses (R46, R59) -/

/-- A HIF_STAT bit is set. -/
def State.hifFlag (s : State) (b : Nat) : State :=
  (s.updHif fun h => { h with stat := h.stat ||| bitAt 6 b true }).intRise s.hif

/-- An error response: counted, its HIF_STAT bit set, HIF_ERRADDR captured if it holds nothing. -/
def State.hostErr (s : State) (b : Nat) (win wr : Bool) (addr : Nat) : State :=
  (s.updHif fun h => { h with
    errcnt := BitVec.ofNat 8 (satTo 255 (h.errcnt.toNat + 1))
    erraddr := if h.erraddr.getLsbD 31 then h.erraddr
      else bitAt 32 31 true ||| bitAt 32 30 win ||| bitAt 32 29 wr ||| place addr 0 24 }).hifFlag b

abbrev hNotRdy : Nat := 0
abbrev hPwrDn : Nat := 1
abbrev hTimeout : Nat := 2
abbrev hHalf : Nat := 3
abbrev hBadCmd : Nat := 4
abbrev hOverrun : Nat := 5

/-- The engine mailbox an offset of BAR0 belongs to: its lock, PEEK, block of EMB_STAT and EMB_CMD, or buffers. Offsets 0x08
and 0x0C of such a block hold no register; that an access there fails with a powered-down cluster, as one to the two registers
does (R59), is the model's choice: the manual names the registers only (DESIGN CHOICE, log 98). -/
def embOf (off : Nat) : Option (Fin 16) :=
  if 0x420 ≤ off && off < 0x460 then some (finOf 16 ((off - 0x420) / 4))
  else if 0x520 ≤ off && off < 0x560 then some (finOf 16 ((off - 0x520) / 4))
  else if 0x800 ≤ off && off < 0x900 then some (finOf 16 ((off - 0x800) / 16))
  else if 0x5000 ≤ off && off < 0x9000 then some (finOf 16 ((off - 0x5000) / 0x400))
  else none

/-- The HIF_STAT bit of an access to BAR0 that cannot be served. -/
def State.bar0Err (s : State) (off : Nat) : Option Nat :=
  if 0x400 ≤ off && !s.live then some hNotRdy
  else match embOf off with
    | some e => if s.embUp e then none else some hPwrDn
    | none => none

/-! ### Registers (R46, R67, R73) -/

/-- MOD_STATUS. -/
def State.modStatus (s : State) : W32 :=
  bitAt 32 31 s.pwr.ready ||| bitAt 32 30 s.pwr.fault ||| place s.pair.st.1 27 3 ||| place s.pwr.mpos.1 25 2 |||
    bitAt 32 24 s.pwr.bootimg ||| place s.pwr.hifsel.1 22 2 ||| bitAt 32 21 s.sup.alarmOn ||| place s.pwr.domains.toNat 0 12

/-- HIF_REV as a word. -/
def hifRev : W32 := bitAt 32 16 Config.variantX ||| Config.hwRev.setWidth 32

/-- A register of BAR0 without its read side effect. -/
def State.bar0Reg (s : State) (off : Nat) : W32 :=
  let h := s.hif
  let pcie := s.pwr.hifsel = 0
  if off = 0x00 then 0x1D7A0960
  else if off = 0x04 then hifRev
  else if off = 0x08 then Config.serial.setWidth 32
  else if off = 0x0C then BitVec.ofNat 32 (Config.serial.toNat / 2 ^ 32)
  else if off = 0x10 then s.pwr.fwVer
  else if off = 0x14 then s.modStatus
  else if off = 0x18 then s.pwr.heartbeat
  else if off = 0x1C then place h.errcnt.toNat 24 8 ||| h.stat.setWidth 32
  else if off = 0x20 then h.erraddr
  else if off = 0x100 then h.intStatus.setWidth 32
  else if off = 0x104 then h.intEn.setWidth 32
  else if off = 0x180 then (if pcie then h.pcie.pba.setWidth 32 else 0)
  else if off = 0x184 then (if pcie then BitVec.ofNat 32 (h.pcie.pba.toNat / 2 ^ 32) else 0)
  else if 0x200 ≤ off && off < 0x400 then (if pcie then Vec.atD h.pcie.table ((off - 0x200) / 4) 0 else 0)
  else if 0x500 ≤ off && off < 0x560 then (s.lockOwner (finOf 24 ((off - 0x500) / 4))).setWidth 32
  else if off = 0x600 then h.h2s
  else if off = 0x604 then (if s.live then 0x00F00000 else h.h2sMask)
  else if off = 0x610 then h.s2h
  else if off = 0x614 then h.s2hMask
  else if off = 0x618 then h.s2hWake
  else if 0x640 ≤ off && off < 0x660 then (Vec.at s.mbx (finOf 8 ((off - 0x640) / 4))).stat
  else if 0x700 ≤ off && off < 0x740 then
    let x := Vec.at s.emb (finOf 16 ((off - 0x700) / 4))
    bitAt 32 31 x.wakeEn ||| bitAt 32 0 x.ring
  else if 0x800 ≤ off && off < 0x900 && off % 16 = 0 then (Vec.at s.emb (finOf 16 ((off - 0x800) / 16))).stat
  else 0

/-- The reserved fields of the read-only registers of BAR0 above 0x03FF: LOCK PEEK, MB_STAT and EMB_STAT (R63, R65, R67). -/
def bar0Rsv (off : Nat) : W32 :=
  if 0x500 ≤ off && off < 0x560 then 0xFFFFFF00
  else if 0x640 ≤ off && off < 0x660 then 0xFFFFC0FC
  else if 0x800 ≤ off && off < 0x900 && off % 16 = 0 then 0xFFFFFFFC
  else 0

/-- The object at an offset of BAR0 (R26): a mailbox channel by its lock, status or buffers, else the module. -/
def State.bar0Object (s : State) (off : Nat) : W16 :=
  match embOf off with
  | some e => s.objAt 9 e.1
  | none =>
    if 0x400 ≤ off && off < 0x420 then s.objAt 8 ((off - 0x400) / 4)
    else if 0x500 ≤ off && off < 0x520 then s.objAt 8 ((off - 0x500) / 4)
    else if 0x640 ≤ off && off < 0x660 then s.objAt 8 ((off - 0x640) / 4)
    else if 0x700 ≤ off && off < 0x740 then s.objAt 9 ((off - 0x700) / 4)
    else if 0x1000 ≤ off && off < 0x5000 then s.objAt 8 ((off - 0x1000) / 0x800)
    else s.objAt 0 0

/-- A register of BAR0 written whole by a master (R9, R46, R60). A nonzero reserved field is a host error, above 0x03FF in a
read-only register too. -/
def State.bar0Write (s : State) (m : Master) (off : Nat) (v : W32) : Host.Outcome State Fault Refusal :=
  if off = 0x1C then .next (s.hifStatWrite v)
  else if off = 0x100 then .next (s.intStatusWrite v)
  else if off = 0x104 then .next (s.intEnableWrite v)
  else if 0x200 ≤ off && off < 0x400 then
    .next (if s.pwr.hifsel = 0 then
      (s.updHif fun h => { h with pcie := { h.pcie with table := Vec.updN h.pcie.table ((off - 0x200) / 4) fun _ => v } }).flushSignals
    else s)
  else if 0x400 ≤ off && off < 0x460 then
    let l := finOf 24 ((off - 0x400) / 4)
    if fld v 8 24 ≠ 0 then .fault (if l.1 < 8 then s.mbError (finOf 8 l.1) else .hostError (s.objAt 9 (l.1 - 8)))
    else .next (s.lockWrite m l v)
  else if off = 0x600 then s.h2sWrite m v
  else if off = 0x610 then .next (s.s2hClear v)
  else if off = 0x614 then .next (s.s2hMaskWrite v)
  else if off = 0x618 then .next (s.updHif fun h => { h with s2hWake := v })
  else if 0x700 ≤ off && off < 0x740 then s.engDbWrite (finOf 16 ((off - 0x700) / 4)) v
  else if 0x800 ≤ off && off < 0x900 && off % 16 = 4 then s.hostWake.embCmd m (finOf 16 ((off - 0x800) / 16)) v
  else if v &&& bar0Rsv off ≠ 0 then .fault (.hostError (s.bar0Object off))
  else .next s

/-! ### Buffers (R60, R61, R64) -/

/-- The octets of a mailbox or EMB buffer of BAR0. -/
def State.bufRead (s : State) (off : Nat) : Byte :=
  if 0x1000 ≤ off && off < 0x5000 then
    let x := Vec.at s.mbx (finOf 8 ((off - 0x1000) / 0x800))
    let o := (off - 0x1000) % 0x800
    if o < 0x400 then memRead x.inBuf o else memRead x.outBuf (o - 0x400)
  else if 0x5000 ≤ off && off < 0x9000 then
    let x := Vec.at s.emb (finOf 16 ((off - 0x5000) / 0x400))
    let o := (off - 0x5000) % 0x400
    if o < 0x200 then memRead x.inBuf o else memRead x.outBuf (o - 0x200)
  else 0

/-- One octet written to a buffer: inbound only, by the owner of the lock, while the buffer is empty. -/
def State.bufWrite (s : State) (m : Master) (off : Nat) (b : Byte) : Host.Outcome State Fault Refusal :=
  if 0x1000 ≤ off && off < 0x5000 then
    let n : Fin 8 := finOf 8 ((off - 0x1000) / 0x800)
    let x := Vec.at s.mbx n
    let o := (off - 0x1000) % 0x800
    if 0x400 ≤ o then .next s
    else if !s.mbHolds m n || x.inFull then .fault (s.mbError n)
    else .next (s.updMbx n fun x => { x with inBuf := memWrite x.inBuf o b })
  else if 0x5000 ≤ off && off < 0x9000 then
    let e : Fin 16 := finOf 16 ((off - 0x5000) / 0x400)
    let x := Vec.at s.emb e
    let o := (off - 0x5000) % 0x400
    if 0x200 ≤ o then .next s
    else if x.lock ≠ Master.id m || x.inFull then .fault (.hostError (s.objAt 9 e.1))
    else .next (s.updEmb e fun x => { x with inBuf := memWrite x.inBuf o b })
  else .next s

/-! ### Whole accesses -/

/-- Pieces of a run that lie in one dword each. -/
def dwordChunks {α : Type} : Nat → Nat → List α → List (Nat × List α)
  | 0, _, _ => []
  | _, _, [] => []
  | n + 1, a, bs =>
    let k := 4 - a % 4
    (a, bs.take k) :: dwordChunks n (a + k) (bs.drop k)

/-- The HIF_STAT bit of a run of octets that cannot be served: that of its first octet that cannot. -/
def State.runErr (s : State) (off n : Nat) : Option Nat := (List.range n).findSome? fun i => s.bar0Err (off + i)

/-- One piece of a write to BAR0: one register with every lane, or a run of octets of the buffers as one access, which
fails or lands whole. Only writes to the buffers reach the supervisor or an engine and wake a module in STANDBY (R26,
R556). -/
def State.bar0Piece (s : State) (m : Master) (off : Nat) (bs : List (Option Byte)) : Host.Outcome State Fault Refusal :=
  match s.runErr off bs.length with
  | some b => .next (s.hostErr b false true off)
  | none =>
    if off < 0x1000 then
      if bs.length = 4 && bs.all Option.isSome then
        s.bar0Write m off (BitVec.ofNat 32 (leNat (bs.map fun b => b.getD 0)))
      else .next s
    else
      ((List.range bs.length).foldl (fun o i =>
        match bs.getD i none with
        | some b => andThen o fun s => s.bufWrite m (off + i) b
        | none => o) (.next (if off < 0x9000 && m ≠ .supv then s.hostWake else s)))

/-- The accesses of a run in BAR0: one for each register below 0x1000, one for the rest (R46, R50). -/
def bar0Pieces {α : Type} (off : Nat) (bs : List α) : List (Nat × List α) :=
  let k := 0x1000 - off
  dwordChunks (bs.length + 1) off (bs.take k) ++
    (if (bs.drop k).isEmpty then [] else [(max off 0x1000, (bs.drop k).take (0x10000 - max off 0x1000))])

/-- A write to BAR0, register by register in rising order, then the octets of the buffers (R46, R50). -/
def State.bar0WriteRun (s : State) (m : Master) (off : Nat) (bs : List (Option Byte)) : Host.Outcome State Fault Refusal :=
  (bar0Pieces (off % 0x10000) bs).foldl (fun o x => andThen o fun s => s.bar0Piece m x.1 x.2) (.next s)

/-- The write meets an access that cannot be served (R59): what SPI reports in PREV_ERR. -/
def State.bar0WriteFails (s : State) (off : Nat) (bs : List (Option Byte)) : Bool :=
  (bar0Pieces (off % 0x10000) bs).any fun x => (s.runErr x.1 x.2.length).isSome

/-- A register of BAR0 read by a master, with its side effect: the register, whether the access failed, the state after. -/
def State.bar0Read (s : State) (m : Master) (off : Nat) : (W32 × Bool) × State :=
  match s.bar0Err off with
  | some b => ((0, true), s.hostErr b false false off)
  | none =>
    if 0x400 ≤ off && off < 0x460 then
      let (w, s1) := s.lockRead m (finOf 24 ((off - 0x400) / 4))
      ((w, false), s1)
    else ((s.bar0Reg off, false), s)

/-- A run of octets of the buffers read in one access: the octets, whether it failed, the state after. -/
def State.bufReadRun (s : State) (off n : Nat) : (List Byte × Bool) × State :=
  match s.runErr off n with
  | some b => ((List.replicate n 0, true), s.hostErr b false false off)
  | none => (((List.range n).map fun i => s.bufRead (off + i), false), s)

/-- A read of BAR0 of any length (R46, R50): each register that it touches is read once and whole, its lanes outside the
run dropped; the rest is one access to the buffers. -/
def State.bar0ReadRun (s : State) (m : Master) (off n : Nat) : (List Byte × Bool) × State :=
  (bar0Pieces (off % 0x10000) (List.replicate n ())).foldl (fun x p =>
    if p.1 < 0x1000 then
      let ((w, bad), t) := x.2.bar0Read m (p.1 / 4 * 4)
      ((x.1.1 ++ slice (leBytes 4 w.toNat) (p.1 % 4) p.2.length, x.1.2 || bad), t)
    else
      let ((bs, bad), t) := x.2.bufReadRun p.1 p.2.length
      ((x.1.1 ++ bs, x.1.2 || bad), t)) (([], false), s)

/-! ### BAR1 (R27, R59, R60, R116, R119, R526) -/

/-- Lengths of a process image's buffers, rounded up to 64 (R442). -/
def PiUnit.lin (p : PiUnit) : Nat := (p.inLen.toNat + 63) / 64 * 64
def PiUnit.lout (p : PiUnit) : Nat := (p.outLen.toNat + 63) / 64 * 64

/-- Offset of an input and of an output buffer. -/
def PiUnit.inBuf (p : PiUnit) (i : Nat) : Nat := p.base.toNat + 64 + i * p.lin
def PiUnit.outBuf (p : PiUnit) (i : Nat) : Nat := p.base.toNat + 64 + 3 * p.lin + i * p.lout

/-- Two runs of octets overlap. -/
def overlaps (a n b m : Nat) : Bool := a < b + m && b < a + n && n ≠ 0 && m ≠ 0

/-- Some enabled octet of a write falls into a run of memory. -/
def writesInto (off : Nat) (bs : List (Option Byte)) (b m : Nat) : Bool :=
  (List.range bs.length).any fun i => (bs.getD i none).isSome && b ≤ off + i && off + i < b + m

/-- Octets of an image with its control block. -/
def PiUnit.size (i : PiUnit) : Nat := 64 + 3 * i.lin + 3 * i.lout

/-- What a personality of a pair holds in shared memory besides its process image: its state and relay areas (R314). -/
def State.pairAreas (s : State) (c : Fin 4) : List (Nat × Nat) :=
  if s.inPair c then
    [((Vec.at s.pair.stateBase c).toNat, 4096 * (Vec.at s.pair.stateLen c).toNat),
     ((Vec.at s.pair.relayBase c).toNat, 2 * (16 + (Vec.at s.pair.buildLen c).toNat))]
  else []

/-- What a personality holds in shared memory: its process image, and in a pair its state and relay areas (R116, R314). -/
def State.objects (s : State) (c : Fin 4) : List (Nat × Nat) :=
  let i := (Vec.at s.cl c).pi
  (if i.defined then [(i.base.toNat, i.size)] else []) ++ s.pairAreas c

/-- A host write falls into the state or relay area of a personality of a pair (R27, R314). -/
def State.areaMisuse (s : State) (c : Fin 4) (off : Nat) (bs : List (Option Byte)) : Bool :=
  (s.pairAreas c).any fun x => writesInto off bs x.1 x.2

/-- A host write breaks the rules of a process image: an octet written to a control word other than IN_HOLD and OUT_PUB,
to an input buffer or to a published or taken output buffer, or an index outside 0–2 (R27, R60). -/
def State.piMisuse (s : State) (c : Fin 4) (off : Nat) (bs : List (Option Byte)) : Bool :=
  let p := (Vec.at s.cl c).pi
  let n := bs.length
  let base := p.base.toNat
  if !p.defined then false
  else
    let word := fun (o : Nat) => leNat (s.peek .shm (base + o) 4)
    let pub := word 8
    let next := leNat ((List.range 4).map fun i =>
      let a := base + 8 + i
      if off ≤ a && a < off + n then (bs.getD (a - off) none).getD (BitVec.ofNat 8 (pub / 2 ^ (8 * i)))
      else BitVec.ofNat 8 (pub / 2 ^ (8 * i)))
    let held := fun (w : Nat) => if w / 4 % 2 = 1 then some (w % 4) else none
    let out := fun (i : Option Nat) => match i with
      | some i => writesInto off bs (p.outBuf i) p.outLen.toNat
      | none => false
    writesInto off bs base 4 || writesInto off bs (base + 12) 52 || writesInto off bs (p.inBuf 0) (3 * p.lin) ||
      out (held pub) || out (held (word 12)) || (writesInto off bs (base + 8) 4 && held next = some 3)

/-- A write of the host falls into the image area of a LOAD_CUSTOM that still runs on a cluster, which the host must leave
unchanged until JOB_DONE (R434); a running job keeps the area's offset and length after its LOAD payload. -/
def State.imageMisuse (s : State) (c : Fin 4) (off : Nat) (bs : List (Option Byte)) : Bool :=
  s.sup.jobs.any fun j => match j.kind with
    | .load k true p => k = c && writesInto off bs (leAt p (p.length - 8) 4) (leAt p (p.length - 4) 4)
    | _ => false

/-- The HIF_STAT bit of an access to BAR1 that cannot be served. -/
def State.bar1Err (s : State) : Option Nat :=
  if !s.live then some hNotRdy else if !s.powered 6 then some hPwrDn else none

/-- A write to BAR1. It faults where it breaks the rules of a process image (R60), falls into the state or relay area of a
personality of a pair (R27, R314) or into the image area of a running LOAD_CUSTOM (R434). A write into other memory that a
personality uses through its windows lands as an ordinary write: the manual names no further object in shared memory, since
windows also hold areas shared with the host (R25; DESIGN CHOICE, log 73). -/
def State.bar1Write (s : State) (m : Master) (off : Nat) (bs : List (Option Byte)) : Host.Outcome State Fault Refusal :=
  let bs := bs.take (0x800000 - off)
  match s.bar1Err with
  | some b => .next (s.hostErr b true true off)
  | none => match (allFin 4).find? fun c => s.piMisuse c off bs with
    | some c => .fault (.hostError (s.objAt 0xA c.1))
    | none => match (allFin 4).find? fun c => s.areaMisuse c off bs || s.imageMisuse c off bs with
    | some c => .fault (.hostError (s.objAt 1 c.1))
    | none => .next (s.wrLanes .shm (hostCode m) off bs).settle

/-- A read of BAR1 of any length, dword by dword of memory: an uncorrectable word reads as ones (R526). -/
def State.bar1ReadRun (s : State) (m : Master) (off n : Nat) : (List Byte × Bool) × State :=
  match s.bar1Err with
  | some b => ((List.replicate n 0, true), s.hostErr b true false off)
  | none =>
    let r := (dwordChunks (n + 1) (off % 0x800000) (List.replicate n ())).foldl (fun (x : List Byte × State) p =>
      let ((bs, bad), t) := x.2.rd .shm (hostCode m) p.1 p.2.length
      (x.1 ++ (if bad then List.replicate p.2.length 0xFF else bs), t)) ([], s)
    ((r.1, false), r.2.settle)

/-- A write of the host or of host-side DMA to either window (R26–R28). -/
def State.hostWrite (s : State) (m : Master) (win : Bool) (off : Nat) (bs : List (Option Byte)) : Host.Outcome State Fault Refusal :=
  if win then s.bar1Write m off bs else s.bar0WriteRun m off bs

/-- A read of either window: the octets, whether an access of it failed, the state after (R26–R28, R50). -/
def State.hostRead (s : State) (m : Master) (win : Bool) (off n : Nat) : (List Byte × Bool) × State :=
  if win then s.bar1ReadRun m off n else s.bar0ReadRun m off n

/-- A write of either window meets an access that cannot be served. -/
def State.hostWriteFails (s : State) (win : Bool) (off : Nat) (bs : List (Option Byte)) : Bool :=
  if win then s.bar1Err.isSome else s.bar0WriteFails off bs

/-- The words that octets spell, least significant octet first (R8). -/
def wordsOf4 (bs : List Byte) : List W32 :=
  (List.range (bs.length / 4)).map fun i => BitVec.ofNat 32 (leAt bs (4 * i) 4)

/-- Octets of a word as lanes. -/
def lanesOf (v : W32) (lanes : BitVec 4) : List (Option Byte) :=
  (List.range 4).map fun i => if lanes.getLsbD i then some (BitVec.ofNat 8 (fld v (8 * i) 8)) else none

/-! ### Parallel bus (R53) -/

/-- A cycle of the parallel bus ends: HD as driven in a read, BERR_N low if the access failed (R52, R59). -/
def State.parEnd (s : State) (hd : Option W16) (bad : Bool) : State :=
  s.updHif fun h => { h with hd := hd.getD h.hd, berr := bad }

/-- A halfword read: the low half of a register captures it, the high half returns the capture; buffers and BAR1 are read
as 16-bit memory. HD carries the half, 0x0000 where the access fails. -/
def State.parRead (s : State) (win : Bool) (off : Nat) (high : Bool) : State :=
  if !s.hostOn 1 then s
  else
    let o := if win then off else off % 0x10000
    if !win && o < 0x1000 then
      if high then
        match s.bar0Err (o / 4 * 4) with
        | some b => (s.hostErr b false false o).parEnd (some 0) true
        | none => s.parEnd (some (BitVec.ofNat 16 (fld s.hif.parHold 16 16))) false
      else
        let ((w, bad), s1) := s.bar0Read .host (o / 4 * 4)
        (if bad then s1 else s1.updHif fun h => { h with parHold := w }).parEnd (some (w.setWidth 16)) bad
    else
      let ((bs, bad), s1) := s.hostRead .host win (o / 2 * 2) 2
      s1.parEnd (some (BitVec.ofNat 16 (leNat bs))) bad

/-- A halfword write to a register: the low half is held, the high half writes the register whole. A high half whose
register is not the one of the pending low half sets HALF, is ignored and leaves that low half pending; one with a lane
not enabled is ignored (R46) and takes the pending low half with it (R53 does not speak of these cases: DESIGN CHOICE,
log 74). -/
def State.parReg (s : State) (o : Nat) (high : Bool) (lanes : BitVec 2) (v : W16) : Host.Outcome State Fault Refusal :=
  if !high then
    .next (s.updHif fun h => { h with parLow := if lanes = 3 then some ⟨BitVec.ofNat 23 (o / 4 * 4), v⟩ else none })
  else
    match s.hif.parLow with
    | some x =>
      if x.off.toNat ≠ o / 4 * 4 then .next (s.hifFlag hHalf)
      else
        let s1 := s.updHif fun h => { h with parLow := none }
        if lanes ≠ 3 then .next s1 else s1.bar0Write .host (o / 4 * 4) (v ++ x.v)
    | none => .next (s.hifFlag hHalf)

/-- A halfword write: a half of a register, or two octets of a buffer or of BAR1 under their lanes. BERR_N is low where the
access cannot be served (R59). -/
def State.parWrite (s : State) (win : Bool) (off : Nat) (high : Bool) (lanes : BitVec 2) (v : W16) : Host.Outcome State Fault Refusal :=
  if !s.hostOn 1 then .next s
  else
    let o := if win then off else off % 0x10000
    if !win && o < 0x1000 then
      match s.bar0Err (o / 4 * 4) with
      | some b => .next ((s.hostErr b false true o).parEnd none true)
      | none => (s.parEnd none false).parReg o high lanes v
    else
      let bs := (List.range 2).map fun i =>
        if lanes.getLsbD i then some (BitVec.ofNat 8 (fld v (8 * i) 8)) else none
      (s.parEnd none (s.hostWriteFails win (o / 2 * 2) bs)).hostWrite .host win (o / 2 * 2) bs

/-! ### Quad SPI (R54–R57) -/

/-- The rows of R26, by their first offset. -/
def barRow (off : Nat) : Nat :=
  if off < 0x100 then 0 else if off < 0x400 then 1 else if off < 0x600 then 2 else if off < 0x1000 then 3
  else if off < 0x5000 then 4 else if off < 0x9000 then 5 else 6

/-- A burst stays within one row (R54, R60). -/
def burstOk (win : Bool) (off words : Nat) : Bool :=
  if win then off + 4 * words ≤ 0x800000
  else off + 4 * words ≤ 0x10000 && barRow off = barRow (off + 4 * words - 1)

/-- The objects of the two rows of a burst that crosses rows: those at its first and at its last word (R60). -/
def State.burstFault (s : State) (win : Bool) (off words : Nat) : Fault :=
  if win then .hostError (s.objAt 0 0)
  else .hostErrors (s.bar0Object off) (s.bar0Object ((off + 4 * words - 4) % 0x10000))

/-- The status byte (R56). -/
def State.spiByte (s : State) (err rdy : Bool) : Byte :=
  bitAt 8 7 err ||| bitAt 8 6 s.hif.spiPrevErr ||| bitAt 8 5 (decide (s.hif.intStatus &&& s.hif.intEn ≠ 0)) |||
    bitAt 8 4 (!s.pwr.ready) ||| bitAt 8 0 rdy

/-- Window offset of an SPI address. -/
def spiOff (win : Bool) (addr : BitVec 24) : Nat := addr.toNat % (if win then 0x800000 else 0x10000) / 4 * 4

/-- The answer to a READ of `n` words: its data, or with ERR zeros, behind a status byte with RDY (R55, R56, R59). -/
def State.spiAnswer (s : State) (n : Nat) (data : Option (List W32)) : State :=
  s.updHif fun h => { h with
    rdata := data.getD (List.replicate n 0), spiOut := data.getD (List.replicate n 0)
    rerr := data.isNone, spiStatus := s.spiByte data.isNone true }

/-- READ0 and READ1: the whole burst is fetched, earlier writes landing first; a failure answers zeros with ERR. -/
def State.spiRead (s : State) (win : Bool) (addr : BitVec 24) (count : BitVec 8) : Host.Outcome State Fault Refusal :=
  if !s.hostOn 2 then .next s
  else
    let n := count.toNat + 1
    let off := spiOff win addr
    if !burstOk win off n then .fault (s.burstFault win off n)
    else
      let r := (s.updHif fun h => { h with spiBusy := false }).hostRead .host win off (4 * n)
      .next (r.2.spiAnswer n (if r.1.2 then none else some (wordsOf4 r.1.1)))

/-- WRITE0 and WRITE1: accepted when the previous write has drained, discarded with OVERRUN before (R55). An access of it
that cannot be served sets PREV_ERR (R56). A discarded WRITE leaves PREV_ERR as it is: whether it counts as a failed
write the manual does not say (DESIGN CHOICE, log 75). -/
def State.spiWrite (s : State) (win drained : Bool) (addr : BitVec 24) (words : List W32) : Host.Outcome State Fault Refusal :=
  if !s.hostOn 2 then .next s
  else if s.hif.spiBusy && !drained then .next (s.hifFlag hOverrun)
  else
    let off := spiOff win addr
    let bs := words.flatMap fun w => (leBytes 4 w.toNat).map some
    if !burstOk win off words.length then .fault (s.burstFault win off words.length)
    else
      andThen (s.hostWrite .host win off bs) fun s1 =>
        .next (s1.updHif fun h => { h with spiBusy := true, spiPrevErr := h.spiPrevErr || s.hostWriteFails win off bs })

/-- STATUS: one status byte, then PREV_ERR clears. `drained`: the pending write has landed. -/
def State.spiStat (s : State) (drained : Bool) : State :=
  if !s.hostOn 2 then s
  else
    let s1 := s.updHif fun h => { h with spiBusy := h.spiBusy && !drained }
    s1.updHif fun h => { h with spiStatus := s1.spiByte false (!h.spiBusy), spiPrevErr := false }

/-- A command byte outside R54. -/
def State.spiBad (s : State) (b : Byte) : State :=
  if !s.hostOn 2 || b = 0x30 || b = 0x31 || b = 0x38 || b = 0x39 || b = 0x05 then s else s.hifFlag hBadCmd

/-- CS_N rises: the rest of the read data is dropped (R57). Words received before have landed with their own command;
a partial word is discarded. -/
def State.spiRise (s : State) (w : SpiPhase) : State :=
  if !s.hostOn 2 then s
  else match w with
    | .read sent => s.updHif fun h => { h with spiOut := h.spiOut.take sent }
    | _ => s

/-! ### PCIe (R44, R48, R71, R80) -/

/-- PERST_N. -/
def State.perst (s : State) : State := if s.pwr.hifsel = 0 && s.powered 10 then s.hifReset else s

/-- The link is up: signals that waited go out. -/
def State.pcieUp (s : State) : State :=
  if s.pwr.hifsel = 0 && s.powered 10 then
    (s.updHif fun h => { h with pcie := { h.pcie with linkUp := true } }).flushSignals
  else s

/-- What the function's configuration space reads in its header (R48): the identity, the class code 0x02_8000, the BARs of
64 KiB and 8 MiB, BAR2–BAR5 and the expansion ROM absent, no INTx. The places of the items in the header, and the Status
bit that says that a capability list exists, are those of the PCI Express Base Specification (PRESUMED, log 18). -/
def State.pcieHeader (s : State) (off : Nat) : W32 :=
  let p := s.hif.pcie
  match off with
  | 0x00 => 0x09601D7A
  | 0x04 => 0x00100000 ||| p.command.setWidth 32
  | 0x08 => 0x02800000 ||| place (hifRev.toNat % 256) 0 8
  | 0x10 => p.bar0
  | 0x14 => p.bar1
  | 0x2C => Config.subsystem.getD 0x09601D7A
  | _ => 0

/-- What the capabilities of the function offer (R48): power states, MSI and MSI-X vectors with their table and pending-bit
array in BAR0, link width and rate, maximum payload, ASPM. -/
structure PcieCaps where
  d3hot : Bool
  msiVectors : Nat
  msi64 : Bool
  msiMasks : Bool
  msixVectors : Nat
  msixTable : Nat
  msixPba : Nat
  lanes : Nat
  gtPerS : List Rat
  maxPayload : Nat
  aspmL0s : Bool
  aspmL1 : Bool
  aer : Bool
deriving DecidableEq, Repr

/-- The capabilities of the endpoint (R48). -/
def pcieCaps : PcieCaps :=
  { d3hot := true, msiVectors := 32, msi64 := true, msiMasks := true, msixVectors := 32, msixTable := 0x200,
    msixPba := 0x180, lanes := 1, gtPerS := [5, 5 / 2], maxPayload := 256, aspmL0s := false, aspmL1 := true, aer := false }

/-- A configuration write; the first after PERST_N fixes HOST's Requester ID. -/
def State.pcieConfig (s : State) (rid : W16) (r : PcieReg) (v : W64) : State :=
  if !(s.pwr.hifsel = 0 && s.powered 10 && s.hif.pcie.linkUp) then s
  else
    (s.updHif fun h =>
      let p := { h.pcie with hostRid := h.pcie.hostRid.or (some rid) }
      let w : W32 := v.setWidth 32
      let p := match r with
        | .command => { p with command := v.setWidth 16 }
        | .bar0 => { p with bar0 := w &&& 0xFFFF0000 }
        | .bar1 => { p with bar1 := (w &&& 0xFF800000) ||| 8 }
        | .pmState => { p with d3hot := w.setWidth 2 = (3 : BitVec 2) }
        | .msiControl => { p with msiEn := w.getLsbD 0, msiVecLog := finOf 6 (if fld w 4 3 ≤ 5 then fld w 4 3 else 5) }
        | .msiAddrLo => { p with msiAddr := BitVec.ofNat 64 (p.msiAddr.toNat / 2 ^ 32 * 2 ^ 32 + (w &&& 0xFFFFFFFC).toNat) }
        | .msiAddrHi => { p with msiAddr := BitVec.ofNat 64 (w.toNat * 2 ^ 32 + p.msiAddr.toNat % 2 ^ 32) }
        | .msiData => { p with msiData := v.setWidth 16 }
        | .msiMask => { p with msiMask := w }
        | .msixControl => { p with msixEn := w.getLsbD 15, msixMask := w.getLsbD 14 }
        | .devControl => { p with devControl := v.setWidth 16 }
        | .other => p
      { h with pcie := p }).flushSignals

/-- An access to BAR1 abandoned after 10 µs: TIMEOUT, and the error response of the interface (R58, R59). The read of SPI
answers one word: a burst that is cut short answers zeros throughout. -/
def State.abandoned (s : State) (write : Bool) (off : Nat) : State :=
  if !s.hostServed then s
  else
    let s1 := s.hostErr hTimeout true write off
    if s.pwr.hifsel = 1 then s1.parEnd (if write then none else some 0) true
    else if s.pwr.hifsel = 2 then
      (if write then s1.updHif fun h => { h with spiPrevErr := true } else s1.spiAnswer 1 none)
    else s1

end Sys2Proof.Machine
end

