-- ==== Sys2Proof/Machine/Operands.lean ====
section
/-!
DEFINITION. Brigil syllables (chapters 15 and 16): the fields of every operand format, which encodings are legal, and
which registers a syllable reads and writes.
-/
namespace Sys2Proof.Machine

/-- A syllable without its stop bit: unit (0 A, 1 D, 2 Q, 3 C), opcode, operands (R470). -/
abbrev Syl := BitVec 2 × BitVec 6 × BitVec 23

/-- Unit, opcode and operands of a syllable. -/
def Syl.unit (y : Syl) : Nat := y.1.toNat
def Syl.op (y : Syl) : Nat := y.2.1.toNat
def Syl.ops (y : Syl) : BitVec 23 := y.2.2

/-- The word of a syllable (R470). -/
def Syl.word (y : Syl) (stop : Bool) : W32 :=
  bitAt 32 31 stop ||| place (Syl.unit y) 29 2 ||| place (Syl.op y) 23 6 ||| (Syl.ops y).setWidth 32

/-- The syllable that a word of IMEM holds (R470). -/
def Syl.ofWord (w : W32) : Syl := (w.extractLsb' 29 2, w.extractLsb' 23 6, w.setWidth 23)

/-- The opcode is assigned in its unit and served, so that the table has a row for it (R500, R501, R503, R505, R509). -/
def Syl.assigned (y : Syl) : Bool :=
  let op := Syl.op y
  match Syl.unit y with
  | 0 => op ≤ 0x05 || (0x10 ≤ op && op ≤ 0x18) || (0x20 ≤ op && op ≤ 0x24)
  | 1 => op ≤ 0x25 || (0x28 ≤ op && op ≤ 0x2A) || (0x30 ≤ op && op ≤ 0x35)
  | 2 => op ≤ 0x04 || (0x10 ≤ op && op ≤ 0x12)
  | _ => op ≤ 0x11 || (0x30 ≤ op && op ≤ 0x3D)

/-! ### Fields (R495) -/

/-- Register fields. -/
def r1 (o : BitVec 23) : Nat := fld o 18 5
def r2 (o : BitVec 23) : Nat := fld o 13 5
def r3 (o : BitVec 23) : Nat := fld o 8 5
/-- Function bits of format R3. -/
def fn (o : BitVec 23) : Nat := fld o 0 8
/-- A signed field of `w` bits from bit 0, as a 32-bit word. -/
def simm (o : BitVec 23) (w : Nat) : W32 :=
  let v := fld o 0 w
  if v < 2 ^ (w - 1) then BitVec.ofNat 32 v else BitVec.ofNat 32 (v + 2 ^ 32 - 2 ^ w)
/-- An unsigned field of `w` bits from bit 0. -/
def uimm (o : BitVec 23) (w : Nat) : W32 := BitVec.ofNat 32 (fld o 0 w)
/-- POS and W of format FLD. -/
def fPos (o : BitVec 23) : Nat := fld o 8 5
def fW (o : BitVec 23) : Nat := fld o 3 5 + 1
/-- P of format M. -/
def mP (o : BitVec 23) : Bool := o.getLsbD 12
/-- COND of format B19. -/
def bCond (o : BitVec 23) : Nat := fld o 19 4

/-! ### Kinds of A-unit access (R499, R500) -/

/-- A load or store: bytes, whether it is a store, whether it is a rotate load. -/
structure MemOp where
  size : Nat
  store : Bool
  rot : Bool
deriving DecidableEq, Repr

/-- The access of an A-unit opcode. -/
def memOp (op : Nat) : Option MemOp :=
  match op with
  | 0x10 | 0x11 => some ⟨1, false, false⟩
  | 0x12 | 0x13 => some ⟨2, false, false⟩
  | 0x14 | 0x16 => some ⟨4, false, false⟩
  | 0x15 => some ⟨8, false, false⟩
  | 0x17 => some ⟨2, false, true⟩
  | 0x18 => some ⟨4, false, true⟩
  | 0x20 => some ⟨1, true, false⟩
  | 0x21 => some ⟨2, true, false⟩
  | 0x22 | 0x24 => some ⟨4, true, false⟩
  | 0x23 => some ⟨8, true, false⟩
  | _ => none

/-- The scale of an access's offset: rotate loads count bytes. -/
def MemOp.scale (m : MemOp) : Nat := if m.rot then 1 else m.size

/-! ### Legal encodings (R468, R473, R496) -/

/-- A-unit syllables. -/
def legalA (op : Nat) (o : BitVec 23) : Bool :=
  match op with
  | 0x00 | 0x01 => r1 o < 16 && r2 o < 16 && r3 o < 16 && fn o = 0
  | 0x02 => r1 o < 16 && r2 o < 16
  | 0x03 => r1 o < 16 && r2 o < 16 && fld o 0 5 = 0
  | 0x04 | 0x05 => r1 o < 16 && fld o 16 2 = 0
  | 0x10 | 0x11 | 0x12 | 0x13 | 0x14 | 0x17 | 0x18 | 0x20 | 0x21 | 0x22 => r2 o < 16
  | 0x15 | 0x23 => r2 o < 16 && r1 o % 2 = 0
  | 0x16 | 0x24 => r1 o < 16 && r2 o < 16
  | _ => false

/-- D-unit syllables. -/
def legalD (op : Nat) (o : BitVec 23) : Bool :=
  if op < 0x10 || (0x28 ≤ op && op ≤ 0x2A) then fld o 0 7 = 0
  else match op with
  | 0x10 | 0x11 | 0x12 | 0x13 => true
  | 0x14 | 0x15 | 0x16 | 0x17 => fld o 0 12 ≤ 31
  | 0x18 => r1 o = 0 && fn o = 0
  | 0x19 => r1 o = 0 && !o.getLsbD 12
  | 0x1A => true
  | 0x1B | 0x1C => fld o 16 2 = 0
  | 0x1D | 0x1E | 0x1F => fld o 0 3 = 0 && fPos o + fW o ≤ 32
  | 0x20 | 0x21 | 0x22 | 0x23 | 0x24 | 0x25 => r3 o = 0 && fld o 0 7 = 0
  | 0x30 | 0x31 | 0x32 => r1 o < 4 && fn o = 0
  | 0x33 => r1 o < 4 && fld o 0 18 = 0
  | 0x34 => r1 o < 4 && fld o 0 13 = 0
  | 0x35 => r2 o < 4 && fld o 6 6 ≤ 40 && fld o 0 6 = 0
  | _ => false

/-- Format Q: one of r2 and HQ is reserved, as X directs (R503). -/
def legalHq (o : BitVec 23) : Bool := fld o 8 4 = 0 && (if o.getLsbD 12 then fld o 0 8 = 0 else r2 o = 0)

/-- Q-unit syllables. -/
def legalQ (op : Nat) (o : BitVec 23) : Bool :=
  match op with
  | 0x00 => r1 o < 16 && fld o 0 13 = 0
  | 0x01 => r2 o < 16 && fld o 0 13 = 0
  | 0x02 => fld o 0 13 = 0
  | 0x03 => r1 o < 16 && r2 o < 16 && fld o 0 13 = 0
  | 0x04 => fld o 0 4 = 0 && fld o 4 4 ≠ 15
  | 0x10 | 0x11 => r1 o % 4 = 0 && legalHq o
  | 0x12 => legalHq o
  | _ => false

/-- C-unit syllables, the coprocessor block among them. -/
def legalC (op : Nat) (o : BitVec 23) : Bool :=
  match op with
  | 0x00 => bCond o ≠ 15
  | 0x01 | 0x02 | 0x03 => true
  | 0x04 => bCond o = 0
  | 0x05 | 0x06 | 0x0A | 0x0D => fld o 0 18 = 0
  | 0x07 | 0x08 | 0x0E => o = 0
  | 0x09 => fld o 10 12 = 0 && (!o.getLsbD 22 || fld o 0 10 = 0)
  | 0x0B => fld o 0 13 = 0
  | 0x0C | 0x0F => fld o 16 7 = 0
  | 0x10 => fld o 0 13 = 0 && r2 o < 8
  | 0x11 => fld o 0 13 = 0 && r2 o < 8 && r2 o ≠ 1
  | 0x30 => r1 o = 0 && fld o 6 2 ≠ 3 && fld o 0 3 = 0
  | 0x31 => fld o 1 7 = 0
  | 0x32 => r3 o = 0 && fld o 3 5 = 0
  | 0x33 => fn o = 0
  | 0x34 | 0x35 => fld o 4 4 ≠ 0 && fld o 0 1 = 0
  | 0x36 => fld o 0 1 = 0
  | 0x37 => fld o 0 2 = 0
  | 0x38 => r1 o = 0 && r3 o = 0 && fld o 0 7 = 0
  | 0x39 => r1 o = 0 && r3 o = 0 && fn o = 0
  | 0x3A | 0x3B | 0x3C => r1 o = 0 && fn o = 0
  | 0x3D => r3 o = 0 && fld o 1 7 = 0
  | 0x3E | 0x3F => true
  | _ => false

/-- The encoding of a syllable is legal. -/
def Syl.legal (y : Syl) : Bool :=
  match Syl.unit y with
  | 0 => legalA (Syl.op y) (Syl.ops y)
  | 1 => legalD (Syl.op y) (Syl.ops y)
  | 2 => legalQ (Syl.op y) (Syl.ops y)
  | _ => legalC (Syl.op y) (Syl.ops y)

/-! ### Registers read and written (R466, R467, R497) -/

/-- Numbers of the registers: A 0–15, D 16–47, AC 48–51, then the special registers from 52. -/
def regD (n : Nat) : Nat := 16 + n
def regAc (n : Nat) : Nat := 48 + n
def regSp (n : Nat) : Nat := 52 + n

/-- SR is written by this D-unit encoding: Z, N, C and V with F = 1 or by a compare, SATS by the saturating operations
(R497). -/
def dWritesSr (op : Nat) (o : BitVec 23) : Bool :=
  match op with
  | 0x18 | 0x19 | 0x0E | 0x0F | 0x24 | 0x35 => true
  | _ =>
    if op < 0x10 || (0x20 ≤ op && op ≤ 0x25) || (0x28 ≤ op && op ≤ 0x2A) then o.getLsbD 7
    else if 0x10 ≤ op && op ≤ 0x17 then o.getLsbD 12 else false

/-- Registers that a syllable writes. -/
def Syl.writes (y : Syl) : List Nat :=
  let o := Syl.ops y
  let op := Syl.op y
  match Syl.unit y with
  | 0 =>
    match memOp op with
    | none => [r1 o]
    | some m =>
      (if m.store then [] else if op = 0x16 then [r1 o] else if op = 0x15 then [regD (r1 o), regD (r1 o + 1)] else [regD (r1 o)]) ++
        (if mP o then [r2 o] else [])
  | 1 =>
    (if op = 0x18 || op = 0x19 then [] else if 0x30 ≤ op && op ≤ 0x34 then [regAc (r1 o)] else [regD (r1 o)]) ++
      (if dWritesSr op o then [regSp 2] else [])
  | 2 =>
    match op with
    | 0x00 | 0x03 => [r1 o]
    | 0x10 => []
    | 0x11 => [regD (r1 o), regD (r1 o + 1), regD (r1 o + 2), regD (r1 o + 3)]
    | _ => [regD (r1 o)]
  | _ =>
    match op with
    | 0x03 | 0x0A | 0x0B | 0x10 | 0x31 | 0x32 | 0x33 | 0x34 | 0x35 | 0x36 | 0x3D => [regD (r1 o)]
    | 0x04 | 0x05 => [regSp 0]
    | 0x08 => [regSp 0, regSp 2]
    | 0x11 => [regSp (r2 o)]
    | _ => []

/-- D registers that a syllable reads; what a bundle's dependence on an accelerator result needs (R474, R507). -/
def Syl.readsD (y : Syl) : List Nat :=
  let o := Syl.ops y
  let op := Syl.op y
  match Syl.unit y with
  | 0 =>
    match op with
    | 0x03 => [r3 o]
    | 0x20 | 0x21 | 0x22 => [r1 o]
    | 0x23 => [r1 o, r1 o + 1]
    | _ => []
  | 1 =>
    if op < 0x10 || op = 0x18 || (0x28 ≤ op && op ≤ 0x2A) || (0x30 ≤ op && op ≤ 0x32) then [r2 o, r3 o]
    else if op = 0x1C then [r1 o]
    else if op = 0x1F then [r1 o, r2 o]
    else if op = 0x1A || op = 0x1B || op = 0x33 || op = 0x35 then []
    else [r2 o]
  | 2 =>
    match op with
    | 0x00 | 0x02 => [r2 o]
    | 0x04 => [r2 o, r3 o]
    | 0x10 => [r1 o, r1 o + 1, r1 o + 2, r1 o + 3] ++ (if o.getLsbD 12 then [r2 o] else [])
    | 0x11 | 0x12 => if o.getLsbD 12 then [r2 o] else []
    | _ => []
  | _ =>
    match op with
    | 0x01 | 0x02 | 0x03 | 0x05 | 0x06 | 0x0D | 0x11 => [r1 o]
    | 0x0B => [r2 o]
    | _ => []

/-- No number occurs twice. -/
def noRepeat : List Nat → Bool
  | [] => true
  | x :: r => !r.contains x && noRepeat r

/-- Units strictly rise. -/
def unitsRise : List Syl → Bool
  | [] => true
  | [_] => true
  | x :: y :: r => Syl.unit x < Syl.unit y && unitsRise (y :: r)

/-- The bundle rules of R467 and R472 that a complete bundle can break. -/
def bundleOk (ys : List Syl) : Bool := unitsRise ys && noRepeat (ys.flatMap Syl.writes)

/-- The coprocessor block (R493). -/
def Syl.isCop (y : Syl) : Bool := Syl.unit y = 3 && 0x30 ≤ Syl.op y

/-- A syllable that a repeated bundle may not hold (R486). -/
def Syl.forbidden (y : Syl) : Bool := Syl.unit y = 3 && (Syl.op y ≤ 0x0B || Syl.op y = 0x0F)

end Sys2Proof.Machine
end

