-- ==== Sys2Proof/Machine/Flags.lean ====
section
/-!
DEFINITION. The results and flags of the D unit, the accumulators, the conditions (R464, R497, R498, R501, R502).
-/
namespace Sys2Proof.Machine

/-- Flags of SR. -/
structure Flags where
  z : Bool
  n : Bool
  c : Bool
  v : Bool
  sats : Bool
deriving DecidableEq, Repr

/-- The flags held in SR (R468). -/
def flagsOf (sr : W32) : Flags := ⟨sr.getLsbD 0, sr.getLsbD 1, sr.getLsbD 2, sr.getLsbD 3, sr.getLsbD 7⟩

/-- The RW fields of SR. -/
def srRw : W32 := 0x8F

/-- SR with its RW fields replaced. -/
def srPut (sr v : W32) : W32 := (sr &&& ~~~srRw) ||| (v &&& srRw)

/-- The RW fields as SR holds them. -/
def Flags.word (f : Flags) : W32 := bitAt 32 0 f.z ||| bitAt 32 1 f.n ||| bitAt 32 2 f.c ||| bitAt 32 3 f.v ||| bitAt 32 7 f.sats

/-- The conditions of B and SEL (R498). -/
def condHolds (c : Nat) (f : Flags) : Bool :=
  match c with
  | 0 => true
  | 1 => f.z
  | 2 => !f.z
  | 3 => f.c
  | 4 => !f.c
  | 5 => f.n
  | 6 => !f.n
  | 7 => f.v
  | 8 => !f.v
  | 9 => f.c && !f.z
  | 10 => !f.c || f.z
  | 11 => f.n == f.v
  | 12 => f.n != f.v
  | 13 => !f.z && f.n == f.v
  | 14 => f.z || f.n != f.v
  | _ => false

/-- What a D-unit operation gives: the result, and the flags it would write. -/
structure Alu where
  r : W32
  c : Bool
  v : Bool
  sat : Bool

/-- A result that leaves C and V unchanged. -/
def aluLogic (r : W32) (f : Flags) : Alu := ⟨r, f.c, f.v, false⟩

/-- Addition. -/
def aluAdd (a b : W32) : Alu :=
  ⟨a + b, decide (2 ^ 32 ≤ a.toNat + b.toNat), decide ((a + b).toInt ≠ a.toInt + b.toInt), false⟩

/-- Subtraction: C is 1 when there is no borrow. -/
def aluSub (a b : W32) : Alu := ⟨a - b, decide (b.toNat ≤ a.toNat), decide ((a - b).toInt ≠ a.toInt - b.toInt), false⟩

/-- A signed value saturated to 32 bits, and whether it was. -/
def sat32 (i : Int) : W32 × Bool :=
  if i < -(2 ^ 31) then (0x80000000, true) else if 2 ^ 31 ≤ i then (0x7FFFFFFF, true) else (BitVec.ofInt 32 i, false)

/-- A saturating result: C unchanged, V set when it saturated. -/
def aluSat (i : Int) (f : Flags) : Alu := ⟨(sat32 i).1, f.c, (sat32 i).2, (sat32 i).2⟩

/-- Shifts by 0–63: the result and the last bit shifted out; a shift of 0 leaves C. -/
def aluShl (a : W32) (k : Nat) (f : Flags) : Alu :=
  ⟨a <<< k, if k = 0 then f.c else k ≤ 32 && a.getLsbD (32 - k), f.v, false⟩
def aluShr (a : W32) (k : Nat) (f : Flags) : Alu :=
  ⟨a >>> k, if k = 0 then f.c else a.getLsbD (k - 1), f.v, false⟩
def aluSar (a : W32) (k : Nat) (f : Flags) : Alu :=
  ⟨a.sshiftRight k, if k = 0 then f.c else if 32 < k then a.getLsbD 31 else a.getLsbD (k - 1), f.v, false⟩
def aluRor (a : W32) (k : Nat) (f : Flags) : Alu :=
  ⟨a.rotateRight k, if k = 0 then f.c else a.getLsbD (k - 1), f.v, false⟩

/-- Leading zeros. -/
def clz32 (a : W32) : Nat := ((List.range 32).find? fun i => a.getLsbD (31 - i)).getD 32
/-- Ones. -/
def popc32 (a : W32) : Nat := ((List.range 32).filter fun i => a.getLsbD i).length
/-- Byte order reversed. -/
def bswap (a : W32) : W32 := BitVec.ofNat 32 (beNat (leBytes 4 a.toNat))
/-- Bytes swapped within each halfword. -/
def bswaph (a : W32) : W32 := ((a &&& 0x00FF00FF) <<< 8) ||| ((a >>> 8) &&& 0x00FF00FF)

/-- The operations of format R3 with two sources, by opcode (R501). -/
def aluR3 (op : Nat) (a b : W32) (f : Flags) : Alu :=
  match op with
  | 0x00 => aluAdd a b
  | 0x01 => aluSub a b
  | 0x02 => aluLogic (a &&& b) f
  | 0x03 => aluLogic (a ||| b) f
  | 0x04 => aluLogic (a ^^^ b) f
  | 0x05 => aluLogic (a &&& ~~~b) f
  | 0x06 => aluShl a (b.toNat % 64) f
  | 0x07 => aluShr a (b.toNat % 64) f
  | 0x08 => aluSar a (b.toNat % 64) f
  | 0x09 => aluRor a (b.toNat % 32) f
  | 0x0A => aluLogic (if a.toInt ≤ b.toInt then a else b) f
  | 0x0B => aluLogic (if a.toInt ≤ b.toInt then b else a) f
  | 0x0C => aluLogic (if a.toNat ≤ b.toNat then a else b) f
  | 0x0D => aluLogic (if a.toNat ≤ b.toNat then b else a) f
  | 0x0E => aluSat (a.toInt + b.toInt) f
  | 0x0F => aluSat (a.toInt - b.toInt) f
  | 0x28 => aluLogic (a * b) f
  | 0x29 => aluLogic (BitVec.ofInt 32 (a.toInt * b.toInt / 2 ^ 32)) f
  | _ => aluLogic (BitVec.ofNat 32 (a.toNat * b.toNat / 2 ^ 32)) f

/-- The operations of format I12 (R501). -/
def aluI12 (op : Nat) (a : W32) (o : BitVec 23) (f : Flags) : Alu :=
  match op with
  | 0x10 => aluAdd a (simm o 12)
  | 0x11 => aluLogic (a &&& uimm o 12) f
  | 0x12 => aluLogic (a ||| uimm o 12) f
  | 0x13 => aluLogic (a ^^^ uimm o 12) f
  | 0x14 => aluShl a (fld o 0 12) f
  | 0x15 => aluShr a (fld o 0 12) f
  | 0x16 => aluSar a (fld o 0 12) f
  | _ => aluRor a (fld o 0 12) f

/-- The operations of format R3 with one source (R501). -/
def aluOne (op : Nat) (a : W32) (f : Flags) : Alu :=
  match op with
  | 0x20 => aluLogic (BitVec.ofNat 32 (clz32 a)) f
  | 0x21 => aluLogic (BitVec.ofNat 32 (popc32 a)) f
  | 0x22 => aluLogic (bswap a) f
  | 0x23 => aluLogic (bswaph a) f
  | 0x24 => aluSat (absN a.toInt) f
  | _ => aluSub 0 a

/-- The flags after an operation: Z, N, C, V when it writes them, SATS whenever it saturated (R497). -/
def Alu.flags (x : Alu) (set : Bool) (f : Flags) : Flags :=
  let g := if set then { f with z := x.r == 0, n := x.r.getLsbD 31, c := x.c, v := x.v } else f
  { g with sats := f.sats || x.sat }

/-- EXTU, EXTS and INS (R501). -/
def extu (a : W32) (pos w : Nat) : W32 := BitVec.ofNat 32 (fld a pos w)
def exts (a : W32) (pos w : Nat) : W32 :=
  let v := fld a pos w
  if v < 2 ^ (w - 1) then BitVec.ofNat 32 v else BitVec.ofNat 32 (v + 2 ^ 32 - 2 ^ w)
def insField (d a : W32) (pos w : Nat) : W32 :=
  let m := BitVec.ofNat 32 ((2 ^ w - 1) * 2 ^ pos)
  (d &&& ~~~m) ||| ((a <<< pos) &&& m)

/-- Accumulator arithmetic, modulo 2^72 (R502). -/
def macOp (op : Nat) (ac : W72) (a b : W32) : W72 :=
  match op with
  | 0x30 => ac + BitVec.ofInt 72 (a.toInt * b.toInt)
  | 0x31 => ac + BitVec.ofNat 72 (a.toNat * b.toNat)
  | _ => ac - BitVec.ofInt 72 (a.toInt * b.toInt)

/-- ACEXT: the exact rounded sum, shifted, saturated (R501, R502). -/
def acExtract (ac : W72) (sh : Nat) (rnd : Bool) : W32 × Bool :=
  sat32 ((ac.toInt + (if rnd && 1 ≤ sh then 2 ^ (sh - 1) else 0)) / 2 ^ sh)

end Sys2Proof.Machine
end

