-- ==== Sys2Proof/Machine/EngBus.lean ====
section
/-!
DEFINITION. The address space of an engine (R23, R24, R82, R185, R186, R499): which accesses trap, what a load returns
and what a store does in every region, register by register.
-/
namespace Sys2Proof.Machine

/-- Vector numbers of the traps (R487). -/
abbrev vIllegal : Nat := 1
abbrev vXop : Nat := 2
abbrev vMisalign : Nat := 3
abbrev vBusErr : Nat := 4
abbrev vEcc : Nat := 5
abbrev vWatchdog : Nat := 6
abbrev vBreak : Nat := 7

/-- Bases and sizes of an engine's regions (R23). -/
abbrev imemSize : Nat := 0x10000
abbrev dmemBase : Nat := 0x10000
abbrev dmemSize : Nat := 0x8000

/-- Some granted window of the cluster holds a range of shared memory, read-write for a write (R25). -/
def Cluster.shmReach (k : Cluster) (off n : Nat) (write : Bool) : Bool :=
  (allFin 8).any fun i =>
    let w := Vec.at k.windows i
    w.len ≠ 0 && w.base ≤ off && off + n ≤ w.base + w.len && (!write || w.rw)

/-- The object of the port and queue window region at an address. -/
inductive Win where
  | hq (h : Fin 256) (off : Nat)
  | port (p : Fin 12) (off : Nat)
  | can (n : Fin 4) (off : Nat)
  | pio (k : Fin 8) (off : Nat)
deriving DecidableEq, Repr

/-- The window that holds an address (R185). -/
def winAt (a : Nat) : Option Win :=
  if a < 0x40000000 then none
  else if a < 0x40004000 then some (.hq (hqOf ((a - 0x40000000) / 0x40)) (a % 0x40))
  else if 0x48000000 ≤ a && a < 0x48000C00 then some (.port (finOf 12 ((a - 0x48000000) / 0x100)) (a % 0x100))
  else if 0x49000000 ≤ a && a < 0x49000400 then some (.can (finOf 4 ((a - 0x49000000) / 0x100)) (a % 0x100))
  else if 0x4A000000 ≤ a && a < 0x4A000800 then some (.pio (finOf 8 ((a - 0x4A000000) / 0x100)) (a % 0x100))
  else none

/-- The cluster serves or owns the object of a window. -/
def State.winOwner (s : State) : Win → Option (Fin 4)
  | .hq h _ => s.hqServer h
  | .port p _ => (Vec.at s.port p).owner
  | .can n _ => (Vec.at s.can n).owner
  | .pio k _ => (Vec.at s.pio k).owner

/-- The object of the mailbox region at an address (R82). -/
inductive Box where
  | inb (e : Fin 16) (off : Nat)
  | outb (e : Fin 16) (off : Nat)
  | lock (e : Fin 16)
  | peek (e : Fin 16)
  | stat (e : Fin 16)
  | cmd (e : Fin 16)
  | s2h
deriving DecidableEq, Repr

/-- The mailbox object that an engine of cluster `c` addresses. -/
def boxAt (c : Fin 4) (a : Nat) : Option Box :=
  let e := fun (k : Nat) => engOf c (finOf 4 k)
  if a < 0x70000000 then none
  else
    let o := a - 0x70000000
    if o < 0x1000 then
      some (if o % 0x400 < 0x200 then .inb (e (o / 0x400)) (o % 0x400) else .outb (e (o / 0x400)) (o % 0x400 - 0x200))
    else if o < 0x1010 then some (.lock (e ((o - 0x1000) / 4)))
    else if o < 0x1020 then some (.peek (e ((o - 0x1010) / 4)))
    else if o < 0x1030 then some (.stat (e ((o - 0x1020) / 4)))
    else if o < 0x1040 then some (.cmd (e ((o - 0x1030) / 4)))
    else if o < 0x1044 then some .s2h
    else none

/-- The engine whose mailbox an object belongs to. -/
def Box.engine : Box → Option (Fin 16)
  | .inb e _ => some e
  | .outb e _ => some e
  | .lock e => some e
  | .peek e => some e
  | .stat e => some e
  | .cmd e => some e
  | .s2h => none

/-- Buffers take every size, registers word accesses only (R499). -/
def Box.buffer : Box → Bool
  | .inb _ _ => true
  | .outb _ _ => true
  | _ => false

/-- An engine may store to the object (R65, R66, R82); `v` is the word stored. -/
def State.boxStore (s : State) (e : Fin 16) (v : Nat) : Box → Bool
  | .inb f _ => f ≠ e && (Vec.at s.emb f).lock = Master.id (.eng e)
  | .outb f _ => f = e
  | .lock _ => true
  | .peek _ => false
  | .stat _ => false
  | .cmd f => f = e || v % 2 = 0 || (Vec.at s.emb f).lock = Master.id (.eng e)
  | .s2h => true

/-- The trap that an access of `n` bytes raises: MISALIGN first (R477), then BUSERR (R24, R82, R383, R499). -/
def State.busTrap (s : State) (e : Fin 16) (a : Nat) (m : MemOp) (v : Nat) : Option Nat :=
  let n := m.size
  let bus := fun (ok : Bool) => if ok then none else some vBusErr
  if !m.rot && a % n ≠ 0 then some vMisalign
  else if a < imemSize then bus (!m.store && !m.rot)
  else if a < dmemBase + dmemSize then bus (a + n ≤ dmemBase + dmemSize)
  else if 0x10000000 ≤ a && a < 0x10080000 then bus (a + n ≤ 0x10080000)
  else if 0x20000000 ≤ a && a < 0x20800000 then bus ((Vec.at s.cl (clOf e)).shmReach (a - 0x20000000) n m.store)
  else if m.rot then some vBusErr
  else if 0x40000000 ≤ a && a < 0x60000000 then
    match winAt a with
    | none => some vBusErr
    | some w =>
      bus (n = 4 && s.winOwner w == some (clOf e) &&
        (m.store || match w with
          | .pio k off => (s.pioLoadReg k off).isSome
          | _ => true))
  else if 0x60000000 ≤ a && a < 0x70000000 then bus (n = 4)
  else if 0x70000000 ≤ a && a < 0x80000000 then
    match boxAt (clOf e) a with
    | none => some vBusErr
    | some b =>
      bus ((b.buffer || n = 4) && (match b.engine with | some f => !s.checker f | none => true) &&
        (!m.store || s.boxStore e v b))
  else some vBusErr

/-! ### Cluster registers (R116, R188, R201, R215, R232, R324, R418, R483, R492, R523, R530, R534, R561) -/

/-- ENG_WDTk as read: KICK reads 0. -/
def Engine.wdtWord (g : Engine) : W32 := bitAt 32 31 g.wdtEn ||| g.wdtTimeout.setWidth 32

/-- SPBORROW (R530). -/
def Borrow.word (b : Borrow) : W32 :=
  bitAt 32 31 b.active ||| place b.phase.toNat 29 2 ||| place b.block 8 11

/-- A cluster register read by an engine, by offset from 0x6000_0000; an unlisted offset reads 0. -/
def State.clRegLoad (s : State) (e : Fin 16) (o : Nat) : W32 × State :=
  let c := clOf e
  let k := Vec.at s.cl c
  let g := Vec.at s.eng e
  if o = 0x100 then (k.pi.stat, s)
  else if 0x200 ≤ o && o < 0x220 then (Vec.atD k.qsel ((o - 0x200) / 4) 0, s)
  else if o = 0x300 then (s.tim.eng, tnsRead e s)
  else if o = 0x304 then (g.tnsHi, s)
  else if o = 0x308 then (g.tnsFrac.setWidth 32, s)
  else if o = 0x310 then (k.tsOffLo, s)
  else if o = 0x314 then (k.tsOffHi, s)
  else if o = 0x318 then (k.tsAt, s)
  else if o = 0x31C then (bitAt 32 31 k.tsBusy, s)
  else if o = 0x320 then (k.tstat, s)
  else if o = 0x330 then (s.tim.syncIn.stamp.setWidth 32, syncinRead e s)
  else if o = 0x334 then (g.syncAux, s)
  else if o = 0x400 then (s.pairStat c, s)
  else if o = 0x500 then (k.fioDi, s)
  else if o = 0x504 then (k.docmd.setWidth 32, s)
  else if o = 0x508 then (k.fioDostat, s)
  else if o = 0x50C then (s.fioSupply, s)
  else if 0x540 ≤ o && o < 0x5C0 then
    let d : Fin 8 := finOf 8 ((o - 0x540) / 0x10)
    if o % 0x10 = 0 then s.diRead e d else (Vec.atD (Vec.at g.diHold d) (o % 0x10 / 4 - 1) 0, s)
  else if 0x600 ≤ o && o < 0x610 then ((s.engineAs (engOf c (finOf 4 ((o - 0x600) / 4)))).wdtWord, s)
  else if 0x700 ≤ o && o < 0x720 then (Vec.atD k.spstall ((o - 0x700) / 4) 0, s)
  else if o = 0x720 then (k.borrow.word, s)
  else if o = 0x800 then (k.snapHdr, s)
  else if o = 0x900 then (k.avs.word, s)
  else if o = 0xA00 then (k.supdb, s)
  else if 0x2000 ≤ o && o < 0x4000 then (memWord (Vec.at k.snap 0) (o - 0x2000), s)
  else if 0x4000 ≤ o && o < 0x6000 then (memWord (Vec.at k.snap 1) (o - 0x4000), s)
  else (0, s)

/-- The outputs of a cluster, as FIO_DOCMD numbers them (R417). -/
def State.ownOutputs (s : State) (c : Fin 4) : Byte :=
  (allFin 8).foldl (fun w d => w ||| bitAt 8 d.1 ((Vec.at s.fio.do_ d).owner = some c)) 0

/-- TSMP_CTL written (R215). -/
def State.tsmpPost (s : State) (c : Fin 4) (v : W32) : State :=
  let k := Vec.at s.cl c
  if v.getLsbD 0 then
    s.postSample c ⟨k.tsOffHi.setWidth 64 <<< 32 ||| k.tsOffLo.setWidth 64, k.tsAt, v.getLsbD 1⟩
  else s

/-- PAIR_CMD.STATE_DONE (R323). -/
def State.stateDone (s : State) (c : Fin 4) : State :=
  if s.inPair c then s.updPc c fun q => { q with stateDone := true } else s

/-- ENG_WDTk written by engine `e` (R492): only engine k itself writes it. -/
def State.wdtWrite (s : State) (e : Fin 16) (k : Nat) (v : W32) : Host.Outcome State Fault Refusal :=
  if kOf e ≠ finOf 4 k then .next s
  else if fld v 24 6 ≠ 0 || (v.getLsbD 31 && fld v 0 24 = 0) then .fault (s.fwError 1 (clOf e).1)
  else .next (s.updEng e fun g => { g with
    wdtFired := g.wdtFired && !v.getLsbD 30
    wdtNs := if v.getLsbD 30 || (v.getLsbD 31 && !g.wdtEn) then 0 else g.wdtNs
    wdtEn := v.getLsbD 31, wdtTimeout := BitVec.ofNat 24 (fld v 0 24) })

/-- QSELi written (R188): an enabled register names a queue that the cluster serves. -/
def State.qselStore (s : State) (e : Fin 16) (i : Fin 8) (v : W32) : Host.Outcome State Fault Refusal :=
  if v &&& 0x7FFFFF00 ≠ 0 || (v.getLsbD 31 && s.hqServer (hqOf (fld v 0 8)) ≠ some (clOf e)) then
    .fault (s.fwError 1 (clOf e).1)
  else .next (qselWrite e i v s)

/-- The reserved fields of the read-only cluster registers (R116, R201, R324, R394, R418, R523, R530, R561). -/
def clRsv (o : Nat) : W32 :=
  if o = 0x100 then 0xFFF8FFF8
  else if o = 0x308 then 0xFFFF0000
  else if o = 0x400 then 0x007F0000
  else if o = 0x500 then 0xFF000000
  else if o = 0x508 then 0x7F000000
  else if o = 0x50C then 0x7FFF0000
  else if 0x540 ≤ o && o < 0x5C0 && o % 16 = 4 then 0x0000FFFE
  else if 0x700 ≤ o && o < 0x720 then 0x03FF0000
  else if o = 0x720 then 0x1FF800FF
  else if o = 0x900 then 0x0000FC00
  else 0

/-- A cluster register written by an engine. Reserved bits written 1 are the error of R9; read-only fields and unlisted
offsets ignore the write, and so does PAIR_STAT of a module that is not paired (R324). -/
def State.clRegStore (s : State) (e : Fin 16) (o : Nat) (v : W32) : Host.Outcome State Fault Refusal :=
  let c := clOf e
  let rsv := fun (m : W32) (t : State) => if v &&& m ≠ 0 then Host.Outcome.fault (s.fwError 1 c.1) else .next t
  if o = 0x104 then rsv 0xFFFFFFFE (if v.getLsbD 0 then s.piDone c else s)
  else if 0x200 ≤ o && o < 0x220 then s.qselStore e (finOf 8 ((o - 0x200) / 4)) v
  else if o = 0x310 then .next (s.updCl c fun k => { k with tsOffLo := v })
  else if o = 0x314 then .next (s.updCl c fun k => { k with tsOffHi := v })
  else if o = 0x318 then .next (s.updCl c fun k => { k with tsAt := v })
  else if o = 0x31C then rsv 0x7FFFFFFC (s.tsmpPost c v)
  else if o = 0x404 then
    if !s.inPair c then .next s
    else rsv 0xFFFFFFFC
      (let s1 := if v.getLsbD 1 then s.buildDone c else s
       if v.getLsbD 0 then s1.stateDone c else s1)
  else if o = 0x504 then rsv 0xFFFFFF00 (s.updCl c fun k => k.setDocmd s.ns (v.setWidth 8 &&& s.ownOutputs c))
  else if 0x600 ≤ o && o < 0x610 then s.wdtWrite e ((o - 0x600) / 4) v
  else if o = 0xA00 then rsv 0xFFFFFF80 (s.updCl c fun k => { k with supdb := k.supdb &&& ~~~v })
  else rsv (if o = 0x400 && !s.inPair c then 0 else clRsv o) s

/-! ### Port, queue, CAN and PIO windows -/

/-- WS_CFG (R258). -/
def State.wsCfg (s : State) (p : Fin 12) : W32 :=
  match s.drumAt p with
  | none => 0x88B5
  | some (c, r, side) =>
    let role := match r with
      | .controller => 1
      | .device => 2
      | .hub => 3
    bitAt 32 31 (s.started c) ||| place role 29 2 ||| bitAt 32 28 (side == .b) |||
      place (Vec.at s.cl c).dl.node 16 8 ||| place (Vec.at s.cl c).dl.etype 0 16

/-- A port window register (R146, R187, R258, R295). -/
def State.portLoad (s : State) (p : Fin 12) (o : Nat) : W32 :=
  let x := Vec.at s.port p
  let dl := (s.drumAt p).map fun (y : Fin 4 × DlRole × Side) => (Vec.at s.cl y.1).dl
  let br := match s.drumAt p with
    | some (c, _, .branch b) => some (Vec.at (Vec.at s.cl c).dl.branches b)
    | _ => none
  match o with
  | 0x00 => x.plink p
  | 0x04 => place x.mm.toNat 30 2 ||| bitAt 32 29 (x.pauseLeft != 0) ||| bitAt 32 28 x.xoff ||| x.pauseLeft.setWidth 32
  | 0x08 =>
    bitAt 32 31 x.gate.pending.isSome ||| bitAt 32 30 (!x.gate.active.isEmpty) ||| place x.gate.entry 8 8 ||| x.gate.gates.setWidth 32
  | 0x80 => s.wsCfg p
  | 0x84 => place x.ways.head.toNat 28 4 ||| place x.ways.base.toNat 8 11
  | 0x88 => place ((dl.bind (·.newest)).getD 0).toNat 16 16 ||| x.ways.dups.setWidth 32
  | 0x8C => x.ways.arr
  | 0x90 => x.ways.ldly
  | 0x94 => (dl.map (·.routeStat)).getD 0
  | 0x98 => (br.map (·.tgStat)).getD 0
  | 0x9C => (br.map (·.tgGuard)).getD 0
  | 0xA0 => bitAt 32 0 ((dl.map (·.evtPend)).getD false)
  | _ => 0

/-- The reserved fields of the read-only registers of a port window (R187, R258, R302). -/
def portRsv (o : Nat) : W32 :=
  match o with
  | 0x04 => 0x0FFF0000
  | 0x08 => 0x3FFF0000
  | 0x80 => 0x0F000000
  | 0x88 => 0x0000FF00
  | 0x94 => 0x00FF0000
  | _ => 0

/-- The reserved fields of the read-only registers of a CAN window (R366). -/
def canRsv (o : Nat) : W32 :=
  match o with
  | 0x00 => 0x03000000
  | 0x04 => 0x07000000
  | 0x08 => 0x008000FF
  | _ => 0

/-- A port window register written: WS_REC.BASE and WS_EVT.PEND are writable (R258). -/
def State.portStore (s : State) (p : Fin 12) (o : Nat) (v : W32) : Option State :=
  match o with
  | 0x84 =>
    if v &&& 0x0FF800FF ≠ 0 then none
    else some (s.updPort p fun x => { x with ways := { x.ways with base := BitVec.ofNat 11 (fld v 8 11) } })
  | 0xA0 =>
    if v &&& 0xFFFFFFFE ≠ 0 then none
    else match s.drumAt p with
      | some (c, _, _) => some (s.updDl c fun d => { d with evtPend := v.getLsbD 0 })
      | none => some s
  | o => if v &&& portRsv o ≠ 0 then none else some s

/-- POP0: the head goes to the loading engine's holding register (R186). -/
def State.hqPop (s : State) (e : Fin 16) (h : Fin 256) : W32 × State :=
  let (d, s1) := s.pop h
  (d.w0, s1.updEng e fun g => { g with hold := #v[d.w1, d.w2, d.w3] })

/-- A push is an error of engine firmware where its descriptor breaks R196 or R360, or names no free buffer (R160), or where
the queue is in the error of R196. A descriptor that an engine passes to a receive queue reads as a received one. In a queue
between engines its words after ADDR follow the unit that it is meant for, a port or a CAN controller, and are judged where
they reach that unit's queue (DEDUCED, log 102). -/
def State.pushOk (s : State) (c : Fin 4) (h : Fin 256) (d : Desc) : Bool :=
  !(Vec.at s.hq h).bad &&
  if h.1 < 96 then s.txDescOk c d
  else if h.1 < 144 then (Vec.at s.cl c).rxDescOk d && d.len ≤ d.size && !s.freeNames c d
  else if h.1 < 160 then
    if 2 ≤ h.1 % 4 then s.canDescOk c (finOf 4 ((h.1 - 144) / 4)) d else (Vec.at s.cl c).bufferOk d.w0.toNat 8
  else if s.isFbq h then s.fbqDescOk c d
  else (Vec.at s.cl c).bufferOk d.w0.toNat 8

/-- The error of engine firmware of a pushed descriptor, confined to the port or the controller whose queue it is, or to the
queue (R196, R360). -/
def State.pushError (s : State) (h : Fin 256) : Fault :=
  if h.1 < 144 then s.fwError 2 (if h.1 < 96 then h.1 / 8 else (h.1 - 96) / 4)
  else if h.1 < 160 then s.fwError 3 ((h.1 - 144) / 4)
  else s.fwError 7 h.1

/-- A descriptor pushed by an engine (R182, R196). -/
def State.engPush (s : State) (e : Fin 16) (h : Fin 256) (d : Desc) : Host.Outcome State Fault Refusal :=
  if s.pushOk (clOf e) h d then .next (s.push h d) else .fault (s.pushError h)

/-- What a pop leads to: one from a queue that is in the error of R196 has no stated result. -/
def State.popped (s : State) (h : Fin 256) (t : State) : Host.Outcome State Fault Refusal :=
  if (Vec.at s.hq h).bad then .fault (s.fwError 7 h.1) else .next t

/-- What a load leads to: one from POP0 of a queue is a pop (R186). -/
def State.loaded (s : State) (a : Nat) (t : State) : Host.Outcome State Fault Refusal :=
  if 0x40000000 ≤ a && a < 0x40004000 && a % 0x40 = 0x10 then s.popped (hqOf ((a - 0x40000000) / 0x40)) t else .next t

/-- What a unit's step leads to: one that took a free buffer from a queue in the error of R196 has no stated result. -/
def State.tookFrom (s t : State) : Host.Outcome State Fault Refusal :=
  match (allFin 256).find? fun h => (Vec.at s.hq h).bad && (Vec.at s.hq h).items != (Vec.at t.hq h).items with
  | some h => .fault (s.fwError 7 h.1)
  | none => .next t

/-- PUSH3: the staged words and this one go in as one descriptor. -/
def State.hqPush3 (s : State) (e : Fin 16) (h : Fin 256) (v : W32) : Host.Outcome State Fault Refusal :=
  let st := (Vec.at s.eng e).stage
  s.engPush e h ⟨Vec.at st 0, Vec.at st 1, Vec.at st 2, v⟩

/-- A load from a window. -/
def State.winLoad (s : State) (e : Fin 16) : Win → W32 × State
  | .hq h o =>
    if o = 0x10 then s.hqPop e h
    else if 0x14 ≤ o && o < 0x20 then (Vec.atD (Vec.at s.eng e).hold ((o - 0x14) / 4) 0, s)
    else if o = 0x20 then ((Vec.at s.hq h).stat, s)
    else (0, s)
  | .port p o => (s.portLoad p o, s)
  | .can n o =>
    let x := Vec.at s.can n
    ((match o with | 0x00 => x.cstat | 0x04 => x.cerr | 0x08 => x.ctdc | 0x0C => x.ctxb | _ => 0), s)
  | .pio k o => (s.pioLoadReg k o).getD (0, s)

/-- A store to a window. -/
def State.winStore (s : State) (e : Fin 16) (v : W32) : Win → Host.Outcome State Fault Refusal
  | .hq h o =>
    if o < 0x0C then .next (s.updEng e fun g => { g with stage := Vec.updN g.stage (o / 4) fun _ => v })
    else if o = 0x0C then s.hqPush3 e h v
    else if o = 0x20 then (if fld v 13 3 ≠ 0 then .fault (s.fwError 7 h.1) else .next (hqStatWrite h v s))
    else .next s
  | .port p o =>
    match s.portStore p o v with
    | some t => .next t
    | none => .fault (s.fwError 2 p.1)
  | .can n o =>
    if o = 0x0C then (if fld v 24 8 ≠ 0 then .fault (s.fwError 3 n.1) else .next (s.canAbortMask n (v.setWidth 8)))
    else if v &&& canRsv o ≠ 0 then .fault (s.fwError 3 n.1)
    else .next s
  | .pio k o =>
    match s.pioStoreReg k o v with
    | some t => .next t
    | none => .fault (s.fwError 4 k.1)

/-! ### Mailboxes (R65, R66, R68, R69, R82, R83) -/

/-- A load from the mailbox region. -/
def State.boxLoad (s : State) (e : Fin 16) (n : Nat) : Box → List Byte × State
  | .inb f o => (memReadN (Vec.at s.emb f).inBuf o n, s)
  | .outb f o => (memReadN (Vec.at s.emb f).outBuf o n, s)
  | .lock f => let (v, t) := s.lockRead (.eng e) (embLock f); (leBytes 4 v.toNat, t)
  | .peek f => (leBytes 4 (Vec.at s.emb f).lock.toNat, s)
  | .stat f => (leBytes 4 (Vec.at s.emb f).stat.toNat, s)
  | .cmd _ => (leBytes 4 0, s)
  | .s2h => (leBytes 4 0, s)

/-- A store to the mailbox region, which the map allows. -/
def State.boxPut (s : State) (e : Fin 16) (bs : List Byte) : Box → Host.Outcome State Fault Refusal
  | .inb f o =>
    if (Vec.at s.emb f).inFull then .fault (s.fwError 9 f.1)
    else .next (s.updEmb f fun x => { x with inBuf := memWriteN x.inBuf o bs })
  | .outb f o => .next (s.updEmb f fun x => { x with outBuf := memWriteN x.outBuf o bs })
  | .lock f =>
    if leNat bs / 256 ≠ 0 then .fault (s.fwError 9 f.1)
    else .next (s.lockWrite (.eng e) (embLock f) (BitVec.ofNat 32 (leNat bs)))
  | .peek _ => .next s
  | .stat _ => .next s
  | .cmd f => s.embCmd (.eng e) f (BitVec.ofNat 32 (leNat bs))
  | .s2h => .next (s.engS2h e (BitVec.ofNat 32 (leNat bs)))

/-! ### Loads and stores -/

/-- A load that does not trap at issue: the bytes, whether a word of them was uncorrectable, and the state after. -/
def State.busLoad (s : State) (e : Fin 16) (a n : Nat) : (List Byte × Bool) × State :=
  let g := Vec.at s.eng e
  let priv := fun (m : Mem) (bad : List Nat) (mem o : Nat) =>
    let hit := (wordsOf o n).filter bad.contains
    ((memReadN m o n, !hit.isEmpty), hit.foldl (fun t w => t.engUncorr e (engCode e) mem w) s)
  let word := fun (x : W32 × State) => ((leBytes 4 x.1.toNat, false), x.2)
  if a < imemSize then priv g.imem g.badI 2 a
  else if a < dmemBase + dmemSize then priv g.dmem g.badD 3 (a - dmemBase)
  else if a < 0x20000000 then s.rd (.spad (clOf e)) (engCode e) (a - 0x10000000) n
  else if a < 0x40000000 then s.rd .shm (engCode e) (a - 0x20000000) n
  else if a < 0x60000000 then
    match winAt a with
    | some w => word (s.winLoad e w)
    | none => ((leBytes n 0, false), s)
  else if a < 0x70000000 then word (s.clRegLoad e (a - 0x60000000))
  else match boxAt (clOf e) a with
    | some b => let (bs, t) := s.boxLoad e n b; ((bs, false), t)
    | none => ((leBytes n 0, false), s)

/-- A store to the DMEM of an engine: a partial write to an uncorrectable word is not performed and is reported (R525). -/
def State.dmemStore (s : State) (e : Fin 16) (o : Nat) (bs : List Byte) : State :=
  (wordChunks (bs.length + 1) o bs).foldl (fun s x =>
    let w := x.1 / 8
    if x.2.length = 8 then
      s.updEng e fun g => { g with dmem := memWriteN g.dmem x.1 x.2, badD := g.badD.filter (· ≠ w) }
    else if (Vec.at s.eng e).badD.contains w then s.engUncorr e (engCode e) 3 w
    else s.updEng e fun g => { g with dmem := memWriteN g.dmem x.1 x.2 }) s

/-- A store that does not trap. -/
def State.busStore (s : State) (e : Fin 16) (a : Nat) (bs : List Byte) : Host.Outcome State Fault Refusal :=
  if a < imemSize then .next s
  else if a < dmemBase + dmemSize then .next (s.dmemStore e (a - dmemBase) bs)
  else if a < 0x20000000 then .next (s.wr (.spad (clOf e)) (engCode e) (a - 0x10000000) bs)
  else if a < 0x40000000 then .next (s.wr .shm (engCode e) (a - 0x20000000) bs)
  else
    let v := BitVec.ofNat 32 (leNat bs)
    if a < 0x60000000 then
      match winAt a with
      | some w => s.winStore e v w
      | none => .next s
    else if a < 0x70000000 then s.clRegStore e (a - 0x60000000) v
    else match boxAt (clOf e) a with
      | some b => s.boxPut e bs b
      | none => .next s

end Sys2Proof.Machine
end

