-- ==== Sys2Proof/Machine/Copro.lean ====
section
/-!
DEFINITION. The protocol accelerator: what each operation computes, its reach of memory, its order rules and its context
(R506–R515).
-/
namespace Sys2Proof.Machine

/-! ### CRC (R510) -/

/-- The low `w` bits of a number in reverse order. -/
def revBits (w v : Nat) : Nat := (List.range w).foldl (fun acc i => 2 * acc + v / 2 ^ i % 2) 0

/-- One bit enters the running CRC. -/
def crcBit (w poly run : Nat) (b : Bool) : Nat :=
  let top := decide (run / 2 ^ (w - 1) % 2 = 1) != b
  let sh := run * 2 % 2 ^ w
  if top then sh ^^^ poly else sh

/-- One octet enters, its first bit as REFIN directs. -/
def crcByte (w poly : Nat) (refin : Bool) (run : Nat) (b : Byte) : Nat :=
  (List.range 8).foldl (fun r i => crcBit w poly r (b.getLsbD (if refin then i else 7 - i))) run

/-- The running CRC over octets, from the initial value when INIT is 1. -/
def CopCtx.crcRun (x : CopCtx) (init : Bool) (bs : List Byte) : CopCtx :=
  let poly := x.poly.toNat % 2 ^ x.width
  { x with run := BitVec.ofNat 32 (bs.foldl (crcByte x.width poly x.refin) ((if init then x.init else x.run).toNat % 2 ^ x.width)) }

/-- The finished value. -/
def CopCtx.crcOut (x : CopCtx) : W32 :=
  let v := x.run.toNat % 2 ^ x.width
  let v := if x.refout then revBits x.width v else v
  BitVec.ofNat 32 (if x.xorout then 2 ^ x.width - 1 - v else v)

/-! ### Ones'-complement sum (R511) -/

/-- Pairs of octets, the first one high, a trailing octet padded low. -/
def pairsOf : List Byte → List Nat
  | [] => []
  | [a] => [a.toNat * 256]
  | a :: b :: r => (a.toNat * 256 + b.toNat) :: pairsOf r

/-- A sum with end-around carry, folded to 16 bits. -/
def endAround (a b : Nat) : Nat := let t := a + b; if 0x10000 ≤ t then t - 0xFFFF else t

/-- CSUM from a partial sum. -/
def csum (partialSum : Nat) (bs : List Byte) : Nat := (pairsOf bs).foldl endAround partialSum

/-! ### Bit streams (R512, R513) -/

/-- The bits of octets, in the order within an octet that `msb` directs. -/
def bitsOf (msb : Bool) (bs : List Byte) : List Bool :=
  bs.flatMap fun b => (List.range 8).map fun i => b.getLsbD (if msb then 7 - i else i)

/-- An octet of up to 8 bits; missing bits are 0. -/
def octetOf (msb : Bool) (bits : List Bool) : Byte :=
  BitVec.ofNat 8 ((List.range 8).foldl (fun v i => v + if bits.getD i false then 2 ^ (if msb then 7 - i else i) else 0) 0)

/-- Whole octets of a bit stream; `n` bounds their number. -/
def packBits (msb : Bool) : Nat → List Bool → List Byte
  | 0, _ => []
  | n + 1, bits => if bits.isEmpty then [] else octetOf msb (bits.take 8) :: packBits msb n (bits.drop 8)

/-- The run that a stream ends in: its value and length. -/
structure Run where
  v : Bool
  n : Nat

/-- A bit joins the stream. -/
def Run.add (r : Run) (b : Bool) : Run := if r.n ≠ 0 && r.v = b then { r with n := r.n + 1 } else ⟨b, 1⟩

/-- The run asks for a stuff bit. -/
def Run.full (r : Run) (run : Nat) (both pol : Bool) : Bool := run ≤ r.n && (both || r.v = pol)

/-- STUFF: the output bits in reverse order. -/
def stuffBits (run : Nat) (both pol : Bool) : List Bool → Run → List Bool → List Bool
  | [], _, acc => acc
  | b :: rest, r, acc =>
    let r1 := r.add b
    if r1.full run both pol then stuffBits run both pol rest (r1.add (!r1.v)) ((!r1.v) :: b :: acc)
    else stuffBits run both pol rest r1 (b :: acc)

/-- UNSTUFF: the output bits in reverse order, and whether a stuff error ended it. `due`: the next bit is a stuff bit. -/
def unstuffBits (run : Nat) (both pol : Bool) : List Bool → Run → Bool → List Bool → List Bool × Bool
  | [], _, _, acc => (acc, false)
  | b :: rest, r, due, acc =>
    if due then (if b = r.v then (acc, true) else unstuffBits run both pol rest (r.add b) false acc)
    else
      let r1 := r.add b
      unstuffBits run both pol rest r1 (r1.full run both pol) (b :: acc)

/-- Fields of STUFF and UNSTUFF. -/
def stRun (o : BitVec 23) : Nat := fld o 4 4
def stBoth (o : BitVec 23) : Bool := o.getLsbD 3
def stPol (o : BitVec 23) : Bool := o.getLsbD 2
def stMsb (o : BitVec 23) : Bool := o.getLsbD 1

/-- The output of STUFF or UNSTUFF over a source: the octets written, the bits counted, a stuff error. -/
def stuffOut (op : Nat) (o : BitVec 23) (bits : Nat) (src : List Byte) : List Byte × Nat × Bool :=
  let inb := (bitsOf (stMsb o) src).take bits
  let (rev, err) :=
    if op = 0x34 then (stuffBits (stRun o) (stBoth o) (stPol o) inb ⟨false, 0⟩ [], false)
    else unstuffBits (stRun o) (stBoth o) (stPol o) inb ⟨false, 0⟩ false []
  (packBits (stMsb o) (rev.length / 8 + 1) rev.reverse, rev.length, err)

/-- Width, order and sign fields of FEXT and FINS. -/
def fxW (o : BitVec 23) : Nat := fld o 3 5 + 1
def fxBe (o : BitVec 23) : Bool := o.getLsbD 2

/-- The field of `w` bits at bit `off` of octets: in wire order, its first bit is the most significant (R513). -/
def fieldGet (be : Bool) (w off : Nat) (bs : List Byte) : Nat :=
  let bits := ((bitsOf be bs).drop off).take w
  if be then bits.foldl (fun v b => 2 * v + bit b) 0 else bits.foldr (fun b v => 2 * v + bit b) 0

/-- Octets with a field replaced. -/
def fieldPut (be : Bool) (w off v : Nat) (bs : List Byte) : List Byte :=
  (List.range bs.length).map fun i =>
    octetOf be ((List.range 8).map fun j =>
      let k := 8 * i + j
      if off ≤ k && k < off + w then v.testBit (if be then w - 1 - (k - off) else k - off)
      else (bs.getD i 0).getLsbD (if be then 7 - j else j))

/-! ### Reach of memory (R508) -/

/-- The first byte of a range outside the accelerator's reach; none when the whole range is in reach. -/
def State.copOutside (s : State) (e : Fin 16) (a n : Nat) (write : Bool) : Option Nat :=
  if n = 0 then none
  else if 0x10000000 ≤ a && a < 0x10080000 then (if a + n ≤ 0x10080000 then none else some 0x10080000)
  else if 0x20000000 ≤ a && a < 0x20800000 then
    let o := a - 0x20000000
    let stop := (allFin 8).foldl (fun m i =>
      let w := Vec.at (Vec.at s.cl (clOf e)).windows i
      if w.len ≠ 0 && w.base ≤ o && o < w.base + w.len && (!write || w.rw) then max m (w.base + w.len) else m) o
    if o + n ≤ stop then none else some (0x20000000 + stop)
  else some a

/-- Octets of a range without the effects of an access. -/
def State.copPeek (s : State) (e : Fin 16) (a n : Nat) : List Byte :=
  match memAt (clOf e) a with
  | some (r, o) => s.peek r o n
  | none => List.replicate n 0

/-- The first address of a range whose word is uncorrectable. -/
def State.copBad (s : State) (e : Fin 16) (a n : Nat) : Option Nat :=
  match memAt (clOf e) a with
  | some (r, o) => if s.memBad r o n then (List.range n).find? (fun i => s.memBad r (o + i) 1) |>.map (a + ·) else none
  | none => none

/-- Ranges that an operation reads and writes, as address, length and whether it writes. STUFF and UNSTUFF write what
their present source gives. -/
def State.copRanges (s : State) (e : Fin 16) (x : Cop) : List (Nat × Nat × Bool) :=
  let o := x.ops
  let S := x.s.toNat
  let T := x.t.toNat
  match x.opcode.toNat with
  | 0x31 | 0x33 => [(S, T, false)]
  | 0x34 | 0x35 =>
    let n := (x.d.toNat + 7) / 8
    [(S, n, false), (T, if 16384 < x.d.toNat then 0 else (stuffOut x.opcode.toNat o x.d.toNat (s.copPeek e S n)).1.length, true)]
  | 0x36 => [(S + T / 8, (T % 8 + fxW o + 7) / 8, false)]
  | 0x37 => [(S + T / 8, (T % 8 + fxW o + 7) / 8, true)]
  | 0x38 => [(S, if o.getLsbD 7 then 32 else 16, false)]
  | 0x39 => [(S, 12, false)]
  | 0x3A => [(S, T, false)]
  | 0x3B | 0x3C => [(S, T, true)]
  | 0x3D => [(S, 16, !o.getLsbD 0)]
  | _ => []

/-- Two ranges meet. -/
def rangesMeet (a n b m : Nat) : Bool := n ≠ 0 && m ≠ 0 && a < b + m && b < a + n

/-- The operation is an error of engine firmware (R515): a length above its limit, a GCM operation out of order or with no key in place, or
source and destination that overlap. -/
def State.copError (s : State) (e : Fin 16) (x : Cop) : Bool :=
  let k := (Vec.at s.eng e).ctx
  match x.opcode.toNat with
  | 0x31 | 0x33 => 65535 < x.t.toNat
  | 0x34 | 0x35 =>
    16384 < x.d.toNat || (match s.copRanges e x with
      | [(a, n, _), (b, m, _)] => rangesMeet a n b m
      | _ => false)
  | 0x3A => 65535 < x.t.toNat || k.key.isEmpty || k.gcm ≠ 1 || k.aadLen % 16 ≠ 0
  | 0x3B => 65535 < x.t.toNat || k.key.isEmpty || !(k.gcm = 1 || k.gcm = 2) || k.dataLen % 16 ≠ 0
  | 0x3C => 65535 < x.t.toNat || k.key.isEmpty || !(k.gcm = 1 || k.gcm = 3) || k.dataLen % 16 ≠ 0
  | 0x3D => k.key.isEmpty || k.gcm = 0
  | _ => false

/-- The first range out of reach, by its first byte outside. A destination too small for the output of STUFF or UNSTUFF
is the error of R515 and no bus error, once its first byte is in reach. -/
def State.copReach (s : State) (e : Fin 16) (x : Cop) : Option Nat :=
  let stuff := x.opcode = 0x34 || x.opcode = 0x35
  (s.copRanges e x).findSome? fun (a, n, w) => s.copOutside e a (if stuff && w then min n 1 else n) w

/-- The output of STUFF or UNSTUFF runs out of its destination. -/
def State.copTooSmall (s : State) (e : Fin 16) (x : Cop) : Bool :=
  (s.copRanges e x).any fun (a, n, w) => (s.copOutside e a n w).isSome

/-- The operation writes memory (R508). -/
def copWrites (op : Nat) (o : BitVec 23) : Bool :=
  match op with
  | 0x34 | 0x35 | 0x37 | 0x3B | 0x3C => true
  | 0x3D => !o.getLsbD 0
  | _ => false

/-- The operation has a result for Dd. -/
def copResult (op : Nat) : Bool :=
  match op with
  | 0x31 | 0x32 | 0x33 | 0x34 | 0x35 | 0x36 | 0x3D => true
  | _ => false

/-! ### Running an operation -/

/-- What an operation gives: the result, its writes, its context after. -/
structure CopOut where
  res : W32
  puts : List (Nat × List Byte)
  ctx : CopCtx

/-- An operation over its source octets (the first range, or the words of a field). -/
def copRun (x : Cop) (k : CopCtx) (src : List Byte) : CopOut :=
  let o := x.ops
  let S := x.s.toNat
  match x.opcode.toNat with
  | 0x30 =>
    let w := 8 * 2 ^ fld o 6 2
    ⟨0, [], { k with width := w, refin := o.getLsbD 5, refout := o.getLsbD 4, xorout := o.getLsbD 3, poly := x.s, init := x.t }⟩
  | 0x31 => let k1 := k.crcRun (o.getLsbD 0) src; ⟨k1.crcOut, [], k1⟩
  | 0x32 => let k1 := k.crcRun (o.getLsbD 2) ((leBytes 4 x.s.toNat).take (fld o 0 2 + 1)); ⟨k1.crcOut, [], k1⟩
  | 0x33 => ⟨BitVec.ofNat 32 (csum (x.d.toNat % 0x10000) src), [], k⟩
  | 0x34 | 0x35 =>
    let (bs, n, err) := stuffOut x.opcode.toNat o x.d.toNat src
    ⟨place n 0 31 ||| bitAt 32 31 err, [(x.t.toNat, bs)], k⟩
  | 0x36 =>
    let w := fxW o
    let v := fieldGet (fxBe o) w (x.t.toNat % 8) src
    ⟨BitVec.ofNat 32 (if o.getLsbD 1 && v.testBit (w - 1) then v + 2 ^ 32 - 2 ^ w else v), [], k⟩
  | 0x37 =>
    let a := S + x.t.toNat / 8
    ⟨0, [(a - a % 8, fieldPut (fxBe o) (fxW o) (8 * (a % 8) + x.t.toNat % 8) x.d.toNat src)], k⟩
  | 0x38 => ⟨0, [], { k with key := src, hsub := gcmSub src }⟩
  | 0x39 => ⟨0, [], { k with iv := BitVec.ofNat 96 (beNat src), ctr := 2, ghash := 0, aadLen := 0, dataLen := 0, gcm := 1 }⟩
  | 0x3A => ⟨0, [], { k with ghash := ghash k.hsub k.ghash src, aadLen := k.aadLen + src.length }⟩
  | 0x3B | 0x3C =>
    let out := gcmCtr k.key k.iv (src.length / 16 + 1) k.ctr src
    let enc := x.opcode = 0x3B
    let k1 := { k with
      ghash := ghash k.hsub k.ghash (if enc then out else src)
      ctr := k.ctr + BitVec.ofNat 32 ((src.length + 15) / 16)
      dataLen := k.dataLen + src.length
      gcm := if enc then 2 else 3 }
    ⟨0, [(S, out)], k1⟩
  | 0x3D =>
    let tag := gcmTag k.key k.hsub k.ghash k.iv k.aadLen k.dataLen
    let k1 := { k with gcm := 0 }
    if o.getLsbD 0 then ⟨if tag = src then 0 else 1, [], k1⟩ else ⟨0, [(S, tag)], k1⟩
  | _ => ⟨0, [], k⟩

/-- The source that an operation reads: FINS reads whole words, GCMTAG with CHECK = 0 reads nothing. -/
def State.copSource (s : State) (e : Fin 16) (x : Cop) : Nat × Nat :=
  match s.copRanges e x with
  | (a, n, w) :: _ =>
    if x.opcode = 0x37 then (a - a % 8, (a % 8 + n + 7) / 8 * 8)
    else if x.opcode = 0x3D && w then (a, 0) else (a, n)
  | [] => (0, 0)

/-- A write of the accelerator. -/
def State.copWrite (s : State) (e : Fin 16) (a : Nat) (bs : List Byte) : State := s.dmaWrite (clOf e) (engCode e) a bs

/-- An outstanding operation runs to its end: it abandons at an uncorrectable word (the failing address), else writes
memory, its context and Dd. -/
def State.copFinish (s : State) (e : Fin 16) (x : Cop) : Option Nat × State :=
  let s0 := s.updEng e fun g => { g with cop := none }
  let (a, n) := s0.copSource e x
  match (if n = 0 then none else s0.copBad e a n) with
  | some bad => (some bad, (s0.dmaRead (clOf e) (engCode e) a n).2)
  | none =>
    let ((src, _), s1) := if n = 0 then (([], false), s0) else s0.dmaRead (clOf e) (engCode e) a n
    let r := copRun x (Vec.at s1.eng e).ctx src
    let s2 := r.puts.foldl (fun t w => t.copWrite e w.1 w.2) s1
    (none, s2.updEng e fun g => { g with
      ctx := r.ctx
      d := if copResult x.opcode.toNat then Vec.updN g.d (r1 x.ops) fun _ => r.res else g.d })

end Sys2Proof.Machine
end

