-- ==== Sys2Proof/Machine/Engine.lean ====
section
/-!
DEFINITION. Bundles: fetch, the traps of a bundle and their order, the effect of each slot, repetition, waits, traps and
the trap frame, the watchdog, SEV (R464–R494).
-/
namespace Sys2Proof.Machine

/-- A D or A register by number. -/
def Engine.dAt (g : Engine) (n : Nat) : W32 := Vec.atD g.d n 0
def Engine.aAt (g : Engine) (n : Nat) : W32 := Vec.atD g.a n 0
/-- A D or A register written. -/
def Engine.setD (g : Engine) (n : Nat) (v : W32) : Engine := { g with d := Vec.updN g.d n fun _ => v }
def Engine.setA (g : Engine) (n : Nat) (v : W32) : Engine := { g with a := Vec.updN g.a n fun _ => v }
/-- A trap handler runs (SR.TRAP). -/
def Engine.inTrap (g : Engine) : Bool := g.sr.getLsbD 31
/-- The held RC write lands (R485). -/
def Engine.landRc (g : Engine) : Engine := { g with rc := g.rcHeld.getD g.rc, rcHeld := none }

/-! ### Stops and traps (R487–R492, R598) -/

/-- The module stops a personality for a fault of its engine and raises the alarm (R491, R492, R598). A paired module that its
health word now shows unfit withdraws first (R327). -/
def State.engineFatal (s : State) (e : Fin 16) (code : Nat) (data : W32) : State :=
  (((s.stopPersonality (clOf e)).alarm code (s.objAt 1 (clOf e).1) data true).settle).pairStopped

/-- What a trap reports: vector, fault address, syllable, unit (0xFF: none), repetitions left, bundles after a failed load. -/
structure Trap where
  vec : Nat
  fault : W32 := 0
  syll : W32 := 0
  slot : Nat := 0xFF
  rcnt : Nat := 0
  after : Nat := 0

/-- The octets of the trap frame (R489). -/
def Engine.frame (g : Engine) (t : Trap) (pc resume : W32) : List Byte :=
  leBytes 4 pc.toNat ++ leBytes 4 resume.toNat ++ leBytes 4 g.lk.toNat ++ leBytes 4 g.sr.toNat ++ leBytes 4 t.fault.toNat ++
    leBytes 4 t.syll.toNat ++ leBytes 2 t.rcnt ++ leBytes 1 t.vec ++ leBytes 1 t.slot ++ leBytes 1 t.after ++ leBytes 3 0

/-- Offset of the trap frame in DMEM. -/
abbrev frameOff : Nat := 0x7FE0

/-- An engine takes a trap (R488): the frame, TRAP and CAUSE, the vector. -/
def Engine.enter (g0 : Engine) (t : Trap) (pc resume : W32) : Engine :=
  let g := g0.landRc
  { g with
    dmem := memWriteN g.dmem frameOff (g.frame t pc resume)
    badD := g.badD.filter fun w => w < frameOff / 8
    sr := (g.sr &&& 0x0FFFFFFF) ||| bitAt 32 31 true ||| place t.vec 28 3
    pc := BitVec.ofNat 32 (32 * t.vec)
    rcnt := 0, fetched := [], wait := .none }

/-- A trap, or the double trap of R491. -/
def State.takeTrap (s : State) (e : Fin 16) (t : Trap) (pc resume : W32) : State :=
  let g := Vec.at s.eng e
  if g.inTrap then
    s.engineFatal e 0x0201 (place t.vec 12 3 ||| place (fld g.sr 28 3) 8 3 ||| place e.1 0 4)
  else s.updEng e fun g => g.enter t pc resume

/-- The bundle that would issue next: a waiting engine's is the wait itself (R487). -/
def Engine.resumePc (g : Engine) : W32 :=
  match g.wait with
  | .none => g.pc
  | .wfe _ a => a
  | .mwait _ a => a

/-- The watchdog's count reaches TIMEOUT and restarts (R492). The row WATCHDOG_TIMEOUT is the moment at which it does: the
rest of the count passes with it (log 1). -/
def State.watchdog (s : State) (e : Fin 16) : State :=
  let g := Vec.at s.eng e
  if !g.run || !g.wdtEn then s
  else
    let s1 := s.updPair fun p => { p with clOk := p.clOk &&& ~~~(bitAt 4 (clOf e).1 true) }
    if g.wdtFired || g.inTrap then s1.engineFatal e 0x0202 (place e.1 0 4)
    else ((s1.updEng e fun g => { g with wdtFired := true, wdtNs := 0 }).takeTrap e { vec := vWatchdog, rcnt := g.rcnt } g.resumePc g.resumePc).settle

/-- The watchdog of an engine counts one period of CK_TIME, 2 ns, while EN = 1 (R492). A checker shares its leader's. -/
def State.wdtTick (s : State) (e : Fin 16) : State :=
  let g := Vec.at s.eng e
  if !g.run || !g.wdtEn || g.wdtTimeout = 0 || s.checker e then s
  else if 1000 * g.wdtTimeout.toNat ≤ g.wdtNs + 2 then s.watchdog e
  else s.updEng e fun g => { g with wdtNs := g.wdtNs + 2 }

/-! ### SEV (R482) -/

/-- Windows of two clusters meet. -/
def Cluster.sharesWith (k m : Cluster) : Bool :=
  (allFin 8).any fun i => (allFin 8).any fun j =>
    rangesMeet (Vec.at k.windows i).base (Vec.at k.windows i).len (Vec.at m.windows j).base (Vec.at m.windows j).len

/-- SEV from an engine to the engines of a mask. -/
def State.sev (s : State) (e : Fin 16) (mask : Nat) : State :=
  (allFin 16).foldl (fun s t =>
    if !mask.testBit t.1 || s.checker t then s
    else if clOf t = clOf e || (s.started (clOf t) && (Vec.at s.cl (clOf e)).sharesWith (Vec.at s.cl (clOf t))) then s.evp t (16 + e.1)
    else s.cadd (clOf e) cSevDenied 1) s

/-! ### Special registers (R468, R469) -/

/-- MFS. -/
def Engine.mfs (g : Engine) (n : Nat) (pc : W32) : W32 :=
  match n with
  | 0 => g.lk
  | 1 => pc
  | 2 => g.sr
  | 3 => g.evp
  | 4 => g.evm
  | 5 => g.rc
  | 6 => g.ms
  | _ => g.xcfg

/-- Reserved bits of a special register. -/
def spReserved (n : Nat) : W32 :=
  match n with
  | 2 => 0x007FFF70
  | 5 => 0xFFFFF800
  | 7 => 0x0000FFFE
  | _ => 0

/-- MTS; in a repeated bundle a write of RC is held (R485). -/
def Engine.mts (g : Engine) (n : Nat) (v : W32) (rep : Bool) : Engine :=
  match n with
  | 0 => { g with lk := v }
  | 2 => { g with sr := srPut g.sr v }
  | 3 => { g with evp := g.evp &&& ~~~v }
  | 4 => { g with evm := v }
  | 5 => if rep then { g with rcHeld := some v } else { g with rc := v }
  | 6 => g.armMs v
  | 7 => { g with xcfg := v }
  | _ => g

/-! ### Slots. Each takes its operands from the engine as it stood before the bundle (R467). -/

/-- The address an access names; with P = 1 the base itself (R499). -/
def Engine.accessAddr (g : Engine) (m : MemOp) (o : BitVec 23) : Nat :=
  let b := g.aAt (r2 o)
  (if mP o then b else b + simm o 12 * BitVec.ofNat 32 m.scale).toNat

/-- The octets a store writes. -/
def Engine.storeBytes (g : Engine) (op : Nat) (o : BitVec 23) : List Byte :=
  match op with
  | 0x20 => leBytes 1 (g.dAt (r1 o)).toNat
  | 0x21 => leBytes 2 (g.dAt (r1 o)).toNat
  | 0x23 => leBytes 4 (g.dAt (r1 o)).toNat ++ leBytes 4 (g.dAt (r1 o + 1)).toNat
  | 0x24 => leBytes 4 (g.aAt (r1 o)).toNat
  | _ => leBytes 4 (g.dAt (r1 o)).toNat

/-- A loaded value lands in its destination. -/
def Engine.landLoad (g : Engine) (op : Nat) (o : BitVec 23) (bs : List Byte) : Engine :=
  let v := BitVec.ofNat 32 (leNat bs)
  match op with
  | 0x10 => g.setD (r1 o) (exts v 0 8)
  | 0x12 => g.setD (r1 o) (exts v 0 16)
  | 0x15 => (g.setD (r1 o) v).setD (r1 o + 1) (BitVec.ofNat 32 (leAt bs 4 4))
  | 0x16 => g.setA (r1 o) v
  | _ => g.setD (r1 o) v

/-- The destination registers of a load with their values. -/
def Engine.loadOld (g : Engine) (op : Nat) (o : BitVec 23) : List (Nat × W32) :=
  if op = 0x16 then [(r1 o, g.aAt (r1 o))]
  else if op = 0x15 then [(regD (r1 o), g.dAt (r1 o)), (regD (r1 o + 1), g.dAt (r1 o + 1))]
  else [(regD (r1 o), g.dAt (r1 o))]

/-- A-unit arithmetic (R500). -/
def Engine.aluA (g : Engine) (op : Nat) (o : BitVec 23) : W32 :=
  match op with
  | 0x00 => g.aAt (r2 o) + g.aAt (r3 o)
  | 0x01 => g.aAt (r2 o) - g.aAt (r3 o)
  | 0x02 => g.aAt (r2 o) + simm o 13
  | 0x03 => g.aAt (r2 o) + g.dAt (r3 o) <<< fld o 5 3
  | 0x04 => uimm o 16 <<< 16
  | _ => (g.aAt (r1 o) &&& 0xFFFF0000) ||| uimm o 16

/-- The base register after an access with P = 1. -/
def Engine.bumpBase (g old : Engine) (m : MemOp) (o : BitVec 23) : Engine :=
  if mP o then g.setA (r2 o) (old.aAt (r2 o) + simm o 12 * BitVec.ofNat 32 m.scale) else g

/-- The A slot. -/
def State.slotA (s : State) (e : Fin 16) (old : Engine) (op : Nat) (o : BitVec 23) : Host.Outcome State Fault Refusal :=
  match memOp op with
  | none => .next (s.updEng e fun g => g.setA (r1 o) (old.aluA op o))
  | some m =>
    let a := old.accessAddr m o
    if m.store then
      andThen (s.busStore e a (old.storeBytes op o)) fun t => .next (t.updEng e fun g => g.bumpBase old m o)
    else
      let ((bs, bad), t) := s.busLoad e a m.size
      s.loaded a (t.updEng e fun g =>
        let g1 := { g with loads := { pc := old.pc, addr := BitVec.ofNat 32 a, old := some (if bad then [] else old.loadOld op o) } :: g.loads.drop 1 }
        (if bad then g1 else g1.landLoad op o bs).bumpBase old m o)

/-- The result and flags of a D-unit operation that has them (R501). -/
def Engine.aluD (g : Engine) (op : Nat) (o : BitVec 23) : Option Alu :=
  let f := flagsOf g.sr
  if op < 0x10 || (0x28 ≤ op && op ≤ 0x2A) then some (aluR3 op (g.dAt (r2 o)) (g.dAt (r3 o)) f)
  else if op < 0x18 then some (aluI12 op (g.dAt (r2 o)) o f)
  else if op = 0x18 then some (aluSub (g.dAt (r2 o)) (g.dAt (r3 o)))
  else if op = 0x19 then some (aluSub (g.dAt (r2 o)) (simm o 12))
  else if 0x20 ≤ op && op ≤ 0x25 then some (aluOne op (g.dAt (r2 o)) f)
  else none

/-- Z, N, C and V are written: F = 1, or a compare. -/
def dSetsFlags (op : Nat) (o : BitVec 23) : Bool :=
  op = 0x18 || op = 0x19 || (if 0x10 ≤ op && op < 0x18 then o.getLsbD 12 else o.getLsbD 7)

/-- The D slot (R501, R502). -/
def Engine.slotD (g old : Engine) (op : Nat) (o : BitVec 23) : Engine :=
  match old.aluD op o with
  | some x =>
    let g1 := if op = 0x18 || op = 0x19 then g else g.setD (r1 o) x.r
    { g1 with sr := srPut g1.sr (x.flags (dSetsFlags op o) (flagsOf old.sr)).word }
  | none =>
    let ac := Vec.atD old.ac (r1 o) 0
    let a := old.dAt (r2 o)
    let putAc := fun (v : W72) => { g with ac := Vec.updN g.ac (r1 o) fun _ => v }
    match op with
    | 0x1A => g.setD (r1 o) (simm o 18)
    | 0x1B => g.setD (r1 o) (uimm o 16 <<< 16)
    | 0x1C => g.setD (r1 o) ((old.dAt (r1 o) &&& 0xFFFF0000) ||| uimm o 16)
    | 0x1D => g.setD (r1 o) (extu a (fPos o) (fW o))
    | 0x1E => g.setD (r1 o) (exts a (fPos o) (fW o))
    | 0x1F => g.setD (r1 o) (insField (old.dAt (r1 o)) a (fPos o) (fW o))
    | 0x30 | 0x31 | 0x32 => putAc (macOp op ac a (old.dAt (r3 o)))
    | 0x33 => putAc 0
    | 0x34 => putAc (a.signExtend 72)
    | 0x35 =>
      let x := acExtract (Vec.atD old.ac (r2 o) 0) (fld o 6 6) (o.getLsbD 12)
      let g1 := g.setD (r1 o) x.1
      if x.2 then { g1 with sr := g1.sr ||| bitAt 32 7 true } else g1
    | _ => g

/-- The queue that a Q-unit instruction names (R503). -/
def Engine.qNum (g : Engine) (o : BitVec 23) : Fin 256 :=
  hqOf (if o.getLsbD 12 then fld (g.dAt (r2 o)) 0 8 else fld o 0 8)

/-- The Q slot (R503, R504). -/
def State.slotQ (s : State) (e : Fin 16) (old : Engine) (op : Nat) (o : BitVec 23) : Host.Outcome State Fault Refusal :=
  let h := old.qNum o
  let d := fun (i : Nat) => old.dAt (r1 o + i)
  match op with
  | 0x00 => .next (s.updEng e fun g => g.setA (r1 o) (old.dAt (r2 o)))
  | 0x01 => .next (s.updEng e fun g => g.setD (r1 o) (old.aAt (r2 o)))
  | 0x02 => .next (s.updEng e fun g => g.setD (r1 o) (old.dAt (r2 o)))
  | 0x03 => .next (s.updEng e fun g => g.setA (r1 o) (old.aAt (r2 o)))
  | 0x04 => .next (s.updEng e fun g => g.setD (r1 o) (if condHolds (fld o 4 4) (flagsOf old.sr) then old.dAt (r2 o) else old.dAt (r3 o)))
  | 0x10 => s.engPush e h ⟨d 0, d 1, d 2, d 3⟩
  | 0x11 =>
    let (x, t) := s.pop h
    s.popped h (t.updEng e fun g => (((g.setD (r1 o) x.w0).setD (r1 o + 1) x.w1).setD (r1 o + 2) x.w2).setD (r1 o + 3) x.w3)
  | 0x12 => .next (s.updEng e fun g => g.setD (r1 o) (Vec.at s.hq h).stat)
  | _ => .next s

/-- The coprocessor operation of a syllable, with its operand values (R507). -/
def Engine.copOf (g : Engine) (y : Syl) : Cop :=
  let o := Syl.ops y
  { opcode := y.2.1, ops := o, d := g.dAt (r1 o), s := g.dAt (r2 o), t := g.dAt (r3 o), pc := g.pc }

/-- A word of the trap frame. -/
def Engine.frameWord (g : Engine) (off : Nat) : W32 := memWord g.dmem (frameOff + off)

/-- The count that RPT latches (R485). -/
def Engine.rptCount (g : Engine) (o : BitVec 23) : Nat :=
  if o.getLsbD 22 then min (fld g.rc 0 11) 1024 else fld o 0 10 + 1

/-- The C slot (R505), the new program counter apart. `next` is the address of the next bundle. -/
def State.slotC (s : State) (e : Fin 16) (old : Engine) (y : Syl) (next : W32) (rep : Bool) : Host.Outcome State Fault Refusal :=
  let o := Syl.ops y
  let upd := fun (f : Engine → Engine) => Host.Outcome.next (s.updEng e f)
  match Syl.op y with
  | 0x03 => upd fun g => g.setD (r1 o) (old.dAt (r1 o) - 1)
  | 0x04 | 0x05 => upd fun g => { g with lk := next }
  | 0x08 => upd fun g => { g with
      lk := old.frameWord 8
      sr := srPut g.sr (old.frameWord 0xC) &&& 0x7FFFFFFF
      rcnt := min (fld (old.frameWord 0x18) 0 16) 1024 }
  | 0x09 => upd fun g => { g with rcnt := old.rptCount o }
  | 0x0A => upd fun g => { g with wait := .wfe (finOf 32 (r1 o)) old.pc }.wake
  | 0x0B => upd fun g =>
      { g.armMs (old.dAt (r2 o)) with evp := g.evp &&& ~~~2, wait := .mwait (finOf 32 (r1 o)) old.pc }.wake
  | 0x0C => .next (s.sev e (fld o 0 16))
  | 0x0D => .next (s.sev e (fld (old.dAt (r1 o)) 0 16))
  | 0x10 => upd fun g => g.setD (r1 o) (old.mfs (r2 o) old.pc)
  | 0x11 => upd fun g => g.mts (r2 o) (old.dAt (r1 o)) rep
  | op =>
    if op < 0x30 then .next s
    else
      let x := old.copOf y
      if s.copError e x || s.copTooSmall e x then .fault (s.fwError 1 (clOf e).1)
      else upd fun g => { g with cop := some x }

/-- The program counter after a bundle whose C syllable is `y` (R505, R506). -/
def Engine.target (g : Engine) (y : Syl) (next : W32) : W32 :=
  let o := Syl.ops y
  let b18 := g.pc + simm o 18 <<< 2
  let b19 := g.pc + simm o 19 <<< 2
  let v := g.dAt (r1 o)
  match Syl.op y with
  | 0x00 => if condHolds (bCond o) (flagsOf g.sr) then b19 else next
  | 0x01 => if v = 0 then b18 else next
  | 0x02 => if v ≠ 0 then b18 else next
  | 0x03 => if v - 1 ≠ 0 then b18 else next
  | 0x04 => b19
  | 0x05 | 0x06 => v &&& ~~~3
  | 0x07 => g.lk &&& ~~~3
  | 0x08 => g.frameWord 4 &&& ~~~3
  | _ => next

/-! ### The traps of a bundle (R486, R487, R489, R493, R494, R504, R508) -/

/-- The accelerator does not serve a coprocessor syllable: it raises XOP. -/
def Engine.xop (g : Engine) (y : Syl) : Bool :=
  Syl.isCop y && (g.xcfg.getLsbD 0 || g.xcfg.getLsbD (16 + (Syl.op y - 0x30)) || 0x3E ≤ Syl.op y)

/-- A legal encoding that raises ILLEGAL by what it does: MTS of a reserved bit, RTE outside a handler. -/
def Engine.illegalUse (g : Engine) (y : Syl) : Bool :=
  let o := Syl.ops y
  Syl.unit y = 3 &&
    ((Syl.op y = 0x11 && g.dAt (r1 o) &&& spReserved (r2 o) ≠ 0) || (Syl.op y = 0x08 && !g.inTrap))

/-- The trap that one slot raises, ILLEGAL and XOP apart. -/
def State.slotTrap (s : State) (e : Fin 16) (g : Engine) (y : Syl) : Option Trap :=
  let o := Syl.ops y
  match Syl.unit y with
  | 0 =>
    match memOp (Syl.op y) with
    | none => none
    | some m =>
      let a := g.accessAddr m o
      (s.busTrap e a m (leNat (g.storeBytes (Syl.op y) o))).map fun v => { vec := v, fault := BitVec.ofNat 32 a, slot := 0 }
  | 2 =>
    if 0x10 ≤ Syl.op y && s.hqServer (g.qNum o) ≠ some (clOf e) then
      some { vec := vBusErr, fault := BitVec.ofNat 32 (0x40000000 + 0x40 * (g.qNum o).1), slot := 2 }
    else none
  | 3 =>
    if Syl.op y = 0x0F then some { vec := vBreak, slot := 3 }
    else if Syl.op y = 0x08 && g.badD.any (frameOff / 8 ≤ ·) then
      some { vec := vEcc, fault := BitVec.ofNat 32 (dmemBase + 8 * ((g.badD.filter (frameOff / 8 ≤ ·)).headD 0)), slot := 3 }
    else if Syl.isCop y && !g.xop y && !s.copError e (g.copOf y) then
      (s.copReach e (g.copOf y)).map fun a => { vec := vBusErr, fault := BitVec.ofNat 32 a, slot := 3 }
    else none
  | _ => none

/-- The word of a bundle's syllable: the last one has S = 1. -/
def sylWord (ys : List Syl) (y : Syl) : W32 := Syl.word y (ys.getLast? == some y)

/-- The lowest vector of some traps, the first of equals. -/
def lowest : List Trap → Option Trap
  | [] => none
  | t :: r => match lowest r with
    | some u => some (if u.vec < t.vec then u else t)
    | none => some t

/-- The trap of a bundle that breaks no bundle rule. `first`: it is the first issue of a repeated bundle. -/
def State.bundleTrap (s : State) (e : Fin 16) (g : Engine) (ys : List Syl) (first : Bool) : Option Trap :=
  match ys.find? (fun y => !Syl.legal y || g.illegalUse y || (first && Syl.forbidden y)) with
  | some y => some { vec := vIllegal, syll := sylWord ys y, slot := Syl.unit y }
  | none =>
    match lowest (ys.filterMap fun y => s.slotTrap e g y) with
    | some t => some t
    | none => (ys.find? g.xop).map fun y => { vec := vXop, syll := sylWord ys y, slot := 3 }

/-! ### Issue -/

/-- A bundle waits for the outstanding coprocessor operation (R474, R507, R508). -/
def Engine.stalls (g : Engine) (ys : List Syl) : Bool :=
  match g.cop with
  | none => false
  | some x =>
    let dd := r1 x.ops
    let op := x.opcode.toNat
    ys.any Syl.isCop ||
      (copResult op && ys.any fun y => (Syl.readsD y).contains dd || (Syl.writes y).contains (regD dd)) ||
      ys.any (fun y => match memOp (Syl.op y) with
        | some m => Syl.unit y = 0 && (m.store || copWrites op x.ops)
        | none => false) ||
      (copWrites op x.ops && ys.any fun y =>
        (Syl.unit y = 2 && Syl.op y = 0x10) || (Syl.unit y = 3 && 0x0C ≤ Syl.op y && Syl.op y ≤ 0x0E))

/-- The outstanding operation completes, or abandons with the ECC trap of R508. -/
def State.copComplete (s : State) (e : Fin 16) (rcnt : Nat) : Bool × State :=
  match (Vec.at s.eng e).cop with
  | none => (true, s)
  | some x =>
    match s.copFinish e x with
    | (none, t) => (true, t)
    | (some a, t) => (false, t.takeTrap e { vec := vEcc, fault := BitVec.ofNat 32 a, slot := 3, rcnt := rcnt } x.pc x.pc)

/-- The syllables of a bundle in the order in which they act: unit order, but a pop before a push to a queue window by the A
slot, since the pops of a cycle apply first (R182). -/
def popsFirst (ys : List Syl) : List Syl :=
  let pop := fun (y : Syl) => Syl.unit y = 2 && Syl.op y = 0x11
  if ys.any fun y => Syl.unit y = 0 && (memOp (Syl.op y)).any (·.store) then
    ys.filter pop ++ ys.filter fun y => !pop y
  else ys

/-- The slots of a bundle in unit order; the C syllable is withheld where it raises XOP. -/
def State.slots (s : State) (e : Fin 16) (old : Engine) (next : W32) (rep xop : Bool) : List Syl → Host.Outcome State Fault Refusal
  | [] => .next s
  | y :: r =>
    let o := match Syl.unit y with
      | 0 => s.slotA e old (Syl.op y) (Syl.ops y)
      | 1 => .next (s.updEng e fun g => g.slotD old (Syl.op y) (Syl.ops y))
      | 2 => s.slotQ e old (Syl.op y) (Syl.ops y)
      | _ => if xop then .next s else s.slotC e old y next rep
    match o with
    | .next t => State.slots t e old next rep xop r
    | .fault f => .fault f
    | .refused f => .refused f

/-- What became of one issue of a bundle. -/
inductive Issue where
  | done (s : State)
  | left (o : Host.Outcome State Fault Refusal)

/-- One issue of a bundle at `pc`; `left` repetitions remain, this one among them (0: not repeated). -/
def State.issueOnce (s0 : State) (e : Fin 16) (ys : List Syl) (next : W32) (left : Nat) (first : Bool) : Issue :=
  let st := (Vec.at s0.eng e).stalls ys
  let (ok, s) := if st then s0.copComplete e (if left = 0 then 0 else left + 1) else (true, s0)
  if !ok then .left (.next s)
  else
    let g := Vec.at s.eng e
    let rep := decide (left ≠ 0)
    let ws := ys.flatMap Syl.writes
    let note := s.updEng e fun g => { g with
      loads := ({ pc := g.pc, addr := 0, old := none } :: g.loads.map fun r => { r with
        old := r.old.map (List.filter fun x => !ws.contains x.1) }).take 3 }
    match s.bundleTrap e g ys first with
    | none =>
      match note.slots e g next rep false (popsFirst ys) with
      | .next t => .done t
      | o => .left o
    | some t =>
      if t.vec = vXop then
        let again := decide (1 < left)
        .left (andThen (note.slots e g next rep true (popsFirst ys)) fun u =>
          .next (u.takeTrap e { t with rcnt := if again then left - 1 else 0 } g.pc (if again then g.pc else next)))
      else if t.vec = vBreak then .left (.next (s.takeTrap e t g.pc next))
      else
        let s1 := if t.vec = vEcc then s.engUncorr e (engCode e) 3 ((t.fault.toNat - dmemBase) / 8) else s
        .left (.next (s1.takeTrap e { t with rcnt := left } g.pc g.pc))

/-- A target outside IMEM traps when it is fetched (R471). -/
def State.fetchCheck (s : State) (e : Fin 16) : State :=
  let g := Vec.at s.eng e
  if g.run && g.wait = .none && imemSize ≤ g.pc.toNat then
    s.takeTrap e { vec := vBusErr, fault := g.pc, rcnt := g.rcnt } g.pc g.pc
  else s

/-- The end of the bundle at an address, by its S bit; none: no stop within four syllables or IMEM, or an uncorrectable
word at the address given. -/
def Engine.bundleEnd (g : Engine) : Nat → Nat → Option Nat ⊕ Nat
  | 0, _ => .inl none
  | n + 1, a =>
    if imemSize ≤ a then .inl none
    else if g.badI.contains (a / 8) then .inr a
    else if (memWord g.imem a).getLsbD 31 then .inl (some (a + 4)) else Engine.bundleEnd g n (a + 4)

/-- RPT RC with a count of 0 skips the next bundle (R485). -/
def State.skipBundle (s : State) (e : Fin 16) : State :=
  let g := Vec.at s.eng e
  if imemSize ≤ g.pc.toNat then s
  else match g.bundleEnd 4 g.pc.toNat with
    | .inl (some a) => s.updEng e fun g => { g with pc := BitVec.ofNat 32 a }
    | .inl none => s.takeTrap e { vec := vIllegal } g.pc g.pc
    | .inr a => (s.engUncorr e (engCode e) 2 (a / 8)).takeTrap e { vec := vEcc, fault := BitVec.ofNat 32 a } g.pc g.pc

/-- A bundle that is not repeated. -/
def State.issueSingle (s : State) (e : Fin 16) (ys : List Syl) (next : W32) : Host.Outcome State Fault Refusal :=
  let g := Vec.at s.eng e
  match s.issueOnce e ys next 0 false with
  | .left o => o
  | .done t =>
    let c := ys.find? fun y => Syl.unit y = 3
    let pc := match c with
      | some y => g.target y next
      | none => next
    let t1 := t.updEng e fun h => { h with pc := pc }
    let skip := match c with
      | some y => Syl.op y = 0x09 && g.rptCount (Syl.ops y) = 0
      | none => false
    .next ((if skip then t1.skipBundle e else t1).fetchCheck e)

/-- A repeated bundle: `left` repetitions, one after another (R485). -/
def State.issueRepeat (e : Fin 16) (ys : List Syl) (next : W32) : Nat → Bool → State → Host.Outcome State Fault Refusal
  | 0, _, s => .next ((s.updEng e fun g => { g.landRc with pc := next, rcnt := 0 }).fetchCheck e)
  | n + 1, first, s =>
    match s.issueOnce e ys next (n + 1) first with
    | .done t => State.issueRepeat e ys next n false t
    | .left o => o

/-- An uncorrectable word of IMEM is fetched (R487, R526). -/
def State.fetchBad (s : State) (e : Fin 16) (a : Nat) : State :=
  let g := Vec.at s.eng e
  (s.engUncorr e (engCode e) 2 (a / 8)).takeTrap e { vec := vEcc, fault := BitVec.ofNat 32 a, rcnt := g.rcnt } g.pc g.pc

/-- A complete bundle issues. `stopped`: its last syllable has S = 1. -/
def State.issue (s0 : State) (e : Fin 16) (ys : List Syl) (stopped : Bool) : Host.Outcome State Fault Refusal :=
  let g := Vec.at s0.eng e
  let s := s0.updEng e fun g => { g with fetched := [] }
  let next := g.pc + BitVec.ofNat 32 (4 * ys.length)
  match (List.range ys.length).find? (fun i => g.badI.contains ((g.pc.toNat + 4 * i) / 8)) with
  | some i => .next (s.fetchBad e (g.pc.toNat + 4 * i))
  | none =>
    if !stopped || !bundleOk ys then .next (s.takeTrap e { vec := vIllegal, rcnt := g.rcnt } g.pc g.pc)
    else if g.rcnt = 0 then s.issueSingle e ys next
    else State.issueRepeat e ys next g.rcnt true s

/-- An engine fetches and issues: out of reset, not waiting, and no checker (R38, R465, R481). -/
def State.engineRuns (s : State) (e : Fin 16) : Bool :=
  let g := Vec.at s.eng e
  g.run && g.wait = .none && !s.checker e

/-- The syllable and stop bit that an engine fetches next at a row that brings the syllable `y`: the word of IMEM, where it
is the row's, or where its opcode is not assigned or not served, so that no row brings it (R473, R494). None: the word of
IMEM is that of another row (DESIGN CHOICE, log 97). -/
def Engine.fetch (g : Engine) (y : Syl) (stop : Bool) : Option (Syl × Bool) :=
  let w := memWord g.imem (g.pc.toNat + 4 * g.fetched.length)
  if w = Syl.word y stop then some (y, stop)
  else if Syl.assigned (Syl.ofWord w) then none
  else some (Syl.ofWord w, w.getLsbD 31)

/-- A syllable is fetched: it joins its bundle, which issues with the stop bit, with the fourth syllable, or at the end of
IMEM (R470, R472). -/
def syllable (unit : BitVec 2) (op : BitVec 6) (e : Fin 16) (stop : Bool) (ops : BitVec 23) (s : State) :
    Host.Outcome State Fault Refusal :=
  if !s.engineRuns e then .next s
  else
    let g := Vec.at s.eng e
    if imemSize ≤ g.pc.toNat then .next ((s.fetchCheck e).settle)
    else if g.badI.contains ((g.pc.toNat + 4 * g.fetched.length) / 8) then
      .next ((s.fetchBad e (g.pc.toNat + 4 * g.fetched.length)).settle)
    else match g.fetch (unit, op, ops) stop with
      | none => .next s
      | some (y, stop) =>
        let ys := g.fetched ++ [y]
        if stop || 4 ≤ ys.length || imemSize ≤ g.pc.toNat + 4 * ys.length then
          andThen (s.issue e ys stop) fun t => .next t.settle
        else .next (s.updEng e fun g => { g with fetched := ys })

/-! ### Loads that fail, and the accelerator's end (R487, R507, R508) -/

/-- A register by its number. -/
def Engine.putReg (g : Engine) (n : Nat) (v : W32) : Engine := if n < 16 then g.setA n v else g.setD (n - 16) v

/-- The word at an address is uncorrectable; if it was not known to be, it is counted and reported now (R526). -/
def State.discloseBad (s : State) (e : Fin 16) (a : Nat) : State :=
  let g := Vec.at s.eng e
  let w := a % 0x10000000 / 8
  if a < imemSize then
    if g.badI.contains w then s else (s.updEng e fun g => { g with badI := w :: g.badI }).engUncorr e (engCode e) 2 w
  else if a < dmemBase + dmemSize then
    let w := (a - dmemBase) / 8
    if g.badD.contains w then s else (s.updEng e fun g => { g with badD := w :: g.badD }).engUncorr e (engCode e) 3 w
  else match memAt (clOf e) a with
    | some (r, o) => if s.memBad r o 1 then s else (s.damage r (o / 8)).memUncorr r (engCode e) (o / 8)
    | none => s

/-- The data of a load arrives uncorrectable: the destination keeps its old value, and the ECC trap is taken (R487). The
event counts where that load is among the last bundles issued. -/
def State.loadFailed (s : State) (e : Fin 16) (pc resume addr : W32) (after : Nat) : State :=
  let g := Vec.at s.eng e
  match g.loads[after]? with
  | some r =>
    if g.run && r.pc = pc && r.addr = addr && r.old.isSome && addr.toNat < 0x30000000 then
      let s1 := (s.discloseBad e addr.toNat).updEng e fun g =>
        { ((r.old.getD []).foldl (fun g x => g.putReg x.1 x.2) g) with loads := [] }
      (s1.takeTrap e { vec := vEcc, fault := addr, slot := 0, rcnt := g.rcnt, after := after } pc resume).settle
    else s
  | none => s

/-- The outstanding operation ends. -/
def State.copEnd (s : State) (e : Fin 16) : State := (s.copComplete e 0).2.settle

/-- A store of one word by an engine, which takes the trap it raises. -/
def State.engineStore (s : State) (e : Fin 16) (a : W32) (v : W32) : Host.Outcome State Fault Refusal :=
  let g := Vec.at s.eng e
  if !g.run || s.checker e then .next s
  else match s.busTrap e a.toNat ⟨4, true, false⟩ v.toNat with
    | some t => .next ((s.takeTrap e { vec := t, fault := a, slot := 0 } g.pc g.pc).settle)
    | none => andThen (s.busStore e a.toNat (leBytes 4 v.toNat)) fun t => .next t.settle

/-- A load of one word by an engine, for its side effect alone, with the trap it raises. -/
def State.engineTouch (s : State) (e : Fin 16) (a : W32) : Host.Outcome State Fault Refusal :=
  let g := Vec.at s.eng e
  if !g.run || s.checker e then .next s
  else match s.busTrap e a.toNat ⟨4, false, false⟩ 0 with
    | some t => .next (s.takeTrap e { vec := t, fault := a, slot := 0 } g.pc g.pc).settle
    | none => s.loaded a.toNat ((s.busLoad e a.toNat 4).2).settle

end Sys2Proof.Machine
end

