-- ==== Sys2Proof/Machine/Sundom.lean ====
section
/-!
DEFINITION. How Sundom takes, checks, executes and answers a command: TARGET, position, session, jobs, state, mirroring
(R92–R95, R98–R101, R113, R114, R319, R424–R427), and the settings payload (R419–R422).
-/
namespace Sys2Proof.Machine

/-- What a command's execution gives: its final status with the state it leaves, or a host error (R5, R462). -/
abbrev Reply := Except Fault (Answer × State)

/-- A row of the command table (R424). `target` is the TARGET check of R92; `busy` the holding job of R427;
`mirror` whether R426 applies to this message. -/
structure CmdRow where
  code : Nat
  target : State → W16 → Bool
  own : Bool
  busy : State → Msg → Option Job
  mirror : State → Msg → Bool

/-- An object of one of these classes (R91, R92). -/
def inClass (cls : List Nat) (_ : State) (t : W16) : Bool := cls.contains (tgtClass t) && tgtInst t < classSize (tgtClass t)

/-- Never BUSY: a status command, or one that no job conflicts with. -/
def neverBusy (_ : State) (_ : Msg) : Option Job := none

/-- BUSY while a job on a cluster holds the target (R427). -/
def heldBusy (s : State) (m : Msg) : Option Job := s.heldBy m.target

/-- Never mirrored. -/
def notMirrored (_ : State) (_ : Msg) : Bool := false

/-- Mirrored where the target belongs to a paired personality (R426). -/
def mirrored (s : State) (m : Msg) : Bool :=
  match s.objCluster m.target with
  | some c => s.inPair c
  | none => false

/-- A status command of classes (R427). -/
def statusRow (code : Nat) (cls : List Nat) : CmdRow := ⟨code, inClass cls, false, neverBusy, notMirrored⟩
/-- A command of classes that is not mirrored. -/
def plainRow (code : Nat) (cls : List Nat) : CmdRow := ⟨code, inClass cls, false, heldBusy, notMirrored⟩
/-- A mirrored command of classes. -/
def mirrorRow (code : Nat) (cls : List Nat) : CmdRow := ⟨code, inClass cls, false, heldBusy, mirrored⟩

/-- The command and message that 16 + LEN octets of a channel spell (R87). -/
def msgOf (chan : Fin 9) (bs : List Byte) : W16 × Msg :=
  (BitVec.ofNat 16 (leAt bs 0 2),
   { chan := chan, tag := BitVec.ofNat 16 (leAt bs 2 2), flags := BitVec.ofNat 16 (leAt bs 6 2),
     gen := BitVec.ofNat 32 (leAt bs 8 4), target := BitVec.ofNat 16 (leAt bs 12 2), payload := slice bs 16 (leAt bs 4 2) })

/-- The messages that wait on a channel: those of MB0–MB7, and of other modules on the ninth (R98). -/
def State.waiting (s : State) (n : Fin 9) : List (List Byte) :=
  match chanOf n with
  | some k => (Vec.at s.mbx k).taken
  | none => s.group

/-- The channel whose turn it is: the first with a message, from the one after the channel taken last (R98). -/
def State.turn (s : State) : Option (Fin 9) :=
  ((List.range 9).map fun i => finOf 9 (s.sup.rr.1 + 1 + i)).find? fun n => !(s.waiting n).isEmpty

/-- Sundom takes this command next: it runs, no earlier command still lacks its response (R99, R100), it is the channel's
turn (R98), and the channel's oldest message spells the command (R87). -/
def State.takes (s : State) (code : Nat) (m : Msg) : Bool :=
  s.live && s.sup.proxies.isEmpty && s.sup.mirrors.isEmpty && s.turn == some m.chan &&
    ((s.waiting m.chan).head?.map (msgOf m.chan) == some (BitVec.ofNat 16 code, m))

/-- The message leaves its channel, which was taken last (R62, R98). -/
def State.takeMsg (s : State) (n : Fin 9) : State :=
  let s1 := s.updSup fun u => { u with rr := n }
  match chanOf n with
  | some k => s1.updMbx k fun x => { x with taken := x.taken.drop 1 }
  | none => { s1 with group := s1.group.drop 1 }

/-- The GEN of a channel's session, or 0 (R95). -/
def State.chanGen (s : State) (n : Fin 9) : W32 :=
  match chanOf n with
  | some k => match (Vec.at s.mbx k).session with
    | some x => x.gen
    | none => 0
  | none => 0

/-- The session check (R95): OPEN_SESSION ignores GEN; a command of another module was checked there (R113). -/
def State.sessionOk (s : State) (code : Nat) (m : Msg) : Bool :=
  code = 0x0100 || match chanOf m.chan with
    | some k => match (Vec.at s.mbx k).session with
      | some x => x.gen = m.gen
      | none => false
    | none => true

/-- The commands that start a job at their target (R424, R427): LOAD, LOAD_CUSTOM, RESET_OBJECT of a cluster, CABLE_TEST
of MODE 1, ROUTE_SWITCH, PAIR_SWITCH, SELFTEST and ATTEST. -/
def longCommand (code : Nat) (m : Msg) : Bool :=
  [0x200, 0x204, 0x602, 0x703, 0xB03, 0xC01].contains code || (code = 0x105 && tgtClass m.target = 1) ||
    (code = 0x302 && leAt m.payload 0 1 = 1)

/-- A command sent to another module, under the next request number (log 24). -/
def State.request (s : State) (pos : Fin 4) (code : Nat) (m : Msg) : State :=
  (s.updSup fun u => { u with reqNum := u.reqNum + 1 }).toMember
    { kind := 0, src := s.pwr.mpos, dst := pos, num := s.sup.reqNum, code := BitVec.ofNat 16 code, tag := m.tag, status := m.flags,
      detail := 0, target := m.target, payload := m.payload }

/-- Forwarding to the module a target names (R113, R114); the session's running jobs are counted here (R107, log 78). -/
def State.forwardCmd (s : State) (code : Nat) (m : Msg) : State :=
  let pos := tgtPos m.target
  if !s.pair.members.getLsbD pos.1 || (s.pathTo pos).isNone then s.answer code m (.err stPeerRefused 1)
  else if longCommand code m && s.sessionFull m then s.answer code m (.err stBusy 0)
  else
    (s.updSup fun u => { u with proxies := u.proxies ++
      [⟨s.sup.reqNum, m.chan, BitVec.ofNat 16 code, m.tag, m.gen, m.flags, m.target⟩] }).request pos code m

/-- The command goes to the standby, and the response waits for its answer (R426). -/
def State.mirrorOut (s : State) (code : Nat) (m : Msg) (a : Answer) : State :=
  let r : OutMsg := { code := BitVec.ofNat 16 (0x8000 + code), tag := m.tag, status := BitVec.ofNat 16 a.status,
                      detail := BitVec.ofNat 32 a.detail, target := m.target, payload := a.payload, held := false }
  (s.updSup fun u => { u with mirrors := u.mirrors ++ [⟨s.sup.reqNum, m.chan, m.gen, r⟩] }).request s.partnerPos code m

/-- A command of another module that is not aimed at this position: the active's command, executed as mirrored (R426). -/
def State.fromActive (s : State) (m : Msg) : Bool := (chanOf m.chan).isNone && tgtPos m.target != s.pwr.mpos

/-- What becomes of an executed command: a refused one has changed nothing (R101), but that the module reports the hardware
fault that HW_FAULT names (R526); a mirrored one waits for the standby; any other is answered, and `after` follows the
response (R430, R431). The standby that answers otherwise than the active leaves it (R426). -/
def State.conclude (s : State) (r : CmdRow) (m : Msg) (after : State → State) (a : Answer) (s1 : State) : State :=
  let ok := a.status = stOk || a.status = stAccepted
  let t := if ok || a.status = stHwFault then s1 else s
  if r.mirror s m && s.pair.st == qActive && a.status = stOk && !s.fromActive m then t.mirrorOut r.code m a
  else
    let u := t.answer r.code m a
    let v := if ok then after u else u
    if s.fromActive m && !ok && s.pair.st == qStandby then v.toSyncing 6 false else v

/-- Execution at the module a command names, after the TARGET and session checks. -/
def State.executeCmd (s : State) (r : CmdRow) (m : Msg) (after : State → State) (run : State → Reply) :
    Host.Outcome State Fault Refusal :=
  match r.busy s m with
  | some j => .next (s.conclude r m after (.err stBusy j.num.toNat) s)
  | none =>
    if r.mirror s m && s.pair.st == qStandby && !s.fromActive m then .next (s.conclude r m after (.err stBadState 3) s)
    else match run s with
      | .error e => .fault e
      | .ok (a, s1) => .next (s.conclude r m after a s1).settle

/-- A Sundom command, from its taking to its response. A command that Sundom does not take now has no effect yet: it
waits on its channel (R98, R99). -/
def State.commandThen (s : State) (r : CmdRow) (m : Msg) (after : State → State) (run : State → Reply) :
    Host.Outcome State Fault Refusal :=
  if !s.takes r.code m then .next s
  else
    let s := s.takeMsg m.chan
    if !r.target s m.target || (r.own && tgtPos m.target != s.pwr.mpos) then .next (s.answer r.code m (.err stBadCmd 2))
    else if !s.sessionOk r.code m then .next (s.answer r.code m (.err stStaleGen (s.chanGen m.chan).toNat))
    else if (chanOf m.chan).isSome && tgtPos m.target != s.pwr.mpos then .next (s.forwardCmd r.code m)
    else s.executeCmd r m after run

/-- A command with nothing to do after its response. -/
def State.command (s : State) (r : CmdRow) (m : Msg) (run : State → Reply) : Host.Outcome State Fault Refusal :=
  s.commandThen r m id run

/-! ### Replies -/

/-- OK. -/
def yes (s : State) : Reply := .ok (.ok, s)
/-- OK with a payload. -/
def yesData (s : State) (bs : List Byte) : Reply := .ok (.data bs, s)
/-- A refusal. -/
def no (s : State) (status detail : Nat) : Reply := .ok (.err status detail, s)
/-- A long command starts its job, or meets a limit of R107. -/
def State.accept (s : State) (m : Msg) (kind : JobKind) (f : State → State) : Reply :=
  if s.jobLimit m then no s stBusy 0
  else
    let (n, s1) := s.startJob kind m
    .ok (⟨stAccepted, n.toNat, []⟩, f s1)

/-- A job that ends within its own command: ACCEPTED, and JOB_DONE after the response (R549). -/
def State.lastJob (s : State) : Option Job := s.sup.jobs.getLast?

/-! ### Settings payloads (R419–R422) -/

/-- A settings record. -/
structure Setting where
  id : Nat
  index : Nat
  value : W64
deriving DecidableEq, Repr

/-- The table and row of a record. -/
def Setting.tab (x : Setting) : Nat := x.id / 0x100
def Setting.row (x : Setting) : Nat := x.id % 0x100
/-- The unsigned and signed value. -/
def Setting.nat (x : Setting) : Nat := x.value.toNat
def Setting.int (x : Setting) : Int := x.value.toInt

end Sys2Proof.Machine

namespace Sys2Proof
open Sys2Proof.Machine

/-- A host error confined to the target (R462). -/
def Msg.bad (m : Msg) : Reply := .error (.hostError m.target)
/-- The reply, or the host error of a short payload or a value outside its range. -/
def Msg.check (m : Msg) (n : Nat) (ok : Bool) (r : Reply) : Reply := if m.payload.length < n || !ok then m.bad else r
/-- A field of the payload. -/
def Msg.at_ (m : Msg) (off n : Nat) : Nat := leAt m.payload off n
/-- The target's instance as an index. -/
def Msg.inst (m : Msg) (n : Nat) [NeZero n] : Fin n := finOf n (tgtInst m.target)

/-- The records of a payload; none where FORM, COUNT or LEN is a host error. -/
def Msg.settings (m : Msg) : Option (List Setting) :=
  let p := m.payload
  let n := leAt p 2 2
  if p.length < 4 || leAt p 0 2 ≠ 0 || 83 < n || p.length ≠ 4 + 12 * n then none
  else some ((List.range n).map fun i =>
    ⟨leAt p (4 + 12 * i) 2, leAt p (6 + 12 * i) 2, BitVec.ofNat 64 (leAt p (8 + 12 * i) 8)⟩)

/-- The command's records, all of them in their ranges, or the host error of R420. -/
def Msg.withSettings (m : Msg) (ok : Setting → Bool) (f : List Setting → Reply) : Reply :=
  match m.settings with
  | some xs => if xs.all ok then f xs else m.bad
  | none => m.bad

end Sys2Proof

namespace Sys2Proof.Machine

/-- The records applied in payload order. -/
def State.applyAll (s : State) (f : State → Setting → State) (xs : List Setting) : State := xs.foldl f s

/-- Settings as status commands return them (R421): FORM 0, COUNT, records. -/
def settingsBytes (xs : List Setting) : List Byte :=
  leBytes 2 0 ++ leBytes 2 xs.length ++ xs.flatMap fun x => leBytes 2 x.id ++ leBytes 2 x.index ++ leBytes 8 x.value.toNat

/-- Rows of a table with their values. -/
def rowsOf {n : Nat} (tab : Nat) (t : Vec W64 n) (rows : List Nat) : List Setting :=
  rows.map fun r => ⟨0x100 * tab + r, 0, Vec.atD t (r - 1) 0⟩

/-- A value between bounds. -/
def within (lo hi v : Nat) : Bool := lo ≤ v && v ≤ hi
/-- A signed value between bounds. -/
def withinInt (lo hi v : Int) : Bool := decide (lo ≤ v) && decide (v ≤ hi)

/-- SUPDB_CAUSE.CONFIG for the cluster an object belongs to (R483). -/
def State.configRing (s : State) (o : Option (Fin 4)) : State :=
  match o with
  | some c => s.supdb c 0
  | none => s

end Sys2Proof.Machine
end

