-- ==== Sys2Proof/Machine/CmdSystem.lean ====
section
/-!
DEFINITION. The commands on the module and its personalities: sessions, information, power states, RESET_OBJECT, LOAD to
CYCLE_CONFIG and their jobs (R93–R96, R298, R315, R428–R436, R554–R560, R571, R597).
-/
namespace Sys2Proof.Machine

/-! ### Sessions and information (R93, R94, R428, R429, R460) -/

/-- The next GEN (R94). -/
def Sup.nextGen (u : Sup) : W32 := if u.gen = 0xFFFFFFFF then 1 else u.gen + 1

/-- OPEN_SESSION: any earlier session of the channel is closed, and the new GEN is answered. What waits in OUTQ stays (log 98). -/
def State.openSession (s : State) (m : Msg) : Reply :=
  match chanOf m.chan with
  | none => no s stBadCmd 2
  | some n => m.check 4 (m.at_ 1 1 = 0 && m.at_ 3 1 = 0)
      (let g := s.sup.nextGen
       let s1 := (s.updSup fun u => { u with gen := g }).updMbx n fun x => { x with
         session := some { gen := g, subs := BitVec.ofNat 16 (m.at_ 0 2), positions := BitVec.ofNat 8 (m.at_ 2 1) } }
       .ok (⟨stOk, g.toNat, [BitVec.ofNat 8 n.1, BitVec.ofNat 8 s.pwr.mpos.1]⟩, s1))

/-- CLOSE_SESSION. Jobs of the session run on (R97). JOB_DONEs and notifications that wait in OUTQ by then are still posted: R97
speaks of jobs that end later (DESIGN CHOICE, log 98). -/
def State.closeSession (s : State) (m : Msg) : Reply :=
  match chanOf m.chan with
  | none => no s stBadCmd 2
  | some n => yes (s.updMbx n fun x => { x with session := none })

/-- GET_INFO's payload. -/
def State.infoBytes (s : State) : List Byte :=
  leBytes 8 Config.serial.toNat ++ leBytes 4 hifRev.toNat ++ leBytes 4 s.pwr.fwVer.toNat ++ leBytes 4 s.modStatus.toNat ++
    leBytes 4 s.pwr.uptime.toNat ++ (allFin 4).flatMap fun c =>
      let k := Vec.at s.cl c
      leBytes 2 k.id.toNat ++ leBytes 1 k.st.code ++ leBytes 1 (bit k.checked + 2 * bit (s.inPair c)) ++ leBytes 4 k.version.toNat

/-- The catalogue images of the booted slot (R569). -/
def State.catalogue (s : State) : List (List Byte) := (Vec.at s.pwr.slots (if s.pwr.bootimg then 1 else 0)).images

/-- GET_CAPS's payload; a response holds 124 catalogue entries at most. -/
def State.capsBytes (s : State) : List Byte :=
  let cat := s.catalogue.take 124
  [12, 4, 8, 8, 8, 4, 32, 8] ++ leBytes 2 cat.length ++ leBytes 2 0 ++ cat.flatMap fun b =>
    leBytes 2 (imgId b) ++ leBytes 2 0 ++ leBytes 4 (imgVersion b).toNat

/-- GET_IDENTITY's payload (R460). -/
def State.identityBytes (s : State) (off : Nat) : List Byte :=
  let chunk := slice Config.certificate off 976
  leBytes 8 Config.serial.toNat ++ leBytes 6 Config.baseMac.toNat ++ leBytes 2 0 ++ leBytes 8 Config.clockId.toNat ++
    leBytes 4 s.pwr.rollback ++ leBytes 2 Config.certificate.length ++ leBytes 2 chunk.length ++ chunk

/-! ### Power states (R11, R12, R430, R554–R557) -/

/-- The domains of a cluster's units (R10). -/
def State.unitDomains (s : State) (c : Fin 4) : List Nat :=
  let k := Vec.at s.cl c
  (if (List.range 4).any fun p => k.ports.getLsbD p then [7] else []) ++
    (if ((List.range 6).any fun p => k.ports.getLsbD (4 + p)) || k.cans ≠ 0 || k.pios ≠ 0 then [8] else []) ++
    (if k.ports.getLsbD 10 || k.ports.getLsbD 11 then [9] else []) ++
    (if k.dis ≠ 0 || k.dos ≠ 0 then [11] else [])

/-- Some SYNC pin is enabled (R231). -/
def State.syncOn (s : State) : Bool := s.tim.syncIn.mode ≠ 0 || (allFin 2).any fun i => (Vec.at s.tim.syncOut i).mode ≠ 0

/-- A domain that a power-down is refused for (R11, R231, R555). -/
def State.keptDomain (s : State) (d : Nat) : Bool :=
  ((allFin 4).any fun c => (clDomain c = d && (Vec.at s.cl c).st != .empty) || (s.started c && (s.unitDomains c).contains d)) ||
    (d = 9 && s.syncOn)

/-- The domains that are to be powered, with those that R12 and RUN keep. -/
def State.wantedDomains (s : State) (mask : Nat) : Nat → Bool := fun d =>
  d < 2 || mask.testBit d || (d = 6 && (List.range 4).any fun c => mask.testBit (2 + c)) || (d = 9 && s.pair.st != qSolo)

/-- SET_POWER_STATE RUN. -/
def State.setRun (s : State) (mask : Nat) : Reply :=
  let s1 := (if s.pwr.phase = .standby then s.wakeStandby else s).serveAll
  match (List.range 12).find? fun d => s1.powered d && !mask.testBit d && s1.keptDomain d with
  | some d => no s stBadState (0x100 + d)
  | none => yes (s1.each (n := 12) fun s d => if s1.wantedDomains mask d.1 then s.domainUp d else s.domainDown d)

/-- What keeps the module out of STANDBY and HIBERNATE (R555). -/
def State.lowPowerRefused (s : State) : Option Answer :=
  match (allFin 4).find? fun c => (Vec.at s.cl c).st != .empty with
  | some c => some (.err stBadState (0x100 + clDomain c))
  | none =>
    if s.pair.st != qSolo || s.syncOn then some (.err stBadState 0x109)
    else s.sup.jobs.head?.map fun j => .err stBusy j.num.toNat

/-- A WAKE word the spec allows (R556). -/
def wakeOk (w : W32) : Bool := fld w 3 5 = 0 && (!w.getLsbD 1 || fld w 8 24 ≠ 0)

/-- SET_POWER_STATE. -/
def State.setPower (s : State) (m : Msg) : Reply :=
  let st := m.at_ 0 1
  let wake := BitVec.ofNat 32 (m.at_ 4 4)
  m.check 8 (st ≤ 2 && m.at_ 1 1 = 0 && (if st = 0 then m.at_ 2 2 < 4096 else wakeOk wake))
    (if st = 0 then s.setRun (m.at_ 2 2)
     else match s.lowPowerRefused with
       | some a => .ok (a, s)
       | none => yes s)

/-- STANDBY and HIBERNATE are entered after the response (R430). In STANDBY a new command gives new wake sources. -/
def State.powerAfter (m : Msg) (s : State) : State :=
  let wake := BitVec.ofNat 32 (m.at_ 4 4)
  if m.at_ 0 1 = 1 then
    (if s.pwr.phase = .standby then s.updPwr fun p => { p with wakeWord := wake, rtcAlarm := p.alarmOf wake } else s.enterStandby wake)
  else if m.at_ 0 1 = 2 then s.enterHibernate wake
  else s

/-! ### Resource lists (R29, R31, R83, R160, R181, R380, R391, R432) -/

/-- Fields of a LOAD payload. -/
def ldId (p : List Byte) : Nat := leAt p 0 2
def ldChecked (p : List Byte) : Bool := (leAt p 2 2).testBit 0
def ldVersion (p : List Byte) : Nat := leAt p 4 4
def ldPorts (p : List Byte) : BitVec 12 := BitVec.ofNat 12 (leAt p 8 2)
def ldCans (p : List Byte) : BitVec 4 := BitVec.ofNat 4 (leAt p 10 1)
def ldPios (p : List Byte) : Byte := BitVec.ofNat 8 (leAt p 11 1)
def ldDis (p : List Byte) : Byte := BitVec.ofNat 8 (leAt p 12 1)
def ldDos (p : List Byte) : Byte := BitVec.ofNat 8 (leAt p 13 1)
def ldGrant (p : List Byte) : Byte := BitVec.ofNat 8 (leAt p 14 1)
def ldNq (p : List Byte) : Nat := leAt p 15 1
/-- Output and input mask of a PIO engine. -/
def ldOut (p : List Byte) (k : Nat) : W32 := BitVec.ofNat 32 (leAt p (0x10 + 8 * k) 4)
def ldIn (p : List Byte) (k : Nat) : W32 := BitVec.ofNat 32 (leAt p (0x14 + 8 * k) 4)

/-- The eight window entries at an offset (R432, R443). -/
def windowsAt (p : List Byte) (off : Nat) : Vec Window 8 :=
  Vector.ofFn fun i => ⟨leAt p (off + 8 * i.1) 4, leAt p (off + 8 * i.1 + 4) 2 * 4096, (leAt p (off + 8 * i.1 + 6) 2).testBit 0⟩

/-- Window entries the spec allows: 4 KiB multiples inside shared memory, no reserved flag. -/
def windowsOk (p : List Byte) (off : Nat) : Bool :=
  (List.range 8).all fun i =>
    let b := leAt p (off + 8 * i) 4
    let n := leAt p (off + 8 * i + 4) 2 * 4096
    leAt p (off + 8 * i + 6) 2 / 2 = 0 && (n = 0 || (b % 4096 = 0 && b + n ≤ 0x800000))

/-- A range of shared memory overlaps another cluster's objects. -/
def State.overObjects (s : State) (c : Fin 4) (base len : Nat) : Bool :=
  (allFin 4).any fun o => o != c && (s.objects o).any fun x => overlaps base len x.1 x.2

/-- Windows that overlap another cluster's objects (R462). -/
def State.windowsClash (s : State) (c : Fin 4) (ws : Vec Window 8) : Bool :=
  (allFin 8).any fun w => s.overObjects c (Vec.at ws w).base (Vec.at ws w).len

/-- A queue entry of a resource list. -/
structure QEntry where
  hq : Nat
  depth : Nat
  fbq : Nat
  flags : Nat
deriving DecidableEq, Repr

/-- The queue entries. -/
def ldQueues (p : List Byte) : List QEntry :=
  (List.range (ldNq p)).map fun i => ⟨leAt p (0x90 + 4 * i) 1, leAt p (0x91 + 4 * i) 1, leAt p (0x92 + 4 * i) 1, leAt p (0x93 + 4 * i) 1⟩

/-- A queue that a resource list may grant (R31). -/
def grantable (h : Nat) : Bool := (192 ≤ h && h < 224) || (240 ≤ h && h < 256)

/-- The queues of the ports and controllers of a resource list (R181). -/
def ldUnitQueues (p : List Byte) : List Nat :=
  ((List.range 12).filter fun i => (ldPorts p).getLsbD i).flatMap (fun i => (List.range 8).map (8 * i + ·) ++ (List.range 4).map (96 + 4 * i + ·)) ++
    ((List.range 4).filter fun i => (ldCans p).getLsbD i).flatMap fun i => (List.range 4).map (144 + 4 * i + ·)

/-- A resource list without host errors. -/
def loadShape (p : List Byte) : Bool :=
  let qs := ldQueues p
  leAt p 2 2 < 2 && leAt p 8 2 < 4096 && leAt p 10 1 < 16 && windowsOk p 0x50 &&
    qs.all fun q => (grantable q.hq || (ldUnitQueues p).contains q.hq) && 4 ≤ q.depth && q.depth ≤ 12 && q.flags < 2 &&
      (q.fbq = 255 || (grantable q.fbq && qs.any fun r => r.hq = q.fbq))

/-- The units, queues and doorbells that running LOAD jobs of other clusters have reserved. -/
def State.reserved (s : State) : List (List Byte) :=
  s.sup.jobs.filterMap fun j => match j.kind with
    | .load _ _ p => some p
    | _ => none

/-- A unit of a resource list is taken by another personality or by a running LOAD. -/
def State.unitTaken (s : State) (obj : Nat) : Bool :=
  (s.reserved.any fun p => (loadUnits p).contains obj) ||
    (match obj / 256 with
     | 2 => (Vec.at s.port (finOf 12 (obj % 256))).owner.isSome
     | 3 => (Vec.at s.can (finOf 4 (obj % 256))).owner.isSome
     | 4 => (Vec.at s.pio (finOf 8 (obj % 256))).owner.isSome
     | 5 => (Vec.at s.fio.di (finOf 8 (obj % 256))).owner.isSome
     | 6 => (Vec.at s.fio.do_ (finOf 8 (obj % 256))).owner.isSome
     | 7 => grantable (obj % 256) && (Vec.at s.hq (hqOf (obj % 256))).grant.isSome
     | _ => false)

/-- The first queue that does not fit into the 8192 descriptors of a queue manager (R181). -/
def queueOverflow (p : List Byte) : Option Nat :=
  let depth := fun (h : Nat) => match (ldQueues p).reverse.find? fun q => q.hq = h with
    | some q => some (2 ^ q.depth)
    | none => if (ldUnitQueues p).contains h then some (defaultDepth h) else none
  ((List.range 256).foldl (fun (acc : Nat × Option Nat) h => match acc.2, depth h with
    | none, some n => (acc.1 + n, if 8192 < acc.1 + n then some h else none)
    | _, _ => acc) (0, none)).2

/-- The PIO masks in force, and those that running LOADs have been granted: cluster, output mask, input mask (R380). -/
def State.pioMasks (s : State) : List (Nat × W32 × W32) :=
  ((allFin 8).filterMap fun k => (Vec.at s.pio k).owner.map fun c => (c.1, (Vec.at s.pio k).outMask, (Vec.at s.pio k).inMask)) ++
  (s.sup.jobs.flatMap fun j => match j.kind with
    | .load c _ p => ((List.range 8).filter fun k => (ldPios p).getLsbD k).map fun k => (c.1, ldOut p k, ldIn p k)
    | _ => [])

/-- The first PIO engine whose masks cannot be granted (R380). -/
def State.pioClash (s : State) (c : Fin 4) (p : List Byte) : Option Nat :=
  ((List.range 8).foldl (fun (acc : List (Nat × W32 × W32) × Option Nat) k =>
    if !(ldPios p).getLsbD k || acc.2.isSome then acc
    else
      let o := ldOut p k
      let i := ldIn p k
      let bad := acc.1.any fun x => x.2.1 &&& o ≠ 0 || (x.1 ≠ c.1 && (o &&& x.2.2 ≠ 0 || i &&& x.2.1 ≠ 0))
      ((c.1, o, i) :: acc.1, if bad then some k else none)) (s.pioMasks, none)).2

/-- A doorbell bit of DBGRANT that another personality holds (R83). -/
def State.grantTaken (s : State) (p : List Byte) : Option Nat :=
  (List.range 8).find? fun b => (ldGrant p).getLsbD b &&
    (((allFin 4).any fun o => (Vec.at s.cl o).grant.getLsbD b) || s.reserved.any fun q => (ldGrant q).getLsbD b)

/-- The first resource of a list that is missing: units of the fabric, queues, PIO masks, channels, doorbells. -/
def State.missing (s : State) (c : Fin 4) (p : List Byte) : Option Nat :=
  let us := loadUnits p
  (us.find? fun o => o / 256 < 5 && s.unitTaken o).or <|
    (us.find? fun o => o / 256 = 7 && s.unitTaken o).or <|
      ((queueOverflow p).map (0x700 + ·)).or <|
        ((s.pioClash c p).map (0x400 + ·)).or <|
          (us.find? fun o => (o / 256 = 5 || o / 256 = 6) && s.unitTaken o).or ((s.grantTaken p).map (24 + ·))

/-! ### LOAD and LOAD_CUSTOM (R432–R434) -/

/-- The catalogue image LOAD names: the version required, or the highest (R432). -/
def State.findImage (s : State) (id version : Nat) : Option (List Byte) :=
  (s.catalogue.filter fun b => imgId b = id && (version = 0 || (imgVersion b).toNat = version)).foldl
    (fun acc b => match acc with
      | none => some b
      | some a => if (imgVersion a).toNat < (imgVersion b).toNat then some b else acc) none

/-- The cluster is being loaded (R423). -/
def State.loading (s : State) (c : Fin 4) (p : List Byte) : State :=
  s.updCl c fun k => { k with st := .loading, id := BitVec.ofNat 16 (ldId p), checked := ldChecked p }

/-- The checks of a LOAD within its response, then the job. `job` is what the job keeps: the LOAD payload, and for a
customer image its area after it; `image` the answer where the image is refused, with the state it leaves. -/
def State.loadCheck (s : State) (m : Msg) (p job : List Byte) (custom : Bool) (image : Option (Answer × State)) : Reply :=
  let c := m.inst 4
  let k := Vec.at s.cl c
  if k.st != .empty then no s stBadState k.st.code
  else if !loadShape p || s.windowsClash c (windowsAt p 0x50) then m.bad
  else match image with
    | some r => .ok r
    | none => match s.missing c p with
      | some d => no s stNoResource d
      | none => s.accept m (.load c custom job) fun s => s.loading c p

/-- LOAD. -/
def State.load (s : State) (m : Msg) : Reply :=
  let p := m.payload
  m.check 0x90 (p.length = 0x90 + 4 * ldNq p && ldNq p ≤ 216 && 1 ≤ ldId p && ldId p < 0x8000)
    (s.loadCheck m p p false (if (s.findImage (ldId p) (ldVersion p)).isSome then none else some (.err stNoResource 0, s)))

/-- The code of the ALARM MEM_UNCORR, which HW_FAULT carries where the supervisor meets an uncorrectable word (R526). -/
abbrev memUncorrCode : Nat := 0x0B02

/-- The check of a customer image: an uncorrectable word of its header is a hardware fault (R526), a body larger than the
IMEM of four engines is refused (R434). -/
def State.customCheck (s : State) (m : Msg) (base len : Nat) : Option (Answer × State) :=
  let ((hdr, bad), s1) := s.rd .shm supCode base (min len 320)
  if bad then some (.err stHwFault memUncorrCode, s1)
  else if 0x40000 < imgBodyLen hdr then some (.err stNoResource (0x100 + tgtInst m.target), s)
  else none

/-- LOAD_CUSTOM. -/
def State.loadCustom (s : State) (m : Msg) : Reply :=
  let p := m.payload.drop 8
  let base := m.at_ 0 4
  let len := m.at_ 4 4
  m.check 0x98 (p.length = 0x90 + 4 * ldNq p && ldNq p ≤ 214 && 0x8000 ≤ ldId p && base % 64 = 0 && base + len ≤ 0x800000)
    (s.loadCheck m p (p ++ m.payload.take 8) true (s.customCheck m base len))

/-! ### Joining and releasing units (R29–R32, R391, R531, R597) -/

/-- Latch the counters of the units a cluster owns, which cross between groups at the command (R531). -/
def State.latchUnits (s : State) (c : Fin 4) : State := { s.onGroup (some c) latchFun with cl := s.cl }

/-- The queues of a resource list are set up (R31, R160, R181, R335). -/
def State.setQueues (s : State) (c : Fin 4) (p : List Byte) : State :=
  let s1 := (ldUnitQueues p).foldl (fun s h => s.updHq (hqOf h) fun q => { HwQ.empty (defaultDepth h) with ctr := q.ctr }) s
  (ldQueues p).foldl (fun s q => s.updHq (hqOf q.hq) fun x =>
    { HwQ.empty (2 ^ q.depth) with
      grant := if grantable q.hq then some c else none
      fbq := if q.fbq = 255 then none else some (hqOf q.fbq)
      relayed := q.flags % 2 = 1, ctr := x.ctr }) s1

/-- The units of a resource list join the cluster: ports, controllers and PIO engines enter IDLE, channels change owner; a port joins
with REASON 0 (the manual gives none: DESIGN CHOICE, log 83). -/
def State.joinUnits (s : State) (c : Fin 4) (p : List Byte) : State :=
  let s1 := s.updCl c fun k => { k with
    ports := ldPorts p, cans := ldCans p, pios := ldPios p, dis := ldDis p, dos := ldDos p, grant := ldGrant p,
    windows := windowsAt p 0x50 }
  let s2 := s1.setQueues c p
  let s3 := s2.each (n := 12) fun s q => if (ldPorts p).getLsbD q.1 then s.updPort q fun x => { x with owner := some c } else s
  let s4 := s3.each (n := 4) fun s q => if (ldCans p).getLsbD q.1 then s.updCan q fun x => { x with owner := some c, tb := Vec.fill 8 none, onbus := none } else s
  let s5 := s4.each (n := 8) fun s q => if (ldPios p).getLsbD q.1 then
      s.updPio q fun x => { x with owner := some c, outMask := ldOut p q.1, inMask := ldIn p q.1 } else s
  let s6 := s5.each (n := 8) fun s q => if (ldDis p).getLsbD q.1 then s.updDi q fun x => { x with owner := some c } else s
  let s7 := (s6.each (n := 8) fun s q => if (ldDos p).getLsbD q.1 then s.updDo q fun x => { x with owner := some c } else s).latchUnits c
  let s8 := s7.each (n := 12) fun s q => if (ldPorts p).getLsbD q.1 then s.setPort q pIdle 0 else s
  let s9 := s8.each (n := 4) fun s q => if (ldCans p).getLsbD q.1 then s.canState q nIdle else s
  s9.each (n := 8) fun s q => if (ldPios p).getLsbD q.1 then s.pioState q oIdle 0 else s

/-- A digital output in its reset state: OFF, its faults cleared; a condition on all outputs keeps its state (R7, R431). -/
def State.resetOutput (s : State) (d : Fin 8) : State :=
  let s1 := (List.range 8).foldl (fun s c => s.doClear d c) s
  s1.updDo d fun x => { x with cmd := false, retries := 0 }.enter (s.fio.settle uOff)

/-- A digital input in its reset state (R7, R431). A cleared filter has accepted no level: it reads as 0, and INV acts after it
(R401; DEDUCED, log 100). -/
def Din.clear (x : Din) : Din :=
  { x with filt := false, level := x.inv, count := 0, carry := 0, gateOpen := false, gateN := 0, gateFirst := 0, gateLast := 0, fedges := 0, fspan := 0 }

/-- An output of a personality goes off and back to the host, in its reset state and its settings at their defaults (R7,
R391, R406). -/
def State.freeOutput (s : State) (d : Fin 8) : State :=
  (s.resetOutput d).updDo d fun x => { x with owner := none, sets := doDefault }

/-- The PRP state of the pair of ports that a port of P0–P3 belongs to is reset (R7, R180). -/
def State.clearPrp (s : State) (p : Fin 12) : State :=
  if p.1 < 4 then { s with prp := Vec.put s.prp (finOf 2 (p.1 / 2)) ⟨0, []⟩ } else s

/-- The units of a cluster are released: held in reset with default settings, channels to the host (R30, R127, R391). A
port is held with REASON 0 (DESIGN CHOICE, log 83). -/
def State.freeUnits (s : State) (c : Fin 4) : State :=
  let mine := fun (o : Option (Fin 4)) => o == some c
  let s := s.latchUnits c
  let s := s.each (n := 12) fun s p => if mine (Vec.at s.port p).owner then
      let s1 := (s.endJobs (fun | .cableTest q => q = p | _ => false) stBadState).setPort p pHeld 0
      (s1.updPort p fun x => { Port.held with chg := x.chg, reason := x.reason, wire := x.wire, ctr := x.ctr }).clearPrp p
    else s
  let s := s.each (n := 4) fun s n => if mine (Vec.at s.can n).owner then
      ((s.canIdle n).canState n nHeld).updCan n fun x => { Can.held with
        chg := x.chg, tb := x.tb, onbus := x.onbus, passiveWarn := x.passiveWarn, ctr := x.ctr } else s
  let s := s.each (n := 8) fun s k => if mine (Vec.at s.pio k).owner then
      (s.pioState k oHeld 0).updPio k fun x => { Pio.held with ctr := x.ctr } else s
  let s := s.each (n := 8) fun s d => if mine (Vec.at s.fio.di d).owner then s.updDi d fun x => { x.clear with owner := none } else s
  let s := s.each (n := 8) fun s d => if mine (Vec.at s.fio.do_ d).owner then s.freeOutput d else s
  let old := s
  s.each (n := 256) fun s h =>
    if mine (old.hqServer h) || ((Vec.at s.cl c).ports.getLsbD (if h.1 < 96 then h.1 / 8 else (h.1 - 96) / 4) && h.1 < 144) ||
        ((Vec.at s.cl c).cans.getLsbD ((h.1 - 144) / 4) && 144 ≤ h.1 && h.1 < 160) then
      s.updHq h fun q => { HwQ.empty (defaultDepth h.1) with ctr := q.ctr }
    else s

/-- The cluster is EMPTY: its personality's image, resources, process image and protocol state are gone; its memories,
snapshot banks and counters stay. CK_CL runs at 200 MHz (R560). -/
def State.emptyCluster (s : State) (c : Fin 4) : State :=
  (s.updCl c fun k => { Cluster.zero with
    spad := k.spad, badWords := k.badWords, borrow := k.borrow, nextBlock := k.nextBlock, snapHdr := k.snapHdr, snap := k.snap,
    spstall := k.spstall, pi := { PiUnit.zero with staleWarn := k.pi.staleWarn }, tstat := k.tstat, cycle := k.cycle, avs := { k.avs with fset := 8, freq := 8, limited := false },
    ctr := k.ctr }).resetEngines c

/-- UNLOAD, and what a failed load or reset job leaves. -/
def State.unloadCluster (s : State) (c : Fin 4) : State := ((s.freeUnits c).emptyCluster c).hubsRefresh

/-! ### Image into a cluster (R433, R434, R560, R571, R597) -/

/-- The IMEM of engine k of a cluster from a personality's body; in checked mode E1 and E3 take their leaders' (R597). -/
def imemOf (body : List Byte) (checked : Bool) (k : Nat) : Mem :=
  let e := if checked then k / 2 * 2 else k
  memWriteN [] 0 (slice body (0x10000 * e) 0x10000)

/-- A verified image is written: IMEM loaded, DMEM and scratchpad cleared (R465), F_SET taken (R560). -/
def State.writeImage (s : State) (c : Fin 4) (img : List Byte) : State :=
  let ck := (Vec.at s.cl c).checked
  let s1 := s.engines c fun e _ => Engine.atReset e ck (imemOf (imgBody img) ck (kOf e).1) [] [] []
  (s1.clearSpad c).updCl c fun k => { k with
    st := .stopped, version := imgVersion img, image := img, ct := 8000, phase := 0, dl := Dl.zero, pi := { PiUnit.zero with staleWarn := k.pi.staleWarn },
    avs := { k.avs with fset := imgFclk img, freq := imgFclk img, limited := false } }

/-- The image a LOAD job reads, whether the read met an uncorrectable word, and the state after. -/
def State.jobImage (s : State) (custom : Bool) (p : List Byte) : (List Byte × Bool) × State :=
  if custom then
    let a := p.drop (p.length - 8)
    s.rd .shm supCode (leAt a 0 4) (leAt a 4 4)
  else (((s.findImage (ldId p) (ldVersion p)).getD [], false), s)

/-- The domains a personality needs are powered: its cluster's with SHM, and its units'. -/
def State.powerFor (s : State) (c : Fin 4) : State :=
  (s.unitDomains c).foldl (fun s d => s.domainUp (finOf 12 d)) (s.domainNeed (finOf 12 (clDomain c)))

/-- The running job on a cluster. -/
def State.clusterJob (s : State) (c : Fin 4) : Option Job :=
  s.jobWhere fun
    | .load k _ _ => k = c
    | .resetCluster k => k = c
    | _ => false

/-- LOAD_JOB_END: the image is verified; the units join and the cluster is STOPPED, or it is EMPTY again. -/
def State.loadEnd (s : State) (c : Fin 4) : State :=
  match s.clusterJob c with
  | some j => match j.kind with
    | .load _ custom p =>
      let s1 := s.domainNeed (finOf 12 (clDomain c))
      let ((img, bad), s2) := s1.jobImage custom p
      if bad then (s2.emptyCluster c).failJob j stHwFault memUncorrCode
      else match s2.imgFault img (if custom then 3 else 2) (ldId p) with
      | some d => (s2.emptyCluster c).failJob j stAuthFail d
      | none =>
        let s3 := ((s2.writeImage c img).joinUnits c p).powerFor c
        s3.endJob j stOk none (leBytes 4 (imgVersion img).toNat ++ leBytes 4 (imgBodyLen img))
    | _ => s
  | none => s

/-- The settings of a cluster's units return to their defaults (R431). -/
def State.defaultUnits (s : State) (c : Fin 4) : State :=
  let mine := fun (o : Option (Fin 4)) => o == some c
  let s := s.each (n := 12) fun s p => if mine (Vec.at s.port p).owner then
      s.updPort p fun x => { x with
        t1 := portT1Default, t2 := portT2Default, t3 := portT3Default, station := 0, mcast := Vec.fill 32 0,
        vids := Vec.fill 64 0, pre := preDefault, etypes := Vec.fill 8 0, pcpMap := Port.held.pcpMap, gate := Gate.zero } else s
  let s := s.each (n := 4) fun s n => if mine (Vec.at s.can n).owner then
      s.updCan n fun x => { x with sets := canDefault, filters := Vec.fill 32 Filter.zero } else s
  let s := s.each (n := 8) fun s k => if mine (Vec.at s.pio k).owner then
      s.updPio k fun x => { Pio.held with st := x.st, owner := x.owner, outMask := x.outMask, inMask := x.inMask, ctr := x.ctr } else s
  let s := s.each (n := 8) fun s d => if mine (Vec.at s.fio.di d).owner then s.updDi d fun x => { x with sets := diDefault, level := x.filt } else s
  s.each (n := 8) fun s d => if mine (Vec.at s.fio.do_ d).owner then s.updDo d fun x => { x with sets := doDefault } else s

/-- CLUSTER_RESET_JOB_END: the image is verified again and reloaded, or the cluster is EMPTY (R431, R571). The word of
supervisor SRAM in which the copy is damaged is a free value. -/
def State.clusterResetEnd (s : State) (c : Fin 4) (copyDamaged : Bool) : State :=
  match s.clusterJob c with
  | some j => match j.kind with
    | .resetCluster _ =>
      let k := Vec.at s.cl c
      let custom := 0x8000 ≤ k.id.toNat
      let img := if custom then k.image else (s.findImage k.id.toNat k.version.toNat).getD []
      if custom && copyDamaged then
        let (n, s1) := (s.unloadCluster c).draw
        (s1.sramUncorr supCode (Config.freeWord n).toNat).failJob j stHwFault memUncorrCode
      else match s.imgFault img (if custom then 3 else 2) k.id.toNat with
      | some d => (s.unloadCluster c).failJob j stAuthFail d
      | none =>
        let s1 := ((s.writeImage c img).updCl c fun x => { x with ct := k.ct, phase := k.phase, pi := k.pi, dl := k.dl }).defaultUnits c
        s1.endJob j stOk none []
    | _ => s
  | none => s

/-! ### START, STOP, UNLOAD, CYCLE_CONFIG (R435, R436) -/

/-- BUSY of START and STOP: a job on the cluster, or a PAIR_SWITCH for a paired personality (R427). -/
def startBusy (s : State) (m : Msg) : Option Job := (s.heldBy m.target).or (if mirrored s m then s.pairJob else none)

/-- START. -/
def State.start (s : State) (m : Msg) : Reply :=
  let c := m.inst 4
  match s.startCheck c with
  | some a => .ok (a, s)
  | none =>
    if s.inPair c && !s.budgetOk s.pair (row s.pair.sets 2) then no s stNoResource 0xB00
    else yes ((s.powerFor c).startPersonality c).tryOrphan

/-- STOP. -/
def State.stopCmd (s : State) (m : Msg) : Reply :=
  let c := m.inst 4
  if !s.started c then no s stBadState (Vec.at s.cl c).st.code
  else yes (s.stopPersonality c).pairStopped

/-- UNLOAD. -/
def State.unloadCmd (s : State) (m : Msg) : Reply :=
  let c := m.inst 4
  let k := Vec.at s.cl c
  if k.st != .stopped || s.inPair c then no s stBadState k.st.code
  else yes ((s.sourceGone c).unloadCluster c)

/-- CYCLE_CONFIG. -/
def State.cycleConfig (s : State) (m : Msg) : Reply :=
  let c := m.inst 4
  let k := Vec.at s.cl c
  let ct := m.at_ 0 4
  let ph := m.at_ 4 4
  if k.st != .stopped then no s stBadState k.st.code
  else if k.role.isSome then no s stBadState 0x600
  else m.check 8 (125 ≤ ct && ct ≤ 800000 && ph < ct) (yes (s.updCl c fun k => { k with ct := ct, phase := ph }))

/-! ### RESET_OBJECT (R431) -/

/-- The cluster an object of RESET_OBJECT belongs to, hardware queues included. -/
def State.resetCluster (s : State) (t : W16) : Option (Fin 4) :=
  if tgtClass t = 7 then s.hqServer (hqOf (tgtInst t)) else s.objCluster t

/-- A port returns to IDLE with its queued frames completed (R189), and to TRAINING where R124 holds, with REASON CONFIG (the manual gives none: DESIGN CHOICE,
log 83). -/
def State.resetPort (s : State) (p : Fin 12) : State :=
  if (Vec.at s.port p).st == pHeld then s
  else
    let s1 := (s.setPort p pIdle 10).flushPort p
    s1.setPort p (s1.portRest p) 10

/-- A process image: rewritten at the next drumbeat, or at once (R431). -/
def State.resetPi (s : State) (c : Fin 4) : State :=
  if !(Vec.at s.cl c).pi.defined then s
  else if s.started c then s.updPi c fun p => { p with rewrite := true } else s.pbInit c

/-- The time unit: servo integral cleared, HOLDOVER until the next sample, or FREE; the first sample after it may step
freely (R200). -/
def State.resetTime (s : State) : State :=
  let s1 := s.updTim fun t => { t with integ := 0, lastAt := none, avg := [], slewLeft := 0, jumpPend := false, freeStep := true }
  if s.tim.tsrc = 0 && !s.followsPair then s1.putTstat else s1.enterHoldover.putTstat

/-- The jobs of an object that RESET_OBJECT ends (R108); those on the memory of a cluster hold it instead (R427). -/
def State.resetJobs (s : State) (t : W16) : State :=
  (s.sup.jobs.filter fun j => fld j.target 0 14 = fld t 0 14 && !(match j.kind with
    | .load .. => true
    | .resetCluster _ => true
    | _ => false)).foldl (fun s j => s.endJob j stBadState none []) s

/-- A CAN controller returns to IDLE with its buffers and queues completed as at STOP, and to INTEGRATING where R343 holds. -/
def State.resetCan (s : State) (n : Fin 4) : State :=
  if (Vec.at s.can n).st == nHeld then s else ((s.canIdle n).canFlush n).canGo n

/-- The effect of RESET_OBJECT on a quick object. -/
def State.resetObj (s : State) (cls i : Nat) : State :=
  match cls with
  | 2 => s.resetPort (finOf 12 i)
  | 3 => s.resetCan (finOf 4 i)
  | 4 =>
    let k : Fin 8 := finOf 8 i
    if (Vec.at s.pio k).st == oHeld then s
    else
      let s1 := s.updPio k fun x => { x with txq := [], rxq := [], sr := 0, bc := 0, lc0 := 0, lc1 := 0, tcnt := 0, tout := false }
      (if (Vec.at s.pio k).st == oIdle then s1 else s1.pioIdle k).pioGo k
  | 5 => s.updDi (finOf 8 i) Din.clear
  | 6 => s.resetOutput (finOf 8 i)
  | 7 => (s.updHq (hqOf i) fun q => { q with items := [], ovf := false, bad := false }).fbqMoved (hqOf i)
  | 8 => s.updMbx (finOf 8 i) fun x => { x with
      lock := 0, inFull := false, outFull := false, outq := [], overrun := false, session := none }
  | 9 => s.updEmb (finOf 16 i) fun b => { b with lock := 0, inFull := false, outFull := false }
  | 10 => s.resetPi (finOf 4 i)
  | 11 => if s.powered 9 then (s.linkGo (finOf 2 i) 0).linkGo (finOf 2 i) 1 else s
  | 12 => s.resetTime
  | _ => s

/-- RESET_OBJECT: refused for an object of a paired personality; a job of the object ends (R108). -/
def State.resetCmd (s : State) (m : Msg) : Reply :=
  let cls := tgtClass m.target
  let paired := match s.resetCluster m.target with
    | some c => s.inPair c
    | none => false
  if paired && (s.pair.st == qActive || s.pair.st == qStandby) then no s stBadState s.pair.st.1
  else if cls = 1 then
    let c := m.inst 4
    if (Vec.at s.cl c).st == .empty then no s stBadState 0
    else if s.jobLimit m then no s stBusy 0
    else ((((s.resetJobs m.target).stopPersonality c).updCl c fun k => { k with st := .loading }).pairStopped).accept m
      (.resetCluster c) id
  else yes (((s.resetJobs m.target).resetObj cls (tgtInst m.target)).hubsRefresh)

/-- The module is reset after its response (R431, R564). -/
def State.resetAfter (m : Msg) (s : State) : State := if tgtClass m.target = 0 then s.moduleReset 3 else s

/-- The codes that R424 assigns. -/
def assignedCodes : List Nat :=
  [0x100, 0x101, 0x102, 0x103, 0x104, 0x105, 0x200, 0x201, 0x202, 0x203, 0x204, 0x205, 0x300, 0x301, 0x302, 0x303, 0x304, 0x305,
   0x400, 0x401, 0x402, 0x500, 0x501, 0x502, 0x503, 0x600, 0x601, 0x602, 0x603, 0x604, 0x700, 0x701, 0x702, 0x703, 0x704,
   0x800, 0x801, 0x802, 0x803, 0x900, 0x901, 0x902, 0xA00, 0xA01, 0xA02, 0xA03, 0xA04, 0xB00, 0xB01, 0xB02, 0xB03, 0xB04,
   0xC00, 0xC01]

/-- The row of an unassigned code: any object of R91, no class being accepted or refused (log 43). -/
def unassignedRow (code : W16) : CmdRow := ⟨code.toNat, inClass (List.range 13), false, neverBusy, notMirrored⟩

end Sys2Proof.Machine
end

