-- ==== Sys2Proof/Machine/Phy.lean ====
section
/-!
DEFINITION. Events of the ports' lines: bring-up and loss, training, SNR, impulse guard, PLCA, energy-efficient Ethernet,
pause timers, PRP ageing, preemption verification, calibration, cable test (chapters 05 and 06).
-/
namespace Sys2Proof.Machine

/-- SPEED of PLINK for a port that comes up (R123, R128, R143, R146): a G port's resolved speed lies within what SPEED
advertises. -/
def upSpeed (x : Port) (p : Fin 12) (resolved : Nat) : Nat :=
  match portKind p with
  | .l => 1
  | .s => 1
  | .x => if row x.t1 18 = 2 then 4 else 3
  | .g => match row x.t1 2 with
    | 1 => 3
    | 2 => 2
    | 3 => 2
    | _ => if resolved = 2 then 2 else 3

/-- ROLE of PLINK (R126, R138, R146): forced or resolved on a G port at 1000 Mb/s, as set on an L port, the coordinator
on an S port. -/
def upRole (x : Port) (p : Fin 12) (speed : Nat) (master : Bool) : Bool :=
  match portKind p with
  | .g => speed = 3 && (match row x.t1 3 with
    | 2 => true
    | 3 => false
    | _ => master)
  | .l => row x.t1 4 = 0
  | .s => row x.t1 13 = 0
  | .x => false

/-- The transmitter may use LPI (R148, R151). -/
def Port.mayLpi (x : Port) (p : Fin 12) : Bool :=
  match portKind p with
  | .g => x.eeeOn
  | .l => row x.t1 10 = 1
  | _ => false

/-- SNR_MIN of PLINK: the lowest margin of the pairs in use in units of 0.25 dB, from margins in units of 0.1 dB. -/
def snrMinOf (p : Fin 12) (speed : Nat) (snr : Vec W16 4) : Byte :=
  let low := if speed = 3 then min (min (Vec.at snr 0).toInt (Vec.at snr 1).toInt) (min (Vec.at snr 2).toInt (Vec.at snr 3).toInt)
    else (Vec.at snr 0).toInt
  if p.1 < 8 then BitVec.ofNat 8 (satTo 255 (low.toNat * 2 / 5)) else 0

/-- A PLCA cycle begins (R139). -/
def Port.plcaStart (x : Port) : Port :=
  { x with turn := 0, burst := 0, burstMax := row x.t1 16, opportunity := row x.t1 13 = 0 }

/-! ### The receiver loop (R130, R131, R133, R137) -/

/-- Pairs that carry the receiver loop of a port at a speed code. -/
def linePairs (p : Fin 12) (speed : Nat) : Nat := if p.1 < 4 then (if speed = 3 then 4 else 1) else if p.1 < 8 then 1 else 0

/-- Taps of each pair, in the order in which R130 and R137 name them: of the equalisers, then of the cancellers. -/
def Port.tapsOf (x : Port) (p : Fin 12) (speed : Nat) : Nat :=
  match portKind p with
  | .g => if speed = 3 then 24 + 16 + 192 + 3 * 96 else 12 + 8
  | .l => if row x.t1 6 = 1 then 16 + 64 + 256 else 16 + 32 + 128
  | _ => 0

/-- The duration of a symbol in tenths of a nanosecond. -/
def symbolTenths (p : Fin 12) : Nat := if p.1 < 4 then 80 else 1333

/-- The rate at which the loop runs: of a port in TRAINING, which has no speed yet, the fastest that SPEED advertises. -/
def Port.loopSpeed (x : Port) (p : Fin 12) : Nat :=
  if x.st == pUp then x.speed.toNat else if p.1 < 4 then (if row x.t1 2 ≤ 1 then 3 else 2) else 1

/-- The largest gain, in steps of 0.25 dB. -/
def gainMax (p : Fin 12) : Nat := if p.1 < 4 then 120 else 160

/-- The loop that training leaves: its taps cut or filled to their number, its gain within its range. -/
def trainedLoop (r : LinkRes) (x : Port) (p : Fin 12) (speed : Nat) : Loop :=
  let n := x.tapsOf p speed
  let on := fun (i : Fin 4) => decide (i.1 < linePairs p speed)
  { gain := Vec.mapIx r.gain fun i g => if on i then BitVec.ofNat 8 (satTo (gainMax p) g.toNat) else 0
    taps := Vec.mapIx r.taps fun i t => if on i then (t ++ List.replicate n 0).take n else []
    phase := Vec.mapIx r.phase fun i f => if on i then f else 0
    mse := if linePairs p speed = 0 then 0 else r.mse
    wander := if p.1 < 4 && speed = 2 then r.wander else 0, stage := 4, guarded := 0, wait := 0 }

/-- The loop is frozen (R130, R137): in TEST, in the partner's LPI quiet but for its refresh (not at 100 Mb/s), after an impulse
guard, and while UP with EQ_FREEZE. -/
def Port.frozen (x : Port) (p : Fin 12) : Bool :=
  x.st == pTest || 0 < x.loop.guarded ||
    (x.st == pUp && (row x.t1 8 = 1 || (x.lpiRx && !x.lpiRefresh && !(p.1 < 4 && x.speed = 2))))

/-- Until the next update of the loop: one symbol in TRAINING, 64 (G) or 32 (L) symbols while UP. -/
def Port.updatePeriod (x : Port) (p : Fin 12) : Nat :=
  if x.st == pUp then symbolTenths p * (if p.1 < 4 then 64 else 32) else symbolTenths p

/-- The n of the step size 2^-n with which the loop adapts: while UP 14 (G) or 13 (L), in TRAINING falling in four stages from
6 to 12 and from 5 to 11. R137 gives an L port the ends alone; that its stages are as many and as even as a G port's is
DEDUCED (log 82). -/
def Loop.step (l : Loop) (p : Fin 12) : Nat :=
  let g := decide (p.1 < 4)
  if l.stage = 4 then (if g then 14 else 13) else (if g then 6 else 5) + 2 * l.stage.1

/-- Free values that one update draws. -/
def Port.loopDraws (x : Port) (p : Fin 12) : Nat := 4 * (x.tapsOf p (x.loopSpeed p) + 2) + 8

/-- One update of the coefficients (R130, R137). What the line brings is no input of the model, so the adapted values are free
values, as is the update at which a stage of training ends (log 82). -/
def Port.adapt (x : Port) (p : Fin 12) (free : Nat) : Port :=
  let speed := x.loopSpeed p
  let n := x.tapsOf p speed
  let at_ := fun (i : Fin 4) => free + 8 + i.1 * (n + 2)
  let on := fun (i : Fin 4) => decide (i.1 < linePairs p speed)
  { x with
    loop := { x.loop with
      gain := Vector.ofFn fun i => if on i then BitVec.ofNat 8 ((Config.freeWord (at_ i)).toNat % (gainMax p + 1)) else 0
      phase := Vector.ofFn fun i => if on i then (Config.freeWord (at_ i + 1)).setWidth 6 else 0
      taps := Vector.ofFn fun i => if on i then (List.range n).map fun k => (Config.freeWord (at_ i + 2 + k)).setWidth 16 else []
      wander := if p.1 < 4 && speed = 2 then (Config.freeWord (free + 6)).setWidth 16 else 0
      stage := if x.st == pUp then 4
        else if x.loop.stage.1 < 3 && (Config.freeWord (free + 7)).getLsbD 0 then finOf 5 (x.loop.stage.1 + 1) else x.loop.stage } }

/-- One measurement by the loop, whose reports go on while its coefficients are frozen (R130, R137); its values are free ones
(log 82). -/
def Port.measure (x : Port) (p : Fin 12) (free : Nat) : Port :=
  let speed := x.loopSpeed p
  let snr : Vec W16 4 := Vector.ofFn fun i => if i.1 < linePairs p speed then (Config.freeWord (free + i.1)).setWidth 16 else 0
  { x with
    loop := { x.loop with mse := Config.freeWord (free + 4) }
    length := (Config.freeWord (free + 5)).setWidth 16
    pairSnr := snr
    snrMin := if x.st == pUp then snrMinOf p speed snr else x.snrMin }

/-- 2 ns pass of the time for which the impulse guard freezes the loop, counted in tenths of 1 ns (R130). -/
def Port.unguard (x : Port) : Port := { x with loop := { x.loop with guarded := x.loop.guarded - 20 } }

/-- One period of CK_TIME, 2 ns, for the receiver loop of a port. -/
def State.loopTick (s : State) (p : Fin 12) : State :=
  let x := Vec.at s.port p
  if 8 ≤ p.1 || !(x.st == pTraining || x.st == pUp) then s
  else
    let held := x.frozen p
    if 20 < x.loop.wait then
      (s.updPort p Port.unguard).updPort p fun x => { x with loop := { x.loop with wait := x.loop.wait - 20 } }
    else
      let s1 : State := { s with free := s.free + x.loopDraws p }
      (s1.updPort p Port.unguard).updPort p fun x =>
        let y := (if held then x else x.adapt p s.free).measure p s.free
        { y with loop := { y.loop with wait := x.loop.wait + x.updatePeriod p - 20 } }

/-! ### Bring-up and loss of the link -/

/-- Whether a port honours PAUSE, and whether it sends it (R176): resolved from what both ends advertise where it negotiates
(Annex 28B of IEEE 802.3, with PAUSE = PAUSE_RX and ASM_DIR set where PAUSE_RX and PAUSE_TX differ; PRESUMED, log 83); else
as the settings stand, and never on S ports. -/
def Port.pauseOf (x : Port) (p : Fin 12) (r : LinkRes) : Bool × Bool :=
  let rx := decide (row x.t2 8 = 1)
  let tx := decide (row x.t2 9 = 1)
  if portKind p == .s then (false, false)
  else if !x.negotiates p then (rx, tx)
  else
    let asm := rx != tx
    if rx && r.pause then (true, true)
    else if asm && r.asmDir then (if rx then (true, false) else (false, r.pause))
    else (false, false)

/-- A port enters UP (R144, R146, R172, R176): the frames at its queues' heads stand there from now on. -/
def State.portUp (s : State) (p : Fin 12) (r : LinkRes) (reason : Nat) : State :=
  let x := Vec.at s.port p
  let speed := upSpeed x p r.speed.1
  let pause := x.pauseOf p r
  let s1 := s.updPort p fun x => { x with
    speed := BitVec.ofNat 4 speed, role := upRole x p speed r.master
    eeeOn := portKind p == .g && x.negotiates p && row x.t1 10 = 1 && r.partnerEee
    pauseRx := pause.1, pauseTx := pause.2
    pairSnr := r.snr, snrMin := snrMinOf p speed r.snr, length := r.length, loop := trainedLoop r x p speed
    guards := 0, attempts := 0, headAt := Vec.fill 8 (BitVec.ofNat 32 s.ns.toNat)
    mm := if row x.pre 1 = 0 then 0 else if row x.pre 4 = 0 then 2 else 1
    mmTries := 0 }
  let s2 := if portKind p == .s then s1.updPort p Port.plcaStart else s1
  ((s2.setPort p pUp reason).pauseCheck p).hubsRefresh

/-- LINK_UP: from TRAINING, with REASON LINK_OK. -/
def State.portLinkUp (s : State) (p : Fin 12) (r : LinkRes) : State :=
  if (Vec.at s.port p).st == pTraining then s.portUp p r 3 else s

/-- The causes of a loss of the link for a port (R132, R143, R145): only an X port in XMODE 0 honours the remote fault bits. -/
def Port.lossReason (x : Port) (p : Fin 12) (reason : Nat) : Bool :=
  match portKind p with
  | .g => reason = 2 || reason = 6
  | .l => reason = 2 || reason = 6
  | .x => reason = 2 || (reason = 9 && row x.t1 18 = 0)
  | .s => false

/-- A port leaves UP for TRAINING (R125). -/
def State.portLost (s : State) (p : Fin 12) (reason : Nat) : State := (s.setPort p pTraining reason).hubsRefresh

/-- LINK_LOSS. -/
def State.portLinkLoss (s : State) (p : Fin 12) (reason : Nat) : State :=
  let x := Vec.at s.port p
  if x.st == pUp && x.lossReason p reason then s.portLost p reason else s

/-- TRAINING_RETRY: the retries run within TRAINING, with REASON and an_restart (R128, R136, R143, R147). -/
def State.trainingRetry (s : State) (p : Fin 12) (noCommon : Bool) : State :=
  let x := Vec.at s.port p
  if x.st != pTraining then s
  else
    let put := fun (s : State) (r : Nat) => s.updPort p fun x => { x with
      reason := BitVec.ofNat 4 r, rf := x.faultBits p pTraining r }
    match portKind p with
    | .l => put s 4
    | .s => s
    | _ =>
      let s1 := if x.negotiates p then s.pinc p cAnRestart else s
      if noCommon && x.negotiates p then put s1 5 else s1

/-- SNR_LOW: a pair's margin below SNR_WARN for 1 ms (R132). -/
def State.snrLow (s : State) (p : Fin 12) (pair : Fin 4) (margin : W16) : State :=
  let x := Vec.at s.port p
  if x.st != pUp || 8 ≤ p.1 || (row x.t1 9 : Int) ≤ margin.toInt then s
  else
    (s.updPort p fun x =>
      let v := Vec.put x.pairSnr pair margin
      { x with pairSnr := v, snrMin := snrMinOf p x.speed.toNat v }).warn 0x0301 (s.objAt 2 p.1) 0 false

/-- IMPULSE_GUARD (R131): wherever the loop adapts, adaptation is suspended for 256 symbols. -/
def State.impulse (s : State) (p : Fin 12) : State :=
  let x := Vec.at s.port p
  if (x.st == pUp || x.st == pTraining) && p.1 < 8 then
    s.updPort p fun x => { x with
      guards := x.guards + 1, ctr := x.ctr.inc cImpulse, loop := { x.loop with guarded := 256 * symbolTenths p } }
  else s

/-- PHY_FAULT (R124): an active cable test of the port ends with it, with HW_FAULT (the manual gives that job no status:
DESIGN CHOICE, log 80). -/
def State.phyFault (s : State) (p : Fin 12) : State :=
  let x := Vec.at s.port p
  if x.st == pHeld || x.st == pFault then s
  else
    let s1 := (s.setPort p pFault 12).alarm 0x0300 (s.objAt 2 p.1) 0 false
    ((s1.sup.jobs.filter fun j => j.kind == .cableTest p).foldl (fun s j => s.failJob j stHwFault 0x0300) s1).hubsRefresh

/-! ### PLCA (R138–R142) -/

/-- An S port that is UP. -/
def State.plcaOn (s : State) (p : Fin 12) : Bool := portKind p == .s && (Vec.at s.port p).st == pUp

/-- A coordinator clash (R141). -/
def State.plcaClash (s : State) (p : Fin 12) : State := (s.pinc p cPlcaClash).warn 0x0302 (s.objAt 2 p.1) 0 false

/-- The line carries no frame of the port: none was started, or the one that collided waits for its next opportunity. -/
def Port.lineIdle (x : Port) : Bool := x.tx.isNone || x.retry

/-- PLCA_BEACON: after the last of the PLCA_COUNT opportunities a coordinator begins a cycle; energy it did not send is a
clash. -/
def State.plcaBeacon (s : State) (p : Fin 12) (energy : Bool) : State :=
  let x := Vec.at s.port p
  if s.plcaOn p && row x.t1 13 = 0 && row x.t1 14 ≤ x.turn && x.lineIdle then
    let s1 := s.updPort p Port.plcaStart
    if energy then s1.plcaClash p else s1
  else s

/-- The opportunity of the next ID begins (R139); a coordinator waits with the beacon after its last one. -/
def State.opportunityEnd (s : State) (p : Fin 12) : State :=
  let x := Vec.at s.port p
  if s.plcaOn p && x.lineIdle && !(row x.t1 13 = 0 && row x.t1 14 ≤ x.turn) then
    s.updPort p fun x =>
      { x with turn := x.turn + 1, burst := 0, opportunity := row x.t1 13 = x.turn + 1 && row x.t1 13 ≠ 255 }
  else s

/-- BEACON_RECEIVED: a follower's cycle begins, and a lost one comes back to UP; to a coordinator it is a clash. -/
def State.beaconIn (s : State) (p : Fin 12) : State :=
  let x := Vec.at s.port p
  if s.plcaOn p then
    if row x.t1 13 = 0 then s.plcaClash p else s.updPort p Port.plcaStart
  else if portKind p == .s && x.st == pTraining && x.reason = 7 then
    s.portUp p { speed := 1, master := false, partnerEee := false, pause := false, asmDir := false, snr := Vec.fill 4 0,
                 gain := Vec.fill 4 0, taps := Vec.fill 4 [], phase := Vec.fill 4 0, length := 0, mse := 0, wander := 0 } 8
  else s

/-- BEACON_LOST: a follower or listen-only port. -/
def State.beaconLost (s : State) (p : Fin 12) : State :=
  if s.plcaOn p && row (Vec.at s.port p).t1 13 ≠ 0 then s.portLost p 7 else s

/-- PLCA_COLLISION: the frame waits for its next opportunity; the 16th attempt drops it (R142), with RESULT CUT in its
descriptors (the manual names none: DESIGN CHOICE, log 88). -/
def State.plcaCollision (s : State) (p : Fin 12) : State :=
  let x := Vec.at s.port p
  match x.tx with
  | none => s
  | some t =>
    if !s.plcaOn p || x.retry then s
    else
      let first := Vec.atD x.ctr.live cPlcaColl 0 = 0 && Vec.atD x.ctr.ival cPlcaColl 0 = 0
      let s1 := (s.pinc p cPlcaColl).updPort p fun x => { x with
        wire := some (t.whole .bad), opportunity := false, attempts := x.attempts + 1, retry := true }
      let s2 := if first then s1.warn 0x0303 (s.objAt 2 p.1) 0 false else s1
      if x.attempts + 1 < 16 then s2
      else ((s2.pinc p cPlcaDrop).updPort p fun x => { x with tx := none, retry := false, attempts := 0 }).completeTx
        p t.descs rCut t.cskip t.stamp

/-! ### Energy-efficient Ethernet (R148–R152) -/

/-- The wake time Tw of a port in ns (R148, R149, R151). -/
def Port.wakeNs (x : Port) (p : Fin 12) : Nat :=
  if p.1 < 4 then max (1000 * row x.t1 12) (if x.speed = 3 then 16500 else 30000) else 300000

/-- Walk gate entries from a time on: when one of them opens a gate that the entry before it has closed, before `stop`; and the
gates that stand at the end of the walk. -/
def openingIn (stop : Nat) : Byte → Nat → List W32 → Option Nat × Byte
  | gates, _, [] => (none, gates)
  | gates, t, e :: r =>
    let g := BitVec.ofNat 8 (fld e 24 8)
    if stop ≤ t then (none, gates)
    else if g &&& ~~~gates ≠ 0 then (some t, g)
    else openingIn stop g (t + gateNs e) r

/-- How long it is to the next gate opening of a port with an active gate list (R150): in the running cycle, or in the next
one, in which the list begins again. -/
def State.nextOpening (s : State) (c : Fin 4) (p : Fin 12) : Option Nat :=
  let g := (Vec.at s.port p).gate
  let left := s.toBeat c s.ns.toNat
  let (t, gates) := openingIn left g.gates 0 (s.gateRest c p s.ns.toNat ++ g.active)
  t.or (openingIn (left + (Vec.at s.cl c).period) gates left (g.active ++ g.active)).1

/-- How long it is to the next scheduled drum frame transmission of a port (R150): a passage of the cycle before, the launch
of a controller's own frames, or a merged frame of a hub. -/
def State.nextDrum (s : State) (c : Fin 4) (p : Fin 12) : List Nat :=
  let k := Vec.at s.cl c
  let x := Vec.at s.port p
  let off := k.sinceBeat s.ns.toNat
  let own := match s.cycleBuild c with
    | some b => [k.dl.txOffset + b.lag]
    | none => []
  let merges := if k.role == some .hub then (k.dl.mergeSpans x.speed).map (·.1.toNat) else []
  (x.ways.last.map (·.1.toNat) ++ own ++ merges).map fun a => if off < a then a - off else a + k.period - off

/-- The gap to the next scheduled event is long enough for LPI (R150); it is measured from the entry (DEDUCED, log 89). -/
def State.lpiGap (s : State) (p : Fin 12) : Bool :=
  let x := Vec.at s.port p
  match x.owner with
  | none => true
  | some c =>
    let gap := 1000 * row x.t1 11 + 2 * x.wakeNs p
    ((s.nextOpening c p).toList ++ (if (s.drumAt p).isSome then s.nextDrum c p else [])).all fun t => decide (gap < t)

/-- LPI_ENTRY (R148, R150, R151). -/
def State.lpiEnter (s : State) (p : Fin 12) : State :=
  let x := Vec.at s.port p
  let quiet := x.tx.isNone && x.preempted.isNone && x.ways.store.isEmpty && x.copies.isEmpty &&
    (List.range 8).all fun c => (Vec.at s.hq (txHq p c)).items.isEmpty
  if x.st == pUp && x.mayLpi p && !x.lpiTx && quiet && s.lpiGap p then
    s.updPort p fun x => { x with lpiTx := true, ctr := x.ctr.inc cLpiTx }
  else s

/-- LPI_SCHEDULED_WAKE. -/
def State.lpiWake (s : State) (p : Fin 12) : State := s.updPort p fun x => { x with lpiTx := false }

/-- PARTNER_LPI: shown in PLINK; no change of state (R152). The loop adapts in a refresh (R130). -/
def State.partnerLpi (s : State) (p : Fin 12) (line : PartnerLine) : State :=
  let x := Vec.at s.port p
  if x.st != pUp then s
  else match line with
    | .awake => s.updPort p fun x => { x with lpiRx := false, lpiRefresh := false }
    | .refresh => if x.lpiRx then s.updPort p fun x => { x with lpiRefresh := true } else s
    | .quiet =>
      if !x.mayLpi p then s
      else s.updPort p fun x => { x with lpiRx := true, lpiRefresh := false, ctr := if x.lpiRx then x.ctr else x.ctr.inc cLpiRx }

/-! ### MAC timers -/

/-- PAUSE_EXPIRY (R177). -/
def State.pauseEnd (s : State) (p : Fin 12) : State := s.pauseOver p

/-- One period of CK_TIME, 2 ns, of a pause (R177). -/
def State.pauseTick (s : State) (p : Fin 12) : State :=
  let x := Vec.at s.port p
  if x.pauseLeft = 0 then s
  else if 20 < x.pauseSub then s.updPort p fun x => { x with pauseSub := x.pauseSub - 20 }
  else if x.pauseLeft = 1 then s.pauseOver p
  else s.updPort p fun x => { x with pauseLeft := x.pauseLeft - 1, pauseSub := x.pauseSub + quantum x.speed - 20 }

/-- PAUSE_REPEAT (R178). -/
def State.pauseAgain (s : State) (p : Fin 12) : State :=
  let x := Vec.at s.port p
  if x.sendsPause && x.xoff then s.sendPause p (row x.t2 10) else s

/-- PRP_ENTRY_AGE (R180). -/
def State.prpAge (s : State) (k : Fin 2) (src : BitVec 48) : State :=
  { s with prp := Vec.upd s.prp k fun t => { t with entries := t.entries.filter fun e => e.src ≠ src } }

/-- PREEMPT_VERIFY: a verify mPacket goes out, a response succeeds, the fourth timer after three attempts fails (R172). -/
def State.verify (s : State) (p : Fin 12) (ev : VerifyEv) : State :=
  let x := Vec.at s.port p
  if x.st != pUp || x.mm ≠ 1 then s
  else match ev with
    | .respond => s.updPort p fun x => { x with mm := 2 }
    | .timer =>
      if x.mmTries < 3 then s.updPort p fun x => { x with
        mmTries := x.mmTries + 1, lpiTx := false, ctrlOut := x.ctrlOut ++ [⟨List.replicate 60 0, .good, .verify⟩] }
      else (s.updPort p fun x => { x with mm := 3 }).warn 0x0305 (s.objAt 2 p.1) 0 false

/-- CAL_STARVED (R153). -/
def State.calStarved (s : State) (p : Fin 12) : State :=
  if (Vec.at s.port p).st == pHeld then s else s.warn 0x0304 (s.objAt 2 p.1) 0 false

/-! ### Cable test (R154, R155, R439) -/

/-- A result of R155: codes 0, 6 and 7 have no distance; a code that is not one of a port of this kind is none of the test. -/
def cableResult (p : Fin 12) (r : Byte × W16) : Byte × W16 :=
  let code := r.1.toNat
  if 7 < code || (code = 3 && 4 ≤ p.1) then (7, 0)
  else if code = 0 || code = 6 || code = 7 then (r.1, 0)
  else r

/-- Pair entries of an active test: four on G ports, one on L and S ports; a pair that is not there is not tested. -/
def cableBytes (p : Fin 12) (results : List (Byte × W16)) : List Byte :=
  (List.range 4).flatMap fun i =>
    let (code, dist) := if i < (if p.1 < 4 then 4 else 1) then cableResult p (results.getD i (7, 0)) else (7, 0)
    [code, 0] ++ leBytes 2 dist.toNat

/-- CABLE_TEST_END: the port leaves TEST with REASON CABLE_TEST, and the job ends. -/
def State.cableEnd (s : State) (p : Fin 12) (results : List (Byte × W16)) : State :=
  match s.cableJob p.1 with
  | none => s
  | some j =>
    let s1 := if (Vec.at s.port p).st == pTest then s.setPort p (s.portRest p) 11 else s
    s1.endJob j stOk none (cableBytes p results)

end Sys2Proof.Machine
end

