-- ==== Sys2Proof/Machine/CmdPort.lean ====
section
/-!
DEFINITION. Commands on ports and process images: PORT_CONFIG, PORT_STATUS, CABLE_TEST, QUEUE_MAP, GATE_LIST,
PREEMPT_CONFIG, PI_DEFINE, PI_MAP, PI_COMMIT (R126, R127, R154, R158, R170, R172, R179, R206, R437–R444).
-/
namespace Sys2Proof.Machine

/-! ### Rows of the settings tables (R126, R158, R206, R437) -/

/-- Rows of R126 that a kind of port has. -/
def phyRows (k : PortKind) : List Nat :=
  match k with
  | .g => [1, 2, 3, 7, 8, 9, 10, 11, 12]
  | .l => [1, 4, 5, 6, 7, 8, 9, 10, 11]
  | .s => [1, 13, 14, 15, 16, 17]
  | .x => [1, 18, 19, 20, 21, 22]

/-- Rows of R158 that a port has. -/
def macRows (p : Fin 12) : List Nat :=
  [1, 2, 3, 4, 5, 6, 7] ++ (if portKind p = .s then [] else [8, 9, 10, 11]) ++ if portKind p = .g then [12] else []

/-- Ranges of R126. -/
def phyRange (r v : Nat) : Bool :=
  match r with
  | 1 | 4 | 5 | 6 | 7 | 8 | 10 => v ≤ 1
  | 2 | 3 | 22 => v ≤ 3
  | 9 | 13 | 16 => v ≤ 255
  | 11 => within 1 65535 v
  | 12 => v ≤ 1023
  | 14 | 15 | 17 => within 1 255 v
  | 18 => v ≤ 2
  | _ => v ≤ 7

/-- Ranges of R158. -/
def macRange (p : Fin 12) (r v : Nat) : Bool :=
  match r with
  | 1 => within 64 (if portKind p = .s then 1522 else 9600) v
  | 5 => within 1 4094 v
  | 6 => v ≤ 7
  | 10 => within 1 65535 v
  | 11 => v % 2 ^ 32 < v / 2 ^ 32 && v / 2 ^ 32 ≤ 4095
  | _ => v ≤ 1

/-- A record that PORT_CONFIG may carry for a port (R420, R437). The first octet on the line holds the group bit of an
address. -/
def portSettingOk (p : Fin 12) (x : Setting) : Bool :=
  let v := x.nat
  match x.tab with
  | 1 => x.index = 0 && (phyRows (portKind p)).contains x.row && phyRange x.row v
  | 2 => x.index = 0 && (macRows p).contains x.row && macRange p x.row v
  | 3 => x.index = 0 && within 1 4 x.row && v ≤ (if x.row = 4 then 2 else 1)
  | 4 => match x.row with
    | 1 => x.index = 0 && v < 2 ^ 48 && !v.testBit 40
    | 2 => x.index < 32 && v < 2 ^ 48 && (v = 0 || v.testBit 40)
    | 3 => x.index < 64 && v ≤ 4094
    | _ => false
  | _ => false

/-- A record applied. -/
def Port.put (t : Port) (x : Setting) : Port :=
  match x.tab with
  | 1 => { t with t1 := setRow t.t1 x.row x.value }
  | 2 => { t with t2 := setRow t.t2 x.row x.value }
  | 3 => { t with t3 := setRow t.t3 x.row x.value }
  | _ => match x.row with
    | 1 => { t with station := x.value }
    | 2 => { t with mcast := Vec.updN t.mcast x.index fun _ => x.value }
    | _ => { t with vids := Vec.updN t.vids x.index fun _ => x.value }

/-- REACH = 1 needs AMPL = 0 (R135). -/
def Port.reachOk (x : Port) : Bool := !(row x.t1 6 = 1 && row x.t1 5 = 1)

/-- Rows of R126 and R158 that restart a port of a kind. -/
def restartRows (k : PortKind) : List Nat × List Nat :=
  match k with
  | .g => ([2, 3, 10], [8, 9, 12])
  | .l => ([4, 5, 6], [])
  | .s => ([13, 14], [])
  | .x => ([18, 22], [8, 9])

/-- A restart setting has changed (R126). -/
def portMustRestart (p : Fin 12) (old new : Port) : Bool :=
  let (a, b) := restartRows (portKind p)
  a.any (fun r => row old.t1 r ≠ row new.t1 r) || b.any (fun r => row old.t2 r ≠ row new.t2 r)

/-- The settings of an L port that act at once: EEE and the PAUSE abilities (R126, R158, R176). -/
def Port.atOnce (x : Port) (p : Fin 12) : Port :=
  if portKind p = .l && x.st == pUp then
    { x with
      lpiTx := x.lpiTx && row x.t1 10 = 1, pauseRx := row x.t2 8 = 1, pauseTx := row x.t2 9 = 1
      xoff := x.xoff && row x.t2 9 = 1 }
  else x

/-- What PORT_CONFIG does with its records. -/
def State.portApply (s : State) (p : Fin 12) (xs : List Setting) : State :=
  let old := Vec.at s.port p
  let s1 := (xs.foldl (fun s x => s.updPort p (Port.put · x)) s).updPort p fun x => x.atOnce p
  let x := Vec.at s1.port p
  let s2 :=
    if (x.st == pUp || x.st == pTraining) && row x.t1 1 = 0 then s1.setPort p pIdle 1
    else if x.st == pIdle && row x.t1 1 = 1 && s1.portStarted p then s1.setPort p pTraining 1
    else if portMustRestart p old x then s1.portRestart p
    else s1
  ((s2.pauseCheck p).hubsRefresh).configRing x.owner

/-! ### Rows of the command table -/

/-- BUSY of the port commands: a job on the owning cluster, or an active cable test (R427). -/
def portBusy (s : State) (m : Msg) : Option Job := (heldBusy s m).or (s.cableJob (tgtInst m.target))

/-- A mirrored port command. -/
def portRow (code : Nat) : CmdRow := ⟨code, inClass [2], false, portBusy, mirrored⟩
/-- CABLE_TEST: P0–P9. -/
def cableRow : CmdRow := ⟨0x302, fun s t => inClass [2] s t && tgtInst t < 10, false, portBusy, notMirrored⟩
/-- PREEMPT_CONFIG: P0–P7, P10, P11. -/
def preemptRow : CmdRow :=
  ⟨0x305, fun s t => inClass [2] s t && tgtInst t ≠ 8 && tgtInst t ≠ 9, false, portBusy, mirrored⟩

/-- PORT_CONFIG (R127, R179, R437). -/
def State.portConfig (s : State) (m : Msg) : Reply :=
  let p := m.inst 12
  let x := Vec.at s.port p
  if x.st == pHeld then no s stBadState 0
  else m.withSettings (portSettingOk p) fun xs =>
    let drum := match x.owner with
      | some c => (Vec.at s.cl c).role.isSome
      | none => false
    if drum && xs.any (fun r => (r.id = 0x208 || r.id = 0x209) && r.value ≠ 0) then no s stBadState x.st.1
    else
      let s1 := s.portApply p xs
      if (Vec.at s1.port p).reachOk then yes s1 else m.bad

/-- EQ_STRESS of a pair (R130): the largest tap magnitude as a share of its range, in percent. -/
def Loop.stress (l : Loop) (i : Fin 4) : Byte :=
  BitVec.ofNat 8 (satTo 100 (((Vec.at l.taps i).map fun t => t.toInt.natAbs).foldl max 0 * 100 / 2 ^ 15))

/-- PORT_STATUS (R438): one record a row; MCAST and VID give INDEX 0. -/
def State.portStatus (s : State) (m : Msg) : Reply :=
  let p := m.inst 12
  let x := Vec.at s.port p
  let pairs := (allFin 4).flatMap fun i =>
    if i.1 < (match portKind p with | .g => 4 | .l => 1 | _ => 0) then
      leBytes 2 (Vec.at x.pairSnr i).toNat ++ [x.loop.stress i, 0]
    else leBytes 4 0
  yesData s (leBytes 4 (s.portLoad p 0).toNat ++ leBytes 4 (s.portLoad p 4).toNat ++ leBytes 4 (s.portLoad p 8).toNat ++
    pairs ++ leBytes 2 x.length.toNat ++ leBytes 2 x.guards.toNat ++
    settingsBytes (rowsOf 1 x.t1 (phyRows (portKind p)) ++ rowsOf 2 x.t2 (macRows p) ++ rowsOf 3 x.t3 [1, 2, 3, 4] ++
      [⟨0x401, 0, x.station⟩, ⟨0x402, 0, Vec.at x.mcast 0⟩, ⟨0x403, 0, Vec.at x.vids 0⟩]))

/-- CABLE_TEST (R154, R439). -/
def State.cableTest (s : State) (m : Msg) : Reply :=
  let p := m.inst 12
  let x := Vec.at s.port p
  let mode := m.at_ 0 1
  let entries := (allFin 4).flatMap fun i =>
    if i.1 < (match portKind p with | .g => 4 | .l => 1 | _ => 0) then
      leBytes 2 (Vec.at x.pairSnr i).toNat ++ leBytes 2 x.length.toNat
    else leBytes 4 0
  m.check 1 (mode ≤ 1)
    (if mode = 0 then (if x.st == pUp then yesData s entries else no s stBadState x.st.1)
     else if x.st == pIdle || x.st == pTraining then s.accept m (.cableTest p) fun s => s.setPort p pTest 11
     else no s stBadState x.st.1)

/-- QUEUE_MAP (R159, R440). -/
def State.queueMap (s : State) (m : Msg) : Reply :=
  let p := m.inst 12
  if (Vec.at s.port p).st == pHeld then no s stBadState 0
  else
    let ok := (List.range 8).all fun i => m.at_ (4 * i + 2) 1 ≤ 3 && m.at_ (4 * i + 3) 1 ≤ 1
    m.check 0x22 ok (yes ((s.updPort p fun x => { x with
      etypes := Vector.ofFn fun i => BitVec.ofNat 32 (m.at_ (4 * i.1) 4)
      pcpMap := BitVec.ofNat 16 (m.at_ 0x20 2) }).configRing (Vec.at s.port p).owner))

/-- The staged entries with a part put at its index; entries that no part has given are free values. -/
def stagePart (free : Nat) (old : List W32) (first : Nat) (part : List W32) : List W32 :=
  let base := if first = 0 then [] else old
  (base ++ (List.range (first - base.length)).map fun i => Config.freeWord (free + i)).take first ++ part ++
    base.drop (first + part.length)

/-- GATE_LIST (R170, R441). -/
def State.gateList (s : State) (m : Msg) : Reply :=
  let p := m.inst 12
  let first := m.at_ 0 2
  let count := m.at_ 2 2
  let flags := m.at_ 4 2
  let part := (List.range count).map fun i => BitVec.ofNat 32 (m.at_ (8 + 4 * i) 4)
  if (Vec.at s.port p).st == pHeld then no s stBadState 0
  else
    let ok := m.at_ 6 2 = 0 && first ≤ 255 && count ≤ 250 && first + count ≤ 256 && flags ≤ 3 && m.payload.length = 8 + 4 * count &&
      part.all fun e => within 8 12500000 (fld e 0 24)
    m.check 8 ok (
      let final := flags.testBit 0
      let clear := flags.testBit 1
      let list := stagePart s.free (Vec.at s.port p).gate.staged first part
      yes (({ s with free := s.free + first }.updPort p fun x => { x with gate := { x.gate with
        staged := if final || clear then [] else list
        pending := if clear then none else if final then some (list.take (first + count)) else x.gate.pending
        clear := clear || (x.gate.clear && !final) } }).configRing (Vec.at s.port p).owner))

/-- Ranges of R172. -/
def preemptOk (x : Setting) : Bool :=
  x.tab = 1 && x.index = 0 && match x.row with
    | 1 | 4 => x.nat ≤ 1
    | 2 => x.nat ≤ 255
    | 3 => x.nat ≤ 3
    | 5 => within 1 128 x.nat
    | _ => false

/-- PREEMPT_CONFIG (R172): a change of ENABLE or VERIFY acts on a port that is UP. -/
def State.preemptConfig (s : State) (m : Msg) : Reply :=
  let p := m.inst 12
  let x := Vec.at s.port p
  if x.st == pHeld then no s stBadState 0
  else m.withSettings preemptOk fun xs =>
    let s1 := xs.foldl (fun s r => s.updPort p fun x => { x with pre := setRow x.pre r.row r.value }) s
    let y := Vec.at s1.port p
    let s2 := if y.st == pUp && (row x.pre 1 ≠ row y.pre 1 || row x.pre 4 ≠ row y.pre 4) then
        s1.updPort p fun x => { x with
          mm := if row x.pre 1 = 0 then 0 else if row x.pre 4 = 0 then 2 else 1
          mmTries := 0 }
      else s1
    yes (s2.configRing x.owner)

/-! ### Process images (R116, R121, R122, R442–R444) -/

/-- LEAD: 5 µs to the cycle time less 5 µs, in units of 125 ns (R121). -/
def Cluster.leadOk (k : Cluster) (lead : Nat) : Bool := 40 ≤ lead && lead + 40 ≤ k.ct

/-- PI_DEFINE: STOPPED only; an image outside the cluster's windows or over another cluster's objects is a host error. -/
def State.piDefine (s : State) (m : Msg) : Reply :=
  let c := m.inst 4
  let k := Vec.at s.cl c
  if k.st != .stopped then no s stBadState k.st.code
  else
    let base := m.at_ 0 4
    let inLen := m.at_ 4 4
    let outLen := m.at_ 8 4
    let i : PiUnit := { PiUnit.zero with
      staleWarn := k.pi.staleWarn
      defined := true, base := BitVec.ofNat 32 base, inLen := BitVec.ofNat 32 inLen, outLen := BitVec.ofNat 32 outLen
      lead := BitVec.ofNat 32 (m.at_ 0xC 4), watchdog := BitVec.ofNat 16 (m.at_ 0x10 2)
      pflags := BitVec.ofNat 16 (m.at_ 0x12 2) }
    let inside := (allFin 8).any fun w =>
      let v := Vec.at k.windows w
      v.base ≤ base && base + i.size ≤ v.base + v.len
    let clash := s.overObjects c base i.size
    let ok := base % 64 = 0 && within 16 0x100000 inLen && outLen ≤ 0x100000 && k.leadOk (m.at_ 0xC 4) &&
      m.at_ 0x12 2 ≤ 1 && inside && !clash
    m.check 0x14 ok (yesData ((s.updPi c fun _ => i).pbInit c)
      ([base, i.inBuf 0, i.inBuf 1, i.inBuf 2, i.outBuf 0, i.outBuf 1, i.outBuf 2].flatMap (leBytes 4)))

/-- PI_MAP (R25, R443). -/
def State.piMap (s : State) (m : Msg) : Reply :=
  let c := m.inst 4
  let k := Vec.at s.cl c
  if k.st != .stopped then no s stBadState k.st.code
  else
    let ws := windowsAt m.payload 0
    m.check 64 (windowsOk m.payload 0 && !s.windowsClash c ws) (yes (s.updCl c fun k => { k with windows := ws }))

/-- The first drumbeat at or after a timebase value: its cycle number. -/
def Cluster.beatFrom (k : Cluster) (ns : Nat) : Nat :=
  if k.period = 0 then 0 else (ns + k.period - 1 - k.phaseNs) / k.period

/-- PI_COMMIT: the values wait for drumbeat D, named in DETAIL (R444). -/
def State.piCommit (s : State) (m : Msg) : Reply :=
  let c := m.inst 4
  let k := Vec.at s.cl c
  if k.st != .started || !k.pi.defined then no s stBadState k.st.code
  else
    let d := k.beatFrom (s.ns.toNat + 2 * k.period)
    m.check 8 (k.leadOk (m.at_ 0 4) && m.at_ 6 2 ≤ 1)
      (.ok (⟨stOk, d % 2 ^ 32, []⟩, (s.updPi c fun p => { p with news := p.news ++
        [⟨BitVec.ofNat 64 d, BitVec.ofNat 32 (m.at_ 0 4), BitVec.ofNat 16 (m.at_ 4 2), BitVec.ofNat 16 (m.at_ 6 2)⟩] }).supdb c 1))

end Sys2Proof.Machine
end

