-- ==== Sys2Proof/Machine/CmdNet.lean ====
section
/-!
DEFINITION. Commands on time, Drumline, routes, Tollgate, pairing and the group (R214, R220, R231, R235, R236, R249–R251,
R270, R281, R282, R297–R299, R303, R314–R316, R333, R337, R339, R445–R451).
-/
namespace Sys2Proof.Machine

/-! ### Time (R214, R220, R231, R445, R446) -/

/-- Ranges of R214; times in ns where R596 says so. -/
def timeOkSetting (x : Setting) : Bool :=
  x.tab = 1 && x.index = 0 && match x.row with
    | 1 | 2 => x.nat ≤ 3
    | 3 => within 100 1000000000 x.nat
    | 4 | 8 => x.nat ≤ 1
    | 5 => within 10 10000 x.nat
    | 6 => within 1000000 10000000000 x.nat
    | 7 => within 1 250 x.nat
    | 9 => withinInt (-250000) 250000 x.int
    | 10 => withinInt (-32768) 32767 x.int
    | 11 => true
    | _ => false

/-- What the servo's changes bring to the Drumline personalities (R274, R294); `fresh`: a sample was measured. -/
def State.servoMoved (s : State) (fresh : Bool) : State :=
  s.dlServo.each (n := 4) fun s c => if fresh then s.silenceSample c else s.silenceCheck c

/-- TIME_CONFIG (R214): LAST_OFF and SAMPLES restart (R445). -/
def State.timeConfig (s : State) (m : Msg) : Reply :=
  m.withSettings timeOkSetting fun xs =>
    let init := (xs.reverse.find? fun x => x.row = 4).map fun x => decide (x.value = 1)
    let s1 := s.updTim fun t => { t with
      sets := xs.foldl (fun a x => setRow a x.row x.value) t.sets, lastOff := 0, samples := 0 }
    yes ((s1.timeApplied s.tim init).servoMoved false)

/-- TIME_GET. -/
def State.timeGet (s : State) (_ : Msg) : Reply :=
  let t := s.tim
  yesData s (leBytes 8 t.ns.toNat ++ leBytes 2 t.frac.toNat ++
    [BitVec.ofNat 8 t.st.1, BitVec.ofNat 8 (bit t.jumpPend + 2 * t.tsrc + 8 * t.srcCl)] ++ leBytes 8 t.lastOff.toNat ++
    leBytes 8 t.maxOff.toNat ++ leBytes 4 (BitVec.ofInt 32 t.adj).toNat ++ leBytes 4 t.samples.toNat ++
    leBytes 2 (row t.sets 10 % 65536))

/-- The time a slew takes, in ns (R220). -/
def Tim.slewNs (t : Tim) : Nat := (ratAbs (offNs t.offset) / t.slewMax).floor.toNat

/-- TIME_ACCEPT_JUMP. -/
def State.timeAccept (s : State) (m : Msg) : Reply :=
  let t := s.tim
  let mode := m.at_ 0 1
  if t.st != tJump then no s stBadState t.st.1
  else m.check 1 (mode ≤ 1) (yesData ((s.acceptJump (mode = 1)).servoMoved false)
    (leBytes 8 t.offset.toNat ++ leBytes 4 (if mode = 1 then t.slewNs else 0)))

/-- SYNC_PIN_CONFIG: an enabled pin keeps LINK powered; MODE 0 is low at once; a one-shot in the past gives no pulse (R231,
R233). -/
def State.syncPinConfig (s : State) (m : Msg) : Reply :=
  let pin := m.at_ 0 1
  let mode := m.at_ 1 1
  let edge := m.at_ 2 1
  let cl := m.at_ 3 1
  let period := m.at_ 8 8
  let width := m.at_ 0x10 8
  let phase := m.at_ 0x18 8
  let time := m.at_ 0x20 8
  let power := fun (s : State) => if mode = 0 then s else s.domainUp 9
  if pin = 0 then
    let ok := m.at_ 4 4 = 0 && mode ≤ 2 && (mode = 0 || edge ≤ 2) &&
      (mode ≠ 2 || (within 1000 1000000000 period && period % 1000 = 0 && phase < period))
    m.check 0x28 ok (yes (power (s.updTim fun t => { t with syncIn := { t.syncIn with
      mode := BitVec.ofNat 8 mode, edge := BitVec.ofNat 8 edge, period := BitVec.ofNat 64 period, phase := BitVec.ofNat 64 phase } })))
  else
    let ok := m.at_ 4 4 = 0 && pin ≤ 2 && mode ≤ 3 && (mode ≠ 2 || cl ≤ 3) &&
      (mode ≠ 1 || (within 100 10000000000 period && 10 ≤ width && width + 10 ≤ period && phase < period))
    let past := mode = 3 && time ≤ s.ns.toNat
    let o : SyncOut := { mode := BitVec.ofNat 8 mode, cluster := BitVec.ofNat 8 cl, period := BitVec.ofNat 64 period,
                         width := BitVec.ofNat 64 width, phase := BitVec.ofNat 64 phase, time := BitVec.ofNat 64 time,
                         armed := mode = 3 && !past, pulses := (Vec.at s.tim.syncOut (finOf 2 (pin - 1))).pulses,
                         last := s.ns.toNat, high := if mode = 0 then 0 else (Vec.at s.tim.syncOut (finOf 2 (pin - 1))).high }
    m.check 0x28 ok (yes (power ((if past then s.tinc cSyncOutLate else s).updTim fun t =>
      { t with syncOut := Vec.put t.syncOut (finOf 2 (pin - 1)) o })))

/-! ### Drumline (R235, R236, R249–R251, R270, R282, R447) -/

/-- A target whose personality has one of these roles; the module a command names decides (R92, R424). -/
def roleTarget (roles : List DlRole) (s : State) (t : W16) : Bool :=
  inClass [1] s t && (tgtPos t != s.pwr.mpos || match (Vec.at s.cl (finOf 4 (tgtInst t))).role with
    | some r => roles.contains r
    | none => false)

/-- Every Drumline role. -/
def anyDrum : List DlRole := [.controller, .device, .hub]

/-- A route switch of the target's cluster runs, or is staged over: ROUTE_SWITCH, and ROUTE_LOAD of its route (R298, R427). -/
def switchBusy (load : Bool) (s : State) (m : Msg) : Option Job :=
  let c := m.inst 4
  (heldBusy s m).or (match s.switchJob c.1 with
    | some j => if !load || ((Vec.at s.cl c).dl.switch.any fun r => r.route.1 = m.at_ 0 1) then some j else none
    | none => none)

def dlConfigRow : CmdRow := ⟨0x600, roleTarget anyDrum, false, heldBusy, mirrored⟩
def routeLoadRow : CmdRow := ⟨0x601, roleTarget anyDrum, false, switchBusy true, mirrored⟩
def routeSwitchRow : CmdRow := ⟨0x602, roleTarget [.controller], false, switchBusy false, notMirrored⟩
def topologyRow : CmdRow := ⟨0x603, roleTarget anyDrum, false, neverBusy, notMirrored⟩
def tollgateRow : CmdRow := ⟨0x604, roleTarget [.hub], false, heldBusy, notMirrored⟩

/-- Ranges of R236. -/
def dlRange (r v : Nat) : Bool :=
  match r with
  | 1 => within 0x600 0xFFFF v
  | 2 => v < 2 ^ 48 && v.testBit 40
  | 3 | 15 => v ≤ 2
  | 4 => v % 2 ^ 32 ≤ 11 && (v / 2 ^ 32 ≤ 11 || v / 2 ^ 32 = 0xFF)
  | 5 | 6 => v ≤ 255
  | 7 => within 125 800000 v
  | 8 => v < 800000
  | 9 => within 1 4 v
  | 10 => within 4 799999 v
  | 11 => within 1 1000 v
  | 12 | 13 => within 1 255 v
  | 14 => v ≤ 1
  | 16 => within 250 50000 v && v % 250 = 0
  | 17 => true
  | 18 => v % 256 = 0 && v < 0x80000
  | 19 => v = 0xFFFFFFFF || (v % 8 = 0 && v + 4096 ≤ 0x80000)
  | 20 => v ≤ 1024
  | _ => false

/-- A record of DL_CONFIG. -/
def dlSettingOk (x : Setting) : Bool := x.tab = 1 && x.index = 0 && dlRange x.row x.nat

/-- Octets of both halves of an entry. -/
def MapEntry.span (e : MapEntry) : Nat := 2 * (8 * ((e.len + 7) / 8))

/-- Two entries break R251: the same logical byte in the same direction, or the same scratchpad octet. -/
def MapEntry.clash (a b : MapEntry) : Bool :=
  (a.give = b.give && overlaps a.laddr a.len b.laddr b.len) || overlaps a.spad a.span b.spad b.span

/-- Each entry against those after it. -/
def entriesClash : List MapEntry → Bool
  | [] => false
  | e :: r => r.any e.clash || entriesClash r

/-- The entries in use obey R251; an entry of LEN 0 has not been loaded and covers nothing. Until DL_CONFIG sets REC_BASE no
record ring has been placed (log 14). -/
def Dl.mapOk (d : Dl) : Bool :=
  let es := d.entries.filter fun e => e.len ≠ 0
  let rec_ := row d.sets 18
  es.all (fun e =>
    e.laddr + e.len ≤ 2 ^ 32 && e.spad + e.span ≤ 0x80000 && (!d.recSet || !overlaps e.spad e.span rec_ 256) &&
      (d.naBase = 0xFFFFFFFF || !overlaps e.spad e.span d.naBase 4096)) &&
  !entriesClash es

/-- RW datagrams in RING topology (R270). -/
def Dl.ringRw (d : Dl) : Bool :=
  d.topo = 1 && (allFin 8).any fun n => match Vec.at d.routes n with
    | some r => r.dgs.any fun g => g.cmd = 3
    | none => false

/-- A drum frame of a route keeps the limits of R279, with the ROUTE datagram that R302 adds to it or without: 32 datagrams, and
1518 octets with the FCS. -/
def Route.frameFits (r : Route) (f : Nat) (routed : Bool) : Bool :=
  let ds := r.dgs.filter fun g => g.frame.toNat = f
  ds.length + bit routed ≤ 32 && ds.foldl (fun n g => n + 14 + g.len.toNat) (26 + 22 * bit routed) ≤ 1518

/-- In STAR topology frame 0 of every route has room for a ROUTE datagram (R279, R302). -/
def Dl.starRoom (d : Dl) : Bool :=
  d.topo ≠ 2 || (allFin 8).all fun n => match Vec.at d.routes n with
    | some r => r.frameFits 0 true
    | none => true

/-- A configuration that is no host error: ranges that depend on CT, R251, R270, R279. -/
def Dl.sane (d : Dl) : Bool := d.phase < d.ct && row d.sets 10 < d.ct && d.mapOk && !d.ringRw && d.starRoom

/-- The record ring registers of the drum ports, a hub's branch ports among them, take REC_BASE (R256, R258). -/
def State.ringBases (s : State) (c : Fin 4) : State :=
  let d := (Vec.at s.cl c).dl
  let hub := (Vec.at s.cl c).role == some .hub
  ([portNo d.portA, portNo d.portB] ++ if hub then (allFin 8).map d.branchPort else []).foldl (fun s o => match o with
    | some p => s.updPort p fun x => if x.owner = some c then { x with ways := { x.ways with base := BitVec.ofNat 11 (row d.sets 18 / 256) } } else x
    | none => s) s

/-- A hub that the host has not made the servo source (R282). -/
def State.hubLost (s : State) (c : Fin 4) : Bool :=
  (Vec.at s.cl c).role = some .hub && !(s.tim.tsrc = 1 && s.tim.srcCl = c.1)

/-- A mapping entry's octets as R249 lays them out. -/
def mapEntryOk (b : List Byte) : Bool :=
  within 1 1478 (leAt b 4 2) && leAt b 6 1 ≤ 1 && leAt b 7 1 = 0 && leAt b 8 4 % 8 = 0 && leAt b 12 4 = 0

/-- DL_CONFIG: FORM 0 carries settings, FORM 1 mapping entries. -/
def State.dlConfig (s : State) (m : Msg) : Reply :=
  let c := m.inst 4
  let k := Vec.at s.cl c
  let done := fun (s1 : State) =>
    if !(Vec.at s1.cl c).dl.sane || s1.hubLost c then m.bad else yes (s1.ringBases c)
  if k.st != .stopped then no s stBadState k.st.code
  else if m.at_ 0 2 = 1 then
    let n := m.at_ 2 2
    let first := m.at_ 4 2
    let ok := m.at_ 6 2 = 0 && within 1 62 n && first + n ≤ 1024 && m.payload.length = 8 + 16 * n &&
      (List.range n).all fun i => mapEntryOk (slice m.payload (8 + 16 * i) 16)
    m.check 8 ok (done (s.updDl c fun d => { d with maps := memWriteN d.maps (16 * first) (slice m.payload 8 (16 * n)) }))
  else m.withSettings dlSettingOk fun xs =>
    let bad := xs.findSome? fun x =>
      if x.row ≠ 4 then none
      else [x.nat % 2 ^ 32, x.nat / 2 ^ 32].find? fun p => p = 8 || p = 9
    match bad with
    | some p => no s stNoResource (0x200 + p)
    | none =>
      let d := { k.dl with
        sets := xs.foldl (fun a x => setRow a x.row x.value) k.dl.sets, recSet := k.dl.recSet || xs.any fun x => x.row = 18 }
      done (s.updCl c fun k => { k with dl := d, ct := d.ct, phase := d.phase })

/-! ### Routes (R297–R299, R303, R448, R449) -/

/-- An empty route, with the fields that only PART 0 gives as free values. -/
def State.newRoute (s : State) : Route :=
  { frames := (Config.freeWord s.free).setWidth 8, txOffset := Config.freeWord (s.free + 1), dgs := [], retAt := Vec.fill 4 0,
    entries := 0, branches := Vec.fill 8 ⟨false, 0, Vec.fill 4 0, Vec.fill 4 0⟩, mergeAt := Vec.fill 4 0 }

/-- A datagram of a controller's part. -/
def routeDg (b : List Byte) : Dg :=
  { frame := octet b 0, cmd := octet b 1, na := octet b 2 = 1, laddr := BitVec.ofNat 32 (leAt b 4 4),
    len := BitVec.ofNat 16 (leAt b 8 2), texp := BitVec.ofNat 16 (leAt b 10 2), dtag := BitVec.ofNat 16 (leAt b 12 2) }

/-- A datagram of a controller's part: its frame, command, flags, reserved octet and the length R279 allows. -/
def routeDgOk (b : List Byte) : Bool :=
  leAt b 0 1 ≤ 3 && leAt b 1 1 ≤ 8 && leAt b 2 1 ≤ 1 && leAt b 3 1 = 0 && leAt b 8 2 ≤ 1478

/-- Four words of a payload. -/
def fourWords (p : List Byte) (off : Nat) : Vec W32 4 := Vector.ofFn fun i => BitVec.ofNat 32 (leAt p (off + 4 * i.1) 4)

/-- A branch record of a hub's part. -/
def routeBranch (p : List Byte) (off : Nat) : RouteBr :=
  { inRoute := leAt p off 1 = 1, baseGuard := BitVec.ofNat 16 (leAt p (off + 2) 2),
    opens := Vector.ofFn fun f => BitVec.ofNat 32 (leAt p (off + 4 + 8 * f.1) 4),
    closes := Vector.ofFn fun f => BitVec.ofNat 32 (leAt p (off + 8 + 8 * f.1) 4) }

/-- A part merged into the staged route; `none` where its layout or a value is a host error. -/
def routePart (role : DlRole) (p : List Byte) (r : Route) : Option Route :=
  match role with
  | .controller =>
    let n := leAt p 0xC 2
    let dgs := (List.range n).map fun i => slice p (0x10 + 14 * i) 14
    if 70 < n || p.length ≠ 0x10 + 14 * n || !(dgs.all routeDgOk) then none
    else
      let r := if leAt p 1 1 = 0 then { r with frames := octet p 4, txOffset := BitVec.ofNat 32 (leAt p 8 4) } else r
      some { r with dgs := r.dgs ++ dgs.map routeDg }
  | .device =>
    if p.length ≠ 0x94 then none
    else some { r with retAt := fourWords p 4, entries := BitVec.ofNat 1024 (leAt p 0x14 128) }
  | .hub =>
    if p.length ≠ 0x134 || !((List.range 8).all fun b => leAt p (0x14 + 36 * b) 1 ≤ 1 && leAt p (0x15 + 36 * b) 1 = 0) then none
    else some { r with mergeAt := fourWords p 4, branches := Vector.ofFn fun b => routeBranch p (0x14 + 36 * b.1) }

/-- The windows of a branch in use, by rising OPEN; a window with OPEN = CLOSE is empty. -/
def RouteBr.windows (b : RouteBr) : List (Nat × Nat) :=
  ((allFin 4).map fun f => ((Vec.at b.opens f).toNat, (Vec.at b.closes f).toNat)).filter fun w => w.1 ≠ w.2

/-- Windows of one branch keep 10 µs apart (R299). -/
def windowsApart : List (Nat × Nat) → Bool
  | [] => true
  | w :: r => r.all (fun v => w.2 + 10000 ≤ v.1 || v.2 + 10000 ≤ w.1) && windowsApart r

/-- The shortest time that a merged frame takes on a hub's uplink: 64 octets at the highest rate of the port's kind (R2, R240). -/
def mergedNs (uplink : Nat) : Nat :=
  frameNs (match portKind (finOf 12 uplink) with
    | .g => 3
    | .l => 1
    | .s => 1
    | .x => 4) 64

/-- A complete route obeys R279, R297 and R299 for its role. A hub knows no length of its merged frames when a route is loaded:
it holds them to the shortest one (DEDUCED, log 103). -/
def Route.ok (r : Route) (role : DlRole) (d : Dl) (period : Nat) : Bool :=
  match role with
  | .controller =>
    within 1 4 r.frames.toNat && 4 ≤ r.txOffset.toNat && r.txOffset.toNat < d.ct &&
      (List.range 4).all fun f =>
        let n := (r.dgs.filter fun g => g.frame.toNat = f).length
        if f < r.frames.toNat then within 1 32 n && r.frameFits f (d.topo = 2 && f = 0) else n = 0
  | .device => true
  | .hub =>
    ((allFin 4).all fun f => (Vec.at r.mergeAt f).toNat + mergedNs d.portA < period) &&
    (allFin 8).all fun b =>
      let x := Vec.at r.branches b
      !x.inRoute || (within 200 5000 x.baseGuard.toNat && windowsApart x.windows &&
        (allFin 4).all fun f =>
          let o := (Vec.at x.opens f).toNat
          let c := (Vec.at x.closes f).toNat
          o = c || (o < c && c < period && c + 5000 ≤ (Vec.at r.mergeAt f).toNat))

/-- ROUTE_LOAD: a part is staged; at FINAL the route is loaded (R298, R448). -/
def State.routeLoad (s : State) (m : Msg) : Reply :=
  let c := m.inst 4
  let k := Vec.at s.cl c
  let d := k.dl
  let n := m.at_ 0 1
  let flags := m.at_ 2 1
  if k.st != .stopped && k.st != .started then no s stBadState k.st.code
  else match k.role with
    | none => no s stBadState k.st.code
    | some role =>
      if m.payload.length < 4 || 7 < n || 1 < flags || m.at_ 3 1 ≠ 0 then m.bad
      else
        let r : Fin 8 := finOf 8 n
        let held := match d.staging with
          | some (i, x) => if i = r && m.at_ 1 1 ≠ 0 then some x else none
          | none => none
        match routePart role m.payload (held.getD s.newRoute) with
        | none => m.bad
        | some x =>
          let s1 := { s with free := s.free + 2 }
          if d.topo = 1 && role = .controller && x.dgs.any (fun g => g.cmd = 3) then m.bad
          else if flags = 0 then yes (s1.updDl c fun d => { d with staging := some (r, x) })
          else if s.started c && d.active = r then no s stBadState (0x100 + n)
          else if (d.proposal.any fun q => q.route = r) then no s stBadState (0x200 + n)
          else if !x.ok role d k.period then m.bad
          else yes ((s1.updDl c fun d => { d with staging := none, routes := Vec.put d.routes r (some x) }).supdb c 2)

/-- ROUTE_SWITCH: the switch runs from the first cycle whose frames are not built (R303). Where frame 0 of the active route leaves
no room for the ROUTE datagram, the switch would break R279, and the command is a host error (DEDUCED, log 103). -/
def State.routeSwitch (s : State) (m : Msg) : Reply :=
  let c := m.inst 4
  let k := Vec.at s.cl c
  let n := m.at_ 0 1
  let kk := m.at_ 1 1
  let nodes := m.at_ 2 1
  if k.dl.st != dMaster then no s stBadState k.dl.st.1
  else m.check 3 (n ≤ 7 && within 2 255 kk && within 1 255 nodes) (
    let r : Fin 8 := finOf 8 n
    if !s.routeLoaded c r then no s stBadState (0x100 + n)
    else if k.dl.active = r then no s stBadState (0x200 + n)
    else if !((Vec.at k.dl.routes k.dl.active).any fun a => a.frameFits 0 true) then m.bad
    else
      let run : SwitchRun :=
        { route := r, first := k.cycle + 1, cycle := k.cycle + 1 + BitVec.ofNat 64 kk, nodes := nodes, committed := false,
          maxTally := 0, job := s.sup.jobNext, done := none }
      s.accept m (.routeSwitch c) fun s1 => s1.updDl c fun d => { d with switch := some run })

/-- ROUTE_SWITCH_JOB_END: after drumbeat s, or s − 1 when abandoned (R304, R449). -/
def State.routeSwitchEnd (s : State) (c : Fin 4) : State :=
  match (Vec.at s.cl c).dl.switch, s.switchJob c.1 with
  | some r, none => if r.done.isSome then s.updDl c fun d => { d with switch := none } else s
  | some r, some j => match r.done with
    | some result =>
      (s.updDl c fun d => { d with switch := none }).endJob j stOk none
        ([result, 0] ++ leBytes 2 r.maxTally.toNat ++ leBytes 4 r.cycle.toNat)
    | none => s
  | none, _ => s

/-- The number a role has in DL_TOPOLOGY. -/
def DlRole.code : DlRole → Nat
  | .controller => 1
  | .device => 2
  | .hub => 3

/-- DL_TOPOLOGY (R450). -/
def State.dlTopology (s : State) (m : Msg) : Reply :=
  let c := m.inst 4
  let k := Vec.at s.cl c
  let d := k.dl
  if k.st != .stopped && k.st != .started then no s stBadState k.st.code
  else
    let role := (k.role.map DlRole.code).getD 0
    let branches := if role ≠ 3 then [] else (allFin 8).flatMap fun b =>
      let x := Vec.at d.branches b
      [BitVec.ofNat 8 (Vec.at d.branchPorts b).toNat, BitVec.ofNat 8 x.st.1, BitVec.ofNat 8 x.isorun,
       BitVec.ofNat 8 (satTo 255 x.violLast)] ++ leBytes 2 x.guard ++ leBytes 2 (isqrt (x.var * 100).floor.toNat) ++
        leBytes 2 (BitVec.ofInt 16 (x.drift + 1 / 2).floor).toNat ++ leBytes 2 x.left
    yesData s ([BitVec.ofNat 8 role, BitVec.ofNat 8 d.st.1, BitVec.ofNat 8 d.active.1,
      BitVec.ofNat 8 (bit d.split + 2 * bit (d.proposal.isSome || d.switch.isSome)), d.mNode, d.mPrio, d.elect, d.hops] ++
      leBytes 8 d.mClock.toNat ++ leBytes 4 d.roundLast.toNat ++ leBytes 4 k.cycle.toNat ++ branches)

/-! ### Tollgate (R281, R422) -/

/-- Records of TOLLGATE_CONFIG. -/
def tollgateOk (x : Setting) : Bool :=
  x.tab = 1 && match x.row with
    | 1 => x.index < 8 && (x.nat ≤ 7 || x.nat = 10 || x.nat = 11 || x.nat = 0xFF)
    | 2 | 3 => x.index = 0 && within 1 255 x.nat
    | 4 => x.index = 0 && within 1 65535 x.nat
    | 5 => x.index = 0 && x.nat ≤ 15
    | 6 => x.index = 0 && x.nat ≤ 1
    | 7 => x.index = 0 && x.nat ≤ 255
    | _ => false

/-- One record of TOLLGATE_CONFIG applied; in a started hub the settings wait for the next drumbeat. -/
def State.tollgatePut (s : State) (c : Fin 4) (x : Setting) : State :=
  if x.row = 1 then s.updDl c fun d => { d with branchPorts := Vec.updN d.branchPorts x.index fun _ => x.value }
  else if x.row = 7 then s.rearm c x.nat
  else if s.started c then
    s.updDl c fun d => { d with tgNext := some (Vec.updN (d.tgNext.getD d.tgSets) (x.row - 2) fun _ => x.value) }
  else s.updDl c fun d => { d with tgSets := Vec.updN (d.tgNext.getD d.tgSets) (x.row - 2) fun _ => x.value, tgNext := none }

/-- TOLLGATE_CONFIG. -/
def State.tollgateConfig (s : State) (m : Msg) : Reply :=
  let c := m.inst 4
  let k := Vec.at s.cl c
  m.withSettings tollgateOk fun xs =>
    if k.st != .stopped && xs.any (fun x => x.row = 1) then no s stBadState k.dl.st.1
    else
      let s1 := xs.foldl (fun s x => s.tollgatePut c x) s
      yes ((if xs.any fun x => x.row = 1 then s1.ringBases c else s1).branchesRefresh c)

/-! ### Pairing (R314–R316, R333, R337, R339, R451) -/

/-- BUSY while a PAIR_SWITCH runs (R427). -/
def pairBusy (s : State) (_ : Msg) : Option Job := s.pairJob
/-- A pairing command that a PAIR_SWITCH holds. -/
def pairRow (code : Nat) : CmdRow := ⟨code, inClass [0], false, pairBusy, notMirrored⟩

/-- Ranges of R314. -/
def pairSettingOk (x : Setting) : Bool :=
  x.tab = 1 && match x.row with
    | 1 | 3 | 4 => x.index = 0 && x.nat ≤ 1
    | 2 => x.index = 0 && x.nat ≤ 15
    | 5 => x.index < 4 && x.nat % 4096 = 0 && x.nat < 0x800000
    | 6 => x.index < 4 && within 1 256 x.nat
    | 7 => x.index < 4 && x.nat % 64 = 0 && x.nat < 0x800000
    | 8 => x.index < 4 && within 64 65536 x.nat && x.nat % 64 = 0
    | 9 => x.index = 0 && x.nat ≤ 50000 && x.nat % 125 = 0
    | 10 => x.index = 0 && x.nat ≤ 255
    | _ => false

/-- One record applied. -/
def Pair.put (p : Pair) (x : Setting) : Pair :=
  match x.row with
  | 5 => { p with stateBase := Vec.updN p.stateBase x.index fun _ => x.value }
  | 6 => { p with stateLen := Vec.updN p.stateLen x.index fun _ => x.value }
  | 7 => { p with relayBase := Vec.updN p.relayBase x.index fun _ => x.value }
  | 8 => { p with buildLen := Vec.updN p.buildLen x.index fun _ => x.value }
  | _ => { p with sets := setRow p.sets x.row x.value }

/-- A cluster's state area lies inside its windows (R314). -/
def State.stateInside (s : State) (p : Pair) (c : Fin 4) : Bool :=
  let base := (Vec.at p.stateBase c).toNat
  let len := 4 * 1024 * (Vec.at p.stateLen c).toNat
  (allFin 8).any fun w =>
    let v := Vec.at (Vec.at s.cl c).windows w
    v.base ≤ base && base + len ≤ v.base + v.len

/-- PAIR_CONFIG (R314–R316). -/
def State.pairConfig (s : State) (m : Msg) : Reply :=
  if s.pair.st != qSolo && s.pair.st != qSyncing then no s stBadState s.pair.st.1
  else m.withSettings pairSettingOk fun xs =>
    let p := xs.foldl Pair.put s.pair
    let on := row p.sets 1 = 1
    let named := (allFin 4).filter fun c => (row p.sets 2).testBit c.1 && (on || xs.any fun x => x.row = 2)
    if named.any (fun c => (Vec.at s.cl c).st != .stopped) then no s stBadState s.pair.st.1
    else match named.find? (fun c => (Vec.at s.cl c).id = 2 || (Vec.at s.cl c).id = 3) with
      | some c => no s stBadState (0x100 + c.1)
      | none =>
        if on && !named.all (fun c => s.stateInside p c) then m.bad
        else if on && !s.budgetOk p (row p.sets 2) then no s stNoResource 0xB00
        else
          let s1 := named.foldl (fun s c => s.updPc c fun _ => PairCl.zero) (s.updPair fun _ => p)
          if on then
            let s2 := (s1.domainUp 9).pairGo qSyncing 0
            yes (if s.pair.st == qSolo then s2.paired.foldl (fun s c => s.supdb c 3) s2 else s2)
          else yes (s1.pairGo qSolo 0)

/-- PAIR_APPROVE (R314, R337, R451). -/
def State.pairApprove (s : State) (m : Msg) : Reply :=
  let serial := BitVec.ofNat 64 (m.at_ 0 8)
  m.check 8 true (
    if s.pair.pendingSerial ≠ some serial then no s stBadState s.pair.st.1
    else if s.pair.configMismatch then no s stPeerRefused 2
    else yes (s.updPair fun p => { p with lastSerial := serial, pendingSerial := none, approved := true }).bulkStart)

/-- PAIR_STATUS (R313, R451). -/
def State.pairStatus (s : State) (_ : Msg) : Reply :=
  yesData s (s.pairPayload s.pair.reason.toNat false ++ (allFin 4).flatMap (fun c => leBytes 4 (s.pairStat c).toNat) ++
    (allFin 2).map fun l => BitVec.ofNat 8 (Vec.at s.pair.links l).st.1)

/-- PAIR_SWITCH: each paired personality switches at its drumbeat c + 2 (R333). -/
def State.pairSwitch (s : State) (m : Msg) : Reply :=
  if s.pair.st != qActive && s.pair.st != qStandby then no s stBadState s.pair.st.1
  else s.accept m .pairSwitch fun s =>
    s.pairedRunning.foldl (fun s c =>
      let at_ := (Vec.at s.cl c).cycle + 2
      (s.updPc c fun q => { q with switchAt := some at_ }).pairCtl 2 c.1 at_) (s.updPair fun p => { p with switchBad := false })

/-- PAIR_SWITCH_JOB_END. -/
def State.pairSwitchEnd (s : State) : State :=
  match s.pairJob with
  | none => s
  | some j =>
    if s.pair.switchBad then s.endJob j stPeerRefused (some 4) []
    else if s.paired.any fun c => (Vec.at s.cl c).pair.switchAt.isSome then s
    else s.endJob j stOk none []

/-- GROUP_CONFIG (R339). -/
def State.groupConfig (s : State) (m : Msg) : Reply :=
  if s.pair.st != qSolo && s.pair.st != qSyncing then no s stBadState s.pair.st.1
  else m.check 8 (m.at_ 0 1 ≤ 15 && m.at_ 1 1 ≤ 2 && m.at_ 2 2 = 0) (
    let s1 := (s.updPair fun p => { p with
      members := BitVec.ofNat 8 (m.at_ 0 1), ak1mode := BitVec.ofNat 8 (m.at_ 1 1)
      allow := Vector.ofFn fun i => BitVec.ofNat 8 (m.at_ (4 + i.1) 1) }).domainUp 9
    yes (if m.at_ 1 1 = 0 then s1.linkGo 1 0 else s1))

end Sys2Proof.Machine
end

