-- ==== Sys2Proof/Machine/CmdUnits.lean ====
section
/-!
DEFINITION. Commands on CAN controllers, PIO engines and field I/O: CAN_CONFIG, CAN_STATUS, CAN_FILTER, CAN_ABORT,
PIO_CONFIG, PIO_PROGRAM, PIO_STATUS, FIO_CONFIG, DI_CONFIG, DO_CONFIG, DO_SET, FIO_STATUS (R344, R349, R355, R386,
R388, R392, R397–R406, R452–R455).
-/
namespace Sys2Proof.Machine

/-! ### CAN controllers -/

/-- A record of CAN_CONFIG. -/
def canSettingOk (x : Setting) : Bool := x.tab = 1 && x.index = 0 && canRowOk x.row x.nat

/-- A change of the filter set or of NOFILT_RXQ: a frame already on the bus is judged by what was in force (R344, R349). -/
def Can.keepSet (x : Can) : Can := { x with past := (x.filters, Vec.atD x.sets 16 0) :: x.past }

/-- CAN_CONFIG (R344): nothing in HELD, the IDLE rows in IDLE only, the resulting timing within R345. ENABLE acts at once. -/
def State.canConfig (s : State) (m : Msg) : Reply :=
  let n := m.inst 4
  let x := Vec.at s.can n
  if x.st == nHeld then no s stBadState 0
  else m.withSettings canSettingOk fun xs =>
    if x.st != nIdle && xs.any (fun r => canIdleRow r.row) then no s stBadState x.st.1
    else
      let t := xs.foldl (fun t (r : Setting) => setRow t r.row r.value) x.sets
      if !canSetsOk t then m.bad
      else
        let s1 := s.updCan n fun x =>
          let y := if xs.any (fun r => r.row = 17) then x.keepSet else x
          let z := if row t 1 = 1 && !x.enable then { y with tdcValid := false, tdcv := 0, tdco := 0, ssp := 0 } else y
          { z with sets := t }
        yes ((if row t 1 = 0 then (if xs.any fun r => r.row = 1 then s1.canIdle n else s1) else s1.canGo n).configRing x.owner)

/-- CAN_STATUS (R452). -/
def State.canStatus (s : State) (m : Msg) : Reply :=
  let x := Vec.at s.can (m.inst 4)
  yesData s ([x.cstat, x.cerr, x.ctdc, x.ctxb].flatMap (fun w => leBytes 4 w.toNat) ++
    settingsBytes (rowsOf 1 x.sets ((List.range 17).map (· + 1))))

/-- A filter of a CAN_FILTER payload. -/
def filterAt (p : List Byte) (i : Nat) : Filter :=
  { valid := leAt p (12 * i) 1 = 1
    typ := BitVec.ofNat 8 (leAt p (12 * i + 1) 1)
    frames := BitVec.ofNat 8 (leAt p (12 * i + 2) 1)
    action := BitVec.ofNat 8 (leAt p (12 * i + 3) 1)
    id := BitVec.ofNat 32 (leAt p (12 * i + 4) 4)
    mask := BitVec.ofNat 32 (leAt p (12 * i + 8) 4) }

/-- Values of a filter's fields (R349). -/
def filterOk (p : List Byte) (i : Nat) : Bool :=
  leAt p (12 * i) 1 ≤ 1 && leAt p (12 * i + 1) 1 ≤ 2 && leAt p (12 * i + 2) 1 ≤ 7 && leAt p (12 * i + 3) 1 ≤ 2 &&
    leAt p (12 * i + 4) 4 < 2 ^ 29 && leAt p (12 * i + 8) 4 < 2 ^ 29

/-- CAN_FILTER (R349): the set as a whole. -/
def State.canFilter (s : State) (m : Msg) : Reply :=
  let n := m.inst 4
  let x := Vec.at s.can n
  if x.st == nHeld then no s stBadState 0
  else m.check 384 ((List.range 32).all (filterOk m.payload))
    (yes ((s.updCan n fun x => { x.keepSet with filters := Vector.ofFn fun i => filterAt m.payload i.1 }).configRing x.owner))

/-- CAN_ABORT (R355, R452). -/
def State.canAbort (s : State) (m : Msg) : Reply :=
  let n := m.inst 4
  if (Vec.at s.can n).st == nHeld then no s stBadState 0
  else m.check 2 (m.at_ 1 1 ≤ 1) (
    let s1 := s.canAbortMask n (if m.at_ 1 1 = 1 then 0xFF else BitVec.ofNat 8 (m.at_ 0 1))
    yesData s1 (leBytes 4 (Vec.at s1.can n).ctxb.toNat))

/-! ### PIO engines -/

/-- PIO_CONFIG (R371, R388, R453): in IDLE, where the owned pins stand at their idle values. -/
def State.pioConfig (s : State) (m : Msg) : Reply :=
  let k := m.inst 8
  let x := Vec.at s.pio k
  let w := fun i => BitVec.ofNat 32 (m.at_ (4 * i) 4)
  if x.st != oIdle then no s stBadState x.st.1
  else
    let ok := pclkOk (w 0) && pfmtOk (w 1) && s.linkOk k (w 1) && ppinsOk (w 2) && pdeOk (w 3) && pevtOk (w 4) &&
      m.at_ 0x18 1 < 48 && m.at_ 0x19 3 = 0
    m.check 0x24 ok (
      let val := w 7 &&& x.outMask
      let dir := w 8 &&& x.outMask
      yes ((s.updPio k fun x => { x.putPfmt (w 1) with
        pclk := w 0, ppins := w 2, pde := w 3, pevt := w 4
        mmask := BitVec.ofNat 16 (fld (w 5) 16 16), pmatch := (w 5).setWidth 16
        start := finOf 48 (m.at_ 0x18 1)
        idleVal := val, idleDir := dir, level := val, dir := dir }).configRing x.owner))

/-- PIO_PROGRAM (R386): its words land in address order, one in each CK_PIO cycle, in every state. -/
def State.pioProgram (s : State) (m : Msg) : Reply :=
  let k := m.inst 8
  let first := m.at_ 0 1
  let count := m.at_ 1 1
  m.check (4 + 4 * count) (m.at_ 2 2 = 0 && first ≤ 47 && within 1 48 count && first + count ≤ 48)
    (yes (s.updPio k (·.program ((List.range count).map fun i => (first + i, BitVec.ofNat 32 (m.at_ (4 + 4 * i) 4))))))

/-- PIO_STATUS (R453). -/
def State.pioStatus (s : State) (m : Msg) : Reply :=
  let x := Vec.at s.pio (m.inst 8)
  yesData s ([x.pctl, x.pstat, x.pclk, x.pfmt, x.ppins, place x.tcnt.toNat 16 16 ||| place x.tcmp.toNat 0 16, x.pde,
    x.pevt, place x.lc0.toNat 16 16 ||| place x.lc1.toNat 0 16, place x.mmask.toNat 16 16 ||| place x.pmatch.toNat 0 16,
    x.pflag.setWidth 32].flatMap fun w => leBytes 4 w.toNat)

/-! ### Field I/O -/

/-- A settings command of field channels of a class is mirrored for a paired personality's channels (R424). -/
def fioMirror (cls : Nat) (s : State) (m : Msg) : Bool :=
  match m.settings with
  | some xs => xs.any fun x => x.index < 8 && match s.objCluster (objNo cls x.index) with
    | some c => s.inPair c
    | none => false
  | none => false

/-- DI_CONFIG and DO_CONFIG. -/
def diRow : CmdRow := ⟨0xA01, inClass [0], false, heldBusy, fioMirror 5⟩
def doRow : CmdRow := ⟨0xA02, inClass [0], false, heldBusy, fioMirror 6⟩

/-- FIO_CONFIG: UV_RESTORE and FGATE (R454). -/
def State.fioConfig (s : State) (m : Msg) : Reply :=
  m.withSettings (fun x => x.tab = 1 && x.index = 0 && (x.row = 7 && x.nat ≤ 1 || x.row = 8 && within 1 10000 x.nat)) fun xs =>
    yes (xs.foldl (fun s x => { s with fio :=
      if x.row = 7 then { s.fio with uvRestore := x.value } else { s.fio with fgate := x.value } }) s)

/-- Clusters that own a channel a record of a settings row names are rung (R483). -/
def State.fioRing (s : State) (cls : Nat) (action : Nat) (xs : List Setting) : State :=
  s.each (n := 4) fun s c =>
    if xs.any fun x => x.row ≠ action && s.objCluster (objNo cls x.index) == some c then s.configRing (some c) else s

/-- A record of DI_CONFIG (R454). -/
def diSettingOk (x : Setting) : Bool :=
  x.tab = 1 && x.index < 8 && match x.row with
    | 1 => x.nat = 0 || x.nat = 3
    | 2 | 3 | 6 | 8 => x.nat ≤ 1
    | 4 => within 20 1000 x.nat && x.nat % 10 = 0
    | 5 => x.nat ≤ 12
    | 7 => x.nat ≤ 3
    | _ => false

/-- TYPE and TRACK of a record agree with those of the other channels of its group in the payload (R417). -/
def diGroupsAgree (xs : List Setting) (x : Setting) : Bool :=
  xs.all fun y =>
    !(x.row = y.row && x.row ≤ 2 && x.index / 4 = y.index / 4 && x.index ≠ y.index) || x.value = y.value

/-- The heat of an input in mW (R399). -/
def Din.heat (x : Din) : Rat := if row x.sets 3 = 0 then 90 else (900 : Rat) / (row x.sets 4 : Rat)

/-- The inputs are within the heat budget (R399). -/
def Fio.heatOk (f : Fio) : Bool :=
  decide ((allFin 8).foldl (fun a d => a + (Vec.at f.di d).heat) 0 ≤ (if Config.variantX then 420 else 800 : Rat))

/-- A record's values stored: TYPE and TRACK for the group. -/
def Fio.diStore (f : Fio) (x : Setting) : Fio :=
  { f with di := Vec.mapIx f.di fun d y =>
      if x.row = 8 then y
      else if d.1 = x.index || (x.row ≤ 2 && d.1 / 4 = x.index / 4) then { y with sets := setRow y.sets x.row x.value }
      else y }

/-- VON of the groups recomputed from the last L+ (R400). -/
def State.thresholdsNow (s : State) : State := s.thresholds s.fio.lplus

/-- A record's effect beside its value: CNT_CLEAR, the thresholds of a group, and the edge that a change of INV makes. -/
def State.diAct (s : State) (x : Setting) : State :=
  let d := finOf 8 x.index
  match x.row with
  | 1 | 2 => s.thresholdsNow
  | 6 =>
    let (i, s1) := s.draw
    let y := Vec.at s1.fio.di d
    if (y.filt != decide (x.nat = 1)) = y.level then s else s1.diEdgeAt d y.filt (Config.freeWord i)
  | 8 => if x.nat = 1 then s.updDi d fun y => { y with count := 0, carry := 0 } else s
  | _ => s

/-- The first record at which the budget is exceeded. -/
def heatAt : Fio → List Setting → Option Nat
  | _, [] => none
  | f, x :: r => if (f.diStore x).heatOk then heatAt (f.diStore x) r else some x.index

/-- The object of a record of DI_CONFIG or DO_CONFIG, to which its host error is confined: the channel that it names (R417). -/
def State.chanObj (s : State) (m : Msg) (cls : Nat) (x : Setting) : W16 := if x.index < 8 then s.objAt cls x.index else m.target

/-- The records of a channel command, or the host error of the first wrong one. -/
def State.withChannels (s : State) (m : Msg) (cls : Nat) (ok : List Setting → Setting → Bool) (f : List Setting → Reply) : Reply :=
  match m.settings with
  | none => m.bad
  | some xs => match xs.find? fun x => !ok xs x with
    | some x => .error (.hostError (s.chanObj m cls x))
    | none => f xs

/-- DI_CONFIG (R397–R402, R454). -/
def State.diConfig (s : State) (m : Msg) : Reply :=
  s.withChannels m 5 (fun xs x => diSettingOk x && diGroupsAgree xs x) fun xs =>
      let fits := (xs.foldl Fio.diStore s.fio).heatOk
      match (if fits then none else heatAt s.fio xs) with
      | some n => no s stNoResource (0x500 + n)
      | none => yes ((xs.foldl (fun s x => ({ s with fio := s.fio.diStore x } : State).diAct x) s).fioRing 5 8 xs)

/-- A record of DO_CONFIG (R406). -/
def doSettingOk (x : Setting) : Bool :=
  x.tab = 1 && x.index < 8 && match x.row with
    | 1 | 5 | 6 => x.nat ≤ 1
    | 2 => x.nat = 0 || within 10 10000 x.nat
    | 3 => x.nat ≤ 255
    | 4 => within 100000 100000000 x.nat && x.nat % 100000 = 0
    | _ => false

/-- DO_CONFIG (R406). -/
def State.doConfig (s : State) (m : Msg) : Reply :=
  s.withChannels m 6 (fun _ => doSettingOk) fun xs =>
    yes ((xs.foldl (fun s x =>
      let d := finOf 8 x.index
      if x.row = 6 then (if x.nat = 1 then s.doRearm d else s)
      else s.updDo d fun y => { y with sets := setRow y.sets x.row x.value }) s).fioRing 6 6 xs)

/-- DO_SET: host channels only (R392, R455). -/
def State.doSet (s : State) (m : Msg) : Reply :=
  let named := fun d : Fin 8 => (m.at_ 0 1).testBit d.1
  m.check 2 true (match (allFin 8).find? fun d => named d && (Vec.at s.fio.do_ d).owner.isSome with
    | some d => no s stNoResource (0x600 + d.1)
    | none => yes (s.each (n := 8) fun s d => if named d then s.doApply d ((m.at_ 1 1).testBit d.1) else s))

/-- The owner octet of a field channel. -/
def ownerByte (o : Option (Fin 4)) : Byte :=
  match o with
  | some c => BitVec.ofNat 8 c.1
  | none => 0xFF

/-- Eight bits as an octet. -/
def bitsByte (f : Fin 8 → Bool) : Byte := (allFin 8).foldl (fun b d => b ||| bitAt 8 d.1 (f d)) 0

/-- FIO_STATUS (R455), with the currents measured and the terminals as read. -/
def State.fioStatus (s0 : State) (currents : Vec W16 8) (terminals : FieldPins) : Reply :=
  let s := s0.each (n := 8) fun s d => s.updDo d fun x => { x with rb := terminals.do_.getLsbD d.1 }
  let f := s.fio
  let di := fun d => Vec.at f.di d
  let dq := fun d => Vec.at f.do_ d
  let each := fun (g : Fin 8 → List Byte) => (allFin 8).flatMap g
  yesData s ([bitsByte fun d => (di d).level, terminals.di, bitsByte fun d => (dq d).cmd, bitsByte fun d => (dq d).rb] ++
    each (fun d => leBytes 1 (dq d).st.1) ++ each (fun d => leBytes 2 (Vec.at currents d).toNat) ++
    leBytes 2 f.lplus.toNat ++ leBytes 2 (Vec.at f.von 0).toNat ++ leBytes 2 (Vec.at f.von 1).toNat ++
    leBytes 2 (bit f.sag + 2 * bit f.uvlo + 4 * bit f.hot) ++
    each (fun d => [ownerByte (di d).owner]) ++ each (fun d => [ownerByte (dq d).owner]) ++
    each (fun d => leBytes 4 (di d).count.toNat) ++ each (fun d => leBytes 2 (di d).carry.toNat) ++
    each fun d => leBytes 4 (di d).fedges.toNat ++ leBytes 4 (di d).fspan.toNat)

end Sys2Proof.Machine
end

