-- ==== Sys2Proof/Machine/CmdDiag.lean ====
section
/-!
DEFINITION. Commands of diagnostics and identity and their jobs' ends: STATS_CONFIG, LOG_CONFIG, LOG_READ, SELFTEST,
HEALTH_GET, ATTEST; the periodic health summary and the posting of held notifications (R111, R456–R461, R537–R551).
-/
namespace Sys2Proof.Machine

/-- Octets of BAR1 (R24). -/
def shmBytes : Nat := 2 ^ 23

/-- STATS_CONFIG (R456, R538): PERIOD for the next period, AREA for the next record. -/
def State.statsConfig (s : State) (m : Msg) : Reply :=
  let area := m.at_ 4 4
  let len := m.at_ 8 4
  let flags := m.at_ 0xC 4
  let areaOk := area = 0xFFFFFFFF || (16 + recLen 75 (flags.testBit 0) ≤ len && area + len ≤ shmBytes)
  m.check 16 (within 1000 1000000 (m.at_ 0 4) && flags ≤ 1 && areaOk) (yes (s.updSup fun u => { u with
    periodNext := BitVec.ofNat 32 (m.at_ 0 4)
    areaNew := u.areaNew || u.area.toNat != area
    area := BitVec.ofNat 32 area, areaLen := BitVec.ofNat 32 len, sflags := BitVec.ofNat 32 flags }))

/-- LOG_CONFIG (R456). -/
def State.logConfig (s : State) (m : Msg) : Reply :=
  m.check 2 (m.at_ 0 1 ≤ 3 && m.at_ 1 1 ≤ 1)
    (yes (s.updSup fun u => { u with notify := BitVec.ofNat 8 (m.at_ 0 1), traceEn := m.at_ 1 1 = 1 }))

/-- LOG_READ (R457). -/
def State.logRead (s : State) (m : Msg) : Reply :=
  m.check 8 (within 1 30 (m.at_ 1 1) && m.at_ 2 2 = 0) (
    let es := s.sup.readable (m.at_ 0 1) (BitVec.ofNat 32 (m.at_ 4 4)) (m.at_ 1 1)
    let next := match es.getLast? with
      | some e => e.seq + 1
      | none => s.sup.seq
    yesData (s.updSup fun u => u.markRead es) (leBytes 4 next.toNat ++
      (allFin 4).flatMap (fun i => leBytes 4 (Vec.at s.sup.loss i).toNat) ++ leBytes 2 es.length ++ leBytes 2 0 ++
      es.flatMap LogEntry.bytes))

/-! ### SELFTEST (R458, R549, R550) -/

/-- The background items of an object that a SCOPE selects: those of powered domains (R547, R549). -/
def State.scopeItems (s : State) (target : W16) (scope : Nat) : List Nat :=
  let n := tgtInst target
  s.testItems.filter fun i =>
    let k := i / 0x100
    let mine := match tgtClass target with
      | 0 => true
      | 1 => (k = 1 || k = 4) && i % 0x100 = n
      | _ => k = 6 && i % 0x100 = n
    mine && ((scope.testBit 0 && k ≤ 3) || (scope.testBit 1 && (k = 4 || k = 5)) || (scope.testBit 2 && k = 6))

/-- A SCOPE selects something of its object; the quick check is the module's. -/
def State.scopeSelects (s : State) (target : W16) (scope : Nat) : Bool :=
  !(s.scopeItems target scope).isEmpty || (tgtClass target = 0 && scope.testBit 3)

/-- SELFTEST: BUSY on the same object. -/
def selftestRow : CmdRow :=
  ⟨0xB03, inClass [0, 1, 2], false, fun s m => (heldBusy s m).or (s.testJob m.target), notMirrored⟩

/-- SELFTEST. -/
def State.selftestCmd (s : State) (m : Msg) : Reply :=
  m.check 2 (m.at_ 0 2 < 16) (s.accept m (.selftest m.target (BitVec.ofNat 16 (m.at_ 0 2))) id)

/-- The result of a SELFTEST job. -/
def selftestBytes (fail : Bool) (item : W16) (addr slices : W32) : List Byte :=
  [BitVec.ofNat 8 (bit fail), 0] ++ leBytes 2 item.toNat ++ leBytes 4 addr.toNat ++ leBytes 4 slices.toNat

/-- A SCOPE that selects nothing ends its job at once, after the response. -/
def State.selftestNone (s : State) (m : Msg) : State :=
  if s.scopeSelects m.target (m.at_ 0 2) then s
  else match s.lastJob with
    | some j => s.endJob j stOk none (selftestBytes false 0 0 0)
    | none => s

/-- What the failing item of a job does (R526, R548, R550): a memory's block stays PERMANENT with its alarm, a word of
supervisor SRAM is uncorrectable, a logic test raises its alarm. ADDR is an address or an offset within the memory. -/
def State.jobFault (s : State) (item addr : Nat) : State :=
  let s1 := match item / 0x100 with
    | 1 => s.memFault (.spad (finOf 4 (item % 0x100))) (addr % 0x80000 / 256)
    | 2 => s.memFault .shm (addr % 0x800000 / 256)
    | 3 => s.sramUncorr testCode (addr / 8)
    | 4 => s.alarm 0x0103 (s.objAt 1 (item % 0x100)) (BitVec.ofNat 32 item) true
    | 5 => s.alarm 0x0103 (s.objAt 0 0) (BitVec.ofNat 32 item) true
    | _ => s
  s1.testFault

/-- SELFTEST_JOB_END: a passed job's items have completed a pass; a calibration that found no idle only warns. -/
def State.selftestEnd (s : State) (num : W32) (fail : Bool) (item : W16) (addr slices : W32) : State :=
  match s.sup.jobs.find? fun j => j.num == num && match j.kind with | .selftest _ _ => true | _ => false with
  | none => s
  | some j =>
    let scope := match j.kind with
      | .selftest _ x => x.toNat
      | _ => 0
    let s1 :=
      if !fail then (s.scopeItems j.target scope).foldl (fun s i => s.itemDone i) s
      else if fld item 8 8 = 6 then (if h : fld item 0 8 < 12 then s.calStarved ⟨fld item 0 8, h⟩ else s)
      else s.jobFault item.toNat addr.toNat
    s1.endJob j stOk none (selftestBytes fail (if fail then item else 0) (if fail then addr else 0) slices)

/-! ### Health (R459, R551) -/

/-- HEALTH_GET, with the temperatures and VIN as measured. -/
def State.healthGet (s : State) (x : Measured) : Reply :=
  yesData s (leBytes 4 s.health.toNat ++ leBytes 4 (if s.pair.st == qSolo then 0 else s.pair.peerHealth.toNat) ++
    leBytes 2 x.die.toNat ++ leBytes 2 x.fio.toNat ++ leBytes 2 x.vin.toNat ++ leBytes 2 s.fio.lplus.toNat ++
    leBytes 4 s.selft.round.toNat)

/-- PAIR_STATE_PERIODIC: the health summary to every subscribed session. -/
def State.pairPeriodic (s : State) : State :=
  if s.live then s.healthWarns.notify 0xF002 (s.objAt 0 0) (s.healthWarns.pairPayload 11 true) else s

/-- NOTIFICATION_POST: 100 µs have passed since a channel's last held notification (R111). -/
def State.notifyPost (s : State) (n : Fin 8) : State :=
  if s.live then (s.updMbx n fun x => { x with slotOpen := true }).postNext n else s

/-! ### ATTEST (R461) -/

/-- ATTEST: BUSY while one runs. -/
def attestRow : CmdRow := ⟨0xC01, inClass [0], false, fun s _ => s.attestJob, notMirrored⟩

/-- ATTEST. -/
def State.attestCmd (s : State) (m : Msg) : Reply :=
  m.check 16 true (s.accept m (.attest (m.payload.take 16)) id)

/-- An image's octets, header and body. -/
def imgWhole (b : List Byte) : List Byte := b.take (320 + imgBodyLen b)

/-- A cluster's entry of the report; the image hash of an EMPTY cluster is not stated (free). -/
def Cluster.attestEntry (k : Cluster) (free : Nat) : List Byte :=
  leBytes 2 k.id.toNat ++ leBytes 2 0 ++
    if k.image.isEmpty then (List.range 4).flatMap fun i => leBytes 8 (Config.freeLong (free + i)).toNat
    else sha256 (imgWhole k.image)

/-- The report up to its IV. -/
def State.attestBody (s : State) (nonce : List Byte) : List Byte :=
  nonce ++ sha256 (imgWhole (Vec.at s.pwr.slots (finOf 2 (bit s.pwr.bootimg))).sundom) ++
    (allFin 4).flatMap (fun c => (Vec.at s.cl c).attestEntry (s.free + 4 * c.1)) ++ leBytes 4 s.pwr.rollback ++
    beBytes 12 (Config.attestIv (s.free + 16)).toNat

/-- The report: its body and the AES-GCM tag over it as additional data. -/
def State.attestReport (s : State) (nonce : List Byte) : List Byte :=
  let b := s.attestBody nonce
  let key := beBytes 32 Config.attestKey.toNat
  let h := gcmSub key
  b ++ gcmTag key h (ghash h 0 b) (Config.attestIv (s.free + 16)) b.length 0

/-- ATTEST_JOB_END. -/
def State.attestEnd (s : State) : State :=
  match s.attestJob with
  | none => s
  | some j =>
    let nonce := match j.kind with
      | .attest x => x
      | _ => []
    ({ s with free := s.free + 17 } : State).endJob j stOk none (s.attestReport nonce)

end Sys2Proof.Machine
end

