-- ==== Sys2Proof/Machine/Beat.lean ====
section
/-!
DEFINITION. The drumbeat (R33–R36, R222, R263–R265, R305), the timed events of a Drumline personality (R261, R273, R274,
R286), the checked-mode mismatch (R40) and the timed events of the Aklos links (R227, R228, R308–R310, R338).
-/
namespace Sys2Proof.Machine

/-! ### The cycle number (R36, R222, R263) -/

/-- The number of the cycle that a drumbeat begins: that of the timebase, and never one that has already begun. -/
def Cluster.nextCycle (k : Cluster) (ns : Nat) : Int := max (k.cycleOf ns) (k.cycle.toInt + 1)

/-- Drumbeats missed: instants passed over (R222), and merged drumbeats (R36). -/
def Cluster.missedBy (k : Cluster) (ns : Nat) (merged : Bool) : Nat :=
  max (bit merged) (k.nextCycle ns - k.cycle.toInt - 1).toNat

/-! ### Routes and states at a drumbeat -/

/-- Drumbeat s of a committed proposal at a node (R305). -/
def State.proposalBeat (s : State) (c : Fin 4) : State × Bool :=
  let k := Vec.at s.cl c
  match k.dl.proposal with
  | some q =>
    if q.committed && decide (q.cycle.toInt ≤ k.cycle.toInt) then
      ((s.updDl c fun d => { d with active := q.route, proposal := none }).routeResult c q.route 0 q.cycle, true)
    else (s, false)
  | none => (s, false)

/-- The standby sends the ROUTE of the relay half in use, and has it as its active route (R303, R321). -/
def State.relayRoute (s : State) (c : Fin 4) : State × Bool :=
  let k := Vec.at s.cl c
  if s.pair.st != qStandby || !s.isController c || !s.inPair c || (Vec.atD k.pair.relay (bit k.pair.relayHalf) none).isNone then
    (s, false)
  else
    let r : Fin 8 := finOf 8 (octet (s.peek .shm (s.relayAt c (bit k.pair.relayHalf) + 6) 1) 0).toNat
    (s.updDl c fun d => { d with active := r }, r != k.dl.active)

/-- The master's own switch: done at drumbeat s, given up at drumbeat s − 1 (R304, R449). What a standby follows of its
partner's switch it only keeps, for a takeover (R303). -/
def State.switchRunBeat (s : State) (c : Fin 4) : State × Bool :=
  let k := Vec.at s.cl c
  match k.dl.switch with
  | none => (s, false)
  | some w =>
    let done := fun (s : State) (r : Nat) => s.updDl c fun d => { d with switch := some { w with done := some (BitVec.ofNat 8 r) } }
    if w.done.isSome || k.dl.st != dMaster then (s, false)
    else if w.committed then
      if w.cycle.toInt ≤ k.cycle.toInt then
        (((done s 0).updDl c fun d => { d with active := w.route }).routeResult c w.route 0 w.cycle, true)
      else (s, false)
    else if w.cycle.toInt ≤ k.cycle.toInt + 1 then
      (((done s 1).warn 0x060E (s.objAt 1 c.1) 0 false).routeResult c w.route 1 w.cycle, false)
    else (s, false)

/-- All three; whether the active route changed. -/
def State.routeBeat (s : State) (c : Fin 4) : State × Bool :=
  let (s1, a) := s.proposalBeat c
  let (s2, b) := s1.switchRunBeat c
  let (s3, r) := s2.relayRoute c
  (s3, a || b || r)

/-- A controller at a drumbeat: CLAIMs, deposition, cycles without a frame, SPLIT (R239, R273). -/
def State.controllerBeat (s : State) (c : Fin 4) : State :=
  let k := Vec.at s.cl c
  let d := k.dl
  let before := fun (o : Option W64) => match o with
    | some x => decide (x.toInt < k.cycle.toInt)
    | none => false
  let s1 := s.updDl c fun d =>
    let on := before d.splitTaken
    let off := before d.splitBack
    { d with
      split := if off then false else if on then true else d.split
      splitTaken := if on then none else d.splitTaken
      splitBack := if off then none else d.splitBack
      heardGood := false, returned := Vec.mapIx d.returned fun i x => x && i.1 / 4 ≠ k.cycle.toNat % 2
      idleCycles := if d.st == dBackup && !d.heardGood then d.idleCycles + 1 else d.idleCycles }
  if d.st == dClaim then
    if d.claims < 4 then (s1.updDl c fun d => { d with claims := d.claims + 1 }).sendClaim c false
    else s1.updDl c fun d => { d with claims := 5 }
  else if d.st == dMaster && d.deposed then
    (s1.updDl c Dl.backup).warn 0x0607 (s.objAt 1 c.1) 0 false
  else s1

/-- The octets that the take entries of a device hold in a half. -/
def State.takeHalf (s : State) (c : Fin 4) (half : Nat) : List (List Byte) :=
  ((Vec.at s.cl c).dl.activeEntries.filter fun m => !m.give).map fun m => s.peek (.spad c) (m.half half) m.len

/-- A device or hub at a drumbeat in RUN (R265, R276): the take half of a usable frame of the cycle that ended is applied;
without one the outputs keep what they applied last. -/
def State.applyTakes (s : State) (c : Fin 4) : State :=
  let k := Vec.at s.cl c
  if k.dl.st != dRun then s
  else match k.dl.usable with
    | some (u, par) =>
      if u = k.cycle - 1 then
        let outs := s.takeHalf c (bit par)
        s.updDl c fun d => { d with outs := outs, missed := 0 }
      else s.updDl c fun d => { d with missed := d.missed + 1 }
    | none => s.updDl c fun d => { d with missed := d.missed + 1 }

/-- A device samples its inputs into the give half of the next cycle (R265): the octets of each give entry, in order, as its
engine firmware writes them (log 85). -/
def State.sampleInputs (s : State) (c : Fin 4) (inputs : List (List Byte)) : State :=
  let k := Vec.at s.cl c
  let gives := k.dl.activeEntries.filter fun m => m.give
  let half := (k.cycle + 1).toNat % 2
  if k.role != some .device then s
  else (gives.zip inputs).foldl (fun s (m, bs) => s.wr (.spad c) (engCode (engOf c 0)) (m.half half) (bs.take m.len)) s

/-- The octets of a controller's take entries in a half, in the mapping's order. -/
def State.takeOctets (s : State) (c : Fin 4) (half : Nat) : List Byte :=
  ((Vec.at s.cl c).dl.entries.filter fun m => !m.give).flatMap fun m => s.peek (.spad c) (m.half half) m.len

/-- The catalogue controller has the status block of the cycle that ends in the fill buffer, with the take half of that cycle
behind it, and has written IN_DONE (R264, steps 5 and 6; log 85). -/
def State.inputStatus (s : State) (c : Fin 4) (old : W64) : State :=
  let k := Vec.at s.cl c
  match k.dl.stat.filter fun w => k.pi.defined && w.cycle = old with
  | some w =>
    let bs := w.octets k.dl.split ++ s.takeOctets c (old.toNat % 2)
    (s.wr .shm (engCode (engOf c 0)) (k.pi.inBuf k.pi.inFill.toNat) (bs.take k.pi.inLen.toNat)).updPi c
      fun p => { p with inDone := true }
  | none => s

/-- The catalogue controller has the TAKEN outputs in the give half of the cycle that begins: the octets of the output buffer
one after another, in the mapping's order (R264, step 1; log 85). -/
def State.outputCopy (s : State) (c : Fin 4) : State :=
  let k := Vec.at s.cl c
  if !k.pi.defined || !k.pi.outValid then s
  else
    let bs := s.peek .shm (k.pi.outBuf k.pi.outTaken.toNat) k.pi.outLen.toNat
    ((k.dl.entries.filter (·.give)).foldl (fun (s, bs) m =>
      (s.wr (.spad c) (engCode (engOf c 0)) (m.half (k.cycle.toNat % 2)) (bs.take m.len), bs.drop m.len)) (s, bs)).1

/-- What a Drumline personality does at its drumbeat; `old` is the cycle that ends. -/
def State.nodeBeat (s : State) (c : Fin 4) (old : W64) (inputs : List (List Byte)) : State :=
  match (Vec.at s.cl c).role with
  | none => s
  | some .controller => ((s.inputStatus c old).outputCopy c).controllerBeat c
  | some _ => (s.applyTakes c).sampleInputs c inputs

/-! ### The drumbeat (R34) -/

/-- What the units of a cluster do at a drumbeat, after its number is known; `old` is the cycle that ends. -/
def State.beatActions (s : State) (c : Fin 4) (old : W64) (inputs : List (List Byte)) (terminals : FieldPins) : State :=
  let (s1, switched) := ((s.snapLatch c).closeGroup c).routeBeat c
  let s2 := ((s1.nodeBeat c old inputs).hubBeat c).windowBeat c switched
  let s3 := s2.updDl c fun d => { d with routeStat := d.routeWord }
  let s4 := s3.each (n := 12) fun s p => s.gateBeat c p
  ((((s4.fioBeat c terminals).piBeat c).pairBeat c old).buildCycle c).evpCl c 0

/-- DRUMBEAT of a cluster: only a started personality beats (R33). `inputs` are the inputs that a device samples (R265),
`terminals` what the field terminals read. -/
def State.drumbeat (s : State) (c : Fin 4) (merged : Bool) (inputs : List (List Byte)) (terminals : FieldPins) : State :=
  let k := Vec.at s.cl c
  if k.st != .started then s
  else
    let ns := s.ns.toNat
    let s1 := (s.updCl c fun k => { k with cycle := BitVec.ofInt 64 (k.nextCycle ns) }).cadd c cMissed (k.missedBy ns merged)
    ((s1.beatActions c k.cycle inputs terminals).beatPulses c).settle

/-! ### Timed events of a Drumline personality -/

/-- LISTEN_TIMEOUT: nothing was heard (R273). -/
def State.listenOut (s : State) (c : Fin 4) : State :=
  let k := Vec.at s.cl c
  if k.st != .started || k.role != some .controller || k.dl.st != dListen || s.noElection c then s
  else if k.dl.prio = 255 then s.updDl c Dl.backup
  else (s.updDl c fun d => { d with elect := 1 }).enterClaim c

/-- DL_ELECTED: the fourth drumbeat after the first CLAIM (R273). -/
def State.elected (s : State) (c : Fin 4) : State :=
  let k := Vec.at s.cl c
  if k.st != .started || k.role != some .controller || k.dl.st != dClaim || k.dl.claims != 5 then s
  else ((s.enterMaster c).buildCycle c).notice 0x0606 (s.objAt 1 c.1) 0

/-- MASTER_CLAIM: every 64 cycles (R273). -/
def State.masterClaim (s : State) (c : Fin 4) : State :=
  let k := Vec.at s.cl c
  if k.st != .started || k.role != some .controller || k.dl.st != dMaster then s else s.sendClaim c true

/-- DL_MASTER_LOST: LOSS_CYCLES cycles without a good drum frame (R273). -/
def State.masterLost (s : State) (c : Fin 4) : State :=
  let k := Vec.at s.cl c
  if k.st != .started || k.role != some .controller || k.dl.st != dBackup || k.dl.idleCycles < row k.dl.sets 13 || s.noElection c then s
  else (s.updDl c fun d => { d with st := dListen, idleCycles := 0, routeTaken := false }).warn 0x0605 (s.objAt 1 c.1) 0 false

/-- A device or hub that runs. -/
def Cluster.follows (k : Cluster) : Bool := k.st == .started && (k.role == some .device || k.role == some .hub)

/-- DL_WATCHDOG: WD_CYCLES drumbeats without a usable frame (R274). -/
def State.dlWatchdog (s : State) (c : Fin 4) : State :=
  let k := Vec.at s.cl c
  if !k.follows || k.dl.st != dRun || k.dl.missed < row k.dl.sets 12 then s
  else (s.dlState c dSafe).alarm 0x0609 (s.objAt 1 c.1) 0 true

/-- DL_CYCLE_MISMATCH: 1 s in SYNC, cycles never agreed (R274). -/
def State.cycleMismatch (s : State) (c : Fin 4) : State :=
  let k := Vec.at s.cl c
  if !k.follows || k.dl.st != dSync || k.dl.agreed then s else s.warn 0x0608 (s.objAt 1 c.1) 0 false

/-- The header of a PROBE frame from a drum port (R241, R242, R261). -/
def State.probeFrame (s : State) (c : Fin 4) (p : Fin 12) (typ : Nat) (body : List Byte) : List Byte :=
  let k := Vec.at s.cl c
  padFrame (beBytes 6 (row k.dl.sets 2) ++ macBytes (s.stationOf p) ++ beBytes 2 k.dl.etype ++
    [BitVec.ofNat 8 (0x10 + typ), 0] ++ beBytes 2 k.cycle.toNat ++ beBytes 2 0 ++ [0, 0] ++ body)

/-- A drum port of a started personality, in UP. -/
def State.probing (s : State) (p : Fin 12) : Option (Fin 4) :=
  match s.drumAt p with
  | some (c, _, _) => if s.started c && s.isUp p then some c else none
  | none => none

/-- PROBE_TIMER: a request leaves at t1. -/
def State.probeSend (s : State) (p : Fin 12) (t1 : W64) : State :=
  match s.probing p with
  | some c => (s.emitCtrl p (s.probeFrame c p 3 []) .good).updPort p fun x => { x with ways := { x.ways with probeT1 := some t1 } }
  | none => s

/-- PROBE_REQ_RX: the answer, with the stamps t2 and t3. -/
def State.probeAnswer (s : State) (p : Fin 12) (t2 t3 : W64) : State :=
  match s.probing p with
  | some c => s.emitCtrl p (s.probeFrame c p 4 (beBytes 8 t2.toNat ++ beBytes 8 t3.toNat)) .good
  | none => s

/-- The last 8 delays (doubled), and their mean in units of 2^-8 ns. -/
def Ways.delay (w : Ways) (d : Int) : Ways :=
  let ds := (w.delays ++ [d]).drop (w.delays.length - 7)
  { w with probeT1 := none, delays := ds, ldly := BitVec.ofInt 32 (ds.foldl (· + ·) 0 / (512 * (ds.length : Int))) }

/-- PROBE_RESP_RX. -/
def State.probeResult (s : State) (p : Fin 12) (t2 t3 t4 : W64) : State :=
  match s.probing p, (Vec.at s.port p).ways.probeT1 with
  | some _, some t1 => s.updPort p fun x => { x with ways := x.ways.delay ((t4 - t1).toInt - (t3 - t2).toInt) }
  | _, _ => s

/-- RETURN_RELEASE: the held frames of index f start at RET_AT, or as soon as they can; outside RUN they are discarded, and a
silent device releases none (R286, R294). -/
def State.returnRelease (s : State) (c f : Fin 4) (late : Bool) : State :=
  let dl := (Vec.at s.cl c).dl
  s.each (n := 12) fun s p =>
    let x := Vec.at s.port p
    if x.owner != some c then s
    else
      let s1 := s.updPort p fun x => { x with ways := { x.ways with hold := x.ways.hold.filter fun h => h.1 ≠ f } }
      if dl.silent || dl.st != dRun then s1
      else (x.ways.hold.filter fun h => h.1 = f).foldl (fun s h =>
        (if late then s.pinc p cDlRetLate else s).emit p h.2.bytes h.2.fcs s.nowStamp) s1

/-! ### Checked mode (R40, R72, R598) -/

/-- CHECK_MISMATCH of a pair: its locks are freed, the personality stops. On the cluster's ports the frame in progress completes,
with a bad FCS on the ports `supplied` where the failing pair supplied it. A request takes effect when its comparison passes, so
this command stands in place of the requests that R39 holds back, and none of them has acted (log 62). -/
def State.checkMismatch (s : State) (c : Fin 4) (pair : Fin 2) (supplied : BitVec 12) : State :=
  let k := Vec.at s.cl c
  if k.st != .started || !k.checked then s
  else
    let lead := engOf c (finOf 4 (2 * pair.1))
    let mate := engOf c (finOf 4 (2 * pair.1 + 1))
    let s1 := s.freeLocks fun b => b = Master.id (.eng lead) || b = Master.id (.eng mate)
    let s1 := s1.each (n := 12) fun s p =>
      if (Vec.at s.port p).owner == some c && !supplied.getLsbD p.1 then s.endFrame p false else s
    let s2 := s1.updPair fun p => { p with clOk := p.clOk &&& ~~~(bitAt 4 c.1 true) }
    s2.engineFatal lead 0x0200 (place lead.1 0 4)

/-! ### Aklos links -/

/-- The hashes of the images of the clusters named (R314, R571). -/
def State.pairHashes (s : State) : List (List Byte) :=
  ((allFin 4).filter fun c => (row s.pair.sets 2).testBit c.1).map fun c => sha256 (Vec.at s.cl c).image

/-- The partner's settings and images are this module's own. -/
def State.settingsMatch (s : State) (i : PeerInfo) : Bool := i.settings = s.pair.compared && i.images = s.pairHashes

/-- A link enters UP: IDENT leaves, settings and image hashes are compared, two ORPHAN modules decide (R312, R314, R337). -/
def State.linkUp (s : State) (l : Fin 2) (i : PeerInfo) : State :=
  if (Vec.at s.pair.links l).st ≠ 1 then s
  else
    let s1 := (s.linkGo l 2).akSend l 0x40 (beBytes 8 Config.serial.toNat ++ Config.certificate.take 1000)
    if !s.toPartner l then s1
    else
      let same := s.settingsMatch i
      let s2 := s1.updPair fun p => { p with configMismatch := !same, peerLost := false }
      if !same then s2.alarm 0x0701 (s.objAt 0 0) 0 true
      else if i.bothOrphan then s2.contest i.peerOrphanMs false true else s2.bulkStart

/-- AKLOS_SIGNAL_PRESENT (R308). -/
def State.akSignal (s : State) (l : Fin 2) : State :=
  if s.laneUsed l && (Vec.at s.pair.links l).st = 0 then s.linkGo l 1 else s

/-- AKLOS_LINK_DOWN (R308). -/
def State.akDown (s : State) (l : Fin 2) : State := s.linkGo l 0

/-- BEAT_SEND (R309, R310). -/
def State.beatSend (s : State) (l : Fin 2) : State :=
  if !s.akUp l then s
  else
    let n := (Vec.at s.pair.links l).beats
    (s.akSend l 0x01 (beatBytes s.pwr.mpos s.pair.st.1 s.pair.orphanMs n)).updPair
      fun p => { p with links := Vec.upd p.links l fun k => { k with beats := k.beats + 1 } }

/-- The lowest of some positions. -/
def lowestPos (ps : List (Option (Fin 4))) : Option (Fin 4) := (allFin 4).find? fun m => ps.contains (some m)

/-- This module's position, when its own TSRC is not 3 (R227). -/
def State.ownMaster (s : State) : Option (Fin 4) := if s.tim.tsrc = 3 then none else some s.pwr.mpos

/-- The master that a link's partner names, unless it is this module: what this module is it knows itself. -/
def State.linkMaster (s : State) (l : Fin 2) : Option (Fin 4) := (Vec.at s.pair.links l).master.filter fun m => m ≠ s.pwr.mpos

/-- The group time master as the module knows it (R227): the lowest position whose TSRC is not 3. -/
def State.timeMaster (s : State) : Option (Fin 4) := lowestPos [s.ownMaster, s.linkMaster 0, s.linkMaster 1]

/-- The link over which the master's time is followed: one that leads to it directly, else the lower-numbered one that
carries its time (DESIGN CHOICE, log 84). -/
def State.masterLink (s : State) : Option (Fin 2) :=
  match s.timeMaster with
  | none => none
  | some m =>
    let carries := fun (l : Fin 2) => s.linkMaster l = some m
    ((allFin 2).find? fun l => carries l && s.farEnd l = m).or ((allFin 2).find? fun l => carries l)

/-- The octet that names a master in a TIME message; 0xFF names none. -/
def masterByte (m : Option (Fin 4)) : Byte := match m with
  | some m => BitVec.ofNat 8 m.1
  | none => 0xFF

/-- AKLOS_TIME_SEND (R227, R309): the module's time, with the master it descends from: the lowest of its own position and of
the one at the far end of its other link, since a member reaches the master over one or two links (log 84). -/
def State.akTimeSend (s : State) (l : Fin 2) : State :=
  let other : Fin 2 := finOf 2 (1 - l.1)
  if !s.akUp l then s
  else s.akSend l 0x02 (beBytes 8 s.tim.ns.toNat ++ beBytes 2 s.tim.frac.toNat ++
    [masterByte (lowestPos [s.ownMaster, (s.linkMaster other).filter fun m => m = s.farEnd other])] ++ List.replicate 13 0)

/-- AKLOS_TIME: a sample of the partner's time, or of the group time master's with TSRC = 3 (R227, R228). -/
def State.akTime (s : State) (l : Fin 2) (off : W64) (at_ : W32) (master : Option (Fin 4)) : State :=
  let s := s.updPair fun p => { p with links := Vec.upd p.links l fun k => { k with master := master } }
  if (if s.followsPair then s.partnerLink == some l else s.tim.tsrc = 3 && s.masterLink == some l) then
    (s.servoSample { off := off, at_ := at_, newSrc := false }).servoMoved true
  else s

/-- BULK_SYNC_DONE (R338). -/
def State.bulkSynced (s : State) : State :=
  if s.pair.st == qSyncing && s.peerOk then s.updPair fun p => { p with bulkDone := true } else s

/-- The outcome of an event: the state after it, a paired module withdrawing on what its health word has become (R327). -/
def done (s : State) : Host.Outcome State Fault Refusal := .next s.settle

end Sys2Proof.Machine
end

