-- ==== Sys2Proof/Machine/RowsCmd.lean ====
section
/-!
DEFINITION. The meanings of the Sundom command rows and of the ends of their jobs.
-/
namespace Sys2Proof.Machine

/-- GET_IDENTITY: the octets from the offset asked for. -/
def State.identity (s : State) (m : Msg) : Reply := m.check 2 true (yesData s (s.identityBytes (m.at_ 0 2)))

/-- OPEN_SESSION (R93). -/
def execOpenSession (m : Msg) (s : State) : Host.Outcome State Fault Refusal :=
  s.command ({ plainRow 0x100 [0] with own := true }) m (fun s => s.openSession m)

/-- CLOSE_SESSION (R96). -/
def execCloseSession (m : Msg) (s : State) : Host.Outcome State Fault Refusal :=
  s.command ({ plainRow 0x101 [0] with own := true }) m (fun s => s.closeSession m)

/-- GET_INFO (R429). -/
def execGetInfo (m : Msg) (s : State) : Host.Outcome State Fault Refusal :=
  s.command (statusRow 0x102 [0]) m (fun s => yesData s s.infoBytes)

/-- GET_CAPS (R429). -/
def execGetCaps (m : Msg) (s : State) : Host.Outcome State Fault Refusal :=
  s.command (statusRow 0x103 [0]) m (fun s => yesData s s.capsBytes)

/-- SET_POWER_STATE (R430). -/
def execSetPowerState (m : Msg) (s : State) : Host.Outcome State Fault Refusal :=
  s.commandThen (plainRow 0x104 [0]) m (State.powerAfter m) (fun s => s.setPower m)

/-- RESET_OBJECT (R431). -/
def execResetObject (m : Msg) (s : State) : Host.Outcome State Fault Refusal :=
  s.commandThen (plainRow 0x105 (List.range 13)) m (State.resetAfter m) (fun s => s.resetCmd m)

/-- LOAD (R433). -/
def execLoadCmd (m : Msg) (s : State) : Host.Outcome State Fault Refusal :=
  s.command (plainRow 0x200 [1]) m (fun s => s.load m)

/-- LOAD_CUSTOM (R434). -/
def execLoadCustom (m : Msg) (s : State) : Host.Outcome State Fault Refusal :=
  s.command (plainRow 0x204 [1]) m (fun s => s.loadCustom m)

/-- LOAD_JOB_END (R433). -/
def execLoadJobEnd (c : Fin 4) (s : State) : Host.Outcome State Fault Refusal :=
  done (s.loadEnd c)

/-- CLUSTER_RESET_JOB_END (R431). -/
def execClusterResetJobEnd (c : Fin 4) (copyDamaged : Bool) (s : State) : Host.Outcome State Fault Refusal :=
  done (s.clusterResetEnd c copyDamaged)

/-- START (R435). -/
def execStartCmd (m : Msg) (s : State) : Host.Outcome State Fault Refusal :=
  s.command ({ mirrorRow 0x201 [1] with busy := startBusy }) m (fun s => s.start m)

/-- STOP (R435). -/
def execStop (m : Msg) (s : State) : Host.Outcome State Fault Refusal :=
  s.command ({ mirrorRow 0x202 [1] with busy := startBusy }) m (fun s => s.stopCmd m)

/-- UNLOAD (R435). -/
def execUnload (m : Msg) (s : State) : Host.Outcome State Fault Refusal :=
  s.command (plainRow 0x203 [1]) m (fun s => s.unloadCmd m)

/-- CYCLE_CONFIG (R436). -/
def execCycleConfig (m : Msg) (s : State) : Host.Outcome State Fault Refusal :=
  s.command (mirrorRow 0x205 [1]) m (fun s => s.cycleConfig m)

/-- PORT_CONFIG (R437). -/
def execPortConfig (m : Msg) (s : State) : Host.Outcome State Fault Refusal :=
  s.command (portRow 0x300) m (fun s => s.portConfig m)

/-- PORT_STATUS (R438). -/
def execPortStatus (m : Msg) (s : State) : Host.Outcome State Fault Refusal :=
  s.command (statusRow 0x301 [2]) m (fun s => s.portStatus m)

/-- CABLE_TEST (R154). -/
def execCableTest (m : Msg) (s : State) : Host.Outcome State Fault Refusal :=
  s.command (cableRow) m (fun s => s.cableTest m)

/-- CABLE_TEST_END (R154). -/
def execCableTestEnd (p : Fin 12) (results : List (Byte × W16)) (s : State) : Host.Outcome State Fault Refusal :=
  done (s.cableEnd p results)

/-- QUEUE_MAP (R440). -/
def execQueueMap (m : Msg) (s : State) : Host.Outcome State Fault Refusal :=
  s.command (portRow 0x303) m (fun s => s.queueMap m)

/-- GATE_LIST (R441). -/
def execGateList (m : Msg) (s : State) : Host.Outcome State Fault Refusal :=
  s.command (portRow 0x304) m (fun s => s.gateList m)

/-- PREEMPT_CONFIG (R172). -/
def execPreemptConfig (m : Msg) (s : State) : Host.Outcome State Fault Refusal :=
  s.command (preemptRow) m (fun s => s.preemptConfig m)

/-- PI_DEFINE (R442). -/
def execPiDefine (m : Msg) (s : State) : Host.Outcome State Fault Refusal :=
  s.command (mirrorRow 0x400 [10]) m (fun s => s.piDefine m)

/-- PI_MAP (R443). -/
def execPiMap (m : Msg) (s : State) : Host.Outcome State Fault Refusal :=
  s.command (mirrorRow 0x401 [1]) m (fun s => s.piMap m)

/-- PI_COMMIT (R444). -/
def execPiCommit (m : Msg) (s : State) : Host.Outcome State Fault Refusal :=
  s.command (mirrorRow 0x402 [10]) m (fun s => s.piCommit m)

/-- TIME_CONFIG (R214). -/
def execTimeConfig (m : Msg) (s : State) : Host.Outcome State Fault Refusal :=
  s.command (plainRow 0x500 [12]) m (fun s => s.timeConfig m)

/-- TIME_GET (R445). -/
def execTimeGet (m : Msg) (s : State) : Host.Outcome State Fault Refusal :=
  s.command (statusRow 0x501 [12]) m (fun s => s.timeGet m)

/-- TIME_ACCEPT_JUMP (R220). -/
def execTimeAcceptJump (m : Msg) (s : State) : Host.Outcome State Fault Refusal :=
  s.command (plainRow 0x502 [12]) m (fun s => s.timeAccept m)

/-- SYNC_PIN_CONFIG (R231). -/
def execSyncPinConfig (m : Msg) (s : State) : Host.Outcome State Fault Refusal :=
  s.command (plainRow 0x503 [12]) m (fun s => s.syncPinConfig m)

/-- DL_CONFIG (R447). -/
def execDlConfig (m : Msg) (s : State) : Host.Outcome State Fault Refusal :=
  s.command (dlConfigRow) m (fun s => s.dlConfig m)

/-- ROUTE_LOAD (R448). -/
def execRouteLoad (m : Msg) (s : State) : Host.Outcome State Fault Refusal :=
  s.command (routeLoadRow) m (fun s => s.routeLoad m)

/-- ROUTE_SWITCH (R303). -/
def execRouteSwitch (m : Msg) (s : State) : Host.Outcome State Fault Refusal :=
  s.command (routeSwitchRow) m (fun s => s.routeSwitch m)

/-- ROUTE_SWITCH_JOB_END (R449). -/
def execRouteSwitchJobEnd (c : Fin 4) (s : State) : Host.Outcome State Fault Refusal :=
  done (s.routeSwitchEnd c)

/-- DL_TOPOLOGY (R450). -/
def execDlTopology (m : Msg) (s : State) : Host.Outcome State Fault Refusal :=
  s.command (topologyRow) m (fun s => s.dlTopology m)

/-- TOLLGATE_CONFIG (R281). -/
def execTollgateConfig (m : Msg) (s : State) : Host.Outcome State Fault Refusal :=
  s.command (tollgateRow) m (fun s => s.tollgateConfig m)

/-- PAIR_CONFIG (R314). -/
def execPairConfig (m : Msg) (s : State) : Host.Outcome State Fault Refusal :=
  s.command (pairRow 0x700) m (fun s => s.pairConfig m)

/-- PAIR_APPROVE (R337). -/
def execPairApprove (m : Msg) (s : State) : Host.Outcome State Fault Refusal :=
  s.command (plainRow 0x701 [0]) m (fun s => s.pairApprove m)

/-- PAIR_STATUS (R451). -/
def execPairStatus (m : Msg) (s : State) : Host.Outcome State Fault Refusal :=
  s.command (statusRow 0x702 [0]) m (fun s => s.pairStatus m)

/-- PAIR_SWITCH (R333). -/
def execPairSwitch (m : Msg) (s : State) : Host.Outcome State Fault Refusal :=
  s.command (pairRow 0x703) m (fun s => s.pairSwitch m)

/-- PAIR_SWITCH_JOB_END (R333). -/
def execPairSwitchJobEnd (s : State) : Host.Outcome State Fault Refusal :=
  done s.pairSwitchEnd

/-- GROUP_CONFIG (R339). -/
def execGroupConfig (m : Msg) (s : State) : Host.Outcome State Fault Refusal :=
  s.command (pairRow 0x704) m (fun s => s.groupConfig m)

/-- CAN_CONFIG (R344). -/
def execCanConfig (m : Msg) (s : State) : Host.Outcome State Fault Refusal :=
  s.command (mirrorRow 0x800 [3]) m (fun s => s.canConfig m)

/-- CAN_STATUS (R452). -/
def execCanStatus (m : Msg) (s : State) : Host.Outcome State Fault Refusal :=
  s.command (statusRow 0x801 [3]) m (fun s => s.canStatus m)

/-- CAN_FILTER (R349). -/
def execCanFilter (m : Msg) (s : State) : Host.Outcome State Fault Refusal :=
  s.command (mirrorRow 0x802 [3]) m (fun s => s.canFilter m)

/-- CAN_ABORT (R355). -/
def execCanAbort (m : Msg) (s : State) : Host.Outcome State Fault Refusal :=
  s.command (mirrorRow 0x803 [3]) m (fun s => s.canAbort m)

/-- PIO_CONFIG (R388). -/
def execPioConfig (m : Msg) (s : State) : Host.Outcome State Fault Refusal :=
  s.command (mirrorRow 0x900 [4]) m (fun s => s.pioConfig m)

/-- PIO_PROGRAM (R386). -/
def execPioProgram (m : Msg) (s : State) : Host.Outcome State Fault Refusal :=
  s.command (mirrorRow 0x901 [4]) m (fun s => s.pioProgram m)

/-- PIO_STATUS (R453). -/
def execPioStatus (m : Msg) (s : State) : Host.Outcome State Fault Refusal :=
  s.command (statusRow 0x902 [4]) m (fun s => s.pioStatus m)

/-- FIO_CONFIG (R454). -/
def execFioConfig (m : Msg) (s : State) : Host.Outcome State Fault Refusal :=
  s.command (plainRow 0xA00 [0]) m (fun s => s.fioConfig m)

/-- DI_CONFIG (R454). -/
def execDiConfig (m : Msg) (s : State) : Host.Outcome State Fault Refusal :=
  s.command (diRow) m (fun s => s.diConfig m)

/-- DO_CONFIG (R406). -/
def execDoConfig (m : Msg) (s : State) : Host.Outcome State Fault Refusal :=
  s.command (doRow) m (fun s => s.doConfig m)

/-- DO_SET (R455). -/
def execDoSet (m : Msg) (s : State) : Host.Outcome State Fault Refusal :=
  s.command (plainRow 0xA03 [0]) m (fun s => s.doSet m)

/-- FIO_STATUS (R455), with the output currents as measured, in mA (R405), and the unfiltered input levels. -/
def execFioStatus (m : Msg) (currents : Vec W16 8) (terminals : FieldPins) (s : State) : Host.Outcome State Fault Refusal :=
  s.command (statusRow 0xA04 [0]) m (fun s => s.fioStatus currents terminals)

/-- STATS_CONFIG (R456). -/
def execStatsConfig (m : Msg) (s : State) : Host.Outcome State Fault Refusal :=
  s.command (plainRow 0xB00 [0]) m (fun s => s.statsConfig m)

/-- LOG_CONFIG (R456). -/
def execLogConfig (m : Msg) (s : State) : Host.Outcome State Fault Refusal :=
  s.command (plainRow 0xB01 [0]) m (fun s => s.logConfig m)

/-- LOG_READ (R457). -/
def execLogRead (m : Msg) (s : State) : Host.Outcome State Fault Refusal :=
  s.command (statusRow 0xB02 [0]) m (fun s => s.logRead m)

/-- SELFTEST (R549). -/
def execSelftest (m : Msg) (s : State) : Host.Outcome State Fault Refusal :=
  s.commandThen (selftestRow) m (fun s => s.selftestNone m) (fun s => s.selftestCmd m)

/-- SELFTEST_JOB_END (R550). -/
def execSelftestJobEnd (job : W32) (fail : Bool) (item : W16) (addr : W32) (slices : W32) (s : State) : Host.Outcome State Fault Refusal :=
  done (s.selftestEnd job fail item addr slices)

/-- HEALTH_GET (R459). -/
def execHealthGet (m : Msg) (x : Measured) (s : State) : Host.Outcome State Fault Refusal :=
  s.command (statusRow 0xB04 [0]) m (fun s => s.healthGet x)

/-- GET_IDENTITY (R460). -/
def execGetIdentity (m : Msg) (s : State) : Host.Outcome State Fault Refusal :=
  s.command (statusRow 0xC00 [0]) m (fun s => s.identity m)

/-- ATTEST (R461). -/
def execAttest (m : Msg) (s : State) : Host.Outcome State Fault Refusal :=
  s.command (attestRow) m (fun s => s.attestCmd m)

/-- ATTEST_JOB_END (R461). -/
def execAttestJobEnd (s : State) : Host.Outcome State Fault Refusal :=
  done s.attestEnd

/-- UNASSIGNED_COMMAND (R424). -/
def execUnassignedCommand (code : W16) (m : Msg) (s : State) : Host.Outcome State Fault Refusal :=
  if assignedCodes.contains code.toNat then .next s
  else s.command (unassignedRow code) m fun s => no s stBadCmd 1

/-- NOTIFICATION_POST (R111). -/
def execNotificationPost (n : Fin 8) (s : State) : Host.Outcome State Fault Refusal :=
  .next (s.notifyPost n)

/-- PAIR_STATE_PERIODIC (R551). -/
def execPairStatePeriodic (s : State) : Host.Outcome State Fault Refusal :=
  .next s.pairPeriodic

end Sys2Proof.Machine
end

