-- ==== Sys2Proof/Machine/RowsCycle.lean ====
section
/-!
DEFINITION. The meanings of the rows of the network cycle, the process image, self-test, memories and time.
-/
namespace Sys2Proof.Machine

/-- DRUMBEAT (R34). -/
def execDrumbeat (c : Fin 4) (merged : Bool) (inputs : List (List Byte)) (terminals : FieldPins) (s : State) : Host.Outcome State Fault Refusal :=
  .next (s.drumbeat c merged inputs terminals)

/-- PI_TAKE (R120). -/
def execPiTake (c : Fin 4) (s : State) : Host.Outcome State Fault Refusal :=
  done (s.piTake c)

/-- IN_DONE (R116). -/
def execInDone (e : Fin 16) (s : State) : Host.Outcome State Fault Refusal :=
  s.engineStore e 0x60000104 1

/-- PI_HOST_STALE (R122). -/
def execPiHostStale (c : Fin 4) (s : State) : Host.Outcome State Fault Refusal :=
  done (s.piStale c)

/-- MODULE_STATS_PERIOD (R531). -/
def execModuleStatsPeriod (s : State) : Host.Outcome State Fault Refusal :=
  done s.statsPeriod

/-- SELFTEST_SLICE (R547). -/
def execSelftestSlice (w : SliceWork) (s : State) : Host.Outcome State Fault Refusal :=
  done (s.testSlice w)

/-- CAL_STARVED (R153). -/
def execCalStarved (p : Fin 12) (s : State) : Host.Outcome State Fault Refusal :=
  .next (s.calStarved p)

/-- MEM_STARVE (R522). -/
def execMemStarve (w : MemWhich) (code : BitVec 6) (word : BitVec 20) (s : State) : Host.Outcome State Fault Refusal :=
  done (s.memStarve w code word.toNat)

/-- IMEM_DMEM_SCRUB (R546). -/
def execImemDmemScrub (e : Fin 16) (dmem : Bool) (word : BitVec 20) (uncorr : Bool) (s : State) : Host.Outcome State Fault Refusal :=
  done (s.scrub e dmem word.toNat uncorr)

/-- TSMP_POST (R215). -/
def execTsmpPost (e : Fin 16) (v : W32) (s : State) : Host.Outcome State Fault Refusal :=
  s.engineStore e 0x6000031C v

/-- SERVO_SAMPLE_TAKEN (R216). -/
def execServoSampleTaken (c : Fin 4) (s : State) : Host.Outcome State Fault Refusal :=
  done ((s.takeSample c).servoMoved (Vec.at s.cl c).tsSample.isSome)

/-- SRC_TIMEOUT (R223). -/
def execSrcTimeout (s : State) : Host.Outcome State Fault Refusal :=
  done ((Sys2Proof.Machine.srcTimeout s).servoMoved false)

/-- SLEW_END (R220). -/
def execSlewEnd (s : State) : Host.Outcome State Fault Refusal :=
  done ((Sys2Proof.Machine.slewEnd s).servoMoved false)

/-- STEP_HOLD_END (R221). -/
def execStepHoldEnd (s : State) : Host.Outcome State Fault Refusal :=
  .next (Sys2Proof.Machine.stepHoldEnd s)

/-- MILESTONE_FIRE (R229). -/
def execMilestoneFire (e : Fin 16) (arm : BitVec 2) (s : State) : Host.Outcome State Fault Refusal :=
  .next (Sys2Proof.Machine.milestoneFire e arm s)

/-- SYNC_IN_EDGE (R232). -/
def execSyncInEdge (rising : Bool) (ns : W64) (frac : W16) (s : State) : Host.Outcome State Fault Refusal :=
  let t := Sys2Proof.Machine.syncInEdge rising ns frac s
  done (t.servoMoved (t.tim.samples ≠ s.tim.samples))

/-- SYNC_OUT_PULSE (R233). -/
def execSyncOutPulse (i : Fin 2) (s : State) : Host.Outcome State Fault Refusal :=
  .next (Sys2Proof.Machine.syncOutPulse i s)

/-- TNS_READ (R201). -/
def execTnsRead (e : Fin 16) (s : State) : Host.Outcome State Fault Refusal :=
  s.engineTouch e 0x60000300

/-- SYNCIN_NS_READ (R232). -/
def execSyncinNsRead (e : Fin 16) (s : State) : Host.Outcome State Fault Refusal :=
  s.engineTouch e 0x60000330

/-- WATCHDOG_TIMEOUT (R492). -/
def execWatchdogTimeout (e : Fin 16) (s : State) : Host.Outcome State Fault Refusal :=
  .next (s.watchdog e)

/-- CHECK_MISMATCH (R40). -/
def execCheckMismatch (c : Fin 4) (pair : Fin 2) (supplied : BitVec 12) (s : State) : Host.Outcome State Fault Refusal :=
  .next (s.checkMismatch c pair supplied)

end Sys2Proof.Machine
end

