-- ==== Sys2Proof/Machine/RowsEngine.lean ====
section
/-!
DEFINITION. The meanings of the engine instruction rows. A row brings one syllable with its unit and opcode (R495, R500–R514).
-/
namespace Sys2Proof.Machine

/-- LOAD_ECC_ERROR (R487). -/
def execLoadEccError (e : Fin 16) (pc : W32) (resume : W32) (addr : W32) (after : Fin 3) (s : State) : Host.Outcome State Fault Refusal :=
  .next (s.loadFailed e pc resume addr after.1)

/-- COPROC_COMPLETE (R507). -/
def execCoprocComplete (e : Fin 16) (s : State) : Host.Outcome State Fault Refusal :=
  .next (s.copEnd e)

/-- ADDA (R500). -/
def execAdda (e : Fin 16) (stop : Bool) (ops : BitVec 23) (s : State) : Host.Outcome State Fault Refusal :=
  syllable 0 0x00 e stop ops s

/-- SUBA (R500). -/
def execSuba (e : Fin 16) (stop : Bool) (ops : BitVec 23) (s : State) : Host.Outcome State Fault Refusal :=
  syllable 0 0x01 e stop ops s

/-- ADDAI (R500). -/
def execAddai (e : Fin 16) (stop : Bool) (ops : BitVec 23) (s : State) : Host.Outcome State Fault Refusal :=
  syllable 0 0x02 e stop ops s

/-- ADDAD (R500). -/
def execAddad (e : Fin 16) (stop : Bool) (ops : BitVec 23) (s : State) : Host.Outcome State Fault Refusal :=
  syllable 0 0x03 e stop ops s

/-- LHA (R500). -/
def execLha (e : Fin 16) (stop : Bool) (ops : BitVec 23) (s : State) : Host.Outcome State Fault Refusal :=
  syllable 0 0x04 e stop ops s

/-- LLA (R500). -/
def execLla (e : Fin 16) (stop : Bool) (ops : BitVec 23) (s : State) : Host.Outcome State Fault Refusal :=
  syllable 0 0x05 e stop ops s

/-- LDB (R500). -/
def execLdb (e : Fin 16) (stop : Bool) (ops : BitVec 23) (s : State) : Host.Outcome State Fault Refusal :=
  syllable 0 0x10 e stop ops s

/-- LDBU (R500). -/
def execLdbu (e : Fin 16) (stop : Bool) (ops : BitVec 23) (s : State) : Host.Outcome State Fault Refusal :=
  syllable 0 0x11 e stop ops s

/-- LDH (R500). -/
def execLdh (e : Fin 16) (stop : Bool) (ops : BitVec 23) (s : State) : Host.Outcome State Fault Refusal :=
  syllable 0 0x12 e stop ops s

/-- LDHU (R500). -/
def execLdhu (e : Fin 16) (stop : Bool) (ops : BitVec 23) (s : State) : Host.Outcome State Fault Refusal :=
  syllable 0 0x13 e stop ops s

/-- LDW (R500). -/
def execLdw (e : Fin 16) (stop : Bool) (ops : BitVec 23) (s : State) : Host.Outcome State Fault Refusal :=
  syllable 0 0x14 e stop ops s

/-- LDD (R500). -/
def execLdd (e : Fin 16) (stop : Bool) (ops : BitVec 23) (s : State) : Host.Outcome State Fault Refusal :=
  syllable 0 0x15 e stop ops s

/-- LDA (R500). -/
def execLda (e : Fin 16) (stop : Bool) (ops : BitVec 23) (s : State) : Host.Outcome State Fault Refusal :=
  syllable 0 0x16 e stop ops s

/-- LDHR (R524). -/
def execLdhr (e : Fin 16) (stop : Bool) (ops : BitVec 23) (s : State) : Host.Outcome State Fault Refusal :=
  syllable 0 0x17 e stop ops s

/-- LDWR (R524). -/
def execLdwr (e : Fin 16) (stop : Bool) (ops : BitVec 23) (s : State) : Host.Outcome State Fault Refusal :=
  syllable 0 0x18 e stop ops s

/-- STB (R500). -/
def execStb (e : Fin 16) (stop : Bool) (ops : BitVec 23) (s : State) : Host.Outcome State Fault Refusal :=
  syllable 0 0x20 e stop ops s

/-- STH (R500). -/
def execSth (e : Fin 16) (stop : Bool) (ops : BitVec 23) (s : State) : Host.Outcome State Fault Refusal :=
  syllable 0 0x21 e stop ops s

/-- STW (R500). -/
def execStw (e : Fin 16) (stop : Bool) (ops : BitVec 23) (s : State) : Host.Outcome State Fault Refusal :=
  syllable 0 0x22 e stop ops s

/-- STD (R500). -/
def execStd (e : Fin 16) (stop : Bool) (ops : BitVec 23) (s : State) : Host.Outcome State Fault Refusal :=
  syllable 0 0x23 e stop ops s

/-- STA (R500). -/
def execSta (e : Fin 16) (stop : Bool) (ops : BitVec 23) (s : State) : Host.Outcome State Fault Refusal :=
  syllable 0 0x24 e stop ops s

/-- ADD (R501). -/
def execAdd (e : Fin 16) (stop : Bool) (ops : BitVec 23) (s : State) : Host.Outcome State Fault Refusal :=
  syllable 1 0x00 e stop ops s

/-- SUB (R501). -/
def execSub (e : Fin 16) (stop : Bool) (ops : BitVec 23) (s : State) : Host.Outcome State Fault Refusal :=
  syllable 1 0x01 e stop ops s

/-- AND (R501). -/
def execAndD (e : Fin 16) (stop : Bool) (ops : BitVec 23) (s : State) : Host.Outcome State Fault Refusal :=
  syllable 1 0x02 e stop ops s

/-- OR (R501). -/
def execOrD (e : Fin 16) (stop : Bool) (ops : BitVec 23) (s : State) : Host.Outcome State Fault Refusal :=
  syllable 1 0x03 e stop ops s

/-- XOR (R501). -/
def execXorD (e : Fin 16) (stop : Bool) (ops : BitVec 23) (s : State) : Host.Outcome State Fault Refusal :=
  syllable 1 0x04 e stop ops s

/-- ANDN (R501). -/
def execAndn (e : Fin 16) (stop : Bool) (ops : BitVec 23) (s : State) : Host.Outcome State Fault Refusal :=
  syllable 1 0x05 e stop ops s

/-- SHL (R501). -/
def execShl (e : Fin 16) (stop : Bool) (ops : BitVec 23) (s : State) : Host.Outcome State Fault Refusal :=
  syllable 1 0x06 e stop ops s

/-- SHR (R501). -/
def execShr (e : Fin 16) (stop : Bool) (ops : BitVec 23) (s : State) : Host.Outcome State Fault Refusal :=
  syllable 1 0x07 e stop ops s

/-- SAR (R501). -/
def execSar (e : Fin 16) (stop : Bool) (ops : BitVec 23) (s : State) : Host.Outcome State Fault Refusal :=
  syllable 1 0x08 e stop ops s

/-- ROR (R501). -/
def execRor (e : Fin 16) (stop : Bool) (ops : BitVec 23) (s : State) : Host.Outcome State Fault Refusal :=
  syllable 1 0x09 e stop ops s

/-- MIN (R501). -/
def execMinD (e : Fin 16) (stop : Bool) (ops : BitVec 23) (s : State) : Host.Outcome State Fault Refusal :=
  syllable 1 0x0A e stop ops s

/-- MAX (R501). -/
def execMaxD (e : Fin 16) (stop : Bool) (ops : BitVec 23) (s : State) : Host.Outcome State Fault Refusal :=
  syllable 1 0x0B e stop ops s

/-- MINU (R501). -/
def execMinu (e : Fin 16) (stop : Bool) (ops : BitVec 23) (s : State) : Host.Outcome State Fault Refusal :=
  syllable 1 0x0C e stop ops s

/-- MAXU (R501). -/
def execMaxu (e : Fin 16) (stop : Bool) (ops : BitVec 23) (s : State) : Host.Outcome State Fault Refusal :=
  syllable 1 0x0D e stop ops s

/-- ADDS (R501). -/
def execAdds (e : Fin 16) (stop : Bool) (ops : BitVec 23) (s : State) : Host.Outcome State Fault Refusal :=
  syllable 1 0x0E e stop ops s

/-- SUBS (R501). -/
def execSubs (e : Fin 16) (stop : Bool) (ops : BitVec 23) (s : State) : Host.Outcome State Fault Refusal :=
  syllable 1 0x0F e stop ops s

/-- ADDI (R501). -/
def execAddi (e : Fin 16) (stop : Bool) (ops : BitVec 23) (s : State) : Host.Outcome State Fault Refusal :=
  syllable 1 0x10 e stop ops s

/-- ANDI (R501). -/
def execAndi (e : Fin 16) (stop : Bool) (ops : BitVec 23) (s : State) : Host.Outcome State Fault Refusal :=
  syllable 1 0x11 e stop ops s

/-- ORI (R501). -/
def execOri (e : Fin 16) (stop : Bool) (ops : BitVec 23) (s : State) : Host.Outcome State Fault Refusal :=
  syllable 1 0x12 e stop ops s

/-- XORI (R501). -/
def execXori (e : Fin 16) (stop : Bool) (ops : BitVec 23) (s : State) : Host.Outcome State Fault Refusal :=
  syllable 1 0x13 e stop ops s

/-- SHLI (R501). -/
def execShli (e : Fin 16) (stop : Bool) (ops : BitVec 23) (s : State) : Host.Outcome State Fault Refusal :=
  syllable 1 0x14 e stop ops s

/-- SHRI (R501). -/
def execShri (e : Fin 16) (stop : Bool) (ops : BitVec 23) (s : State) : Host.Outcome State Fault Refusal :=
  syllable 1 0x15 e stop ops s

/-- SARI (R501). -/
def execSari (e : Fin 16) (stop : Bool) (ops : BitVec 23) (s : State) : Host.Outcome State Fault Refusal :=
  syllable 1 0x16 e stop ops s

/-- RORI (R501). -/
def execRori (e : Fin 16) (stop : Bool) (ops : BitVec 23) (s : State) : Host.Outcome State Fault Refusal :=
  syllable 1 0x17 e stop ops s

/-- CMP (R501). -/
def execCmp (e : Fin 16) (stop : Bool) (ops : BitVec 23) (s : State) : Host.Outcome State Fault Refusal :=
  syllable 1 0x18 e stop ops s

/-- CMPI (R501). -/
def execCmpi (e : Fin 16) (stop : Bool) (ops : BitVec 23) (s : State) : Host.Outcome State Fault Refusal :=
  syllable 1 0x19 e stop ops s

/-- MOVI (R501). -/
def execMovi (e : Fin 16) (stop : Bool) (ops : BitVec 23) (s : State) : Host.Outcome State Fault Refusal :=
  syllable 1 0x1A e stop ops s

/-- LHI (R501). -/
def execLhi (e : Fin 16) (stop : Bool) (ops : BitVec 23) (s : State) : Host.Outcome State Fault Refusal :=
  syllable 1 0x1B e stop ops s

/-- LLI (R501). -/
def execLli (e : Fin 16) (stop : Bool) (ops : BitVec 23) (s : State) : Host.Outcome State Fault Refusal :=
  syllable 1 0x1C e stop ops s

/-- EXTU (R501). -/
def execExtu (e : Fin 16) (stop : Bool) (ops : BitVec 23) (s : State) : Host.Outcome State Fault Refusal :=
  syllable 1 0x1D e stop ops s

/-- EXTS (R501). -/
def execExts (e : Fin 16) (stop : Bool) (ops : BitVec 23) (s : State) : Host.Outcome State Fault Refusal :=
  syllable 1 0x1E e stop ops s

/-- INS (R501). -/
def execIns (e : Fin 16) (stop : Bool) (ops : BitVec 23) (s : State) : Host.Outcome State Fault Refusal :=
  syllable 1 0x1F e stop ops s

/-- CLZ (R501). -/
def execClz (e : Fin 16) (stop : Bool) (ops : BitVec 23) (s : State) : Host.Outcome State Fault Refusal :=
  syllable 1 0x20 e stop ops s

/-- POPC (R501). -/
def execPopc (e : Fin 16) (stop : Bool) (ops : BitVec 23) (s : State) : Host.Outcome State Fault Refusal :=
  syllable 1 0x21 e stop ops s

/-- BSWAP (R501). -/
def execBswap (e : Fin 16) (stop : Bool) (ops : BitVec 23) (s : State) : Host.Outcome State Fault Refusal :=
  syllable 1 0x22 e stop ops s

/-- BSWAPH (R501). -/
def execBswaph (e : Fin 16) (stop : Bool) (ops : BitVec 23) (s : State) : Host.Outcome State Fault Refusal :=
  syllable 1 0x23 e stop ops s

/-- ABS (R501). -/
def execAbsD (e : Fin 16) (stop : Bool) (ops : BitVec 23) (s : State) : Host.Outcome State Fault Refusal :=
  syllable 1 0x24 e stop ops s

/-- NEG (R501). -/
def execNeg (e : Fin 16) (stop : Bool) (ops : BitVec 23) (s : State) : Host.Outcome State Fault Refusal :=
  syllable 1 0x25 e stop ops s

/-- MUL (R501). -/
def execMul (e : Fin 16) (stop : Bool) (ops : BitVec 23) (s : State) : Host.Outcome State Fault Refusal :=
  syllable 1 0x28 e stop ops s

/-- MULH (R501). -/
def execMulh (e : Fin 16) (stop : Bool) (ops : BitVec 23) (s : State) : Host.Outcome State Fault Refusal :=
  syllable 1 0x29 e stop ops s

/-- MULHU (R501). -/
def execMulhu (e : Fin 16) (stop : Bool) (ops : BitVec 23) (s : State) : Host.Outcome State Fault Refusal :=
  syllable 1 0x2A e stop ops s

/-- MAC (R502). -/
def execMac (e : Fin 16) (stop : Bool) (ops : BitVec 23) (s : State) : Host.Outcome State Fault Refusal :=
  syllable 1 0x30 e stop ops s

/-- MACU (R502). -/
def execMacu (e : Fin 16) (stop : Bool) (ops : BitVec 23) (s : State) : Host.Outcome State Fault Refusal :=
  syllable 1 0x31 e stop ops s

/-- MSU (R502). -/
def execMsu (e : Fin 16) (stop : Bool) (ops : BitVec 23) (s : State) : Host.Outcome State Fault Refusal :=
  syllable 1 0x32 e stop ops s

/-- ACCLR (R501). -/
def execAcclr (e : Fin 16) (stop : Bool) (ops : BitVec 23) (s : State) : Host.Outcome State Fault Refusal :=
  syllable 1 0x33 e stop ops s

/-- ACLD (R501). -/
def execAcld (e : Fin 16) (stop : Bool) (ops : BitVec 23) (s : State) : Host.Outcome State Fault Refusal :=
  syllable 1 0x34 e stop ops s

/-- ACEXT (R502). -/
def execAcext (e : Fin 16) (stop : Bool) (ops : BitVec 23) (s : State) : Host.Outcome State Fault Refusal :=
  syllable 1 0x35 e stop ops s

/-- MOVAD (R503). -/
def execMovad (e : Fin 16) (stop : Bool) (ops : BitVec 23) (s : State) : Host.Outcome State Fault Refusal :=
  syllable 2 0x00 e stop ops s

/-- MOVDA (R503). -/
def execMovda (e : Fin 16) (stop : Bool) (ops : BitVec 23) (s : State) : Host.Outcome State Fault Refusal :=
  syllable 2 0x01 e stop ops s

/-- MOVD (R503). -/
def execMovd (e : Fin 16) (stop : Bool) (ops : BitVec 23) (s : State) : Host.Outcome State Fault Refusal :=
  syllable 2 0x02 e stop ops s

/-- MOVA (R503). -/
def execMova (e : Fin 16) (stop : Bool) (ops : BitVec 23) (s : State) : Host.Outcome State Fault Refusal :=
  syllable 2 0x03 e stop ops s

/-- SEL (R503). -/
def execSel (e : Fin 16) (stop : Bool) (ops : BitVec 23) (s : State) : Host.Outcome State Fault Refusal :=
  syllable 2 0x04 e stop ops s

/-- QPUSH (R504). -/
def execQpush (e : Fin 16) (stop : Bool) (ops : BitVec 23) (s : State) : Host.Outcome State Fault Refusal :=
  syllable 2 0x10 e stop ops s

/-- QPOP (R504). -/
def execQpop (e : Fin 16) (stop : Bool) (ops : BitVec 23) (s : State) : Host.Outcome State Fault Refusal :=
  syllable 2 0x11 e stop ops s

/-- QSTAT (R503). -/
def execQstat (e : Fin 16) (stop : Bool) (ops : BitVec 23) (s : State) : Host.Outcome State Fault Refusal :=
  syllable 2 0x12 e stop ops s

/-- B (R505). -/
def execB (e : Fin 16) (stop : Bool) (ops : BitVec 23) (s : State) : Host.Outcome State Fault Refusal :=
  syllable 3 0x00 e stop ops s

/-- BDZ (R505). -/
def execBdz (e : Fin 16) (stop : Bool) (ops : BitVec 23) (s : State) : Host.Outcome State Fault Refusal :=
  syllable 3 0x01 e stop ops s

/-- BDNZ (R505). -/
def execBdnz (e : Fin 16) (stop : Bool) (ops : BitVec 23) (s : State) : Host.Outcome State Fault Refusal :=
  syllable 3 0x02 e stop ops s

/-- DBNZ (R505). -/
def execDbnz (e : Fin 16) (stop : Bool) (ops : BitVec 23) (s : State) : Host.Outcome State Fault Refusal :=
  syllable 3 0x03 e stop ops s

/-- CALL (R478). -/
def execCall (e : Fin 16) (stop : Bool) (ops : BitVec 23) (s : State) : Host.Outcome State Fault Refusal :=
  syllable 3 0x04 e stop ops s

/-- CALLR (R505). -/
def execCallr (e : Fin 16) (stop : Bool) (ops : BitVec 23) (s : State) : Host.Outcome State Fault Refusal :=
  syllable 3 0x05 e stop ops s

/-- JR (R505). -/
def execJr (e : Fin 16) (stop : Bool) (ops : BitVec 23) (s : State) : Host.Outcome State Fault Refusal :=
  syllable 3 0x06 e stop ops s

/-- RET (R478). -/
def execRet (e : Fin 16) (stop : Bool) (ops : BitVec 23) (s : State) : Host.Outcome State Fault Refusal :=
  syllable 3 0x07 e stop ops s

/-- RTE (R490). -/
def execRte (e : Fin 16) (stop : Bool) (ops : BitVec 23) (s : State) : Host.Outcome State Fault Refusal :=
  syllable 3 0x08 e stop ops s

/-- RPT (R485). -/
def execRpt (e : Fin 16) (stop : Bool) (ops : BitVec 23) (s : State) : Host.Outcome State Fault Refusal :=
  syllable 3 0x09 e stop ops s

/-- WFE (R481). -/
def execWfe (e : Fin 16) (stop : Bool) (ops : BitVec 23) (s : State) : Host.Outcome State Fault Refusal :=
  syllable 3 0x0A e stop ops s

/-- MWAIT (R484). -/
def execMwait (e : Fin 16) (stop : Bool) (ops : BitVec 23) (s : State) : Host.Outcome State Fault Refusal :=
  syllable 3 0x0B e stop ops s

/-- SEV (R482). -/
def execSev (e : Fin 16) (stop : Bool) (ops : BitVec 23) (s : State) : Host.Outcome State Fault Refusal :=
  syllable 3 0x0C e stop ops s

/-- SEVR (R505). -/
def execSevr (e : Fin 16) (stop : Bool) (ops : BitVec 23) (s : State) : Host.Outcome State Fault Refusal :=
  syllable 3 0x0D e stop ops s

/-- FENCE (R476). -/
def execFence (e : Fin 16) (stop : Bool) (ops : BitVec 23) (s : State) : Host.Outcome State Fault Refusal :=
  syllable 3 0x0E e stop ops s

/-- BRK (R505). -/
def execBrk (e : Fin 16) (stop : Bool) (ops : BitVec 23) (s : State) : Host.Outcome State Fault Refusal :=
  syllable 3 0x0F e stop ops s

/-- MFS (R468). -/
def execMfs (e : Fin 16) (stop : Bool) (ops : BitVec 23) (s : State) : Host.Outcome State Fault Refusal :=
  syllable 3 0x10 e stop ops s

/-- MTS (R468). -/
def execMts (e : Fin 16) (stop : Bool) (ops : BitVec 23) (s : State) : Host.Outcome State Fault Refusal :=
  syllable 3 0x11 e stop ops s

/-- CRCSET (R509). -/
def execCrcset (e : Fin 16) (stop : Bool) (ops : BitVec 23) (s : State) : Host.Outcome State Fault Refusal :=
  syllable 3 0x30 e stop ops s

/-- CRCM (R510). -/
def execCrcm (e : Fin 16) (stop : Bool) (ops : BitVec 23) (s : State) : Host.Outcome State Fault Refusal :=
  syllable 3 0x31 e stop ops s

/-- CRCW (R510). -/
def execCrcw (e : Fin 16) (stop : Bool) (ops : BitVec 23) (s : State) : Host.Outcome State Fault Refusal :=
  syllable 3 0x32 e stop ops s

/-- CSUM (R511). -/
def execCsum (e : Fin 16) (stop : Bool) (ops : BitVec 23) (s : State) : Host.Outcome State Fault Refusal :=
  syllable 3 0x33 e stop ops s

/-- STUFF (R512). -/
def execStuff (e : Fin 16) (stop : Bool) (ops : BitVec 23) (s : State) : Host.Outcome State Fault Refusal :=
  syllable 3 0x34 e stop ops s

/-- UNSTUFF (R512). -/
def execUnstuff (e : Fin 16) (stop : Bool) (ops : BitVec 23) (s : State) : Host.Outcome State Fault Refusal :=
  syllable 3 0x35 e stop ops s

/-- FEXT (R513). -/
def execFext (e : Fin 16) (stop : Bool) (ops : BitVec 23) (s : State) : Host.Outcome State Fault Refusal :=
  syllable 3 0x36 e stop ops s

/-- FINS (R513). -/
def execFins (e : Fin 16) (stop : Bool) (ops : BitVec 23) (s : State) : Host.Outcome State Fault Refusal :=
  syllable 3 0x37 e stop ops s

/-- GCMKEY (R514). -/
def execGcmkey (e : Fin 16) (stop : Bool) (ops : BitVec 23) (s : State) : Host.Outcome State Fault Refusal :=
  syllable 3 0x38 e stop ops s

/-- GCMIV (R514). -/
def execGcmiv (e : Fin 16) (stop : Bool) (ops : BitVec 23) (s : State) : Host.Outcome State Fault Refusal :=
  syllable 3 0x39 e stop ops s

/-- GCMAAD (R514). -/
def execGcmaad (e : Fin 16) (stop : Bool) (ops : BitVec 23) (s : State) : Host.Outcome State Fault Refusal :=
  syllable 3 0x3A e stop ops s

/-- GCMENC (R514). -/
def execGcmenc (e : Fin 16) (stop : Bool) (ops : BitVec 23) (s : State) : Host.Outcome State Fault Refusal :=
  syllable 3 0x3B e stop ops s

/-- GCMDEC (R514). -/
def execGcmdec (e : Fin 16) (stop : Bool) (ops : BitVec 23) (s : State) : Host.Outcome State Fault Refusal :=
  syllable 3 0x3C e stop ops s

/-- GCMTAG (R514). -/
def execGcmtag (e : Fin 16) (stop : Bool) (ops : BitVec 23) (s : State) : Host.Outcome State Fault Refusal :=
  syllable 3 0x3D e stop ops s

end Sys2Proof.Machine
end

