-- ==== Sys2Proof/Machine/RowsHost.lean ====
section
/-!
DEFINITION. The meanings of the power, host-access, mailbox and doorbell rows.
-/
namespace Sys2Proof.Machine

/-- A master that reaches BAR0 and BAR1: the host, and on PCIe host-side DMA (R71). -/
def State.isHost (s : State) (m : Master) : Bool :=
  s.hostServed && (m == .host || (m == .dma && s.pwr.hifsel = 0))

/-- How the interface tells the host that a write failed (R59): BERR_N on the parallel bus, PREV_ERR on SPI, nothing over
PCIe. What these two show of a write that is served stands with the rows of their own cycles and transactions (R53, R55). -/
def State.storeFails (s : State) : State :=
  if s.pwr.hifsel = 1 then s.parEnd none true
  else if s.pwr.hifsel = 2 then s.updHif fun h => { h with spiPrevErr := true }
  else s

/-- A write to either window by such a master, or by the supervisor to an inbound buffer of an engine mailbox, which it
reaches directly (R65). -/
def State.hostStore (s : State) (m : Master) (win : Bool) (off : Nat) (bs : List (Option Byte)) : Host.Outcome State Fault Refusal :=
  let w := s.resolve m
  if s.isHost w then (if s.hostWriteFails win off bs then s.storeFails else s).hostWrite w win off bs
  else if w = .supv && s.live && !win && 0x5000 ≤ off && off + bs.length ≤ 0x9000 && (s.runErr off bs.length).isNone then
    s.bar0Piece .supv off bs
  else .next s

/-- A register of BAR0 written whole by the host. -/
def State.hostReg (s : State) (m : Master) (off : Nat) (v : W32) : Host.Outcome State Fault Refusal :=
  s.hostStore m false off (lanesOf v 15)

/-- A register of BAR0 read by the host or its DMA over the interface that the straps chose: on the parallel bus the low half,
which captures the register (R53); on SPI a READ0 of one word (R54, R55); over PCIe the completion, with its data or as a
Completer Abort (R59), stands in `rdata` and `rerr`. -/
def State.hostLoad (s : State) (m : Master) (off : Nat) : Host.Outcome State Fault Refusal :=
  if s.pwr.hifsel = 1 then .next (s.parRead false off false)
  else if s.pwr.hifsel = 2 then s.spiRead false (BitVec.ofNat 24 off) 0
  else
    let ((w, bad), t) := s.bar0Read m off
    .next (t.updHif fun h => { h with rdata := [w], rerr := bad })

/-- The lock a master reads: through BAR0, through the engine map, or directly (R68, R82). -/
def State.acquire (s : State) (m : Master) (l : Fin 24) : Host.Outcome State Fault Refusal :=
  match s.resolve m with
  | .eng e =>
    if 8 ≤ l.1 && clOf (finOf 16 (l.1 - 8)) == clOf e then
      s.engineTouch e (BitVec.ofNat 32 (0x70001000 + 4 * ((l.1 - 8) % 4)))
    else .next s
  | .supv => .next (if s.lockReach .supv l then (s.lockRead .supv l).2 else s)
  | .peer => .next (if s.lockReach .peer l then (s.lockRead .peer l).2 else s)
  | m => if s.isHost m then s.hostLoad m (0x400 + 4 * l.1) else .next s

/-- The lock a master writes (R69, R82). -/
def State.lockStore (s : State) (m : Master) (l : Fin 24) (v : W32) : Host.Outcome State Fault Refusal :=
  match m with
  | .eng e =>
    if 8 ≤ l.1 && clOf (finOf 16 (l.1 - 8)) == clOf e then
      s.engineStore e (BitVec.ofNat 32 (0x70001000 + 4 * ((l.1 - 8) % 4))) v
    else .next s
  | .supv => .next (if s.lockReach .supv l then s.lockWrite .supv l v else s)
  | .peer => .next (if s.lockReach .peer l then s.lockWrite .peer l v else s)
  | m => s.hostReg m (0x400 + 4 * l.1) v

/-- EMB_CMD as a master writes it (R65, R82). -/
def State.embStore (s : State) (m : Master) (e : Fin 16) (v : W32) : Host.Outcome State Fault Refusal :=
  match m with
  | .eng f =>
    if clOf e == clOf f then s.engineStore f (BitVec.ofNat 32 (0x70001030 + 4 * (e.1 % 4))) v else .next s
  | .supv => if s.live && s.embUp e then s.embCmd .supv e v else .next s
  | .peer => if s.live && s.embUp e then s.embCmd .peer e v else .next s
  | m => s.hostReg m (0x804 + 16 * e.1) v

/-- VIN_ON (R553). -/
def execVinOn (s : State) : Host.Outcome State Fault Refusal :=
  .next s.vinOn

/-- VIN_OFF (R553). -/
def execVinOff (s : State) : Host.Outcome State Fault Refusal :=
  .next s.vinOff

/-- VIN_OVLO (R553). -/
def execVinOvlo (s : State) : Host.Outcome State Fault Refusal :=
  .next s.vinOver

/-- VIN_OVLO_RELEASE (R553). -/
def execVinOvloRelease (s : State) : Host.Outcome State Fault Refusal :=
  .next s.vinOverEnd

/-- EFUSE_TRIP (R552). -/
def execEfuseTrip (s : State) : Host.Outcome State Fault Refusal :=
  .next s.efuseTrip

/-- EFUSE_RETRY (R552). -/
def execEfuseRetry (s : State) : Host.Outcome State Fault Refusal :=
  .next s.efuseRetry

/-- MATE_SETTLED (R579). -/
def execMateSettled (s : State) : Host.Outcome State Fault Refusal :=
  .next s.mateSettled

/-- MATE_BREAK (R579). -/
def execMateBreak (s : State) : Host.Outcome State Fault Refusal :=
  .next s.mateBreak

/-- RST_N_LOW (R564). -/
def execRstNLow (s : State) : Host.Outcome State Fault Refusal :=
  .next s.rstLow

/-- RESET_RELEASE (R567). -/
def execResetRelease (b : Boot) (s : State) : Host.Outcome State Fault Refusal :=
  .next (s.release b)

/-- SUP_WATCHDOG_RESET (R564). -/
def execSupWatchdogReset (s : State) : Host.Outcome State Fault Refusal :=
  .next s.supWatchdog

/-- SUP_LOCKSTEP (R564). -/
def execSupLockstep (s : State) : Host.Outcome State Fault Refusal :=
  .next s.supLockstep

/-- WAKE_PIN (R556). -/
def execWakePin (s : State) : Host.Outcome State Fault Refusal :=
  .next (s.wakeBy 0)

/-- RTC_ALARM (R556). -/
def execRtcAlarm (s : State) : Host.Outcome State Fault Refusal :=
  .next s.rtcDue

/-- PERST_N (R44). -/
def execPerstN (s : State) : Host.Outcome State Fault Refusal :=
  .next s.perst

/-- POWER_REQUEST (R559). -/
def execPowerRequest (s : State) : Host.Outcome State Fault Refusal :=
  done s.serveAll

/-- DOMAIN_POWER_UP_DONE (R558). -/
def execDomainPowerUpDone (d : Fin 12) (s : State) : Host.Outcome State Fault Refusal :=
  done (s.powerUpDone d)

/-- AVS_PERIOD (R561). -/
def execAvsPeriod (c : Fin 4) (margin : Nat) (s : State) : Host.Outcome State Fault Refusal :=
  .next (s.avsPeriod c margin)

/-- AVS_FAST_STEP (R561). -/
def execAvsFastStep (c : Fin 4) (s : State) : Host.Outcome State Fault Refusal :=
  done (s.avsFast c)

/-- RTC_CORRECT (R574). -/
def execRtcCorrect (correction : Int) (s : State) : Host.Outcome State Fault Refusal :=
  .next (s.rtcCorrect correction)

/-- HEARTBEAT_TICK (R46). -/
def execHeartbeatTick (s : State) : Host.Outcome State Fault Refusal :=
  .next s.heartbeat

/-- LOCK_ACQUIRE (R68). -/
def execLockAcquire (m : Master) (l : Fin 24) (others : List Master) (s : State) : Host.Outcome State Fault Refusal :=
  let w := lockWinner (s.resolve m) ((others.map s.resolve).filter fun x => s.lockReach x l)
  andThen (s.acquire w l) fun t => if w = s.resolve m then .next t else t.acquire m l

/-- LOCK_RELEASE (R69). -/
def execLockRelease (m : Master) (l : Fin 24) (v : W32) (s : State) : Host.Outcome State Fault Refusal :=
  s.lockStore m l v

/-- MB_INBOUND_POST (R62). -/
def execMbInboundPost (n : Fin 8) (s : State) : Host.Outcome State Fault Refusal :=
  s.hostReg .host 0x600 (bitAt 32 n.1 true)

/-- MB_OUTBOUND_RELEASE (R62). -/
def execMbOutboundRelease (n : Fin 8) (s : State) : Host.Outcome State Fault Refusal :=
  s.hostReg .host 0x600 (bitAt 32 (8 + n.1) true)

/-- OUTPUT_PUBLISH_RING (R119). -/
def execOutputPublishRing (c : Fin 4) (s : State) : Host.Outcome State Fault Refusal :=
  s.hostReg .host 0x600 (bitAt 32 (16 + c.1) true)

/-- DB_H2S_FUTURE_RING (R74). -/
def execDbH2sFutureRing (b : Fin 8) (s : State) : Host.Outcome State Fault Refusal :=
  s.hostReg .host 0x600 (bitAt 32 (24 + b.1) true)

/-- DB_S2H_CLEAR (R75). -/
def execDbS2hClear (v : W32) (s : State) : Host.Outcome State Fault Refusal :=
  s.hostReg .host 0x610 v

/-- DB_S2H_MASK_WRITE (R75). -/
def execDbS2hMaskWrite (v : W32) (s : State) : Host.Outcome State Fault Refusal :=
  s.hostReg .host 0x614 v

/-- ENG_DB_RING (R73). -/
def execEngDbRing (e : Fin 16) (s : State) : Host.Outcome State Fault Refusal :=
  s.hostReg .host (0x700 + 4 * e.1) (bitAt 32 31 (Vec.at s.emb e).wakeEn ||| 1)

/-- EMB_POST (R65). -/
def execEmbPost (m : Master) (e : Fin 16) (s : State) : Host.Outcome State Fault Refusal :=
  s.embStore m e 1

/-- EMB_IN_REL (R66). -/
def execEmbInRel (e : Fin 16) (s : State) : Host.Outcome State Fault Refusal :=
  s.embStore (.eng e) e 2

/-- EMB_OUT_POST (R66). -/
def execEmbOutPost (e : Fin 16) (s : State) : Host.Outcome State Fault Refusal :=
  s.embStore (.eng e) e 4

/-- EMB_OUT_REL (R66). -/
def execEmbOutRel (m : Master) (e : Fin 16) (s : State) : Host.Outcome State Fault Refusal :=
  s.embStore m e 8

/-- ENG_S2H_RING (R83). -/
def execEngS2hRing (e : Fin 16) (v : W32) (s : State) : Host.Outcome State Fault Refusal :=
  s.engineStore e 0x70001040 v

/-- HIF_STAT_WRITE (R46). -/
def execHifStatWrite (v : W32) (s : State) : Host.Outcome State Fault Refusal :=
  s.hostReg .host 0x1C v

/-- INT_STATUS_WRITE (R46). -/
def execIntStatusWrite (v : W32) (s : State) : Host.Outcome State Fault Refusal :=
  s.hostReg .host 0x100 v

/-- REGISTER_WRITE (R9). -/
def execRegisterWrite (w : RegWrite) (s : State) : Host.Outcome State Fault Refusal :=
  match w with
  | .bar0 m off lanes v => s.hostStore m false (off.toNat / 4 * 4) (lanesOf v lanes)
  | .engine e addr v => s.engineStore e addr v

/-- HOST_MEMORY_WRITE (R27). -/
def execHostMemoryWrite (m : Master) (win : Bool) (off : BitVec 23) (data : List (Option Byte)) (s : State) : Host.Outcome State Fault Refusal :=
  s.hostStore m win off.toNat data

/-- PAR_LOW_HALF_READ (R53). -/
def execParLowHalfRead (win : Bool) (off : BitVec 23) (s : State) : Host.Outcome State Fault Refusal :=
  done (s.parRead win off.toNat false)

/-- PAR_HIGH_HALF_READ (R53). -/
def execParHighHalfRead (win : Bool) (off : BitVec 23) (s : State) : Host.Outcome State Fault Refusal :=
  done (s.parRead win off.toNat true)

/-- PAR_LOW_HALF_WRITE (R53). -/
def execParLowHalfWrite (win : Bool) (off : BitVec 23) (lanes : BitVec 2) (v : W16) (s : State) : Host.Outcome State Fault Refusal :=
  s.parWrite win off.toNat false lanes v

/-- PAR_HIGH_HALF_WRITE (R53). -/
def execParHighHalfWrite (win : Bool) (off : BitVec 23) (lanes : BitVec 2) (v : W16) (s : State) : Host.Outcome State Fault Refusal :=
  s.parWrite win off.toNat true lanes v

/-- READ0 (R54). -/
def execRead0 (addr : BitVec 24) (count : BitVec 8) (s : State) : Host.Outcome State Fault Refusal :=
  s.spiRead false addr count

/-- READ1 (R54). -/
def execRead1 (addr : BitVec 24) (count : BitVec 8) (s : State) : Host.Outcome State Fault Refusal :=
  s.spiRead true addr count

/-- WRITE0 (R55). -/
def execWrite0 (drained : Bool) (addr : BitVec 24) (words : List W32) (s : State) : Host.Outcome State Fault Refusal :=
  s.spiWrite false drained addr words

/-- WRITE1 (R55). -/
def execWrite1 (drained : Bool) (addr : BitVec 24) (words : List W32) (s : State) : Host.Outcome State Fault Refusal :=
  s.spiWrite true drained addr words

/-- SPI_STATUS (R56). -/
def execSpiStatus (drained : Bool) (s : State) : Host.Outcome State Fault Refusal :=
  .next (s.spiStat drained)

/-- SPI_BAD_COMMAND (R57). -/
def execSpiBadCommand (b : Byte) (s : State) : Host.Outcome State Fault Refusal :=
  .next (s.spiBad b)

/-- SPI_CS_N_RISE (R57). -/
def execSpiCsNRise (w : SpiPhase) (s : State) : Host.Outcome State Fault Refusal :=
  .next (s.spiRise w)

/-- ACCESS_ABANDONED (R58). -/
def execAccessAbandoned (m : Master) (write : Bool) (off : BitVec 23) (s : State) : Host.Outcome State Fault Refusal :=
  .next (if s.isHost (s.resolve m) then s.abandoned write off.toNat else s)

/-- PCIE_LINK_UP (R80). -/
def execPcieLinkUp (s : State) : Host.Outcome State Fault Refusal :=
  .next s.pcieUp

/-- PCIE_CONFIG_WRITE (R71). -/
def execPcieConfigWrite (rid : W16) (r : PcieReg) (v : W64) (s : State) : Host.Outcome State Fault Refusal :=
  .next (s.pcieConfig rid r v)

end Sys2Proof.Machine
end

