-- ==== Sys2Proof/Machine/RowsPair.lean ====
section
/-!
DEFINITION. The meanings of the Aklos rows.
-/
namespace Sys2Proof.Machine

/-- AKLOS_SIGNAL_PRESENT (R308). -/
def execAklosSignalPresent (l : Fin 2) (s : State) : Host.Outcome State Fault Refusal :=
  done (s.akSignal l)

/-- AKLOS_LINK_UP (R308). -/
def execAklosLinkUp (l : Fin 2) (i : PeerInfo) (s : State) : Host.Outcome State Fault Refusal :=
  done (s.linkUp l i)

/-- AKLOS_LINK_DOWN (R308). -/
def execAklosLinkDown (l : Fin 2) (s : State) : Host.Outcome State Fault Refusal :=
  done (s.akDown l)

/-- BEAT_SEND (R310). -/
def execBeatSend (l : Fin 2) (s : State) : Host.Outcome State Fault Refusal :=
  done (s.beatSend l)

/-- AKLOS_BEAT (R309). -/
def execAklosBeat (l : Fin 2) (mpos : Fin 4) (state : Fin 6) (orphanMs : Nat) (count : Nat) (prefer : Bool) (crcOk : Bool) (s : State) : Host.Outcome State Fault Refusal :=
  done (s.received l crcOk fun s => s.beat l mpos state orphanMs count prefer)

/-- AKLOS_TIME_SEND (R227). -/
def execAklosTimeSend (l : Fin 2) (s : State) : Host.Outcome State Fault Refusal :=
  done (s.akTimeSend l)

/-- AKLOS_TIME (R227). -/
def execAklosTime (l : Fin 2) (off : W64) (at_ : W32) (master : Option (Fin 4)) (crcOk : Bool) (s : State) : Host.Outcome State Fault Refusal :=
  done (s.received l crcOk fun s => s.akTime l off at_ master)

/-- AKLOS_COPY (R324). -/
def execAklosCopy (l : Fin 2) (c : Fin 4) (cycle : W64) (block : Nat) (data : List Byte) (route : RouteCopy) (crcOk : Bool) (memErr : Bool) (s : State) : Host.Outcome State Fault Refusal :=
  done (if crcOk then s.receivedPair l true fun s => s.copyIn l c cycle block data route memErr else s.copyBad l c cycle block)

/-- COPY_BUDGET_END (R324). -/
def execCopyBudgetEnd (c : Fin 4) (s : State) : Host.Outcome State Fault Refusal :=
  done (s.copyEnd c)

/-- AKLOS_RELAY (R320). -/
def execAklosRelay (l : Fin 2) (c : Fin 4) (data : List Byte) (crcOk : Bool) (s : State) : Host.Outcome State Fault Refusal :=
  done (s.receivedPair l crcOk fun s => s.relayIn l c data)

/-- AKLOS_REPORT (R325). -/
def execAklosReport (l : Fin 2) (r : Report) (crcOk : Bool) (s : State) : Host.Outcome State Fault Refusal :=
  done (s.receivedPair l crcOk fun s => s.report r)

/-- REPORT_TIMEOUT (R325). -/
def execReportTimeout (c : Fin 4) (s : State) : Host.Outcome State Fault Refusal :=
  done (s.reportLate c)

/-- QUICK_CHECK_DONE (R328). -/
def execQuickCheckDone (pass : Bool) (s : State) : Host.Outcome State Fault Refusal :=
  done (s.quickOwnDone pass)

/-- QUICK_CHECK_TIMEOUT (R328). -/
def execQuickCheckTimeout (s : State) : Host.Outcome State Fault Refusal :=
  done s.quickLate

/-- AKLOS_PAIRCTL (R327). -/
def execAklosPairctl (l : Fin 2) (w : PairCtl) (crcOk : Bool) (s : State) : Host.Outcome State Fault Refusal :=
  done (s.receivedPair l crcOk fun s => s.pairCtlIn w)

/-- AKLOS_CMD (R113). -/
def execAklosCmd (l : Fin 2) (src : Fin 4) (num : BitVec 30) (cmd : W16) (m : Msg) (crcOk : Bool) (s : State) :
    Host.Outcome State Fault Refusal :=
  done (s.received l crcOk fun s => s.cmdIn src num cmd m)

/-- PROXY_RESPONSE (R113, R306). -/
def execProxyResponse (l : Fin 2) (src dst : Fin 4) (num : BitVec 30) (cmd tag status : W16) (detail : W32) (target : W16)
    (payload : List Byte) (crcOk : Bool) (s : State) : Host.Outcome State Fault Refusal :=
  done (s.received l crcOk fun s => s.memberAnswer
    { kind := (if cmd.toNat < 0xF000 then 1 else 2), src := src, dst := dst, num := num, code := cmd, tag := tag,
      status := status, detail := detail, target := target, payload := payload })

/-- PROXY_TIMEOUT (R114). -/
def execProxyTimeout (pos : Fin 4) (s : State) : Host.Outcome State Fault Refusal :=
  done (s.memberSilent pos)

/-- MIRROR_TIMEOUT (R426). -/
def execMirrorTimeout (s : State) : Host.Outcome State Fault Refusal :=
  done s.mirrorSilent

/-- AKLOS_BULK (R338). -/
def execAklosBulk (l : Fin 2) (b : BulkPlace) (data : List Byte) (crcOk : Bool) (s : State) : Host.Outcome State Fault Refusal :=
  done (s.receivedPair l crcOk fun s => s.bulkIn l b data)

/-- BULK_SYNC_DONE (R338). -/
def execBulkSyncDone (s : State) : Host.Outcome State Fault Refusal :=
  done s.bulkSynced

/-- AKLOS_IDENT (R306, R308, R337): it comes while the link trains or at its entry into UP. -/
def execAklosIdent (l : Fin 2) (serial : W64) (certOk : Bool) (crcOk : Bool) (s : State) : Host.Outcome State Fault Refusal :=
  done (if (Vec.at s.pair.links l).st = 0 then s else if !crcOk then s.crcError l else s.ident l serial certOk)

/-- PARTNER_PRESUMED_LOST (R326). -/
def execPartnerPresumedLost (s : State) : Host.Outcome State Fault Refusal :=
  done s.presumeLost

/-- LOSS_CHECK_INSTANT (R326). -/
def execLossCheckInstant (c : Fin 4) (s : State) : Host.Outcome State Fault Refusal :=
  done (s.lossCheck c)

/-- STANDBY_TAKE (R321). -/
def execStandbyTake (c : Fin 4) (s : State) : Host.Outcome State Fault Refusal :=
  done (s.standbyTake c)

/-- BUILD_DONE (R320). -/
def execBuildDone (e : Fin 16) (s : State) : Host.Outcome State Fault Refusal :=
  s.engineStore e 0x60000404 2

/-- STATE_DONE (R323). -/
def execStateDone (e : Fin 16) (s : State) : Host.Outcome State Fault Refusal :=
  s.engineStore e 0x60000404 1

end Sys2Proof.Machine
end

