-- ==== Sys2Proof/Machine/RowsPort.lean ====
section
/-!
DEFINITION. The meanings of the rows of ports, queues, Drumline and Tollgate.
-/
namespace Sys2Proof.Machine

end Sys2Proof.Machine

namespace Sys2Proof
open Sys2Proof.Machine

/-- A frame that passes the judgement of R289, as the receive path takes it. -/
def BranchIn.passed (a : BranchIn) : RxFrame :=
  { bytes := a.frame.bytes, fcs := a.frame.fcs, symErrs := a.frame.symErrs, asm := .whole, lineErrs := 0
    stamp := BitVec.ofNat 32 (a.frame.rx.toNat / 2 ^ 16), tfrac := BitVec.ofNat 2 (a.frame.rx.toNat / 2 ^ 14) }

/-- A frame or fragment as the Tollgate sees it on a branch port: its octets and the 64-bit stamp of its first bit. -/
def RxFrame.onBranch (f : RxFrame) (ns : W64) : DrumIn :=
  let rx : W64 := BitVec.ofInt 64 ((ns.toNat + (f.stamp - ns.setWidth 32).toInt) * 65536 + f.tfrac.toNat * 16384)
  { bytes := f.bytes, fcs := f.fcs, rx := rx, tx := rx, copies := [], symErrs := f.symErrs + f.lineErrs }

end Sys2Proof

namespace Sys2Proof.Machine

/-- A frame on a branch port of a hub: the Tollgate judges it, and what passes goes on to the receive path (R289). -/
def State.branchFrame (s : State) (c : Fin 4) (b : Fin 8) (p : Fin 12) (a : BranchIn) (f : RxFrame) : State :=
  let (t, on) := (s.arrived p).branchArrival c b p a
  if on then t.rxFrame p f else t.symbolErrs p a.frame.symErrs

/-- A frame that a port receives: on a branch port of a started hub it comes before the Tollgate first (R289). -/
def State.frameIn (s : State) (p : Fin 12) (f : RxFrame) : State :=
  match s.drumAt p with
  | some (c, .hub, .branch b) =>
    if !s.started c || !s.isUp p || f.asm = .begins then s.rxFrame p f
    else
      let more := match f.asm with
        | .more _ _ _ => true
        | _ => false
      s.branchFrame c b p (s.asBranch c p (f.onBranch s.ns) (!more && beAt f.bytes 12 2 = (Vec.at s.cl c).dl.etype)) f
  | _ => s.rxFrame p f

/-- LINK_UP (R144). -/
def execLinkUp (p : Fin 12) (r : LinkRes) (s : State) : Host.Outcome State Fault Refusal :=
  done (s.portLinkUp p r)

/-- LINK_LOSS (R145). -/
def execLinkLoss (p : Fin 12) (reason : Fin 16) (s : State) : Host.Outcome State Fault Refusal :=
  done (s.portLinkLoss p reason.1)

/-- TRAINING_RETRY (R136). -/
def execTrainingRetry (p : Fin 12) (noCommon : Bool) (s : State) : Host.Outcome State Fault Refusal :=
  done (s.trainingRetry p noCommon)

/-- SNR_LOW (R132). -/
def execSnrLow (p : Fin 12) (pair : Fin 4) (margin : W16) (s : State) : Host.Outcome State Fault Refusal :=
  done (s.snrLow p pair margin)

/-- IMPULSE_GUARD (R131). -/
def execImpulseGuard (p : Fin 12) (s : State) : Host.Outcome State Fault Refusal :=
  done (s.impulse p)

/-- PHY_FAULT (R124). -/
def execPhyFault (p : Fin 12) (s : State) : Host.Outcome State Fault Refusal :=
  done (s.phyFault p)

/-- PLCA_BEACON (R139). -/
def execPlcaBeacon (p : Fin 12) (energy : Bool) (s : State) : Host.Outcome State Fault Refusal :=
  done (s.plcaBeacon p energy)

/-- TRANSMIT_OPPORTUNITY_END (R139). -/
def execTransmitOpportunityEnd (p : Fin 12) (s : State) : Host.Outcome State Fault Refusal :=
  done (s.opportunityEnd p)

/-- BEACON_RECEIVED (R140). -/
def execBeaconReceived (p : Fin 12) (s : State) : Host.Outcome State Fault Refusal :=
  done (s.beaconIn p)

/-- BEACON_LOST (R140). -/
def execBeaconLost (p : Fin 12) (s : State) : Host.Outcome State Fault Refusal :=
  done (s.beaconLost p)

/-- PLCA_COLLISION (R142). -/
def execPlcaCollision (p : Fin 12) (s : State) : Host.Outcome State Fault Refusal :=
  done (s.plcaCollision p)

/-- LPI_ENTRY (R148). -/
def execLpiEntry (p : Fin 12) (s : State) : Host.Outcome State Fault Refusal :=
  done (s.lpiEnter p)

/-- LPI_SCHEDULED_WAKE (R150). -/
def execLpiScheduledWake (p : Fin 12) (s : State) : Host.Outcome State Fault Refusal :=
  done (s.lpiWake p)

/-- PARTNER_LPI (R152). -/
def execPartnerLpi (p : Fin 12) (line : PartnerLine) (s : State) : Host.Outcome State Fault Refusal :=
  done (s.partnerLpi p line)

/-- FRAME_RECEIVED (R156). -/
def execFrameReceived (p : Fin 12) (f : RxFrame) (s : State) : Host.Outcome State Fault Refusal :=
  s.tookFrom (s.frameIn p f).settle

/-- PAUSE_EXPIRY (R177). -/
def execPauseExpiry (p : Fin 12) (s : State) : Host.Outcome State Fault Refusal :=
  done (s.pauseEnd p)

/-- PAUSE_REPEAT (R178). -/
def execPauseRepeat (p : Fin 12) (s : State) : Host.Outcome State Fault Refusal :=
  done (s.pauseAgain p)

/-- PRP_ENTRY_AGE (R180). -/
def execPrpEntryAge (pair : Fin 2) (src : BitVec 48) (s : State) : Host.Outcome State Fault Refusal :=
  .next (s.prpAge pair src)

/-- PREEMPT_VERIFY (R172). -/
def execPreemptVerify (p : Fin 12) (ev : VerifyEv) (s : State) : Host.Outcome State Fault Refusal :=
  .next (s.verify p ev)

/-- TRANSMIT_SELECTION (R166). -/
def execTransmitSelection (p : Fin 12) (stamp : W64) (s : State) : Host.Outcome State Fault Refusal :=
  done (s.selectTx p stamp)

/-- LAUNCH_TIME_REACHED (R168). -/
def execLaunchTimeReached (p : Fin 12) (q : Fin 8) (s : State) : Host.Outcome State Fault Refusal :=
  .next (s.launch p q)

/-- GATE_ENTRY_END (R170). -/
def execGateEntryEnd (p : Fin 12) (s : State) : Host.Outcome State Fault Refusal :=
  .next (s.gateStep p)

/-- FRAME_TRANSMIT_END (R189). -/
def execFrameTransmitEnd (p : Fin 12) (memErr : Bool) (s : State) : Host.Outcome State Fault Refusal :=
  done ((if memErr then s.txMemErr p else s).txEnd p memErr)

/-- HQ_PUSH (R186). -/
def execHqPush (e : Fin 16) (h : Fin 256) (w3 : W32) (s : State) : Host.Outcome State Fault Refusal :=
  s.engineStore e (BitVec.ofNat 32 (0x4000000C + 0x40 * h.1)) w3

/-- HQ_POP (R186). -/
def execHqPop (e : Fin 16) (h : Fin 256) (s : State) : Host.Outcome State Fault Refusal :=
  s.engineTouch e (BitVec.ofNat 32 (0x40000010 + 0x40 * h.1))

/-- HQ_STAT_WRITE (R186). -/
def execHqStatWrite (e : Fin 16) (h : Fin 256) (v : W32) (s : State) : Host.Outcome State Fault Refusal :=
  s.engineStore e (BitVec.ofNat 32 (0x40000020 + 0x40 * h.1)) v

/-- QSEL_WRITE (R188). -/
def execQselWrite (e : Fin 16) (i : Fin 8) (v : W32) (s : State) : Host.Outcome State Fault Refusal :=
  s.engineStore e (BitVec.ofNat 32 (0x60000200 + 4 * i.1)) v

/-- DRUM_FRAME_RX (R238). -/
def execDrumFrameRx (p : Fin 12) (f : DrumIn) (s : State) : Host.Outcome State Fault Refusal :=
  done (s.drumFrame p f false)

/-- DRUM_FRAME_RETURN (R246). -/
def execDrumFrameReturn (p : Fin 12) (f : DrumIn) (s : State) : Host.Outcome State Fault Refusal :=
  done (s.drumFrame p f true)

/-- CLAIM_RX (R272). -/
def execClaimRx (p : Fin 12) (f : DrumIn) (s : State) : Host.Outcome State Fault Refusal :=
  done (s.drumFrame p f false)

/-- LISTEN_TIMEOUT (R273). -/
def execListenTimeout (c : Fin 4) (s : State) : Host.Outcome State Fault Refusal :=
  done (s.listenOut c)

/-- DL_ELECTED (R273). -/
def execDlElected (c : Fin 4) (s : State) : Host.Outcome State Fault Refusal :=
  done (s.elected c)

/-- MASTER_CLAIM (R273). -/
def execMasterClaim (c : Fin 4) (s : State) : Host.Outcome State Fault Refusal :=
  done (s.masterClaim c)

/-- DL_MASTER_LOST (R273). -/
def execDlMasterLost (c : Fin 4) (s : State) : Host.Outcome State Fault Refusal :=
  done (s.masterLost c)

/-- DL_WATCHDOG (R274). -/
def execDlWatchdog (c : Fin 4) (s : State) : Host.Outcome State Fault Refusal :=
  .next (s.dlWatchdog c)

/-- DL_CYCLE_MISMATCH (R274). -/
def execDlCycleMismatch (c : Fin 4) (s : State) : Host.Outcome State Fault Refusal :=
  done (s.cycleMismatch c)

/-- PROBE_TIMER (R261). -/
def execProbeTimer (p : Fin 12) (t1 : W64) (s : State) : Host.Outcome State Fault Refusal :=
  .next (s.probeSend p t1)

/-- PROBE_REQ_RX (R261). -/
def execProbeReqRx (p : Fin 12) (t2 : W64) (t3 : W64) (s : State) : Host.Outcome State Fault Refusal :=
  .next (s.probeAnswer p t2 t3)

/-- PROBE_RESP_RX (R261). -/
def execProbeRespRx (p : Fin 12) (t2 : W64) (t3 : W64) (t4 : W64) (s : State) : Host.Outcome State Fault Refusal :=
  .next (s.probeResult p t2 t3 t4)

/-- RETURN_RELEASE (R286). -/
def execReturnRelease (c : Fin 4) (f : Fin 4) (late : Bool) (s : State) : Host.Outcome State Fault Refusal :=
  done (s.returnRelease c f late)

/-- BRANCH_RETURN_ARRIVAL (R289). -/
def execBranchReturnArrival (p : Fin 12) (a : BranchIn) (s : State) : Host.Outcome State Fault Refusal :=
  match s.drumAt p with
  | some (c, .hub, .branch b) =>
    if !s.started c || !s.isUp p then .next s else s.tookFrom (s.branchFrame c b p a a.passed).settle
  | _ => .next s

/-- SLOT_WINDOW_CLOSE (R289). -/
def execSlotWindowClose (c : Fin 4) (b : Fin 8) (f : Fin 4) (arriving : Bool) (s : State) : Host.Outcome State Fault Refusal :=
  done (s.slotClose c b f arriving)

/-- MERGED_FRAME (R287). -/
def execMergedFrame (c : Fin 4) (f : Fin 4) (s : State) : Host.Outcome State Fault Refusal :=
  done (s.mergedFrame c f)

/-- ISOLATION_END (R292). -/
def execIsolationEnd (c : Fin 4) (b : Fin 8) (s : State) : Host.Outcome State Fault Refusal :=
  done (s.isolationEnd c b)

/-- PROBATION_END (R292). -/
def execProbationEnd (c : Fin 4) (b : Fin 8) (s : State) : Host.Outcome State Fault Refusal :=
  done (s.probationEnd c b)

end Sys2Proof.Machine
end

