-- ==== Sys2Proof/Machine/RowsUnit.lean ====
section
/-!
DEFINITION. The meanings of the rows of CAN channels, PIO engines and field I/O.
-/
namespace Sys2Proof.Machine

/-- What a load or a start leads to: a CAN FD frame while FD = 0 is an error of engine firmware, which may have pushed it under
FD = 1 (R360). -/
def State.canFits (s : State) (n : Fin 4) (fresh : Option (Fin 8)) (t : State) : Host.Outcome State Fault Refusal :=
  if !(Vec.at s.can n).fd && (fresh.bind fun b => Vec.at (Vec.at t.can n).tb b).any (fun x => x.desc.fdf) then .fault (s.fwError 3 n.1)
  else done t

/-- CAN_FRAME_VALID (R350). -/
def execCanFrameValid (n : Fin 4) (f : CanFrame) (s : State) : Host.Outcome State Fault Refusal :=
  s.tookFrom (s.canReceive n f).settle

/-- CAN_START_POINT (R353). -/
def execCanStartPoint (n : Fin 4) (s : State) : Host.Outcome State Fault Refusal :=
  let t := s.canStart n
  s.canFits n (if (Vec.at s.can n).onbus.isNone then (Vec.at t.can n).onbus else none) t

/-- CAN_ARBITRATION_LOST (R354). -/
def execCanArbitrationLost (n : Fin 4) (s : State) : Host.Outcome State Fault Refusal :=
  done (s.canArbLost n)

/-- CAN_FRAME_COMPLETE (R356). -/
def execCanFrameComplete (n : Fin 4) (stamp : W32) (tdcv : Option (BitVec 7)) (s : State) : Host.Outcome State Fault Refusal :=
  let t := s.canSent n stamp tdcv
  if (Vec.at s.can n).mode = 3 then s.tookFrom t.settle else done t

/-- CAN_ERROR (R361). -/
def execCanError (n : Fin 4) (x : CanErr) (s : State) : Host.Outcome State Fault Refusal :=
  done (s.canErr n x)

/-- CAN_RECOVERED (R363). -/
def execCanRecovered (n : Fin 4) (s : State) : Host.Outcome State Fault Refusal :=
  done (s.canRecover n)

/-- INTEGRATION_DONE (R343). -/
def execIntegrationDone (n : Fin 4) (s : State) : Host.Outcome State Fault Refusal :=
  done (s.canIntegrated n)

/-- PROTOCOL_EXCEPTION (R365). -/
def execProtocolException (n : Fin 4) (transmitter : Bool) (s : State) : Host.Outcome State Fault Refusal :=
  done (s.canException n transmitter)

/-- TX_BUFFER_LOAD (R352). -/
def execTxBufferLoad (n : Fin 4) (b : Fin 8) (memErr : Bool) (s : State) : Host.Outcome State Fault Refusal :=
  s.canFits n (if (Vec.at (Vec.at s.can n).tb b).isNone then some b else none) (s.canLoad n b memErr)

/-- CAN_LATE (R354). -/
def execCanLate (n : Fin 4) (b : Fin 8) (s : State) : Host.Outcome State Fault Refusal :=
  done (s.canLateEnd n b)

/-- CTXB_ABORT (R355). -/
def execCtxbAbort (e : Fin 16) (n : Fin 4) (mask : BitVec 8) (s : State) : Host.Outcome State Fault Refusal :=
  s.engineStore e (BitVec.ofNat 32 (0x4900000C + 0x100 * n.1)) (mask.setWidth 32)

/-- PIO_RUN (R369). -/
def execPioRun (e : Fin 16) (k : Fin 8) (start : Fin 48) (s : State) : Host.Outcome State Fault Refusal :=
  s.engineStore e (BitVec.ofNat 32 (0x4A000000 + 0x100 * k.1)) (bitAt 32 31 true ||| place start.1 0 6)

/-- RESTART (R387). -/
def execRestart (e : Fin 16) (k : Fin 8) (start : Fin 48) (s : State) : Host.Outcome State Fault Refusal :=
  s.engineStore e (BitVec.ofNat 32 (0x4A000000 + 0x100 * k.1))
    (bitAt 32 31 (Vec.at s.pio k).run ||| bitAt 32 30 true ||| place start.1 0 6)

/-- CLRTX (R385). -/
def execClrtx (e : Fin 16) (k : Fin 8) (s : State) : Host.Outcome State Fault Refusal :=
  s.engineStore e (BitVec.ofNat 32 (0x4A000000 + 0x100 * k.1)) ((Vec.at s.pio k).pctl ||| bitAt 32 29 true)

/-- CLRRX (R385). -/
def execClrrx (e : Fin 16) (k : Fin 8) (s : State) : Host.Outcome State Fault Refusal :=
  s.engineStore e (BitVec.ofNat 32 (0x4A000000 + 0x100 * k.1)) ((Vec.at s.pio k).pctl ||| bitAt 32 28 true)

/-- PTXQ_PUSH (R383). -/
def execPtxqPush (e : Fin 16) (k : Fin 8) (w : W32) (s : State) : Host.Outcome State Fault Refusal :=
  s.engineStore e (BitVec.ofNat 32 (0x4A000000 + 0x100 * k.1 + 8)) w

/-- PRXQ_POP (R383). -/
def execPrxqPop (e : Fin 16) (k : Fin 8) (s : State) : Host.Outcome State Fault Refusal :=
  s.engineTouch e (BitVec.ofNat 32 (0x4A000000 + 0x100 * k.1 + 12))

/-- PIMEM_WRITE (R386). -/
def execPimemWrite (e : Fin 16) (k : Fin 8) (i : Fin 48) (w : W32) (s : State) : Host.Outcome State Fault Refusal :=
  s.engineStore e (BitVec.ofNat 32 (0x4A000000 + 0x100 * k.1 + 0x40 + 4 * i.1)) w

/-- PIO_NOP (R375). -/
def execPioNop (k : Fin 8) (ops : BitVec 28) (ticks : List PinTick) (s : State) : Host.Outcome State Fault Refusal :=
  pioInstr k (pioWord 0 ops) ticks s

/-- XFER (R378). -/
def execXfer (k : Fin 8) (ops : BitVec 28) (ticks : List PinTick) (s : State) : Host.Outcome State Fault Refusal :=
  pioInstr k (pioWord 1 ops) ticks s

/-- PIO_LOAD (R375). -/
def execPioLoad (k : Fin 8) (ops : BitVec 28) (ticks : List PinTick) (s : State) : Host.Outcome State Fault Refusal :=
  pioInstr k (pioWord 2 ops) ticks s

/-- PIO_STORE (R375). -/
def execPioStore (k : Fin 8) (ops : BitVec 28) (ticks : List PinTick) (s : State) : Host.Outcome State Fault Refusal :=
  pioInstr k (pioWord 3 ops) ticks s

/-- WAITE (R375). -/
def execWaite (k : Fin 8) (ops : BitVec 28) (ticks : List PinTick) (s : State) : Host.Outcome State Fault Refusal :=
  pioInstr k (pioWord 4 ops) ticks s

/-- WAITT (R375). -/
def execWaitt (k : Fin 8) (ops : BitVec 28) (ticks : List PinTick) (s : State) : Host.Outcome State Fault Refusal :=
  pioInstr k (pioWord 5 ops) ticks s

/-- PIO_BR (R376). -/
def execPioBr (k : Fin 8) (ops : BitVec 28) (ticks : List PinTick) (s : State) : Host.Outcome State Fault Refusal :=
  pioInstr k (pioWord 6 ops) ticks s

/-- PINS (R375). -/
def execPins (k : Fin 8) (ops : BitVec 28) (ticks : List PinTick) (s : State) : Host.Outcome State Fault Refusal :=
  pioInstr k (pioWord 7 ops) ticks s

/-- LDC (R375). -/
def execLdc (k : Fin 8) (ops : BitVec 28) (ticks : List PinTick) (s : State) : Host.Outcome State Fault Refusal :=
  pioInstr k (pioWord 8 ops) ticks s

/-- SIG (R375). -/
def execSig (k : Fin 8) (ops : BitVec 28) (ticks : List PinTick) (s : State) : Host.Outcome State Fault Refusal :=
  pioInstr k (pioWord 9 ops) ticks s

/-- SRX (R375). -/
def execSrx (k : Fin 8) (ops : BitVec 28) (ticks : List PinTick) (s : State) : Host.Outcome State Fault Refusal :=
  pioInstr k (pioWord 10 ops) ticks s

/-- PIO_INVALID_FETCH (R377). -/
def execPioInvalidFetch (k : Fin 8) (w : W32) (s : State) : Host.Outcome State Fault Refusal :=
  if pioInvalid w then pioInstr k w [] s else .next s

/-- PIO_STALL_RELEASE (R379). -/
def execPioStallRelease (k : Fin 8) (ticks : List PinTick) (s : State) : Host.Outcome State Fault Refusal :=
  done (s.pioStall k ticks)

/-- DE_PIN_FALL (R381). -/
def execDePinFall (k : Fin 8) (s : State) : Host.Outcome State Fault Refusal :=
  .next (s.updPio k Pio.deFall)

/-- KEEP_ALIVE_SEND (R396). -/
def execKeepAliveSend (reach : BitVec 16) (s : State) : Host.Outcome State Fault Refusal :=
  done (s.fioKeepAlive reach)

/-- KEEP_ALIVE_MISSING (R396). -/
def execKeepAliveMissing (ch : Fin 16) (s : State) : Host.Outcome State Fault Refusal :=
  done (s.fioLost ch)

/-- CURRENT_LIMIT (R408). -/
def execCurrentLimit (d : Fin 8) (s : State) : Host.Outcome State Fault Refusal :=
  done (s.doLimit d)

/-- CURRENT_LIMIT_RELEASE (R407). -/
def execCurrentLimitRelease (d : Fin 8) (s : State) : Host.Outcome State Fault Refusal :=
  done (s.doUnlimit d)

/-- THERMAL_SHUTDOWN (R407). -/
def execThermalShutdown (d : Fin 8) (s : State) : Host.Outcome State Fault Refusal :=
  done (s.doTsd d)

/-- RETRY_TIMER (R407). -/
def execRetryTimer (d : Fin 8) (s : State) : Host.Outcome State Fault Refusal :=
  done (s.doRetry d)

/-- OVERLOAD_TIMER (R408). -/
def execOverloadTimer (d : Fin 8) (s : State) : Host.Outcome State Fault Refusal :=
  done (s.doOverload d)

/-- OVERLOAD_CLEAR (R408). -/
def execOverloadClear (d : Fin 8) (s : State) : Host.Outcome State Fault Refusal :=
  done (s.doOverloadClear d)

/-- LPLUS_LOW (R412). -/
def execLplusLow (mv : W16) (s : State) : Host.Outcome State Fault Refusal :=
  done (s.fioLow mv)

/-- LPLUS_UVLO (R412). -/
def execLplusUvlo (mv : W16) (s : State) : Host.Outcome State Fault Refusal :=
  done (s.fioUvlo mv)

/-- UVLO_RESTORE (R412). -/
def execUvloRestore (mv : W16) (s : State) : Host.Outcome State Fault Refusal :=
  done (s.fioUvloEnd mv)

/-- LPLUS_LOW_CLEAR (R412). -/
def execLplusLowClear (mv : W16) (s : State) : Host.Outcome State Fault Refusal :=
  done (s.fioLowEnd mv)

/-- READBACK_RESUME (R412). -/
def execReadbackResume (s : State) : Host.Outcome State Fault Refusal :=
  done s.fioResume

/-- FIO_OVERTEMP (R413). -/
def execFioOvertemp (s : State) : Host.Outcome State Fault Refusal :=
  done s.fioHot

/-- OVERTEMP_RECOVERY (R413). -/
def execOvertempRecovery (s : State) : Host.Outcome State Fault Refusal :=
  done s.fioCool

/-- READBACK_FAULT (R410). -/
def execReadbackFault (d : Fin 8) (rb : Bool) (s : State) : Host.Outcome State Fault Refusal :=
  done (s.rbMismatch d rb)

/-- FEEDBACK_CLEAR (R414). -/
def execFeedbackClear (d : Fin 8) (s : State) : Host.Outcome State Fault Refusal :=
  done (s.rbClear d)

/-- OPEN_LOAD (R410). -/
def execOpenLoad (d : Fin 8) (s : State) : Host.Outcome State Fault Refusal :=
  done (s.rbOpen d)

/-- OPEN_LOAD_CLEAR (R414). -/
def execOpenLoadClear (d : Fin 8) (s : State) : Host.Outcome State Fault Refusal :=
  done (s.doClear d fOpenLoad)

/-- DO_SUM_HIGH (R405). -/
def execDoSumHigh (s : State) : Host.Outcome State Fault Refusal :=
  done (s.fioSum true)

/-- DO_SUM_HIGH_CLEAR (R414). -/
def execDoSumHighClear (s : State) : Host.Outcome State Fault Refusal :=
  done (s.fioSum false)

/-- THRESHOLD_UPDATE (R400). -/
def execThresholdUpdate (mv : W16) (s : State) : Host.Outcome State Fault Refusal :=
  done (s.thresholds mv)

/-- DI_EDGE (R402). -/
def execDiEdge (d : Fin 8) (level : Bool) (stamp : W32) (s : State) : Host.Outcome State Fault Refusal :=
  done (s.diEdgeAt d level stamp)

/-- FREQ_GATE_END (R403): FGATE ends the gate of a host channel; a personality's gate ends at its drumbeats. -/
def execFreqGateEnd (d : Fin 8) (s : State) : Host.Outcome State Fault Refusal :=
  .next (if (Vec.at s.fio.di d).owner.isSome then s else s.updDi d Din.gateEnd)

/-- DI_COUNT_READ (R418). -/
def execDiCountRead (e : Fin 16) (d : Fin 8) (s : State) : Host.Outcome State Fault Refusal :=
  s.engineTouch e (BitVec.ofNat 32 (0x60000540 + 0x10 * d.1))

/-- ENG_WDT_WRITE (R492). -/
def execEngWdtWrite (e : Fin 16) (k : Fin 4) (v : W32) (s : State) : Host.Outcome State Fault Refusal :=
  s.engineStore e (BitVec.ofNat 32 (0x60000600 + 4 * k.1)) v

end Sys2Proof.Machine
end

