-- ==== Sys2Proof/Machine/Dispatch.lean ====
section
/-!
DEFINITION. The dispatch: one arm for each row of the table, one direct call of its meaning.
-/
namespace Sys2Proof.Machine

def exec (i : Instr) (s : State) : Host.Outcome State Fault Refusal :=
  match i with
  | .vinOn => Sys2Proof.Machine.execVinOn s
  | .vinOff => Sys2Proof.Machine.execVinOff s
  | .vinOvlo => Sys2Proof.Machine.execVinOvlo s
  | .efuseTrip => Sys2Proof.Machine.execEfuseTrip s
  | .mateSettled => Sys2Proof.Machine.execMateSettled s
  | .mateBreak => Sys2Proof.Machine.execMateBreak s
  | .rstNLow => Sys2Proof.Machine.execRstNLow s
  | .resetRelease b => Sys2Proof.Machine.execResetRelease b s
  | .supWatchdogReset => Sys2Proof.Machine.execSupWatchdogReset s
  | .supLockstep => Sys2Proof.Machine.execSupLockstep s
  | .wakePin => Sys2Proof.Machine.execWakePin s
  | .rtcAlarm => Sys2Proof.Machine.execRtcAlarm s
  | .perstN => Sys2Proof.Machine.execPerstN s
  | .powerRequest => Sys2Proof.Machine.execPowerRequest s
  | .domainPowerUpDone d => Sys2Proof.Machine.execDomainPowerUpDone d s
  | .avsPeriod c margin => Sys2Proof.Machine.execAvsPeriod c margin s
  | .avsFastStep c => Sys2Proof.Machine.execAvsFastStep c s
  | .rtcCorrect correction => Sys2Proof.Machine.execRtcCorrect correction s
  | .heartbeatTick => Sys2Proof.Machine.execHeartbeatTick s
  | .lockAcquire m l others => Sys2Proof.Machine.execLockAcquire m l others s
  | .lockRelease m l v => Sys2Proof.Machine.execLockRelease m l v s
  | .mbInboundPost n => Sys2Proof.Machine.execMbInboundPost n s
  | .mbOutboundRelease n => Sys2Proof.Machine.execMbOutboundRelease n s
  | .outputPublishRing c => Sys2Proof.Machine.execOutputPublishRing c s
  | .dbH2sFutureRing b => Sys2Proof.Machine.execDbH2sFutureRing b s
  | .dbS2hClear v => Sys2Proof.Machine.execDbS2hClear v s
  | .dbS2hMaskWrite v => Sys2Proof.Machine.execDbS2hMaskWrite v s
  | .engDbRing e => Sys2Proof.Machine.execEngDbRing e s
  | .embPost m e => Sys2Proof.Machine.execEmbPost m e s
  | .embInRel e => Sys2Proof.Machine.execEmbInRel e s
  | .embOutPost e => Sys2Proof.Machine.execEmbOutPost e s
  | .embOutRel m e => Sys2Proof.Machine.execEmbOutRel m e s
  | .engS2hRing e v => Sys2Proof.Machine.execEngS2hRing e v s
  | .hifStatWrite v => Sys2Proof.Machine.execHifStatWrite v s
  | .intStatusWrite v => Sys2Proof.Machine.execIntStatusWrite v s
  | .registerWrite w => Sys2Proof.Machine.execRegisterWrite w s
  | .parLowHalfRead win off => Sys2Proof.Machine.execParLowHalfRead win off s
  | .parHighHalfRead win off => Sys2Proof.Machine.execParHighHalfRead win off s
  | .parLowHalfWrite win off lanes v => Sys2Proof.Machine.execParLowHalfWrite win off lanes v s
  | .parHighHalfWrite win off lanes v => Sys2Proof.Machine.execParHighHalfWrite win off lanes v s
  | .read0 addr count => Sys2Proof.Machine.execRead0 addr count s
  | .read1 addr count => Sys2Proof.Machine.execRead1 addr count s
  | .write0 drained addr words => Sys2Proof.Machine.execWrite0 drained addr words s
  | .write1 drained addr words => Sys2Proof.Machine.execWrite1 drained addr words s
  | .spiStatus drained => Sys2Proof.Machine.execSpiStatus drained s
  | .spiBadCommand b => Sys2Proof.Machine.execSpiBadCommand b s
  | .spiCsNRise w => Sys2Proof.Machine.execSpiCsNRise w s
  | .accessAbandoned m write off => Sys2Proof.Machine.execAccessAbandoned m write off s
  | .openSession m => Sys2Proof.Machine.execOpenSession m s
  | .closeSession m => Sys2Proof.Machine.execCloseSession m s
  | .getInfo m => Sys2Proof.Machine.execGetInfo m s
  | .getCaps m => Sys2Proof.Machine.execGetCaps m s
  | .setPowerState m => Sys2Proof.Machine.execSetPowerState m s
  | .resetObject m => Sys2Proof.Machine.execResetObject m s
  | .loadCmd m => Sys2Proof.Machine.execLoadCmd m s
  | .loadCustom m => Sys2Proof.Machine.execLoadCustom m s
  | .loadJobEnd c => Sys2Proof.Machine.execLoadJobEnd c s
  | .clusterResetJobEnd c copyDamaged => Sys2Proof.Machine.execClusterResetJobEnd c copyDamaged s
  | .startCmd m => Sys2Proof.Machine.execStartCmd m s
  | .stop m => Sys2Proof.Machine.execStop m s
  | .unload m => Sys2Proof.Machine.execUnload m s
  | .cycleConfig m => Sys2Proof.Machine.execCycleConfig m s
  | .portConfig m => Sys2Proof.Machine.execPortConfig m s
  | .portStatus m => Sys2Proof.Machine.execPortStatus m s
  | .cableTest m => Sys2Proof.Machine.execCableTest m s
  | .cableTestEnd p results => Sys2Proof.Machine.execCableTestEnd p results s
  | .queueMap m => Sys2Proof.Machine.execQueueMap m s
  | .gateList m => Sys2Proof.Machine.execGateList m s
  | .preemptConfig m => Sys2Proof.Machine.execPreemptConfig m s
  | .piDefine m => Sys2Proof.Machine.execPiDefine m s
  | .piMap m => Sys2Proof.Machine.execPiMap m s
  | .piCommit m => Sys2Proof.Machine.execPiCommit m s
  | .timeConfig m => Sys2Proof.Machine.execTimeConfig m s
  | .timeGet m => Sys2Proof.Machine.execTimeGet m s
  | .timeAcceptJump m => Sys2Proof.Machine.execTimeAcceptJump m s
  | .syncPinConfig m => Sys2Proof.Machine.execSyncPinConfig m s
  | .dlConfig m => Sys2Proof.Machine.execDlConfig m s
  | .routeLoad m => Sys2Proof.Machine.execRouteLoad m s
  | .routeSwitch m => Sys2Proof.Machine.execRouteSwitch m s
  | .routeSwitchJobEnd c => Sys2Proof.Machine.execRouteSwitchJobEnd c s
  | .dlTopology m => Sys2Proof.Machine.execDlTopology m s
  | .tollgateConfig m => Sys2Proof.Machine.execTollgateConfig m s
  | .pairConfig m => Sys2Proof.Machine.execPairConfig m s
  | .pairApprove m => Sys2Proof.Machine.execPairApprove m s
  | .pairStatus m => Sys2Proof.Machine.execPairStatus m s
  | .pairSwitch m => Sys2Proof.Machine.execPairSwitch m s
  | .pairSwitchJobEnd => Sys2Proof.Machine.execPairSwitchJobEnd s
  | .groupConfig m => Sys2Proof.Machine.execGroupConfig m s
  | .canConfig m => Sys2Proof.Machine.execCanConfig m s
  | .canStatus m => Sys2Proof.Machine.execCanStatus m s
  | .canFilter m => Sys2Proof.Machine.execCanFilter m s
  | .canAbort m => Sys2Proof.Machine.execCanAbort m s
  | .pioConfig m => Sys2Proof.Machine.execPioConfig m s
  | .pioProgram m => Sys2Proof.Machine.execPioProgram m s
  | .pioStatus m => Sys2Proof.Machine.execPioStatus m s
  | .fioConfig m => Sys2Proof.Machine.execFioConfig m s
  | .diConfig m => Sys2Proof.Machine.execDiConfig m s
  | .doConfig m => Sys2Proof.Machine.execDoConfig m s
  | .doSet m => Sys2Proof.Machine.execDoSet m s
  | .fioStatus m currents terminals => Sys2Proof.Machine.execFioStatus m currents terminals s
  | .statsConfig m => Sys2Proof.Machine.execStatsConfig m s
  | .logConfig m => Sys2Proof.Machine.execLogConfig m s
  | .logRead m => Sys2Proof.Machine.execLogRead m s
  | .selftest m => Sys2Proof.Machine.execSelftest m s
  | .selftestJobEnd job fail item addr slices => Sys2Proof.Machine.execSelftestJobEnd job fail item addr slices s
  | .healthGet m x => Sys2Proof.Machine.execHealthGet m x s
  | .getIdentity m => Sys2Proof.Machine.execGetIdentity m s
  | .attest m => Sys2Proof.Machine.execAttest m s
  | .attestJobEnd => Sys2Proof.Machine.execAttestJobEnd s
  | .unassignedCommand code m => Sys2Proof.Machine.execUnassignedCommand code m s
  | .notificationPost n => Sys2Proof.Machine.execNotificationPost n s
  | .pairStatePeriodic => Sys2Proof.Machine.execPairStatePeriodic s
  | .drumbeat c merged inputs terminals => Sys2Proof.Machine.execDrumbeat c merged inputs terminals s
  | .piTake c => Sys2Proof.Machine.execPiTake c s
  | .inDone e => Sys2Proof.Machine.execInDone e s
  | .piHostStale c => Sys2Proof.Machine.execPiHostStale c s
  | .moduleStatsPeriod => Sys2Proof.Machine.execModuleStatsPeriod s
  | .selftestSlice w => Sys2Proof.Machine.execSelftestSlice w s
  | .calStarved p => Sys2Proof.Machine.execCalStarved p s
  | .memStarve w code word => Sys2Proof.Machine.execMemStarve w code word s
  | .tsmpPost e v => Sys2Proof.Machine.execTsmpPost e v s
  | .servoSampleTaken c => Sys2Proof.Machine.execServoSampleTaken c s
  | .srcTimeout => Sys2Proof.Machine.execSrcTimeout s
  | .slewEnd => Sys2Proof.Machine.execSlewEnd s
  | .stepHoldEnd => Sys2Proof.Machine.execStepHoldEnd s
  | .milestoneFire e arm => Sys2Proof.Machine.execMilestoneFire e arm s
  | .syncInEdge rising ns frac => Sys2Proof.Machine.execSyncInEdge rising ns frac s
  | .syncOutPulse ix => Sys2Proof.Machine.execSyncOutPulse ix s
  | .tnsRead e => Sys2Proof.Machine.execTnsRead e s
  | .syncinNsRead e => Sys2Proof.Machine.execSyncinNsRead e s
  | .linkUp p r => Sys2Proof.Machine.execLinkUp p r s
  | .linkLoss p reason => Sys2Proof.Machine.execLinkLoss p reason s
  | .trainingRetry p noCommon => Sys2Proof.Machine.execTrainingRetry p noCommon s
  | .snrLow p pair margin => Sys2Proof.Machine.execSnrLow p pair margin s
  | .impulseGuard p => Sys2Proof.Machine.execImpulseGuard p s
  | .phyFault p => Sys2Proof.Machine.execPhyFault p s
  | .plcaBeacon p energy => Sys2Proof.Machine.execPlcaBeacon p energy s
  | .transmitOpportunityEnd p => Sys2Proof.Machine.execTransmitOpportunityEnd p s
  | .beaconReceived p => Sys2Proof.Machine.execBeaconReceived p s
  | .beaconLost p => Sys2Proof.Machine.execBeaconLost p s
  | .plcaCollision p => Sys2Proof.Machine.execPlcaCollision p s
  | .lpiEntry p => Sys2Proof.Machine.execLpiEntry p s
  | .lpiScheduledWake p => Sys2Proof.Machine.execLpiScheduledWake p s
  | .partnerLpi p line => Sys2Proof.Machine.execPartnerLpi p line s
  | .frameReceived p f => Sys2Proof.Machine.execFrameReceived p f s
  | .pauseExpiry p => Sys2Proof.Machine.execPauseExpiry p s
  | .pauseRepeat p => Sys2Proof.Machine.execPauseRepeat p s
  | .prpEntryAge pair src => Sys2Proof.Machine.execPrpEntryAge pair src s
  | .preemptVerify p ev => Sys2Proof.Machine.execPreemptVerify p ev s
  | .transmitSelection p stamp => Sys2Proof.Machine.execTransmitSelection p stamp s
  | .launchTimeReached p q => Sys2Proof.Machine.execLaunchTimeReached p q s
  | .gateEntryEnd p => Sys2Proof.Machine.execGateEntryEnd p s
  | .frameTransmitEnd p memErr => Sys2Proof.Machine.execFrameTransmitEnd p memErr s
  | .hqPush e h w3 => Sys2Proof.Machine.execHqPush e h w3 s
  | .hqPop e h => Sys2Proof.Machine.execHqPop e h s
  | .hqStatWrite e h v => Sys2Proof.Machine.execHqStatWrite e h v s
  | .qselWrite e ix v => Sys2Proof.Machine.execQselWrite e ix v s
  | .drumFrameRx p f => Sys2Proof.Machine.execDrumFrameRx p f s
  | .drumFrameReturn p f => Sys2Proof.Machine.execDrumFrameReturn p f s
  | .claimRx p f => Sys2Proof.Machine.execClaimRx p f s
  | .listenTimeout c => Sys2Proof.Machine.execListenTimeout c s
  | .dlElected c => Sys2Proof.Machine.execDlElected c s
  | .masterClaim c => Sys2Proof.Machine.execMasterClaim c s
  | .dlMasterLost c => Sys2Proof.Machine.execDlMasterLost c s
  | .dlWatchdog c => Sys2Proof.Machine.execDlWatchdog c s
  | .dlCycleMismatch c => Sys2Proof.Machine.execDlCycleMismatch c s
  | .probeTimer p t1 => Sys2Proof.Machine.execProbeTimer p t1 s
  | .probeReqRx p t2 t3 => Sys2Proof.Machine.execProbeReqRx p t2 t3 s
  | .probeRespRx p t2 t3 t4 => Sys2Proof.Machine.execProbeRespRx p t2 t3 t4 s
  | .returnRelease c f late => Sys2Proof.Machine.execReturnRelease c f late s
  | .branchReturnArrival p a => Sys2Proof.Machine.execBranchReturnArrival p a s
  | .slotWindowClose c b f arriving => Sys2Proof.Machine.execSlotWindowClose c b f arriving s
  | .mergedFrame c f => Sys2Proof.Machine.execMergedFrame c f s
  | .isolationEnd c b => Sys2Proof.Machine.execIsolationEnd c b s
  | .probationEnd c b => Sys2Proof.Machine.execProbationEnd c b s
  | .aklosSignalPresent l => Sys2Proof.Machine.execAklosSignalPresent l s
  | .aklosLinkUp l ix => Sys2Proof.Machine.execAklosLinkUp l ix s
  | .aklosLinkDown l => Sys2Proof.Machine.execAklosLinkDown l s
  | .beatSend l => Sys2Proof.Machine.execBeatSend l s
  | .aklosBeat l mpos state orphanMs count prefer crcOk => Sys2Proof.Machine.execAklosBeat l mpos state orphanMs count prefer crcOk s
  | .aklosTimeSend l => Sys2Proof.Machine.execAklosTimeSend l s
  | .aklosTime l off at_ master crcOk => Sys2Proof.Machine.execAklosTime l off at_ master crcOk s
  | .aklosCopy l c cycle block data route crcOk memErr => Sys2Proof.Machine.execAklosCopy l c cycle block data route crcOk memErr s
  | .copyBudgetEnd c => Sys2Proof.Machine.execCopyBudgetEnd c s
  | .aklosRelay l c data crcOk => Sys2Proof.Machine.execAklosRelay l c data crcOk s
  | .aklosReport l r crcOk => Sys2Proof.Machine.execAklosReport l r crcOk s
  | .reportTimeout c => Sys2Proof.Machine.execReportTimeout c s
  | .quickCheckDone pass => Sys2Proof.Machine.execQuickCheckDone pass s
  | .quickCheckTimeout => Sys2Proof.Machine.execQuickCheckTimeout s
  | .aklosPairctl l w crcOk => Sys2Proof.Machine.execAklosPairctl l w crcOk s
  | .aklosCmd l src num cmd m crcOk => Sys2Proof.Machine.execAklosCmd l src num cmd m crcOk s
  | .proxyResponse l src dst num cmd tag status detail target payload crcOk => Sys2Proof.Machine.execProxyResponse l src dst num cmd tag status detail target payload crcOk s
  | .proxyTimeout pos => Sys2Proof.Machine.execProxyTimeout pos s
  | .mirrorTimeout => Sys2Proof.Machine.execMirrorTimeout s
  | .aklosBulk l b data crcOk => Sys2Proof.Machine.execAklosBulk l b data crcOk s
  | .bulkSyncDone => Sys2Proof.Machine.execBulkSyncDone s
  | .aklosIdent l serial certOk crcOk => Sys2Proof.Machine.execAklosIdent l serial certOk crcOk s
  | .partnerPresumedLost => Sys2Proof.Machine.execPartnerPresumedLost s
  | .lossCheckInstant c => Sys2Proof.Machine.execLossCheckInstant c s
  | .standbyTake c => Sys2Proof.Machine.execStandbyTake c s
  | .buildDone e => Sys2Proof.Machine.execBuildDone e s
  | .stateDone e => Sys2Proof.Machine.execStateDone e s
  | .checkMismatch c pair supplied => Sys2Proof.Machine.execCheckMismatch c pair supplied s
  | .canFrameValid n f => Sys2Proof.Machine.execCanFrameValid n f s
  | .canStartPoint n => Sys2Proof.Machine.execCanStartPoint n s
  | .canArbitrationLost n => Sys2Proof.Machine.execCanArbitrationLost n s
  | .canFrameComplete n stamp tdcv => Sys2Proof.Machine.execCanFrameComplete n stamp tdcv s
  | .canError n x => Sys2Proof.Machine.execCanError n x s
  | .canRecovered n => Sys2Proof.Machine.execCanRecovered n s
  | .integrationDone n => Sys2Proof.Machine.execIntegrationDone n s
  | .protocolException n transmitter => Sys2Proof.Machine.execProtocolException n transmitter s
  | .txBufferLoad n b memErr => Sys2Proof.Machine.execTxBufferLoad n b memErr s
  | .canLate n b => Sys2Proof.Machine.execCanLate n b s
  | .ctxbAbort e n mask => Sys2Proof.Machine.execCtxbAbort e n mask s
  | .pioRun e k start => Sys2Proof.Machine.execPioRun e k start s
  | .restart e k start => Sys2Proof.Machine.execRestart e k start s
  | .clrtx e k => Sys2Proof.Machine.execClrtx e k s
  | .clrrx e k => Sys2Proof.Machine.execClrrx e k s
  | .ptxqPush e k w => Sys2Proof.Machine.execPtxqPush e k w s
  | .prxqPop e k => Sys2Proof.Machine.execPrxqPop e k s
  | .pimemWrite e k ix w => Sys2Proof.Machine.execPimemWrite e k ix w s
  | .pioNop k ops ticks => Sys2Proof.Machine.execPioNop k ops ticks s
  | .xfer k ops ticks => Sys2Proof.Machine.execXfer k ops ticks s
  | .pioLoad k ops ticks => Sys2Proof.Machine.execPioLoad k ops ticks s
  | .pioStore k ops ticks => Sys2Proof.Machine.execPioStore k ops ticks s
  | .waite k ops ticks => Sys2Proof.Machine.execWaite k ops ticks s
  | .waitt k ops ticks => Sys2Proof.Machine.execWaitt k ops ticks s
  | .pioBr k ops ticks => Sys2Proof.Machine.execPioBr k ops ticks s
  | .pins k ops ticks => Sys2Proof.Machine.execPins k ops ticks s
  | .ldc k ops ticks => Sys2Proof.Machine.execLdc k ops ticks s
  | .sig k ops ticks => Sys2Proof.Machine.execSig k ops ticks s
  | .srx k ops ticks => Sys2Proof.Machine.execSrx k ops ticks s
  | .pioInvalidFetch k w => Sys2Proof.Machine.execPioInvalidFetch k w s
  | .pioStallRelease k ticks => Sys2Proof.Machine.execPioStallRelease k ticks s
  | .keepAliveSend reach => Sys2Proof.Machine.execKeepAliveSend reach s
  | .keepAliveMissing ch => Sys2Proof.Machine.execKeepAliveMissing ch s
  | .currentLimit d => Sys2Proof.Machine.execCurrentLimit d s
  | .thermalShutdown d => Sys2Proof.Machine.execThermalShutdown d s
  | .retryTimer d => Sys2Proof.Machine.execRetryTimer d s
  | .overloadTimer d => Sys2Proof.Machine.execOverloadTimer d s
  | .lplusLow mv => Sys2Proof.Machine.execLplusLow mv s
  | .lplusUvlo mv => Sys2Proof.Machine.execLplusUvlo mv s
  | .uvloRestore mv => Sys2Proof.Machine.execUvloRestore mv s
  | .lplusLowClear mv => Sys2Proof.Machine.execLplusLowClear mv s
  | .readbackResume => Sys2Proof.Machine.execReadbackResume s
  | .fioOvertemp => Sys2Proof.Machine.execFioOvertemp s
  | .overtempRecovery => Sys2Proof.Machine.execOvertempRecovery s
  | .readbackFault d rb => Sys2Proof.Machine.execReadbackFault d rb s
  | .feedbackClear d => Sys2Proof.Machine.execFeedbackClear d s
  | .openLoad d => Sys2Proof.Machine.execOpenLoad d s
  | .doSumHigh => Sys2Proof.Machine.execDoSumHigh s
  | .thresholdUpdate mv => Sys2Proof.Machine.execThresholdUpdate mv s
  | .diEdge d level stamp => Sys2Proof.Machine.execDiEdge d level stamp s
  | .freqGateEnd d => Sys2Proof.Machine.execFreqGateEnd d s
  | .diCountRead e d => Sys2Proof.Machine.execDiCountRead e d s
  | .engWdtWrite e k v => Sys2Proof.Machine.execEngWdtWrite e k v s
  | .watchdogTimeout e => Sys2Proof.Machine.execWatchdogTimeout e s
  | .loadEccError e pc resume addr after => Sys2Proof.Machine.execLoadEccError e pc resume addr after s
  | .coprocComplete e => Sys2Proof.Machine.execCoprocComplete e s
  | .adda e stop ops => Sys2Proof.Machine.execAdda e stop ops s
  | .suba e stop ops => Sys2Proof.Machine.execSuba e stop ops s
  | .addai e stop ops => Sys2Proof.Machine.execAddai e stop ops s
  | .addad e stop ops => Sys2Proof.Machine.execAddad e stop ops s
  | .lha e stop ops => Sys2Proof.Machine.execLha e stop ops s
  | .lla e stop ops => Sys2Proof.Machine.execLla e stop ops s
  | .ldb e stop ops => Sys2Proof.Machine.execLdb e stop ops s
  | .ldbu e stop ops => Sys2Proof.Machine.execLdbu e stop ops s
  | .ldh e stop ops => Sys2Proof.Machine.execLdh e stop ops s
  | .ldhu e stop ops => Sys2Proof.Machine.execLdhu e stop ops s
  | .ldw e stop ops => Sys2Proof.Machine.execLdw e stop ops s
  | .ldd e stop ops => Sys2Proof.Machine.execLdd e stop ops s
  | .lda e stop ops => Sys2Proof.Machine.execLda e stop ops s
  | .ldhr e stop ops => Sys2Proof.Machine.execLdhr e stop ops s
  | .ldwr e stop ops => Sys2Proof.Machine.execLdwr e stop ops s
  | .stb e stop ops => Sys2Proof.Machine.execStb e stop ops s
  | .sth e stop ops => Sys2Proof.Machine.execSth e stop ops s
  | .stw e stop ops => Sys2Proof.Machine.execStw e stop ops s
  | .std e stop ops => Sys2Proof.Machine.execStd e stop ops s
  | .sta e stop ops => Sys2Proof.Machine.execSta e stop ops s
  | .add e stop ops => Sys2Proof.Machine.execAdd e stop ops s
  | .sub e stop ops => Sys2Proof.Machine.execSub e stop ops s
  | .andD e stop ops => Sys2Proof.Machine.execAndD e stop ops s
  | .orD e stop ops => Sys2Proof.Machine.execOrD e stop ops s
  | .xorD e stop ops => Sys2Proof.Machine.execXorD e stop ops s
  | .andn e stop ops => Sys2Proof.Machine.execAndn e stop ops s
  | .shl e stop ops => Sys2Proof.Machine.execShl e stop ops s
  | .shr e stop ops => Sys2Proof.Machine.execShr e stop ops s
  | .sar e stop ops => Sys2Proof.Machine.execSar e stop ops s
  | .ror e stop ops => Sys2Proof.Machine.execRor e stop ops s
  | .minD e stop ops => Sys2Proof.Machine.execMinD e stop ops s
  | .maxD e stop ops => Sys2Proof.Machine.execMaxD e stop ops s
  | .minu e stop ops => Sys2Proof.Machine.execMinu e stop ops s
  | .maxu e stop ops => Sys2Proof.Machine.execMaxu e stop ops s
  | .adds e stop ops => Sys2Proof.Machine.execAdds e stop ops s
  | .subs e stop ops => Sys2Proof.Machine.execSubs e stop ops s
  | .addi e stop ops => Sys2Proof.Machine.execAddi e stop ops s
  | .andi e stop ops => Sys2Proof.Machine.execAndi e stop ops s
  | .ori e stop ops => Sys2Proof.Machine.execOri e stop ops s
  | .xori e stop ops => Sys2Proof.Machine.execXori e stop ops s
  | .shli e stop ops => Sys2Proof.Machine.execShli e stop ops s
  | .shri e stop ops => Sys2Proof.Machine.execShri e stop ops s
  | .sari e stop ops => Sys2Proof.Machine.execSari e stop ops s
  | .rori e stop ops => Sys2Proof.Machine.execRori e stop ops s
  | .cmp e stop ops => Sys2Proof.Machine.execCmp e stop ops s
  | .cmpi e stop ops => Sys2Proof.Machine.execCmpi e stop ops s
  | .movi e stop ops => Sys2Proof.Machine.execMovi e stop ops s
  | .lhi e stop ops => Sys2Proof.Machine.execLhi e stop ops s
  | .lli e stop ops => Sys2Proof.Machine.execLli e stop ops s
  | .extu e stop ops => Sys2Proof.Machine.execExtu e stop ops s
  | .exts e stop ops => Sys2Proof.Machine.execExts e stop ops s
  | .ins e stop ops => Sys2Proof.Machine.execIns e stop ops s
  | .clz e stop ops => Sys2Proof.Machine.execClz e stop ops s
  | .popc e stop ops => Sys2Proof.Machine.execPopc e stop ops s
  | .bswap e stop ops => Sys2Proof.Machine.execBswap e stop ops s
  | .bswaph e stop ops => Sys2Proof.Machine.execBswaph e stop ops s
  | .absD e stop ops => Sys2Proof.Machine.execAbsD e stop ops s
  | .neg e stop ops => Sys2Proof.Machine.execNeg e stop ops s
  | .mul e stop ops => Sys2Proof.Machine.execMul e stop ops s
  | .mulh e stop ops => Sys2Proof.Machine.execMulh e stop ops s
  | .mulhu e stop ops => Sys2Proof.Machine.execMulhu e stop ops s
  | .mac e stop ops => Sys2Proof.Machine.execMac e stop ops s
  | .macu e stop ops => Sys2Proof.Machine.execMacu e stop ops s
  | .msu e stop ops => Sys2Proof.Machine.execMsu e stop ops s
  | .acclr e stop ops => Sys2Proof.Machine.execAcclr e stop ops s
  | .acld e stop ops => Sys2Proof.Machine.execAcld e stop ops s
  | .acext e stop ops => Sys2Proof.Machine.execAcext e stop ops s
  | .movad e stop ops => Sys2Proof.Machine.execMovad e stop ops s
  | .movda e stop ops => Sys2Proof.Machine.execMovda e stop ops s
  | .movd e stop ops => Sys2Proof.Machine.execMovd e stop ops s
  | .mova e stop ops => Sys2Proof.Machine.execMova e stop ops s
  | .sel e stop ops => Sys2Proof.Machine.execSel e stop ops s
  | .qpush e stop ops => Sys2Proof.Machine.execQpush e stop ops s
  | .qpop e stop ops => Sys2Proof.Machine.execQpop e stop ops s
  | .qstat e stop ops => Sys2Proof.Machine.execQstat e stop ops s
  | .b e stop ops => Sys2Proof.Machine.execB e stop ops s
  | .bdz e stop ops => Sys2Proof.Machine.execBdz e stop ops s
  | .bdnz e stop ops => Sys2Proof.Machine.execBdnz e stop ops s
  | .dbnz e stop ops => Sys2Proof.Machine.execDbnz e stop ops s
  | .call e stop ops => Sys2Proof.Machine.execCall e stop ops s
  | .callr e stop ops => Sys2Proof.Machine.execCallr e stop ops s
  | .jr e stop ops => Sys2Proof.Machine.execJr e stop ops s
  | .ret e stop ops => Sys2Proof.Machine.execRet e stop ops s
  | .rte e stop ops => Sys2Proof.Machine.execRte e stop ops s
  | .rpt e stop ops => Sys2Proof.Machine.execRpt e stop ops s
  | .wfe e stop ops => Sys2Proof.Machine.execWfe e stop ops s
  | .mwait e stop ops => Sys2Proof.Machine.execMwait e stop ops s
  | .sev e stop ops => Sys2Proof.Machine.execSev e stop ops s
  | .sevr e stop ops => Sys2Proof.Machine.execSevr e stop ops s
  | .fence e stop ops => Sys2Proof.Machine.execFence e stop ops s
  | .brk e stop ops => Sys2Proof.Machine.execBrk e stop ops s
  | .mfs e stop ops => Sys2Proof.Machine.execMfs e stop ops s
  | .mts e stop ops => Sys2Proof.Machine.execMts e stop ops s
  | .crcset e stop ops => Sys2Proof.Machine.execCrcset e stop ops s
  | .crcm e stop ops => Sys2Proof.Machine.execCrcm e stop ops s
  | .crcw e stop ops => Sys2Proof.Machine.execCrcw e stop ops s
  | .csum e stop ops => Sys2Proof.Machine.execCsum e stop ops s
  | .stuff e stop ops => Sys2Proof.Machine.execStuff e stop ops s
  | .unstuff e stop ops => Sys2Proof.Machine.execUnstuff e stop ops s
  | .fext e stop ops => Sys2Proof.Machine.execFext e stop ops s
  | .fins e stop ops => Sys2Proof.Machine.execFins e stop ops s
  | .gcmkey e stop ops => Sys2Proof.Machine.execGcmkey e stop ops s
  | .gcmiv e stop ops => Sys2Proof.Machine.execGcmiv e stop ops s
  | .gcmaad e stop ops => Sys2Proof.Machine.execGcmaad e stop ops s
  | .gcmenc e stop ops => Sys2Proof.Machine.execGcmenc e stop ops s
  | .gcmdec e stop ops => Sys2Proof.Machine.execGcmdec e stop ops s
  | .gcmtag e stop ops => Sys2Proof.Machine.execGcmtag e stop ops s
  | .efuseRetry => Sys2Proof.Machine.execEfuseRetry s
  | .vinOvloRelease => Sys2Proof.Machine.execVinOvloRelease s
  | .pcieLinkUp => Sys2Proof.Machine.execPcieLinkUp s
  | .pcieConfigWrite rid r v => Sys2Proof.Machine.execPcieConfigWrite rid r v s
  | .hostMemoryWrite m win off data => Sys2Proof.Machine.execHostMemoryWrite m win off data s
  | .dePinFall k => Sys2Proof.Machine.execDePinFall k s
  | .currentLimitRelease d => Sys2Proof.Machine.execCurrentLimitRelease d s
  | .overloadClear d => Sys2Proof.Machine.execOverloadClear d s
  | .openLoadClear d => Sys2Proof.Machine.execOpenLoadClear d s
  | .doSumHighClear => Sys2Proof.Machine.execDoSumHighClear s
  | .imemDmemScrub e dmem word uncorr => Sys2Proof.Machine.execImemDmemScrub e dmem word uncorr s

end Sys2Proof.Machine
end

