-- ==== Sys2Proof/Machine/Idle.lean ====
section
/-!
DEFINITION. What a step does on an empty queue: one period of CK_TIME passes (log 1).
-/
namespace Sys2Proof.Machine

/-- The RTC advances by 2 ns while AON has supply. -/
def Power.rtcTick (p : Power) : Power := { p with rtc := p.rtc + 2 }

/-- What one period brings the ports: their receiver loops adapt (R130, R137), pauses run (R177), and a drum window that opens
holds a preemptable frame (R255). -/
def State.portsTick (s : State) : State :=
  s.each (n := 12) fun s p => ((s.loopTick p).pauseTick p).windowHold p

/-- What one period brings the CAN controllers (R363, R367). -/
def State.cansTick (s : State) : State := s.each (n := 4) fun s n => s.canTick n

/-- What one period brings the PIO engines: an edge of CK_PIO every 5 ns (R368, R373, R386). -/
def State.piosTick (s : State) : State :=
  if s.ns.toNat % 5 < 2 then s.each (n := 8) fun s k => s.updPio k Pio.cycle else s

/-- What one period brings the engines: their watchdogs count (R492). -/
def State.enginesTick (s : State) : State := s.each (n := 16) fun s e => s.wdtTick e

/-- An RTC alarm that is due wakes the module from a low-power state (R556, R557). -/
def State.alarmTick (s : State) : State :=
  match s.pwr.rtcAlarm with
  | some a => if a ≤ s.pwr.rtc then s.rtcDue else s
  | none => s

/-- The timebase advances by one increment (R199) while the module runs or stands by, with what falls due (R203, R221, R222,
R229, R233), the ports, the CAN controllers, the PIO engines and the
engines; the RTC while AON has supply. -/
def idle (s : State) : State :=
  match s.pwr.phase with
  | .noPower => s
  | .ramping => s
  | .run => s.timeTick.portsTick.cansTick.piosTick.enginesTick.updPwr Power.rtcTick
  | .standby => (s.timeTick.portsTick.cansTick.piosTick.enginesTick.updPwr Power.rtcTick).alarmTick
  | .inReset => s.updPwr Power.rtcTick
  | .hibernate => (s.updPwr Power.rtcTick).alarmTick
  | .startFault => s.updPwr Power.rtcTick

end Sys2Proof.Machine
end

