-- ==== Sys2Proof/Safety.lean ====
section
/-!
DEFINITION. What a run of the block is, when a command agrees with the memories it stands for, and the words in which
the statements speak of engines: when a bundle of one syllable issues, and what every issue does besides its slots.
-/
namespace Sys2Proof

open Sys2Proof.Machine in
/-- The engine, stop bit and syllable that an engine instruction row brings (R470); none for every other row. -/
def Instr.syl : Instr → Option (Fin 16 × Bool × Syl)
  | .adda e p o => some (e, p, (0, 0x00, o))
  | .suba e p o => some (e, p, (0, 0x01, o))
  | .addai e p o => some (e, p, (0, 0x02, o))
  | .addad e p o => some (e, p, (0, 0x03, o))
  | .lha e p o => some (e, p, (0, 0x04, o))
  | .lla e p o => some (e, p, (0, 0x05, o))
  | .ldb e p o => some (e, p, (0, 0x10, o))
  | .ldbu e p o => some (e, p, (0, 0x11, o))
  | .ldh e p o => some (e, p, (0, 0x12, o))
  | .ldhu e p o => some (e, p, (0, 0x13, o))
  | .ldw e p o => some (e, p, (0, 0x14, o))
  | .ldd e p o => some (e, p, (0, 0x15, o))
  | .lda e p o => some (e, p, (0, 0x16, o))
  | .ldhr e p o => some (e, p, (0, 0x17, o))
  | .ldwr e p o => some (e, p, (0, 0x18, o))
  | .stb e p o => some (e, p, (0, 0x20, o))
  | .sth e p o => some (e, p, (0, 0x21, o))
  | .stw e p o => some (e, p, (0, 0x22, o))
  | .std e p o => some (e, p, (0, 0x23, o))
  | .sta e p o => some (e, p, (0, 0x24, o))
  | .add e p o => some (e, p, (1, 0x00, o))
  | .sub e p o => some (e, p, (1, 0x01, o))
  | .andD e p o => some (e, p, (1, 0x02, o))
  | .orD e p o => some (e, p, (1, 0x03, o))
  | .xorD e p o => some (e, p, (1, 0x04, o))
  | .andn e p o => some (e, p, (1, 0x05, o))
  | .shl e p o => some (e, p, (1, 0x06, o))
  | .shr e p o => some (e, p, (1, 0x07, o))
  | .sar e p o => some (e, p, (1, 0x08, o))
  | .ror e p o => some (e, p, (1, 0x09, o))
  | .minD e p o => some (e, p, (1, 0x0A, o))
  | .maxD e p o => some (e, p, (1, 0x0B, o))
  | .minu e p o => some (e, p, (1, 0x0C, o))
  | .maxu e p o => some (e, p, (1, 0x0D, o))
  | .adds e p o => some (e, p, (1, 0x0E, o))
  | .subs e p o => some (e, p, (1, 0x0F, o))
  | .addi e p o => some (e, p, (1, 0x10, o))
  | .andi e p o => some (e, p, (1, 0x11, o))
  | .ori e p o => some (e, p, (1, 0x12, o))
  | .xori e p o => some (e, p, (1, 0x13, o))
  | .shli e p o => some (e, p, (1, 0x14, o))
  | .shri e p o => some (e, p, (1, 0x15, o))
  | .sari e p o => some (e, p, (1, 0x16, o))
  | .rori e p o => some (e, p, (1, 0x17, o))
  | .cmp e p o => some (e, p, (1, 0x18, o))
  | .cmpi e p o => some (e, p, (1, 0x19, o))
  | .movi e p o => some (e, p, (1, 0x1A, o))
  | .lhi e p o => some (e, p, (1, 0x1B, o))
  | .lli e p o => some (e, p, (1, 0x1C, o))
  | .extu e p o => some (e, p, (1, 0x1D, o))
  | .exts e p o => some (e, p, (1, 0x1E, o))
  | .ins e p o => some (e, p, (1, 0x1F, o))
  | .clz e p o => some (e, p, (1, 0x20, o))
  | .popc e p o => some (e, p, (1, 0x21, o))
  | .bswap e p o => some (e, p, (1, 0x22, o))
  | .bswaph e p o => some (e, p, (1, 0x23, o))
  | .absD e p o => some (e, p, (1, 0x24, o))
  | .neg e p o => some (e, p, (1, 0x25, o))
  | .mul e p o => some (e, p, (1, 0x28, o))
  | .mulh e p o => some (e, p, (1, 0x29, o))
  | .mulhu e p o => some (e, p, (1, 0x2A, o))
  | .mac e p o => some (e, p, (1, 0x30, o))
  | .macu e p o => some (e, p, (1, 0x31, o))
  | .msu e p o => some (e, p, (1, 0x32, o))
  | .acclr e p o => some (e, p, (1, 0x33, o))
  | .acld e p o => some (e, p, (1, 0x34, o))
  | .acext e p o => some (e, p, (1, 0x35, o))
  | .movad e p o => some (e, p, (2, 0x00, o))
  | .movda e p o => some (e, p, (2, 0x01, o))
  | .movd e p o => some (e, p, (2, 0x02, o))
  | .mova e p o => some (e, p, (2, 0x03, o))
  | .sel e p o => some (e, p, (2, 0x04, o))
  | .qpush e p o => some (e, p, (2, 0x10, o))
  | .qpop e p o => some (e, p, (2, 0x11, o))
  | .qstat e p o => some (e, p, (2, 0x12, o))
  | .b e p o => some (e, p, (3, 0x00, o))
  | .bdz e p o => some (e, p, (3, 0x01, o))
  | .bdnz e p o => some (e, p, (3, 0x02, o))
  | .dbnz e p o => some (e, p, (3, 0x03, o))
  | .call e p o => some (e, p, (3, 0x04, o))
  | .callr e p o => some (e, p, (3, 0x05, o))
  | .jr e p o => some (e, p, (3, 0x06, o))
  | .ret e p o => some (e, p, (3, 0x07, o))
  | .rte e p o => some (e, p, (3, 0x08, o))
  | .rpt e p o => some (e, p, (3, 0x09, o))
  | .wfe e p o => some (e, p, (3, 0x0A, o))
  | .mwait e p o => some (e, p, (3, 0x0B, o))
  | .sev e p o => some (e, p, (3, 0x0C, o))
  | .sevr e p o => some (e, p, (3, 0x0D, o))
  | .fence e p o => some (e, p, (3, 0x0E, o))
  | .brk e p o => some (e, p, (3, 0x0F, o))
  | .mfs e p o => some (e, p, (3, 0x10, o))
  | .mts e p o => some (e, p, (3, 0x11, o))
  | .crcset e p o => some (e, p, (3, 0x30, o))
  | .crcm e p o => some (e, p, (3, 0x31, o))
  | .crcw e p o => some (e, p, (3, 0x32, o))
  | .csum e p o => some (e, p, (3, 0x33, o))
  | .stuff e p o => some (e, p, (3, 0x34, o))
  | .unstuff e p o => some (e, p, (3, 0x35, o))
  | .fext e p o => some (e, p, (3, 0x36, o))
  | .fins e p o => some (e, p, (3, 0x37, o))
  | .gcmkey e p o => some (e, p, (3, 0x38, o))
  | .gcmiv e p o => some (e, p, (3, 0x39, o))
  | .gcmaad e p o => some (e, p, (3, 0x3A, o))
  | .gcmenc e p o => some (e, p, (3, 0x3B, o))
  | .gcmdec e p o => some (e, p, (3, 0x3C, o))
  | .gcmtag e p o => some (e, p, (3, 0x3D, o))
  | _ => none

open Sys2Proof.Machine in
/-- The PIO engine and word that a PIO instruction row brings (R374); none for every other row. -/
def Instr.pioRow : Instr → Option (Fin 8 × W32)
  | .pioNop k o _ => some (k, pioWord 0 o)
  | .xfer k o _ => some (k, pioWord 1 o)
  | .pioLoad k o _ => some (k, pioWord 2 o)
  | .pioStore k o _ => some (k, pioWord 3 o)
  | .waite k o _ => some (k, pioWord 4 o)
  | .waitt k o _ => some (k, pioWord 5 o)
  | .pioBr k o _ => some (k, pioWord 6 o)
  | .pins k o _ => some (k, pioWord 7 o)
  | .ldc k o _ => some (k, pioWord 8 o)
  | .sig k o _ => some (k, pioWord 9 o)
  | .srx k o _ => some (k, pioWord 10 o)
  | _ => none

/-- The message that a Sundom command row takes (R87); none for every other row. -/
def Instr.msg : Instr → Option Msg
  | .openSession m => some m
  | .closeSession m => some m
  | .getInfo m => some m
  | .getCaps m => some m
  | .setPowerState m => some m
  | .resetObject m => some m
  | .loadCmd m => some m
  | .loadCustom m => some m
  | .startCmd m => some m
  | .stop m => some m
  | .unload m => some m
  | .cycleConfig m => some m
  | .portConfig m => some m
  | .portStatus m => some m
  | .cableTest m => some m
  | .queueMap m => some m
  | .gateList m => some m
  | .preemptConfig m => some m
  | .piDefine m => some m
  | .piMap m => some m
  | .piCommit m => some m
  | .timeConfig m => some m
  | .timeGet m => some m
  | .timeAcceptJump m => some m
  | .syncPinConfig m => some m
  | .dlConfig m => some m
  | .routeLoad m => some m
  | .routeSwitch m => some m
  | .dlTopology m => some m
  | .tollgateConfig m => some m
  | .pairConfig m => some m
  | .pairApprove m => some m
  | .pairStatus m => some m
  | .pairSwitch m => some m
  | .groupConfig m => some m
  | .canConfig m => some m
  | .canStatus m => some m
  | .canFilter m => some m
  | .canAbort m => some m
  | .pioConfig m => some m
  | .pioProgram m => some m
  | .pioStatus m => some m
  | .fioConfig m => some m
  | .diConfig m => some m
  | .doConfig m => some m
  | .doSet m => some m
  | .fioStatus m _ _ => some m
  | .statsConfig m => some m
  | .logConfig m => some m
  | .logRead m => some m
  | .selftest m => some m
  | .healthGet m _ => some m
  | .getIdentity m => some m
  | .attest m => some m
  | .unassignedCommand _ m => some m
  | _ => none

end Sys2Proof

namespace Sys2Proof.Machine

/-! ### Runs -/

/-- `n` steps lead from one state to another, none of them stopping. -/
inductive Steps : Nat → State → State → Prop where
  | refl (s : State) : Steps 0 s s
  | next {n : Nat} {s t u : State} : Steps n s t → step t = .next u → Steps (n + 1) s u

/-- A run of `n` steps from a state never stops: the host and the firmware of its engines keep the rules of the spec. -/
def SafeRun (n : Nat) (s : State) : Prop := ∃ t, Steps n s t

/-- An engine's syllable row brings the word of IMEM that the engine fetches next (R470). -/
def Fetched (s : State) (i : Instr) : Prop :=
  ∀ e stop y, i.syl = some (e, stop, y) →
    let g := Vec.at s.eng e
    memWord g.imem (g.pc.toNat + 4 * g.fetched.length) = Syl.word y stop

/-- A command agrees with the memories that it stands for: an engine's syllable is the word of IMEM that the engine
fetches next (R470), a PIO instruction the word of PIMEM at the program counter (R369), a Sundom command the oldest
message taken on its channel (R98). Commands of other kinds come from outside the module and agree always. -/
def Coherent (s : State) (i : Instr) : Prop :=
  Fetched s i ∧
  (∀ k w, i.pioRow = some (k, w) → Vec.atD (Vec.at s.pio k).pimem (Vec.at s.pio k).pc.toNat 0 = w) ∧
  (∀ m, i.msg = some m → (s.waiting m.chan).head?.map (fun bs => (msgOf m.chan bs).2) = some m)

/-- No memory of the module lists an octet twice, out of order, or at the value that an unlisted address reads as. -/
def MemoryCanonical (s : State) : Prop := memWf s.shm = true

/-! ### Engines -/

/-- Engine `e` fetches (it is out of reset, not waiting, and no checker), stands at the start of a bundle with no
repetition and no coprocessor operation outstanding, and a bundle of one syllable at its program counter lies in sound
words of IMEM with another word after it (R465, R470–R472, R481, R485, R507). -/
structure EngineReady (s : State) (e : Fin 16) : Prop where
  run : (Vec.at s.eng e).run = true
  awake : (Vec.at s.eng e).wait = .none
  own : s.checker e = false
  first : (Vec.at s.eng e).fetched = []
  once : (Vec.at s.eng e).rcnt = 0
  free : (Vec.at s.eng e).cop = none
  room : (Vec.at s.eng e).pc.toNat + 4 < imemSize
  clean : (Vec.at s.eng e).badI.contains ((Vec.at s.eng e).pc.toNat / 8) = false

/-- The record of the last three bundles' loads (R487) after a bundle that writes the registers `ws` and brings the load
record `l`. -/
def Engine.loadsAfter (g : Engine) (ws : List Nat) (l : LoadRec) : List LoadRec :=
  l :: (g.loads.map fun r => { r with old := r.old.map (List.filter fun x => !ws.contains x.1) }).take 2

/-- A bundle without a load. -/
def Engine.noLoad (g : Engine) : LoadRec := { pc := g.pc, addr := 0, old := none }

/-- What the issue of a bundle of one syllable, of no branch and no load, does besides its slot: the program counter
moves on by 4, and the record of loads by one bundle that writes `ws`. -/
def Engine.advance (g : Engine) (ws : List Nat) : Engine :=
  { g with pc := g.pc + 4, loads := g.loadsAfter ws g.noLoad }

/-- SR with Z, N, C and V replaced (R468). -/
def setNzcv (sr : W32) (z n c v : Bool) : W32 :=
  (sr &&& 0xFFFFFFF0) ||| bitAt 32 0 z ||| bitAt 32 1 n ||| bitAt 32 2 c ||| bitAt 32 3 v

/-- SR with SATS set where `b` holds (R497). -/
def setSats (sr : W32) (b : Bool) : W32 := if b then sr ||| 0x80 else sr

end Sys2Proof.Machine
end

