-- ==== Sys2Proof/Certificates/Slice0/Obligations.lean ====
section
/-!
DEFINITION. The statements about the block, for the provers: each `Obligations.<Name>` is a proposition, each
`Sys2Proof.Claim.<name>` a notion that the statements share. A docstring names the rules of spec/ that a statement
formalises, and says what in it is the model's own choice.
-/
namespace Sys2Proof.Claim
end Sys2Proof.Claim
open Sys2Proof Sys2Proof.Machine Sys2Proof.Claim

/-! ### The D unit -/

/-- The operation of format R3 with two sources that `mk` names (R495, R501): in a bundle of its own it writes Dd with
`val`, moves past the bundle and, with F = 1, sets Z and N from the result, C to `c` and V to `v`; `sat` sets SATS
whatever F holds (R497). Nothing else of the module changes. -/
def Sys2Proof.Claim.r3Clause (mk : Fin 16 → Bool → BitVec 23 → Instr) (val : W32 → W32 → W32) (c v : W32 → W32 → Flags → Bool)
    (sat : W32 → W32 → Bool) (ws : BitVec 23 → List Nat) : Prop :=
  ∀ (s : State) (e : Fin 16) (o : BitVec 23), EngineReady s e → Fetched s (mk e true o) → fld o 0 7 = 0 →
    exec (mk e true o) s = .next (State.settle (s.updEng e fun g =>
      let a := g.dAt (r2 o)
      let b := g.dAt (r3 o)
      let f := flagsOf g.sr
      let sr := if o.getLsbD 7 then setNzcv g.sr (val a b == 0) (val a b).msb (c a b f) (v a b f) else g.sr
      ({ g with d := Vec.updN g.d (r1 o) fun _ => val a b, sr := setSats sr (sat a b) } : Engine).advance (ws o)))

/-- Registers that an R3 syllable of the D unit writes: Dd, and SR with F = 1. -/
def Sys2Proof.Claim.wsR3 (o : BitVec 23) : List Nat := regD (r1 o) :: if o.getLsbD 7 then [regSp 2] else []
/-- Registers that a saturating R3 syllable writes: Dd and SR, whatever F holds (R497). -/
def Sys2Proof.Claim.wsSat (o : BitVec 23) : List Nat := [regD (r1 o), regSp 2]

/-- The flag stays. -/
def Sys2Proof.Claim.keepC (_ _ : W32) (f : Flags) : Bool := f.c
def Sys2Proof.Claim.keepV (_ _ : W32) (f : Flags) : Bool := f.v
/-- Nothing saturates. -/
def Sys2Proof.Claim.noSat (_ _ : W32) : Bool := false
/-- A signed value lies outside 32 bits. -/
def Sys2Proof.Claim.outside32 (i : Int) : Bool := decide (i < -0x80000000 ∨ 0x7FFFFFFF < i)
/-- A signed value clamped to 32 bits. -/
def Sys2Proof.Claim.clamp32 (i : Int) : W32 := BitVec.ofInt 32 (max (-0x80000000) (min 0x7FFFFFFF i))

/-- The last bit shifted out of a shift by `k`, or the old flag for a shift of 0 (R497); `p` is the exact shifted value
before its last step in the direction of the shift. -/
def Sys2Proof.Claim.lastOut (k : Nat) (p : Bool) (f : Flags) : Bool := if k = 0 then f.c else p

/-- The operation of format I12 that `mk` names (R495, R501): as `r3Clause`, with the immediate for Dt and F at bit 12;
`ok` is what R496 asks of the immediate. -/
def Sys2Proof.Claim.i12Clause (mk : Fin 16 → Bool → BitVec 23 → Instr) (ok : Nat → Bool) (val : W32 → Nat → W32)
    (c v : W32 → Nat → Flags → Bool) : Prop :=
  ∀ (s : State) (e : Fin 16) (o : BitVec 23), EngineReady s e → Fetched s (mk e true o) → ok (fld o 0 12) →
    exec (mk e true o) s = .next (State.settle (s.updEng e fun g =>
      let a := g.dAt (r2 o)
      let k := fld o 0 12
      let f := flagsOf g.sr
      let sr := if o.getLsbD 12 then setNzcv g.sr (val a k == 0) (val a k).msb (c a k f) (v a k f) else g.sr
      ({ g with d := Vec.updN g.d (r1 o) fun _ => val a k, sr := sr } : Engine).advance
        (regD (r1 o) :: if o.getLsbD 12 then [regSp 2] else [])))

/-- A field of `w` bits read as a signed number. -/
def Sys2Proof.Claim.signedOf (w v : Nat) : Int := if v < 2 ^ (w - 1) then v else (v : Int) - 2 ^ w

/-- The shifts of R501 by Dt[5:0] (ROR: Dt[4:0]), as arithmetic on the exact value, with C the last bit shifted out.
Each operation of format I12 of R501, with the flags of R497. -/
def Obligations.AluShiftsAndImmediates : Prop :=
  (r3Clause .shl (fun a b => BitVec.ofNat 32 (a.toNat * 2 ^ (b.toNat % 64)))
    (fun a b f => lastOut (b.toNat % 64) ((a.toNat * 2 ^ (b.toNat % 64)).testBit 32) f) keepV noSat wsR3 ∧
  r3Clause .shr (fun a b => BitVec.ofNat 32 (a.toNat / 2 ^ (b.toNat % 64)))
    (fun a b f => lastOut (b.toNat % 64) (decide (a.toNat / 2 ^ (b.toNat % 64 - 1) % 2 = 1)) f) keepV noSat wsR3 ∧
  r3Clause .sar (fun a b => BitVec.ofInt 32 (a.toInt / 2 ^ (b.toNat % 64)))
    (fun a b f => lastOut (b.toNat % 64) (decide (a.toInt / 2 ^ (b.toNat % 64 - 1) % 2 = 1)) f) keepV noSat wsR3 ∧
  r3Clause .ror (fun a b => BitVec.ofNat 32 (a.toNat / 2 ^ (b.toNat % 32) + a.toNat * 2 ^ (32 - b.toNat % 32)))
    (fun a b f => lastOut (b.toNat % 32) (decide (a.toNat / 2 ^ (b.toNat % 32 - 1) % 2 = 1)) f) keepV noSat wsR3) ∧
  (i12Clause .addi (fun _ => true) (fun a k => BitVec.ofInt 32 (a.toInt + signedOf 12 k))
    (fun a k _ => decide (0x100000000 ≤ a.toNat + (BitVec.ofInt 32 (signedOf 12 k)).toNat))
    (fun a k _ => outside32 (a.toInt + signedOf 12 k)) ∧
  i12Clause .andi (fun _ => true) (fun a k => a &&& BitVec.ofNat 32 k) (fun _ _ f => f.c) (fun _ _ f => f.v) ∧
  i12Clause .ori (fun _ => true) (fun a k => a ||| BitVec.ofNat 32 k) (fun _ _ f => f.c) (fun _ _ f => f.v) ∧
  i12Clause .xori (fun _ => true) (fun a k => a ^^^ BitVec.ofNat 32 k) (fun _ _ f => f.c) (fun _ _ f => f.v) ∧
  i12Clause .shli (fun k => k < 32) (fun a k => BitVec.ofNat 32 (a.toNat * 2 ^ k))
    (fun a k f => lastOut k ((a.toNat * 2 ^ k).testBit 32) f) (fun _ _ f => f.v) ∧
  i12Clause .shri (fun k => k < 32) (fun a k => BitVec.ofNat 32 (a.toNat / 2 ^ k))
    (fun a k f => lastOut k (decide (a.toNat / 2 ^ (k - 1) % 2 = 1)) f) (fun _ _ f => f.v) ∧
  i12Clause .sari (fun k => k < 32) (fun a k => BitVec.ofInt 32 (a.toInt / 2 ^ k))
    (fun a k f => lastOut k (decide (a.toInt / 2 ^ (k - 1) % 2 = 1)) f) (fun _ _ f => f.v) ∧
  i12Clause .rori (fun k => k < 32) (fun a k => BitVec.ofNat 32 (a.toNat / 2 ^ k + a.toNat * 2 ^ (32 - k)))
    (fun a k f => lastOut k (decide (a.toNat / 2 ^ (k - 1) % 2 = 1)) f) (fun _ _ f => f.v))

/-- A syllable of any unit that, in a bundle of its own, has the effect `f` on its engine besides moving past the bundle
and writing the registers `ws`; nothing else of the module changes. `ok` is what R496 and the format ask of the
operands. -/
def Sys2Proof.Claim.engineClause (mk : Fin 16 → Bool → BitVec 23 → Instr) (ok : BitVec 23 → Bool) (ws : BitVec 23 → List Nat)
    (f : BitVec 23 → Engine → Engine) : Prop :=
  ∀ (s : State) (e : Fin 16) (o : BitVec 23), EngineReady s e → Fetched s (mk e true o) → ok o →
    exec (mk e true o) s = .next (State.settle (s.updEng e fun g => (f o g).advance (ws o)))

/-- A D-unit operation with one source in format R3, "t = 0": r3 and bits [6:0] reserved. -/
def Sys2Proof.Claim.oneClause (mk : Fin 16 → Bool → BitVec 23 → Instr) (val : W32 → W32) (c v : W32 → Flags → Bool)
    (sat : W32 → Bool) (ws : BitVec 23 → List Nat) : Prop :=
  engineClause mk (fun o => r3 o = 0 ∧ fld o 0 7 = 0) ws fun o g =>
    let a := g.dAt (r2 o)
    let f := flagsOf g.sr
    let sr := if o.getLsbD 7 then setNzcv g.sr (val a == 0) (val a).msb (c a f) (v a f) else g.sr
    { g with d := Vec.updN g.d (r1 o) fun _ => val a, sr := setSats sr (sat a) }

/-- Each two-source operation of R501 on the values of Ds and Dt, with the flags of R497: sums, differences and logic.
CLZ, POPC, BSWAP, BSWAPH, ABS and NEG (R501) with their flags (R497). -/
def Obligations.AluRegisterForms : Prop :=
  (r3Clause .add (fun a b => a + b) (fun a b _ => decide (0x100000000 ≤ a.toNat + b.toNat))
    (fun a b _ => outside32 (a.toInt + b.toInt)) noSat wsR3 ∧
  r3Clause .sub (fun a b => a - b) (fun a b _ => decide (b.toNat ≤ a.toNat))
    (fun a b _ => outside32 (a.toInt - b.toInt)) noSat wsR3 ∧
  r3Clause .andD (fun a b => a &&& b) keepC keepV noSat wsR3 ∧
  r3Clause .orD (fun a b => a ||| b) keepC keepV noSat wsR3 ∧
  r3Clause .xorD (fun a b => a ^^^ b) keepC keepV noSat wsR3 ∧
  r3Clause .andn (fun a b => a &&& ~~~b) keepC keepV noSat wsR3 ∧
  r3Clause .minD (fun a b => if b.toInt < a.toInt then b else a) keepC keepV noSat wsR3 ∧
  r3Clause .maxD (fun a b => if a.toInt < b.toInt then b else a) keepC keepV noSat wsR3 ∧
  r3Clause .minu (fun a b => BitVec.ofNat 32 (min a.toNat b.toNat)) keepC keepV noSat wsR3 ∧
  r3Clause .maxu (fun a b => BitVec.ofNat 32 (max a.toNat b.toNat)) keepC keepV noSat wsR3 ∧
  r3Clause .adds (fun a b => clamp32 (a.toInt + b.toInt)) keepC (fun a b _ => outside32 (a.toInt + b.toInt))
    (fun a b => outside32 (a.toInt + b.toInt)) wsSat ∧
  r3Clause .subs (fun a b => clamp32 (a.toInt - b.toInt)) keepC (fun a b _ => outside32 (a.toInt - b.toInt))
    (fun a b => outside32 (a.toInt - b.toInt)) wsSat ∧
  r3Clause .mul (fun a b => BitVec.ofNat 32 (a.toNat * b.toNat)) keepC keepV noSat wsR3 ∧
  r3Clause .mulh (fun a b => BitVec.ofInt 32 (a.toInt * b.toInt / 0x100000000)) keepC keepV noSat wsR3 ∧
  r3Clause .mulhu (fun a b => BitVec.ofNat 32 (a.toNat * b.toNat / 0x100000000)) keepC keepV noSat wsR3) ∧
  (oneClause .clz (fun a => BitVec.ofNat 32 (if a = 0 then 32 else 31 - a.toNat.log2)) (fun _ f => f.c) (fun _ f => f.v)
    (fun _ => false) wsR3 ∧
  oneClause .popc (fun a => BitVec.ofNat 32 ((List.range 32).countP fun i => a.getLsbD i)) (fun _ f => f.c)
    (fun _ f => f.v) (fun _ => false) wsR3 ∧
  oneClause .bswap (fun a => a.extractLsb' 0 8 ++ a.extractLsb' 8 8 ++ a.extractLsb' 16 8 ++ a.extractLsb' 24 8)
    (fun _ f => f.c) (fun _ f => f.v) (fun _ => false) wsR3 ∧
  oneClause .bswaph (fun a => a.extractLsb' 16 8 ++ a.extractLsb' 24 8 ++ a.extractLsb' 0 8 ++ a.extractLsb' 8 8)
    (fun _ f => f.c) (fun _ f => f.v) (fun _ => false) wsR3 ∧
  oneClause .absD (fun a => clamp32 (max a.toInt (-a.toInt))) (fun _ f => f.c)
    (fun a _ => decide (a = 0x80000000)) (fun a => decide (a = 0x80000000)) wsSat ∧
  oneClause .neg (fun a => 0 - a) (fun a _ => decide (a = 0)) (fun a _ => decide (a = 0x80000000)) (fun _ => false) wsR3)

/-- CMP, CMPI, the moves of immediates and the field operations (R501): a compare writes the flags of a difference and
no register; the others write Dd and no flag. -/
def Obligations.CompareMoveField : Prop :=
  engineClause .cmp (fun o => r1 o = 0 ∧ fld o 0 8 = 0) (fun _ => [regSp 2]) (fun o g =>
    let a := g.dAt (r2 o)
    let b := g.dAt (r3 o)
    { g with sr := setNzcv g.sr (a == b) (a - b).msb (decide (b.toNat ≤ a.toNat)) (outside32 (a.toInt - b.toInt)) }) ∧
  engineClause .cmpi (fun o => r1 o = 0 ∧ o.getLsbD 12 = false) (fun _ => [regSp 2]) (fun o g =>
    let a := g.dAt (r2 o)
    let b := BitVec.ofInt 32 (signedOf 12 (fld o 0 12))
    { g with sr := setNzcv g.sr (a == b) (a - b).msb (decide (b.toNat ≤ a.toNat)) (outside32 (a.toInt - b.toInt)) }) ∧
  engineClause .movi (fun _ => true) (fun o => [regD (r1 o)]) (fun o g =>
    { g with d := Vec.updN g.d (r1 o) fun _ => BitVec.ofInt 32 (signedOf 18 (fld o 0 18)) }) ∧
  engineClause .lhi (fun o => fld o 16 2 = 0) (fun o => [regD (r1 o)]) (fun o g =>
    { g with d := Vec.updN g.d (r1 o) fun _ => BitVec.ofNat 32 (fld o 0 16 * 0x10000) }) ∧
  engineClause .lli (fun o => fld o 16 2 = 0) (fun o => [regD (r1 o)]) (fun o g =>
    { g with d := Vec.updN g.d (r1 o) fun v => BitVec.ofNat 32 (v.toNat / 0x10000 * 0x10000 + fld o 0 16) }) ∧
  engineClause .extu (fun o => fld o 0 3 = 0 ∧ fPos o + fW o ≤ 32) (fun o => [regD (r1 o)]) (fun o g =>
    { g with d := Vec.updN g.d (r1 o) fun _ => ((g.dAt (r2 o)).extractLsb' (fPos o) (fW o)).setWidth 32 }) ∧
  engineClause .exts (fun o => fld o 0 3 = 0 ∧ fPos o + fW o ≤ 32) (fun o => [regD (r1 o)]) (fun o g =>
    { g with d := Vec.updN g.d (r1 o) fun _ => ((g.dAt (r2 o)).extractLsb' (fPos o) (fW o)).signExtend 32 }) ∧
  engineClause .ins (fun o => fld o 0 3 = 0 ∧ fPos o + fW o ≤ 32) (fun o => [regD (r1 o)]) (fun o g =>
    { g with d := Vec.updN g.d (r1 o) fun v => BitVec.ofNat 32 (v.toNat % 2 ^ fPos o +
        (g.dAt (r2 o)).toNat % 2 ^ fW o * 2 ^ fPos o + v.toNat / 2 ^ (fPos o + fW o) * 2 ^ (fPos o + fW o)) })

/-- The accumulators (R502): arithmetic modulo 2^72 that never saturates or sets a flag; ACEXT rounds, shifts, saturates
the extracted value to the signed 32-bit range, and sets SATS when it does. -/
def Obligations.Accumulators : Prop :=
  (let mac (mk : Fin 16 → Bool → BitVec 23 → Instr) (f : Int → W32 → W32 → Int) : Prop :=
    engineClause mk (fun o => r1 o < 4 ∧ fld o 0 8 = 0) (fun o => [regAc (r1 o)]) fun o g =>
      { g with ac := Vec.updN g.ac (r1 o) fun ac => BitVec.ofInt 72 (f ac.toInt (g.dAt (r2 o)) (g.dAt (r3 o))) }
   mac .mac (fun ac a b => ac + a.toInt * b.toInt) ∧
   mac .macu (fun ac a b => ac + a.toNat * b.toNat) ∧
   mac .msu (fun ac a b => ac - a.toInt * b.toInt)) ∧
  engineClause .acclr (fun o => r1 o < 4 ∧ fld o 0 18 = 0) (fun o => [regAc (r1 o)])
    (fun o g => { g with ac := Vec.updN g.ac (r1 o) fun _ => 0 }) ∧
  engineClause .acld (fun o => r1 o < 4 ∧ fld o 0 13 = 0) (fun o => [regAc (r1 o)])
    (fun o g => { g with ac := Vec.updN g.ac (r1 o) fun _ => BitVec.ofInt 72 (g.dAt (r2 o)).toInt }) ∧
  engineClause .acext (fun o => r2 o < 4 ∧ fld o 6 6 ≤ 40 ∧ fld o 0 6 = 0) (fun o => [regD (r1 o), regSp 2]) (fun o g =>
    let sh := fld o 6 6
    let x := ((Vec.atD g.ac (r2 o) 0).toInt + if o.getLsbD 12 ∧ 1 ≤ sh then 2 ^ (sh - 1) else 0) / 2 ^ sh
    { g with d := Vec.updN g.d (r1 o) fun _ => clamp32 x, sr := setSats g.sr (outside32 x) })

/-! ### The A unit and the moves -/

/-- A-unit arithmetic and the moves of the Q unit (R500, R503): each writes its one register and no flag. SEL takes Ds
where its condition holds of the old flags, else Dt (R498). -/
def Obligations.AddressAndMoves : Prop :=
  (let toA (mk : Fin 16 → Bool → BitVec 23 → Instr) (ok : BitVec 23 → Bool) (f : Engine → BitVec 23 → Nat) : Prop :=
    engineClause mk (fun o => r1 o < 16 ∧ ok o) (fun o => [r1 o])
      (fun o g => { g with a := Vec.updN g.a (r1 o) fun _ => BitVec.ofNat 32 (f g o) })
   toA .adda (fun o => r2 o < 16 ∧ r3 o < 16 ∧ fld o 0 8 = 0) (fun g o => (g.aAt (r2 o)).toNat + (g.aAt (r3 o)).toNat) ∧
   toA .suba (fun o => r2 o < 16 ∧ r3 o < 16 ∧ fld o 0 8 = 0)
    (fun g o => (g.aAt (r2 o)).toNat + 0x100000000 - (g.aAt (r3 o)).toNat) ∧
   toA .addai (fun o => r2 o < 16)
    (fun g o => ((g.aAt (r2 o)).toNat + 0x100000000 + signedOf 13 (fld o 0 13) : Int).toNat) ∧
   toA .addad (fun o => r2 o < 16 ∧ fld o 0 5 = 0)
    (fun g o => (g.aAt (r2 o)).toNat + (g.dAt (r3 o)).toNat * 2 ^ fld o 5 3) ∧
   toA .lha (fun o => fld o 16 2 = 0) (fun _ o => fld o 0 16 * 0x10000) ∧
   toA .lla (fun o => fld o 16 2 = 0) (fun g o => (g.aAt (r1 o)).toNat / 0x10000 * 0x10000 + fld o 0 16) ∧
   toA .movad (fun o => fld o 0 13 = 0) (fun g o => (g.dAt (r2 o)).toNat) ∧
   toA .mova (fun o => r2 o < 16 ∧ fld o 0 13 = 0) (fun g o => (g.aAt (r2 o)).toNat)) ∧
  engineClause .movda (fun o => r2 o < 16 ∧ fld o 0 13 = 0) (fun o => [regD (r1 o)])
    (fun o g => { g with d := Vec.updN g.d (r1 o) fun _ => g.aAt (r2 o) }) ∧
  engineClause .movd (fun o => fld o 0 13 = 0) (fun o => [regD (r1 o)])
    (fun o g => { g with d := Vec.updN g.d (r1 o) fun _ => g.dAt (r2 o) }) ∧
  engineClause .sel (fun o => fld o 0 4 = 0 ∧ fld o 4 4 ≠ 15) (fun o => [regD (r1 o)]) (fun o g =>
    let z := g.sr.getLsbD 0
    let n := g.sr.getLsbD 1
    let c := g.sr.getLsbD 2
    let v := g.sr.getLsbD 3
    let holds := match fld o 4 4 with
      | 0 => true | 1 => z | 2 => !z | 3 => c | 4 => !c | 5 => n | 6 => !n | 7 => v | 8 => !v
      | 9 => c && !z | 10 => !c || z | 11 => n == v | 12 => n != v | 13 => !z && n == v | _ => z || n != v
    { g with d := Vec.updN g.d (r1 o) fun _ => if holds then g.dAt (r2 o) else g.dAt (r3 o) })

/-! ### Loads and stores -/

/-- `n` octets at an address lie in DMEM, in the cluster's scratchpad, or in a granted window of shared memory (for a
store a read-write one), in no borrowed block and in no uncorrectable word (R23, R25, R526, R527). -/
def Sys2Proof.Claim.plain (s : State) (e : Fin 16) (a n : Nat) (store : Bool) : Prop :=
  let k := Vec.at s.cl (clOf e)
  (0x10000 ≤ a ∧ a + n ≤ 0x18000 ∧ ∀ w ∈ wordsOf (a - 0x10000) n, w ∉ (Vec.at s.eng e).badD) ∨
  (0x10000000 ≤ a ∧ a + n ≤ 0x10080000 ∧ k.borrow.active = false ∧ ∀ w ∈ wordsOf (a - 0x10000000) n, w ∉ k.badWords) ∨
  (0x20000000 ≤ a ∧ a + n ≤ 0x20800000 ∧ (∃ i : Fin 8, let w := Vec.at k.windows i
      w.base ≤ a - 0x20000000 ∧ a - 0x20000000 + n ≤ w.base + w.len ∧ (store → w.rw)) ∧
    s.selft.shmBorrow.active = false ∧ ∀ w ∈ wordsOf (a - 0x20000000) n, w ∉ s.shmBad)

/-- The octet that engine `e` reads at an address of one of those memories. -/
def Sys2Proof.Claim.octet (s : State) (e : Fin 16) (a : Nat) : Byte :=
  if a < 0x18000 then memRead (Vec.at s.eng e).dmem (a - 0x10000)
  else if a < 0x20000000 then memRead (Vec.at s.cl (clOf e)).spad (a - 0x10000000)
  else memRead s.shm (a - 0x20000000)

/-- Little-endian value of `n` octets at an address (R8). -/
def Sys2Proof.Claim.value (s : State) (e : Fin 16) (a n : Nat) : Nat :=
  (List.range n).foldr (fun i v => (octet s e (a + i)).toNat + 256 * v) 0

/-- The state with octets written where engine `e` addresses them. -/
def Sys2Proof.Claim.written (s : State) (e : Fin 16) (a : Nat) (bs : List Byte) : State :=
  if a < 0x18000 then s.updEng e fun g => { g with dmem := memWriteN g.dmem (a - 0x10000) bs }
  else if a < 0x20000000 then s.updCl (clOf e) fun k => { k with spad := memWriteN k.spad (a - 0x10000000) bs }
  else { s with shm := memWriteN s.shm (a - 0x20000000) bs }

/-- The address of a load or store of format M (R499): As + off × size, or As itself with P = 1. -/
def Sys2Proof.Claim.addrOf (g : Engine) (o : BitVec 23) (size : Nat) : W32 :=
  if o.getLsbD 12 then g.aAt (r2 o) else g.aAt (r2 o) + BitVec.ofInt 32 (signedOf 12 (fld o 0 12) * size)

/-- The base register after the access: As + off × size with P = 1 (R499). -/
def Sys2Proof.Claim.bump (g old : Engine) (o : BitVec 23) (size : Nat) : Engine :=
  if o.getLsbD 12 then
    { g with a := Vec.updN g.a (r2 o) fun _ => old.aAt (r2 o) + BitVec.ofInt 32 (signedOf 12 (fld o 0 12) * size) }
  else g

/-- A load of `n` octets with offsets counted in `scale`: it puts the value into its destination and, with P = 1, bumps
its base; nothing else of the module changes. `ws` are the registers it writes besides the base, `old` what they held. -/
def Sys2Proof.Claim.loadClause (mk : Fin 16 → Bool → BitVec 23 → Instr) (ok : BitVec 23 → Bool) (n scale : Nat) (aligned : Bool)
    (ws : BitVec 23 → List Nat) (old : Engine → BitVec 23 → List (Nat × W32)) (put : BitVec 23 → Nat → Engine → Engine) : Prop :=
  ∀ (s : State) (e : Fin 16) (o : BitVec 23), EngineReady s e → Fetched s (mk e true o) → r2 o < 16 → ok o →
    (o.getLsbD 12 → r2 o ∉ ws o) →
    let g0 := Vec.at s.eng e
    let a := (addrOf g0 o scale).toNat
    (aligned → a % n = 0) → plain s e a n false →
    exec (mk e true o) s = .next (State.settle (s.updEng e fun g =>
      let w := ws o ++ if o.getLsbD 12 then [r2 o] else []
      { bump (put o (value s e a n) g) g o scale with
        pc := g.pc + 4
        loads := g.loadsAfter w { pc := g.pc, addr := BitVec.ofNat 32 a, old := some (old g o) } }))

/-- A load into one D register. -/
def Sys2Proof.Claim.loadD (mk : Fin 16 → Bool → BitVec 23 → Instr) (n scale : Nat) (aligned : Bool) (f : Nat → W32) : Prop :=
  loadClause mk (fun _ => true) n scale aligned (fun o => [regD (r1 o)]) (fun g o => [(regD (r1 o), g.dAt (r1 o))])
    (fun o v g => { g with d := Vec.updN g.d (r1 o) fun _ => f v })

/-- A store of `n` octets: it writes them at its address, bumps its base with P = 1, and changes nothing else. -/
def Sys2Proof.Claim.storeClause (mk : Fin 16 → Bool → BitVec 23 → Instr) (ok : BitVec 23 → Bool) (n : Nat)
    (data : Engine → BitVec 23 → List Byte) : Prop :=
  ∀ (s : State) (e : Fin 16) (o : BitVec 23), EngineReady s e → Fetched s (mk e true o) → r2 o < 16 → ok o →
    let g0 := Vec.at s.eng e
    let a := (addrOf g0 o n).toNat
    a % n = 0 → plain s e a n true →
    exec (mk e true o) s = .next (State.settle ((written s e a (data g0 o)).updEng e fun g =>
      (bump g g0 o n).advance (if o.getLsbD 12 then [r2 o] else [])))

/-- Every load of R500 from DMEM, the scratchpad and shared memory, the rotate loads at any byte address among them.
Every store of R500, and where it goes: outside the octets stored at the address of R499 every octet that any engine
reads stands, in DMEM, scratchpad and shared memory. -/
def Obligations.LoadsAndStores : Prop :=
  (loadD .ldb 1 1 true (fun v => BitVec.ofInt 32 (signedOf 8 v)) ∧
  loadD .ldbu 1 1 true (fun v => BitVec.ofNat 32 v) ∧
  loadD .ldh 2 2 true (fun v => BitVec.ofInt 32 (signedOf 16 v)) ∧
  loadD .ldhu 2 2 true (fun v => BitVec.ofNat 32 v) ∧
  loadD .ldw 4 4 true (fun v => BitVec.ofNat 32 v) ∧
  loadD .ldhr 2 1 false (fun v => BitVec.ofNat 32 v) ∧
  loadD .ldwr 4 1 false (fun v => BitVec.ofNat 32 v) ∧
  loadClause .ldd (fun o => r1 o % 2 = 0) 8 8 true (fun o => [regD (r1 o), regD (r1 o + 1)])
    (fun g o => [(regD (r1 o), g.dAt (r1 o)), (regD (r1 o + 1), g.dAt (r1 o + 1))])
    (fun o v g =>
      let d := Vec.updN g.d (r1 o) fun _ => BitVec.ofNat 32 v
      { g with d := Vec.updN d (r1 o + 1) fun _ => BitVec.ofNat 32 (v / 0x100000000) }) ∧
  loadClause .lda (fun o => r1 o < 16) 4 4 true (fun o => [r1 o]) (fun g o => [(r1 o, g.aAt (r1 o))])
    (fun o v g => { g with a := Vec.updN g.a (r1 o) fun _ => BitVec.ofNat 32 v })) ∧
  (storeClause .stb (fun _ => true) 1 (fun g o => [(g.dAt (r1 o)).extractLsb' 0 8]) ∧
  storeClause .sth (fun _ => true) 2 (fun g o => (List.range 2).map fun i => (g.dAt (r1 o)).extractLsb' (8 * i) 8) ∧
  storeClause .stw (fun _ => true) 4 (fun g o => (List.range 4).map fun i => (g.dAt (r1 o)).extractLsb' (8 * i) 8) ∧
  storeClause .std (fun o => r1 o % 2 = 0) 8 (fun g o => (List.range 8).map fun i =>
    (g.dAt (r1 o + i / 4)).extractLsb' (8 * (i % 4)) 8) ∧
  storeClause .sta (fun o => r1 o < 16) 4 (fun g o => (List.range 4).map fun i => (g.aAt (r1 o)).extractLsb' (8 * i) 8) ∧
  (∀ (s : State) (e f : Fin 16) (a b : Nat) (bs : List Byte), 0x10000 ≤ a → 0x10000 ≤ b →
    (a < 0x18000 → a + bs.length ≤ 0x18000) → (a < 0x20000000 → a + bs.length ≤ 0x20000000) →
    (0x18000 ≤ a → 0x10000000 ≤ a) → (0x18000 ≤ b → 0x10000000 ≤ b) →
    octet (written s e a bs) f b =
      if a ≤ b ∧ b < a + bs.length ∧
        ((a < 0x18000 ∧ e = f) ∨ (0x18000 ≤ a ∧ a < 0x20000000 ∧ clOf e = clOf f) ∨ 0x20000000 ≤ a)
      then bs.getD (b - a) 0 else octet s f b))

/-! ### Queues -/

/-- The queue that a syllable of format Q names (R503): HQ with X = 0, r2[7:0] with X = 1. -/
def Sys2Proof.Claim.queueOf (g : Engine) (o : BitVec 23) : Fin 256 :=
  Fin.ofNat 256 (if o.getLsbD 12 then (g.dAt (r2 o)).toNat else fld o 0 8)

/-- What R496 and R503 ask of a Q syllable: the unused one of r2 and HQ is 0, [11:8] are 0. -/
def Sys2Proof.Claim.queueForm (o : BitVec 23) : Bool :=
  fld o 8 4 = 0 ∧ (if o.getLsbD 12 then fld o 0 8 = 0 else r2 o = 0)

/-- No queue-not-empty event, PAUSE check or LPI exit hangs on this queue: it is no transmit queue, no receive queue
takes its buffers from it (R160), and no QSEL register of its cluster chooses it (R188). -/
def Sys2Proof.Claim.lone (s : State) (c : Fin 4) (h : Fin 256) : Prop :=
  96 ≤ h.1 ∧ s.isFbq h = false ∧ ∀ i : Fin 8, ¬ ((Vec.at (Vec.at s.cl c).qsel i).getLsbD 31 = true ∧
    fld (Vec.at (Vec.at s.cl c).qsel i) 0 8 = h.1)

/-- A push (R183): at the end of a queue with room; at a full queue it is dropped, sets OVF and counts hq_overflow. -/
def Sys2Proof.Claim.pushed (s : State) (h : Fin 256) (d : Desc) : State :=
  s.updHq h fun q =>
    if q.items.length < q.depth then { q with items := q.items ++ [d] } else { q with ovf := true, ctr := q.ctr.add 0 1 }

/-- A pop (R183): the head leaves; an empty queue stays. -/
def Sys2Proof.Claim.popped (s : State) (h : Fin 256) : State := s.updHq h fun q => { q with items := q.items.tail }

/-- The head of a queue, or four zero words. -/
def Sys2Proof.Claim.headOf (s : State) (h : Fin 256) : Desc := (Vec.at s.hq h).items.headD ⟨0, 0, 0, 0⟩

/-- HQ_STAT (R186): OVF, EMPTY, FULL, DEPTH and COUNT. -/
def Sys2Proof.Claim.statOf (q : HwQ) : W32 :=
  BitVec.ofNat 32 ((if q.ovf then 0x80000000 else 0) + (if q.items = [] then 0x40000000 else 0) +
    (if q.items.length = q.depth then 0x20000000 else 0) + q.depth % 0x2000 * 0x10000 + q.items.length % 0x2000)

/-- QPUSH, QPOP and QSTAT (R503, R504) on a queue that the cluster serves: a push appends one descriptor of Ds…Ds+3 or
is dropped, a pop puts the head or four zeros into Dd…Dd+3, and neither touches the staging or holding registers. The
first three clauses give the whole next state on a queue that no event, port or PAUSE check hangs on, the last two what
every other queue shares with it; a queue in the error of R196 is `bad` (log 102). -/
def Obligations.QueueInstructions : Prop :=
  (∀ (s : State) (e : Fin 16) (o : BitVec 23), EngineReady s e → Fetched s (.qpush e true o) → queueForm o → r1 o % 4 = 0 →
    let g0 := Vec.at s.eng e
    let h := queueOf g0 o
    let d : Desc := ⟨g0.dAt (r1 o), g0.dAt (r1 o + 1), g0.dAt (r1 o + 2), g0.dAt (r1 o + 3)⟩
    s.hqServer h = some (clOf e) → lone s (clOf e) h → s.pushOk (clOf e) h d →
    exec (.qpush e true o) s = .next (State.settle ((pushed s h d).updEng e (·.advance [])))) ∧
  (∀ (s : State) (e : Fin 16) (o : BitVec 23), EngineReady s e → Fetched s (.qpop e true o) → queueForm o → r1 o % 4 = 0 →
    let h := queueOf (Vec.at s.eng e) o
    let x := headOf s h
    s.hqServer h = some (clOf e) → lone s (clOf e) h → (Vec.at s.hq h).bad = false →
    exec (.qpop e true o) s = .next (State.settle ((popped s h).updEng e fun g =>
      let d0 := Vec.updN g.d (r1 o) fun _ => x.w0
      let d1 := Vec.updN d0 (r1 o + 1) fun _ => x.w1
      let d2 := Vec.updN d1 (r1 o + 2) fun _ => x.w2
      ({ g with d := Vec.updN d2 (r1 o + 3) fun _ => x.w3 } : Engine).advance
        [regD (r1 o), regD (r1 o + 1), regD (r1 o + 2), regD (r1 o + 3)]))) ∧
  (∀ (s : State) (e : Fin 16) (o : BitVec 23), EngineReady s e → Fetched s (.qstat e true o) → queueForm o →
    let h := queueOf (Vec.at s.eng e) o
    s.hqServer h = some (clOf e) →
    exec (.qstat e true o) s = .next (State.settle (s.updEng e fun g =>
      ({ g with d := Vec.updN g.d (r1 o) fun _ => statOf (Vec.at s.hq h) } : Engine).advance [regD (r1 o)]))) ∧
  (∀ (s : State) (e : Fin 16) (o : BitVec 23), EngineReady s e → Fetched s (.qpush e true o) → queueForm o → r1 o % 4 = 0 →
    let g := Vec.at s.eng e
    let h := queueOf g o
    let d : Desc := ⟨g.dAt (r1 o), g.dAt (r1 o + 1), g.dAt (r1 o + 2), g.dAt (r1 o + 3)⟩
    s.hqServer h = some (clOf e) → s.pushOk (clOf e) h d →
    ∃ (u : State) (w : W32), exec (.qpush e true o) s = .next u.settle ∧
      (∀ k, (Vec.at u.hq k).items = (Vec.at (pushed s h d).hq k).items ∧ (Vec.at u.hq k).ovf = (Vec.at (pushed s h d).hq k).ovf) ∧
      Vec.at u.eng e = { g.advance [] with evp := w } ∧ u.shm = s.shm ∧ ∀ c, (Vec.at u.cl c).spad = (Vec.at s.cl c).spad) ∧
  (∀ (s : State) (e : Fin 16) (o : BitVec 23), EngineReady s e → Fetched s (.qpop e true o) → queueForm o → r1 o % 4 = 0 →
    let g := Vec.at s.eng e
    let h := queueOf g o
    let x := headOf s h
    s.hqServer h = some (clOf e) → (Vec.at s.hq h).bad = false →
    ∃ u : State, exec (.qpop e true o) s = .next u.settle ∧ u.hq = (popped s h).hq ∧
      Vec.at u.eng e = ({ g with d := Vec.updN (Vec.updN (Vec.updN (Vec.updN g.d (r1 o) fun _ => x.w0) (r1 o + 1) fun _ => x.w1)
          (r1 o + 2) fun _ => x.w2) (r1 o + 3) fun _ => x.w3 } : Engine).advance
        [regD (r1 o), regD (r1 o + 1), regD (r1 o + 2), regD (r1 o + 3)] ∧
      u.shm = s.shm ∧ u.cl = s.cl)

/-- An engine that may access the cluster's windows: out of reset and no checker (R38, R465). -/
def Sys2Proof.Claim.alive (s : State) (e : Fin 16) : Prop := (Vec.at s.eng e).run = true ∧ s.checker e = false

/-- The window rows of a queue that the cluster serves (R183, R186, R188): PUSH3 pushes the staged words with the stored
one, POP0 pops the head into the holding register, HQ_STAT clears OVF on 1, and QSELi takes its value, with the
event of bit 5 + i for the cluster's engines when the chosen queue holds something. A push of a queue that QSELi
chooses sets EVP bit 5 + i in every running engine of the serving cluster (R188, R480), whatever i and the queue; a
waiting engine whose mask holds the bit has been woken with it in its register. -/
def Obligations.QueueWindowsAndEvents : Prop :=
  ((∀ (s : State) (e : Fin 16) (h : Fin 256) (v : W32), alive s e → s.hqServer h = some (clOf e) → lone s (clOf e) h →
    let st := (Vec.at s.eng e).stage
    let d : Desc := ⟨Vec.at st 0, Vec.at st 1, Vec.at st 2, v⟩
    s.pushOk (clOf e) h d → exec (.hqPush e h v) s = .next (State.settle (pushed s h d))) ∧
  (∀ (s : State) (e : Fin 16) (h : Fin 256), alive s e → s.hqServer h = some (clOf e) → lone s (clOf e) h →
    let x := headOf s h
    (Vec.at s.hq h).bad = false → exec (.hqPop e h) s = .next (State.settle ((popped s h).updEng e fun g => { g with hold := #v[x.w1, x.w2, x.w3] }))) ∧
  (∀ (s : State) (e : Fin 16) (h : Fin 256) (v : W32), alive s e → s.hqServer h = some (clOf e) → fld v 13 3 = 0 →
    exec (.hqStatWrite e h v) s = .next (State.settle (s.updHq h fun q => { q with ovf := q.ovf && !v.getLsbD 31 }))) ∧
  (∀ (s : State) (e : Fin 16) (i : Fin 8) (v : W32), alive s e → fld v 8 23 = 0 →
    (v.getLsbD 31 → s.hqServer (Fin.ofNat 256 (fld v 0 8)) = some (clOf e)) →
    let t := s.updCl (clOf e) fun k => { k with qsel := Vec.put k.qsel i v }
    exec (.qselWrite e i v) s = .next (State.settle
      (if v.getLsbD 31 ∧ (Vec.at s.hq (Fin.ofNat 256 (fld v 0 8))).items ≠ [] then t.evpCl (clOf e) (5 + i.1) else t)))) ∧
  (∀ (s : State) (e f : Fin 16) (h : Fin 256) (v : W32) (i : Fin 8), alive s e → s.hqServer h = some (clOf e) →
    let st := (Vec.at s.eng e).stage
    s.pushOk (clOf e) h ⟨Vec.at st 0, Vec.at st 1, Vec.at st 2, v⟩ →
    (Vec.at s.hq h).items.length < (Vec.at s.hq h).depth →
    Vec.at (Vec.at s.cl (clOf e)).qsel i = BitVec.ofNat 32 (0x80000000 + h.1) →
    clOf f = clOf e → (Vec.at s.eng f).run = true →
    ∃ u : State, exec (.hqPush e h v) s = .next u.settle ∧
      (Vec.at u.hq h).items = (Vec.at s.hq h).items ++ [⟨Vec.at st 0, Vec.at st 1, Vec.at st 2, v⟩] ∧
      ((Vec.at s.eng f).wait = .none → (Vec.at u.eng f).evp.getLsbD (5 + i.1) = true) ∧
      (∀ d a, (Vec.at s.eng f).wait = .wfe d a → (Vec.at s.eng f).evm.getLsbD (5 + i.1) = true →
        (Vec.at u.eng f).wait = .none))

/-! ### The C unit -/

/-- A condition of R498 on SR. -/
def Sys2Proof.Claim.condOf (k : Nat) (sr : W32) : Bool :=
  let z := sr.getLsbD 0
  let n := sr.getLsbD 1
  let c := sr.getLsbD 2
  let v := sr.getLsbD 3
  match k with
  | 0 => true | 1 => z | 2 => !z | 3 => c | 4 => !c | 5 => n | 6 => !n | 7 => v | 8 => !v
  | 9 => c && !z | 10 => !c || z | 11 => n == v | 12 => n != v | 13 => !z && n == v | _ => z || n != v

/-- A C syllable of flow control in a bundle of its own: the effect `f` on its engine, and the program counter `pc`,
which lies in IMEM. Nothing else of the module changes. -/
def Sys2Proof.Claim.flowClause (mk : Fin 16 → Bool → BitVec 23 → Instr) (ok : BitVec 23 → Bool) (ws : BitVec 23 → List Nat)
    (f : BitVec 23 → Engine → Engine) (pc : Engine → BitVec 23 → W32) : Prop :=
  ∀ (s : State) (e : Fin 16) (o : BitVec 23), EngineReady s e → Fetched s (mk e true o) → ok o →
    (pc (Vec.at s.eng e) o).toNat < 0x10000 →
    exec (mk e true o) s = .next (State.settle (s.updEng e fun g => { (f o g).advance (ws o) with pc := pc g o }))

/-- The bundle's address plus a signed offset in words. -/
def Sys2Proof.Claim.relative (g : Engine) (w : Nat) (o : BitVec 23) : W32 :=
  g.pc + BitVec.ofInt 32 (4 * signedOf w (fld o 0 w))

/-- The 32-bit word at an offset of the trap frame, which starts at 0x7FE0 of DMEM (R489). -/
def Sys2Proof.Claim.frameAt (g : Engine) (off : Nat) : W32 :=
  BitVec.ofNat 32 ((List.range 4).foldr (fun i v => (memRead g.dmem (0x7FE0 + off + i)).toNat + 256 * v) 0)

/-- Branches, calls and returns (R478, R498, R505): the condition tests the old flags, an offset counts in words from
the bundle, DBNZ tests the decremented register, a call leaves the address of the next bundle in LK, and an indirect
target drops its bits [1:0]. RTE in a trap handler (R490): LK and the RW fields of SR come from the frame, TRAP
clears, CAUSE and the other RO fields stay, the repeat counter takes min(RCNT, 1024), and the engine goes on at
RESUME without its bits [1:0]. -/
def Obligations.ControlFlow : Prop :=
  (flowClause .b (fun o => fld o 19 4 ≠ 15) (fun _ => []) (fun _ g => g)
    (fun g o => if condOf (fld o 19 4) g.sr then relative g 19 o else g.pc + 4) ∧
  flowClause .bdz (fun _ => true) (fun _ => []) (fun _ g => g)
    (fun g o => if g.dAt (r1 o) = 0 then relative g 18 o else g.pc + 4) ∧
  flowClause .bdnz (fun _ => true) (fun _ => []) (fun _ g => g)
    (fun g o => if g.dAt (r1 o) = 0 then g.pc + 4 else relative g 18 o) ∧
  flowClause .dbnz (fun _ => true) (fun o => [regD (r1 o)])
    (fun o g => { g with d := Vec.updN g.d (r1 o) fun v => v - 1 })
    (fun g o => if g.dAt (r1 o) = 1 then g.pc + 4 else relative g 18 o) ∧
  flowClause .call (fun o => fld o 19 4 = 0) (fun _ => [regSp 0]) (fun _ g => { g with lk := g.pc + 4 })
    (fun g o => relative g 19 o) ∧
  flowClause .callr (fun o => fld o 0 18 = 0) (fun _ => [regSp 0]) (fun _ g => { g with lk := g.pc + 4 })
    (fun g o => g.dAt (r1 o) &&& 0xFFFFFFFC) ∧
  flowClause .jr (fun o => fld o 0 18 = 0) (fun _ => []) (fun _ g => g) (fun g o => g.dAt (r1 o) &&& 0xFFFFFFFC) ∧
  flowClause .ret (fun o => o = 0) (fun _ => []) (fun _ g => g) (fun g _ => g.lk &&& 0xFFFFFFFC)) ∧
  (∀ (s : State) (e : Fin 16), EngineReady s e → Fetched s (.rte e true 0) → (Vec.at s.eng e).sr.getLsbD 31 = true →
    (∀ w ∈ (Vec.at s.eng e).badD, w < 0xFFC) →
    let g0 := Vec.at s.eng e
    let resume := frameAt g0 0x04 &&& 0xFFFFFFFC
    resume.toNat < 0x10000 →
    exec (.rte e true 0) s = .next (State.settle (s.updEng e fun g => { g.advance [regSp 0, regSp 2] with
      lk := frameAt g0 0x08
      sr := (g.sr &&& 0x7FFFFF70) ||| (frameAt g0 0x0C &&& 0x8F)
      rcnt := min ((frameAt g0 0x18).toNat % 0x10000) 1024
      pc := resume })))

/-- MFS, MTS and FENCE (R468, R476): a read returns the register, PC the bundle's own address; a write takes the fields
that are writable, clears EVP bits written 1, and arms a milestone with MS; FENCE changes nothing. -/
def Obligations.SpecialRegisters : Prop :=
  engineClause .mfs (fun o => fld o 0 13 = 0 ∧ r2 o < 8) (fun o => [regD (r1 o)]) (fun o g =>
    { g with d := Vec.updN g.d (r1 o) fun _ => match r2 o with
        | 0 => g.lk | 1 => g.pc | 2 => g.sr | 3 => g.evp | 4 => g.evm | 5 => g.rc | 6 => g.ms | _ => g.xcfg }) ∧
  (let mts (n : Nat) (rsv : W32) (f : W32 → Engine → Engine) : Prop :=
    ∀ (s : State) (e : Fin 16) (o : BitVec 23), EngineReady s e → Fetched s (.mts e true o) → fld o 0 13 = 0 → r2 o = n →
      (Vec.at s.eng e).dAt (r1 o) &&& rsv = 0 →
      exec (.mts e true o) s = .next (State.settle (s.updEng e fun g => (f (g.dAt (r1 o)) g).advance [regSp n]))
   mts 0 0 (fun v g => { g with lk := v }) ∧
   mts 2 0x007FFF70 (fun v g => { g with sr := (g.sr &&& 0xFFFFFF70) ||| (v &&& 0x8F) }) ∧
   mts 3 0 (fun v g => { g with evp := g.evp &&& ~~~v }) ∧
   mts 4 0 (fun v g => { g with evm := v }) ∧
   mts 5 0xFFFFF800 (fun v g => { g with rc := v }) ∧
   mts 6 0 (fun v g => { g with ms := v, milestone := true, arm := g.arm + 1 }) ∧
   mts 7 0x0000FFFE (fun v g => { g with xcfg := v })) ∧
  engineClause .fence (fun o => o = 0) (fun _ => []) (fun _ g => g)

/-- What SEV does to engine `t` (R482, R465): bit 16 + e in a running engine of the sender's cluster, or of a started
cluster whose shared-memory windows overlap one of the sender's; nothing in a checker. -/
def Sys2Proof.Claim.sevTakes (s : State) (e t : Fin 16) : Bool :=
  clOf t = clOf e || ((Vec.at s.cl (clOf t)).st = .started && (allFin 8).any fun i => (allFin 8).any fun j =>
    let a := Vec.at (Vec.at s.cl (clOf e)).windows i
    let b := Vec.at (Vec.at s.cl (clOf t)).windows j
    a.len ≠ 0 && b.len ≠ 0 && a.base < b.base + b.len && b.base < a.base + a.len)

/-- WFE and MWAIT (R481, R484): a wait whose condition holds completes at once, with the events in Dd and cleared from
EVP; otherwise the engine waits. MWAIT first arms its milestone and clears EVP bit 1. SEV and SEVR (R482): every
engine of the mask that the sender reaches gets its bit, the others stay, and each one out of reach counts in
sev_denied of the sender's cluster; nothing else changes. -/
def Obligations.WaitsAndSends : Prop :=
  ((∀ (s : State) (e : Fin 16) (o : BitVec 23), EngineReady s e → Fetched s (.wfe e true o) → fld o 0 18 = 0 →
    exec (.wfe e true o) s = .next (State.settle (s.updEng e fun g =>
      let hit := g.evp &&& g.evm
      let g1 := g.advance [regD (r1 o)]
      if hit ≠ 0 then { g1 with d := Vec.updN g.d (r1 o) fun _ => hit, evp := g.evp &&& ~~~hit }
      else { g1 with wait := .wfe (Fin.ofNat 32 (r1 o)) g.pc }))) ∧
  (∀ (s : State) (e : Fin 16) (o : BitVec 23), EngineReady s e → Fetched s (.mwait e true o) → fld o 0 13 = 0 →
    exec (.mwait e true o) s = .next (State.settle (s.updEng e fun g =>
      let hit := g.evp &&& g.evm &&& 0xFFFFFFFD
      let g1 := { g.advance [regD (r1 o)] with ms := g.dAt (r2 o), milestone := true, arm := g.arm + 1 }
      if hit ≠ 0 then
        { g1 with d := Vec.updN g.d (r1 o) fun _ => hit, evp := g.evp &&& 0xFFFFFFFD &&& ~~~hit }
      else { g1 with evp := g.evp &&& 0xFFFFFFFD, wait := .mwait (Fin.ofNat 32 (r1 o)) g.pc })))) ∧
  (let row (mk : Fin 16 → Bool → BitVec 23 → Instr) (ok : BitVec 23 → Bool) (mask : Engine → BitVec 23 → Nat) : Prop :=
    ∀ (s : State) (e : Fin 16) (o : BitVec 23), EngineReady s e → Fetched s (mk e true o) → ok o →
      let m := mask (Vec.at s.eng e) o
      let denied := (allFin 16).countP fun t => m.testBit t.1 && !s.checker t && !sevTakes s e t
      ∃ u : State, exec (mk e true o) s = .next u.settle ∧
        (∀ t, Vec.at u.eng t =
          let g := if t = e then (Vec.at s.eng e).advance [] else Vec.at s.eng t
          if m.testBit t.1 && !s.checker t && sevTakes s e t then g.setEvp (16 + e.1) else g) ∧
        u = { s.updCl (clOf e) (fun k => { k with ctr := k.ctr.add cSevDenied denied }) with eng := u.eng }
  row .sev (fun o => fld o 16 7 = 0) (fun _ o => fld o 0 16) ∧
  row .sevr (fun o => fld o 0 18 = 0) (fun g o => (g.dAt (r1 o)).toNat % 0x10000))

/-- RPT (R485): the repeat counter takes n, or RC.COUNT up to 1024; a count of 0 skips the next bundle. A repeated
bundle runs as often as RPT latched (R485): ADDI onto its own register, repeated n times, adds n times its immediate
and goes on behind the bundle with the repeat counter at 0; no other register changes. -/
def Obligations.Repetition : Prop :=
  (let count (g : Engine) (o : BitVec 23) : Nat := if o.getLsbD 22 then min (fld g.rc 0 11) 1024 else fld o 0 10 + 1
  (∀ (s : State) (e : Fin 16) (o : BitVec 23), EngineReady s e → Fetched s (.rpt e true o) →
    fld o 10 12 = 0 → (o.getLsbD 22 → fld o 0 10 = 0) → count (Vec.at s.eng e) o ≠ 0 →
    exec (.rpt e true o) s = .next (State.settle (s.updEng e fun g => { g.advance [] with rcnt := count g o }))) ∧
  (∀ (s : State) (e : Fin 16) (o : BitVec 23) (n : Fin 4), EngineReady s e → Fetched s (.rpt e true o) →
    fld o 10 12 = 0 → (o.getLsbD 22 → fld o 0 10 = 0) →
    let g0 := Vec.at s.eng e
    let p := g0.pc.toNat
    count g0 o = 0 → p + 8 + 4 * n.1 < 0x10000 →
    (∀ i, i ≤ n.1 → (memWord g0.imem (p + 4 + 4 * i)).getLsbD 31 = decide (i = n.1) ∧
      (p + 4 + 4 * i) / 8 ∉ g0.badI) →
    exec (.rpt e true o) s = .next (State.settle (s.updEng e fun g =>
      { g.advance [] with pc := g.pc + BitVec.ofNat 32 (8 + 4 * n.1) })))) ∧
  (∀ (s : State) (e : Fin 16) (o : BitVec 23) (n : Nat),
    let g0 := Vec.at s.eng e
    0 < n → n ≤ 1024 → g0.rcnt = n → g0.rcHeld = none → r1 o = r2 o → o.getLsbD 12 = false →
    g0.run = true → g0.wait = .none → s.checker e = false → g0.fetched = [] → g0.cop = none →
    g0.pc.toNat + 4 < 0x10000 → g0.pc.toNat / 8 ∉ g0.badI → Fetched s (.addi e true o) →
    ∃ l, exec (.addi e true o) s = .next (State.settle (s.updEng e fun g => { g with
      d := Vec.updN g.d (r1 o) fun v => v + BitVec.ofInt 32 (n * signedOf 12 (fld o 0 12))
      pc := g.pc + 4
      rcnt := 0
      loads := l })))

/-! ### Traps -/

/-- The four octets of a word, lowest first (R8). -/
def Sys2Proof.Claim.octets (v : W32) : List Byte := (List.range 4).map fun i => v.extractLsb' (8 * i) 8

/-- An engine that has taken a trap outside a repetition (R488, R489): the frame in the top 32 octets of DMEM, TRAP and
CAUSE in SR, the vector in PC. A held RC write has landed first (R485). -/
def Sys2Proof.Claim.trapped (g : Engine) (vec : Nat) (pc resume fault syll : W32) (slot : Nat) : Engine :=
  { g with
    dmem := memWriteN g.dmem 0x7FE0 (octets pc ++ octets resume ++ octets g.lk ++ octets g.sr ++ octets fault ++
      octets syll ++ [0, 0, BitVec.ofNat 8 vec, BitVec.ofNat 8 slot, 0, 0, 0, 0])
    badD := g.badD.filter (· < 0xFFC)
    sr := (g.sr &&& 0x0FFFFFFF) ||| BitVec.ofNat 32 (0x80000000 + vec * 0x10000000)
    pc := BitVec.ofNat 32 (32 * vec)
    rc := g.rcHeld.getD g.rc
    rcHeld := none
    rcnt := 0
    fetched := []
    wait := .none }

/-- BRK takes the BREAK trap with the bundle after it as RESUME; a syllable that R473 or R496 forbids, an RTE outside a
handler and an MTS of a reserved bit take ILLEGAL with the syllable and its unit in the frame; a bundle that names a
unit out of order takes ILLEGAL with SYLL 0 and SLOT 0xFF. No register but SR, PC and the repeat counter changes,
and no octet of DMEM but the frame's (R472, R487–R489). -/
def Obligations.TrapEntry : Prop :=
  (∀ (s : State) (e : Fin 16) (o : BitVec 23), EngineReady s e → Fetched s (.brk e true o) → (Vec.at s.eng e).inTrap = false → fld o 16 7 = 0 →
    exec (.brk e true o) s = .next (State.settle (s.updEng e fun g => trapped g 7 g.pc (g.pc + 4) 0 0 3))) ∧
  (∀ (s : State) (e : Fin 16) (y : Syl) (i : Instr), EngineReady s e → Fetched s i → (Vec.at s.eng e).inTrap = false →
    i.syl = some (e, true, y) → Syl.legal y = false → (Syl.writes y).Nodup →
    exec i s = .next (State.settle (s.updEng e fun g => trapped g 1 g.pc g.pc 0 (Syl.word y true) (Syl.unit y)))) ∧
  (∀ (s : State) (e : Fin 16), EngineReady s e → Fetched s (.rte e true 0) → (Vec.at s.eng e).inTrap = false →
    exec (.rte e true 0) s = .next (State.settle (s.updEng e fun g =>
      trapped g 1 g.pc g.pc 0 (Syl.word (3, 0x08, 0) true) 3))) ∧
  (∀ (s : State) (e : Fin 16) (o : BitVec 23), EngineReady s e → Fetched s (.mts e true o) → (Vec.at s.eng e).inTrap = false → fld o 0 13 = 0 →
    r2 o < 8 → r2 o ≠ 1 → (Vec.at s.eng e).dAt (r1 o) &&& spReserved (r2 o) ≠ 0 →
    exec (.mts e true o) s = .next (State.settle (s.updEng e fun g =>
      trapped g 1 g.pc g.pc 0 (Syl.word (3, 0x11, o) true) 3))) ∧
  (∀ (s : State) (e : Fin 16) (x y : Syl) (i : Instr), EngineReady (s.updEng e fun g => { g with fetched := [] }) e → Fetched s i →
    (Vec.at s.eng e).inTrap = false → (Vec.at s.eng e).fetched = [x] → i.syl = some (e, true, y) →
    Syl.unit y ≤ Syl.unit x → ((Vec.at s.eng e).pc.toNat + 4) / 8 ∉ (Vec.at s.eng e).badI →
    exec i s = .next (State.settle (s.updEng e fun g => trapped g 1 g.pc g.pc 0 0 0xFF)))

/-- An entry of the alarm store or the log names this code, object and DATA. -/
def Sys2Proof.Claim.logged (s : State) (code : Nat) (obj : W16) (data : W32) : Prop :=
  ∃ x ∈ s.sup.alarms ++ s.sup.ring, x.code = BitVec.ofNat 16 code ∧ x.obj = obj ∧ x.data = data

/-- A coprocessor syllable under XCFG.MODE 1, or with its EMUMASK bit set, takes XOP and starts nothing: the bundle
after it is RESUME, and the syllable is in the frame (R493, R494). A trap while SR.TRAP = 1 is a double trap (R491,
R598): the module stops the cluster's personality, every engine of the cluster is held in reset, and the ALARM
ENGINE_DOUBLE_TRAP names the cluster, with the engine, the frame's CAUSE and the new cause in its DATA (the alarm
store not being full). -/
def Obligations.EmulationAndDoubleTrap : Prop :=
  (∀ (s : State) (e : Fin 16) (op : BitVec 6) (o : BitVec 23) (i : Instr), EngineReady s e → Fetched s i →
    (Vec.at s.eng e).inTrap = false → i.syl = some (e, true, (3, op, o)) → 0x30 ≤ op.toNat →
    Syl.legal (3, op, o) → (Syl.writes (3, op, o)).Nodup →
    ((Vec.at s.eng e).xcfg.getLsbD 0 ∨ (Vec.at s.eng e).xcfg.getLsbD (16 + (op.toNat - 0x30))) →
    exec i s = .next (State.settle (s.updEng e fun g =>
      trapped { g with loads := g.loadsAfter (Syl.writes (3, op, o)) g.noLoad } 2 g.pc (g.pc + 4) 0
        (Syl.word (3, op, o) true) 3))) ∧
  (∀ (s : State) (e : Fin 16) (o : BitVec 23), EngineReady s e → Fetched s (.brk e true o) → (Vec.at s.eng e).inTrap = true → fld o 16 7 = 0 →
    (Vec.at s.cl (clOf e)).st = .started → s.pair.st = qSolo → s.sup.singles < 128 →
    ∃ u : State, exec (.brk e true o) s = .next u ∧ (Vec.at u.cl (clOf e)).st = .stopped ∧
      (∀ k : Fin 4, (Vec.at u.eng (engOf (clOf e) k)).run = false) ∧
      logged u 0x0201 (s.objAt 1 (clOf e).1)
        (BitVec.ofNat 32 (7 * 0x1000 + fld (Vec.at s.eng e).sr 28 3 * 0x100 + e.1)))

/-! ### Bundles -/

/-- A syllable without the stop bit joins its bundle and does nothing yet (R470); an engine in reset, a waiting engine
and a checker fetch nothing (R38, R465, R481). All slots of a bundle read their operands before any slot writes
(R467): in ADD | MOVAD the address register takes the data register as it stood before the sum, in ADDAD | ADD the
address sum takes the data register before it changes. -/
def Obligations.BundleOrder : Prop :=
  ((∀ (s : State) (e : Fin 16) (y : Syl) (i : Instr), i.syl = some (e, false, y) →
    let g0 := Vec.at s.eng e
    g0.run = true → g0.wait = .none → s.checker e = false → g0.fetched.length < 3 →
    g0.pc.toNat + 4 * (g0.fetched.length + 1) < 0x10000 → (g0.pc.toNat + 4 * g0.fetched.length) / 8 ∉ g0.badI → Fetched s i →
    exec i s = .next (s.updEng e fun g => { g with fetched := g.fetched ++ [y] })) ∧
  (∀ (s : State) (e : Fin 16) (stop : Bool) (y : Syl) (i : Instr), i.syl = some (e, stop, y) →
    ((Vec.at s.eng e).run = false ∨ (Vec.at s.eng e).wait ≠ .none ∨ s.checker e = true) → exec i s = .next s)) ∧
  ((∀ (s : State) (e : Fin 16) (o p : BitVec 23), (Vec.at s.eng e).fetched = [(1, 0x00, o)] →
    EngineReady (s.updEng e fun g => { g with fetched := [] }) e → (Vec.at s.eng e).pc.toNat + 8 < 0x10000 →
    ((Vec.at s.eng e).pc.toNat + 4) / 8 ∉ (Vec.at s.eng e).badI → Fetched s (.movad e true p) →
    fld o 0 8 = 0 → r1 p < 16 → fld p 0 13 = 0 →
    ∃ l, exec (.movad e true p) s = .next (State.settle (s.updEng e fun g => { g with
      d := Vec.updN g.d (r1 o) fun _ => g.dAt (r2 o) + g.dAt (r3 o)
      a := Vec.updN g.a (r1 p) fun _ => g.dAt (r2 p)
      pc := g.pc + 8
      fetched := []
      loads := l }))) ∧
  (∀ (s : State) (e : Fin 16) (o p : BitVec 23), (Vec.at s.eng e).fetched = [(0, 0x03, o)] →
    EngineReady (s.updEng e fun g => { g with fetched := [] }) e → (Vec.at s.eng e).pc.toNat + 8 < 0x10000 →
    ((Vec.at s.eng e).pc.toNat + 4) / 8 ∉ (Vec.at s.eng e).badI → Fetched s (.add e true p) →
    r1 o < 16 → r2 o < 16 → fld o 0 5 = 0 → fld p 0 8 = 0 →
    ∃ l, exec (.add e true p) s = .next (State.settle (s.updEng e fun g => { g with
      a := Vec.updN g.a (r1 o) fun _ => g.aAt (r2 o) + g.dAt (r3 o) <<< fld o 5 3
      d := Vec.updN g.d (r1 p) fun _ => g.dAt (r2 p) + g.dAt (r3 p)
      pc := g.pc + 8
      fetched := []
      loads := l }))))

/-! ### The coprocessor, loads that fail, the watchdog -/

/-- `n` octets of the scratchpad of a cluster, in no borrowed block and no uncorrectable word. -/
def Sys2Proof.Claim.soundSpad (s : State) (c : Fin 4) (a n : Nat) : Prop :=
  0x10000000 ≤ a ∧ a + n ≤ 0x10080000 ∧ (Vec.at s.cl c).borrow.active = false ∧
    ∀ w ∈ wordsOf (a - 0x10000000) n, w ∉ (Vec.at s.cl c).badWords

/-- A coprocessor operation that the accelerator serves, within its reach and its rules (R493, R508, R515), is issued
with the operand values of its bundle and stays outstanding while the engine goes on (R507). The end of an operation
whose data are in the scratchpad (R507, R511, R513): CSUM leaves in Dd the ones'-complement sum of the partial sum
and the data's octet pairs, the first of a pair high; FEXT leaves the field, in wire order for BE = 1, extended by
its sign for SX = 1. The operation is no longer outstanding, and nothing else changes. -/
def Obligations.Coprocessors : Prop :=
  (let row (mk : Fin 16 → Bool → BitVec 23 → Instr) (op : BitVec 6) : Prop :=
    ∀ (s : State) (e : Fin 16) (o : BitVec 23), EngineReady s e → Fetched s (mk e true o) → Syl.legal (3, op, o) →
      let g0 := Vec.at s.eng e
      let x : Cop := { opcode := op, ops := o, d := g0.dAt (r1 o), s := g0.dAt (r2 o), t := g0.dAt (r3 o), pc := g0.pc }
      g0.xcfg.getLsbD 0 = false → g0.xcfg.getLsbD (16 + (op.toNat - 0x30)) = false →
      s.copError e x = false → s.copReach e x = none → s.copTooSmall e x = false →
      exec (mk e true o) s = .next (State.settle (s.updEng e fun g =>
        { g.advance (Syl.writes (3, op, o)) with cop := some x }))
  row .crcset 0x30 ∧ row .crcm 0x31 ∧ row .crcw 0x32 ∧ row .csum 0x33 ∧ row .stuff 0x34 ∧ row .unstuff 0x35 ∧
  row .fext 0x36 ∧ row .fins 0x37 ∧ row .gcmkey 0x38 ∧ row .gcmiv 0x39 ∧ row .gcmaad 0x3A ∧ row .gcmenc 0x3B ∧
  row .gcmdec 0x3C ∧ row .gcmtag 0x3D) ∧
  ((∀ (s : State) (e : Fin 16) (x : Cop), (Vec.at s.eng e).cop = some x → x.opcode = 0x33 →
    soundSpad s (clOf e) x.s.toNat x.t.toNat →
    let byte (i : Nat) : Nat := (octet s e (x.s.toNat + i)).toNat
    let n := x.t.toNat
    let total := x.d.toNat % 0x10000 + (List.range n).foldr (fun i v => (if i % 2 = 0 then 256 * byte i else byte i) + v) 0
    exec (.coprocComplete e) s = .next (State.settle (s.updEng e fun g => { g with
      cop := none
      d := Vec.updN g.d (r1 x.ops) fun _ => BitVec.ofNat 32 (if total = 0 then 0 else (total - 1) % 0xFFFF + 1) }))) ∧
  (∀ (s : State) (e : Fin 16) (x : Cop), (Vec.at s.eng e).cop = some x → x.opcode = 0x36 →
    let w := fld x.ops 3 5 + 1
    let off := x.t.toNat
    let n := (off % 8 + w + 7) / 8
    let a := x.s.toNat + off / 8
    soundSpad s (clOf e) a n →
    let byte (i : Nat) : Nat := (octet s e (a + i)).toNat
    let le := (List.range n).foldr (fun i v => byte i + 256 * v) 0
    let be := (List.range n).foldl (fun v i => 256 * v + byte i) 0
    let v := if x.ops.getLsbD 2 then be / 2 ^ (8 * n - off % 8 - w) % 2 ^ w else le / 2 ^ (off % 8) % 2 ^ w
    exec (.coprocComplete e) s = .next (State.settle (s.updEng e fun g => { g with
      cop := none
      d := Vec.updN g.d (r1 x.ops) fun _ =>
        BitVec.ofInt 32 (if x.ops.getLsbD 1 then signedOf w v else (v : Int)) }))))

/-- An access whose address is no multiple of its size takes MISALIGN, one that names no memory takes BUSERR, both with
the address as FAULT and no effect of the bundle; a branch out of IMEM takes BUSERR at its target (R24, R471, R477).
The data of a load of one D register from DMEM arrives uncorrectable, its word being known to be (R487, R526): the
register has its old value again, and the engine takes ECC with the load's bundle as PC and the first bundle not
completed as RESUME; of the frame, AFTER counts the bundles in between. -/
def Obligations.AccessTrapsAndFailedLoads : Prop :=
  ((let row (mk : Fin 16 → Bool → BitVec 23 → Instr) (n : Nat) (ok : BitVec 23 → Bool) : Prop :=
    ∀ (s : State) (e : Fin 16) (o : BitVec 23), EngineReady s e → Fetched s (mk e true o) → (Vec.at s.eng e).inTrap = false → r2 o < 16 → ok o →
      let a := addrOf (Vec.at s.eng e) o n
      let at_ (vec : Nat) := State.settle (s.updEng e fun g => trapped g vec g.pc g.pc a 0 0)
      (a.toNat % n ≠ 0 → exec (mk e true o) s = .next (at_ 3)) ∧
      (a.toNat % n = 0 → (0x18000 ≤ a.toNat ∧ a.toNat < 0x10000000 ∨ 0x10080000 ≤ a.toNat ∧ a.toNat < 0x20000000 ∨
          0x20800000 ≤ a.toNat ∧ a.toNat < 0x40000000 ∨ 0x80000000 ≤ a.toNat) →
        exec (mk e true o) s = .next (at_ 4))
   row .ldb 1 (fun _ => true) ∧ row .ldbu 1 (fun _ => true) ∧ row .ldh 2 (fun _ => true) ∧ row .ldhu 2 (fun _ => true) ∧
   row .ldw 4 (fun _ => true) ∧ row .ldd 8 (fun o => r1 o % 2 = 0) ∧
   row .lda 4 (fun o => r1 o < 16 ∧ (o.getLsbD 12 → r1 o ≠ r2 o)) ∧
   row .stb 1 (fun _ => true) ∧ row .sth 2 (fun _ => true) ∧ row .stw 4 (fun _ => true) ∧
   row .std 8 (fun o => r1 o % 2 = 0) ∧ row .sta 4 (fun o => r1 o < 16)) ∧
  (∀ (s : State) (e : Fin 16) (o : BitVec 23), EngineReady s e → Fetched s (.jr e true o) → (Vec.at s.eng e).inTrap = false → fld o 0 18 = 0 →
    let target := (Vec.at s.eng e).dAt (r1 o) &&& 0xFFFFFFFC
    0x10000 ≤ target.toNat →
    exec (.jr e true o) s = .next (State.settle (s.updEng e fun g => trapped (g.advance []) 4 target target target 0 0xFF)))) ∧
  (∀ (s : State) (e : Fin 16) (pc resume addr : W32) (after : Fin 3) (n : Nat) (v : W32),
    let g0 := Vec.at s.eng e
    g0.run = true → g0.inTrap = false → g0.rcnt = 0 → n < 32 →
    g0.loads[after.1]? = some { pc := pc, addr := addr, old := some [(regD n, v)] } →
    0x10000 ≤ addr.toNat → addr.toNat < 0x18000 → (addr.toNat - 0x10000) / 8 ∈ g0.badD →
    exec (.loadEccError e pc resume addr after) s = .next (State.settle (s.updEng e fun g =>
      let t := trapped { g with d := Vec.updN g.d n fun _ => v, loads := [] } 5 pc resume addr 0 0
      { t with dmem := memWrite t.dmem 0x7FFC (BitVec.ofNat 8 after.1) })))

/-- The watchdog register (R492): engine k writes its own; a kick, or EN set while it is 0, restarts the count; the writes
of other engines are ignored. The watchdog's first
expiry outside a handler takes the WATCHDOG trap, with a waiting bundle as its own RESUME; an expiry that follows
without a kick, or in a handler, stops the personality and raises ENGINE_WATCHDOG (R492, R598). Either clears the
cluster's health bit (R327). -/
def Obligations.EngineWatchdog : Prop :=
  ((∀ (s : State) (e : Fin 16) (v : W32), alive s e → fld v 24 6 = 0 → (v.getLsbD 31 → fld v 0 24 ≠ 0) →
    exec (.engWdtWrite e (kOf e) v) s = .next (State.settle (s.updEng e fun g => { g with
      wdtEn := v.getLsbD 31
      wdtTimeout := v.setWidth 24
      wdtFired := g.wdtFired && !v.getLsbD 30
      wdtNs := if v.getLsbD 30 ∨ (v.getLsbD 31 ∧ g.wdtEn = false) then 0 else g.wdtNs }))) ∧
  (∀ (s : State) (e : Fin 16) (k : Fin 4) (v : W32), alive s e → k ≠ kOf e →
    exec (.engWdtWrite e k v) s = .next s.settle)) ∧
  ((∀ (s : State) (e : Fin 16),
    let g0 := Vec.at s.eng e
    g0.run = true → g0.wdtEn = true → g0.wdtFired = false → g0.inTrap = false → g0.rcnt = 0 →
    let at_ : W32 := match g0.wait with
      | .none => g0.pc
      | .wfe _ a => a
      | .mwait _ a => a
    exec (.watchdogTimeout e) s = .next (State.settle
      ((s.updPair fun p => { p with clOk := p.clOk &&& ~~~(1#4 <<< (clOf e).1) }).updEng e fun g =>
        trapped { g with wdtFired := true, wdtNs := 0 } 6 at_ at_ 0 0 0xFF))) ∧
  (∀ (s : State) (e : Fin 16), (Vec.at s.eng e).run = true → (Vec.at s.eng e).wdtEn = true →
    ((Vec.at s.eng e).wdtFired = true ∨ (Vec.at s.eng e).inTrap = true) →
    (Vec.at s.cl (clOf e)).st = .started → s.pair.st = qSolo → s.sup.singles < 128 →
    ∃ u : State, exec (.watchdogTimeout e) s = .next u ∧ (Vec.at u.cl (clOf e)).st = .stopped ∧
      (∀ k : Fin 4, (Vec.at u.eng (engOf (clOf e) k)).run = false) ∧
      u.pair.clOk.getLsbD (clOf e).1 = false ∧
      logged u 0x0202 (s.objAt 1 (clOf e).1) (BitVec.ofNat 32 e.1)))

/-! ### The block as a whole -/

/-- A step takes the command at the front of the queue and executes it on the state with the queue's rest; the block has
no other agent in the model (log 1 for the empty queue: one period of CK_TIME passes; without supply and while the rails
ramp nothing happens, in reset, START_FAULT and HIBERNATE the RTC alone advances by 2 ns, and in RUN and STANDBY the
timebase advances by the increment of R199, or stands still while a backward step holds it, R221). Commands are taken first in, first out, and no command puts another into the queue: after a step the queue holds
exactly the commands that waited behind the one taken. -/
def Obligations.StepRunsFrontCommand : Prop :=
  ((∀ (c : Instr) (rest : List Instr) (s : State), step { s with pending := c :: rest } = exec c { s with pending := rest }) ∧
  (∀ s : State, s.pending = [] →
    (s.pwr.phase = .noPower ∨ s.pwr.phase = .ramping → step s = .next s) ∧
    (s.pwr.phase = .inReset ∨ s.pwr.phase = .startFault ∨ (s.pwr.phase = .hibernate ∧ s.pwr.rtcAlarm = none) →
      step s = .next { s with pwr := { s.pwr with rtc := s.pwr.rtc + 2 } }) ∧
    (s.pwr.phase = .run ∨ s.pwr.phase = .standby → (∀ e, (Vec.at s.eng e).wdtEn = false) →
      ∃ t, step s = .next t ∧
        (s.tim.stepHold = 0 → s.tim.slewLeft = 0 →
          t.tim.t = s.tim.t + (2 ^ 40 + (s.tim.rate * 2 ^ 40).floor).toNat) ∧
        (2 ^ 40 ≤ s.tim.stepHold → t.tim.t = s.tim.t ∧ t.tim.stepHold = s.tim.stepHold - 2 ^ 40)))) ∧
  (∀ s t : State, step s = .next t → t.pending = s.pending.tail)

/-- The shared memory keeps its one canonical form through every step, whatever the command: no octet listed twice, out
of order, or at the value that an unlisted octet reads as (log 3). -/
def Obligations.MemoryStaysCanonical : Prop :=
  ∀ s t : State, MemoryCanonical s → step s = .next t → MemoryCanonical t

/-- Right after reset: the queue is empty and the memory canonical; READY and FAULT are 0 and DOMAINS reads 0x403 (R46);
every lock is free (R67), every mailbox empty (R63, R65), every doorbell clear and masked (R73); every port, CAN
controller and PIO engine is HELD (R124, R343, R369), every output off (R395); every engine is held in reset (R465);
every queue is empty, with the depth of R181 (16 for those of fixed or granted depth, log 15); no personality is
loaded (R423) and the module is in SOLO (R311). -/
def Obligations.ResetState : Prop :=
  let s := State.reset
  s.pending = [] ∧ MemoryCanonical s ∧ s.pwr.ready = false ∧ s.pwr.fault = false ∧ s.pwr.domains = 0x403 ∧
  (∀ l, s.lockOwner l = 0) ∧
  (∀ n, (Vec.at s.mbx n).stat = 0 ∧ (Vec.at s.mbx n).session = none) ∧ (∀ e, (Vec.at s.emb e).stat = 0) ∧
  s.hif.s2h = 0 ∧ s.hif.s2hMask = 0xFFFFFFFF ∧ s.hif.h2sMask = 0xFFFFFFFF ∧ s.hif.stat = 0 ∧ s.hif.errcnt = 0 ∧
  (∀ p, (Vec.at s.port p).st = 0) ∧ (∀ n, (Vec.at s.can n).st = 0) ∧ (∀ k, (Vec.at s.pio k).st = 0) ∧
  (∀ d, (Vec.at s.fio.do_ d).st = 0) ∧ (∀ e, (Vec.at s.eng e).run = false) ∧
  (∀ h : Fin 256, (Vec.at s.hq h).items = [] ∧ (Vec.at s.hq h).ovf = false ∧
    (Vec.at s.hq h).depth = if h.1 < 96 then 64 else if h.1 < 144 then 128 else if h.1 < 160 then 32 else 16) ∧
  (∀ c, (Vec.at s.cl c).st = .empty) ∧ s.pair.st = 0 ∧ s.sup.jobNext = 1 ∧ s.sup.seq = 1

/-- No two instruction rows of the engines share a word: the word of a syllable, with its stop bit, tells the row, its
unit, its opcode and its operand bits (R470, R475). -/
def Obligations.SyllableWords : Prop :=
  ∀ (i j : Instr) (e : Fin 16) (p q : Bool) (x y : Syl), i.syl = some (e, p, x) → j.syl = some (e, q, y) →
    Syl.word x p = Syl.word y q → i = j

/-! ### Host interface: registers and doorbells -/

/-- The host's accesses are served and the supervisor runs (R42–R45). -/
def Sys2Proof.Claim.hostUp (s : State) : Prop := s.hostServed = true ∧ s.live = true

/-- MSI-X is enabled, no vector of it is masked, and INT_STATUS itself signals nothing (R46, R51). -/
def Sys2Proof.Claim.msixOpen (s : State) : Prop :=
  s.pwr.hifsel = 0 ∧ s.hif.pcie.linkUp = true ∧ s.hif.pcie.msixEn = true ∧ s.hif.pcie.msixMask = false ∧
    s.hif.intEn = 0 ∧ ∀ v : Fin 32, (Vec.atD s.hif.pcie.table (4 * v.1 + 3) 1).getLsbD 0 = false

/-- Bit `b` of DB_S2H has rung (R75, R76): the bit is pending; on the parallel bus and SPI nothing else of the host
interface changes, and under MSI-X vector `b` signals once if the bit was clear and is not masked. -/
def Sys2Proof.Claim.rang (s t : State) (b : Nat) : Prop :=
  let h := { s.hif with s2h := s.hif.s2h ||| BitVec.ofNat 32 (2 ^ b) }
  t.hif.s2h = h.s2h ∧ (s.pwr.hifsel ≠ 0 → t.hif = h) ∧
    (msixOpen s → t.hif = if s.hif.s2h.getLsbD b || s.hif.s2hMask.getLsbD b then h
      else { h with signals := Vec.updN h.signals b (· + 1) })

/-- An access that the module cannot serve (R46, R59): bit `b` of HIF_STAT is set, the count rises to 255 at most,
HIF_ERRADDR captures the access if it holds none, and nothing else of the module changes. -/
def Sys2Proof.Claim.failed (s t : State) (b : Nat) (win wr : Bool) (addr : Nat) : Prop :=
  t.hif.stat = s.hif.stat ||| BitVec.ofNat 6 (2 ^ b) ∧
  t.hif.errcnt.toNat = min 255 (s.hif.errcnt.toNat + 1) ∧
  t.hif.erraddr = (if s.hif.erraddr.getLsbD 31 then s.hif.erraddr
    else BitVec.ofNat 32 (0x80000000 + (if win then 0x40000000 else 0) + (if wr then 0x20000000 else 0) + addr)) ∧
  { t with hif := s.hif } = s

/-- The interrupt and doorbell registers of BAR0 (R9, R45, R46, R73–R76): HIF_STAT and INT_STATUS clear on 1 and ERRCNT
and ERRADDR with any write, DB_S2H clears on 1, a mask opened over a pending bit signals at once, a doorbell held
for the future changes nothing (a ring wakes a module in STANDBY that waits for the host, R556), writes of partial
registers and of read-only ones are ignored, a nonzero reserved field of LOCK PEEK, MB_STAT and EMB_STAT is the host's
error, and before READY all but 0x0000–0x03FF is refused. (That a write of
HIF_STAT clears the whole of HIF_ERRADDR with its VALID bit is the model's reading.) -/
def Obligations.HostRegisters : Prop :=
  (∀ (s : State) (v : W32), s.hostServed →
    exec (.hifStatWrite v) s = .next { s with hif := { s.hif with stat := s.hif.stat &&& ~~~(v.setWidth 6), errcnt := 0, erraddr := 0 } }) ∧
  (∀ (s : State) (v : W32), s.hostServed →
    exec (.intStatusWrite v) s = .next { s with hif := { s.hif with stchg := s.hif.stchg && !v.getLsbD 2 } }) ∧
  (∀ (s : State) (v : W32), hostUp s →
    exec (.dbS2hClear v) s = .next { s with hif := { s.hif with s2h := s.hif.s2h &&& ~~~v } }) ∧
  (∀ (s : State) (v : W32), hostUp s →
    ∃ t, exec (.dbS2hMaskWrite v) s = .next t ∧ t.hif.s2h = s.hif.s2h ∧ t.hif.s2hMask = v ∧ { t with hif := s.hif } = s ∧
      (s.pwr.hifsel ≠ 0 → t.hif = { s.hif with s2hMask := v }) ∧
      (msixOpen s → ∀ b : Fin 32, Vec.at t.hif.signals b = Vec.at s.hif.signals b +
        (if s.hif.s2h.getLsbD b.1 && s.hif.s2hMask.getLsbD b.1 && !v.getLsbD b.1 then 1 else 0))) ∧
  (∀ (s : State) (b : Fin 8), hostUp s → exec (.dbH2sFutureRing b) s = .next
    (if s.pwr.phase = .standby ∧ s.pwr.wakeWord.getLsbD 2 then s.wakeStandby else s)) ∧
  (∀ (s : State) (off : BitVec 16) (lanes : BitVec 4) (v : W32), hostUp s → off.toNat < 0x1000 →
    s.bar0Err (off.toNat / 4 * 4) = none →
    (lanes ≠ 15 → exec (.registerWrite (.bar0 .host off lanes v)) s = .next s) ∧
    (off.toNat < 0x1C ∨ (0x20 ≤ off.toNat ∧ off.toNat < 0x100) ∨ (0x108 ≤ off.toNat ∧ off.toNat < 0x200) ∨
        (0x460 ≤ off.toNat ∧ off.toNat < 0x600) ∨ (0x604 ≤ off.toNat ∧ off.toNat < 0x610) ∨
        (0x61C ≤ off.toNat ∧ off.toNat < 0x700) ∨ (0x740 ≤ off.toNat ∧ off.toNat < 0x800) ∨
        (0x800 ≤ off.toNat ∧ off.toNat < 0x900 ∧ off.toNat % 16 < 4) ∨ 0x900 ≤ off.toNat →
      lanes = 15 →
      let rsv : W32 := if 0x500 ≤ off.toNat ∧ off.toNat < 0x560 then 0xFFFFFF00 else
        if 0x640 ≤ off.toNat ∧ off.toNat < 0x660 then 0xFFFFC0FC else
        if 0x800 ≤ off.toNat ∧ off.toNat < 0x900 then 0xFFFFFFFC else 0
      if v &&& rsv = 0 then exec (.registerWrite (.bar0 .host off lanes v)) s = .next s
      else ∃ obj, exec (.registerWrite (.bar0 .host off lanes v)) s = .fault (.hostError obj)) ∧
    (off = 0x104 → lanes = 15 → s.hif.intStatus = 0 →
      exec (.registerWrite (.bar0 .host off lanes v)) s = .next { s with hif := { s.hif with intEn := v.setWidth 3 } }) ∧
    (off = 0x618 → lanes = 15 →
      exec (.registerWrite (.bar0 .host off lanes v)) s = .next { s with hif := { s.hif with s2hWake := v } })) ∧
  (∀ (s : State) (off : BitVec 16) (lanes : BitVec 4) (v : W32), s.hostServed → s.live = false → 0x400 ≤ off.toNat →
    ∃ t, exec (.registerWrite (.bar0 .host off lanes v)) s = .next t ∧ failed s t 0 false true (off.toNat / 4 * 4)) ∧
  (∀ (s : State) (e : Fin 16) (v : W32), alive s e →
    exec (.registerWrite (.engine e 0x60000310 v)) s = .next (State.settle (s.updCl (clOf e) fun k => { k with tsOffLo := v })) ∧
    exec (.registerWrite (.engine e 0x60000314 v)) s = .next (State.settle (s.updCl (clOf e) fun k => { k with tsOffHi := v })) ∧
    exec (.registerWrite (.engine e 0x60000318 v)) s = .next (State.settle (s.updCl (clOf e) fun k => { k with tsAt := v })) ∧
    (v.toNat < 128 → exec (.registerWrite (.engine e 0x60000A00 v)) s = .next (State.settle (s.updCl (clOf e) fun k =>
      { k with supdb := k.supdb &&& ~~~v }))))

/-! ### Mailboxes -/

/-- The supervisor mailboxes (R61–R63, R84, R85, R87, R98, R111). A post hands the message in the inbound buffer, 16 + LEN
octets, to Sundom and rings DB_S2H bit 8 + n; a release frees the outbound buffer, and the next message of OUTQ,
responses first past notifications that wait for their slot, goes into it and rings bit n; a release of an empty
buffer has no effect. Post and release belong to the owner of the lock: another's, and any on a channel that a 33rd
message has met, is the host's error, confined to that mailbox. A ring wakes a module in STANDBY that waits for the
host. (That Sundom copies the message within the post is the model's choice, log 1; that a post or release without the
lock is an error and not a ring without effect is its reading of R62, log 8.) -/
def Obligations.Mailboxes : Prop :=
  (∀ (s : State) (n : Fin 8), hostUp s →
    let x := Vec.at s.mbx n
    let h := fun i => (memRead x.inBuf i).toNat
    x.lock = 1 → x.overrun = false → x.inFull = false → h 4 + 256 * h 5 ≤ 1008 → h 6 < 16 → h 7 = 0 → h 14 = 0 → h 15 = 0 →
    ∃ t, exec (.mbInboundPost n) s = .next t ∧ rang s t (8 + n.1) ∧
      { t with hif := s.hif } = s.hostWake.updMbx n fun x => { x with
        taken := x.taken ++ [memReadN x.inBuf 0 (16 + (h 4 + 256 * h 5))] }) ∧
  (∀ (s : State) (n : Fin 8), hostUp s → (Vec.at s.mbx n).outFull = false →
    exec (.mbOutboundRelease n) s = .next s.hostWake) ∧
  (∀ (s : State) (n : Fin 8), hostUp s → (Vec.at s.mbx n).lock ≠ 1 ∨ (Vec.at s.mbx n).overrun = true →
    exec (.mbInboundPost n) s = .fault (.hostError (s.objAt 8 n.1)) ∧
    ((Vec.at s.mbx n).outFull = true → exec (.mbOutboundRelease n) s = .fault (.hostError (s.objAt 8 n.1)))) ∧
  (∀ (s : State) (n : Fin 8), hostUp s → (Vec.at s.mbx n).outFull = true → (Vec.at s.mbx n).lock = 1 →
    (Vec.at s.mbx n).overrun = false →
    (∀ m ∈ (Vec.at s.mbx n).outq, m.held = true ∧ (Vec.at s.mbx n).slotOpen = false) →
    exec (.mbOutboundRelease n) s = .next (s.hostWake.updMbx n fun x => { x with outFull := false })) ∧
  (∀ (s : State) (n : Fin 8) (l r : List OutMsg) (m : OutMsg), hostUp s → (Vec.at s.mbx n).outFull = true →
    (Vec.at s.mbx n).lock = 1 → (Vec.at s.mbx n).overrun = false → (Vec.at s.mbx n).outq = l ++ m :: r → m.code ≠ 0xF001 →
    (if (Vec.at s.mbx n).slotOpen then l = [] ∧ (m.held = true → ∀ y ∈ r, y.code ≠ 0xF001) else m.held = false ∧ ∀ y ∈ l, y.held = true) →
    ∃ t, exec (.mbOutboundRelease n) s = .next t ∧ rang s t n.1 ∧
      { t with hif := s.hif } = s.hostWake.updMbx n fun x => { x with
        outq := l ++ r, outBuf := memWriteN x.outBuf 0 m.bytes, slotOpen := x.slotOpen && !m.held })

/-- A master that reaches a lock in this state: by BAR0, by the engine map from a running engine, or directly. A PCIe
access is HOST's or its DMA's by its Requester ID (R71). -/
def Sys2Proof.Claim.reaches (s : State) (l : Fin 24) (m : Master) : Prop :=
  match s.resolve m with
  | .eng e => alive s e ∧ s.lockReach (.eng e) l = true
  | .supv => s.lockReach .supv l = true
  | .peer => s.lockReach .peer l = true
  | m => s.isHost m = true ∧ s.lockReach m l = true

/-- A master that may post to EMBe or release its outbound buffer: the host and its DMA through BAR0, the supervisor and
the pair's Aklos directly, another engine of the cluster through the engine map; never a checker's mailbox. -/
def Sys2Proof.Claim.embReach (s : State) (e : Fin 16) (m : Master) : Prop :=
  match s.resolve m with
  | .eng f => alive s f ∧ clOf e = clOf f ∧ e ≠ f ∧ s.checker e = false
  | .supv => s.live = true ∧ s.embUp e = true
  | .peer => s.live = true ∧ s.embUp e = true
  | m => s.isHost m = true ∧ s.live = true ∧ s.embUp e = true ∧ s.pwr.phase = .run

/-- The locks (R67–R70): of the masters that read a free lock in one cycle, the one with the lowest ID becomes the
owner; a read of a held lock changes nothing; a write frees the lock only when the owner writes its own ID, and is
the host's error with a reserved bit. The host's read over PCIe completes with the word read, or as a Completer Abort before
READY (R59). A command of an engine then lets an unhealthy paired module withdraw (R327).
The engine mailboxes and the doorbells between host and engines (R64–R66, R73, R80, R83): a post by the owner of the
lock fills the inbound buffer and a reader's release empties the outbound one, both with EVP bit 4 in engine e;
engine e's own IN_REL and OUT_POST raise no event, and its own POST and OUT_REL are ignored; ENG_DB sets EVP bit 2
in a running engine, stays in RING for one held in reset, and requests a powered-down cluster whose WAKEEN is set;
ENG_S2H rings the granted bits among 24–31 and no other. -/
def Obligations.LocksAndEngineMailboxes : Prop :=
  ((∀ (s : State) (l : Fin 24) (m w : Master) (others : List Master), s.unhealthy = false →
    reaches s l m → (∀ x ∈ others, reaches s l x) → w ∈ m :: others →
    (∀ x ∈ m :: others, (Master.id (s.resolve w)).toNat ≤ (Master.id (s.resolve x)).toNat) →
    ∃ t, exec (.lockAcquire m l others) s = .next t ∧ ({ t with hif := s.hif } : State) =
      (if s.lockOwner l = 0 then s.setLock l (Master.id (s.resolve w)) else s)) ∧
  (∀ (s : State) (l : Fin 24) (m : Master), s.pwr.hifsel = 0 → s.hostServed = true → s.resolve m = .host ∨ s.resolve m = .dma →
    (s.lockReach .host l = true → exec (.lockAcquire m l []) s = .next
      ((if s.lockOwner l = 0 then s.setLock l (Master.id (s.resolve m)) else s).updHif fun h => { h with
        rdata := [(s.lockOwner l).setWidth 32], rerr := false })) ∧
    (s.live = false →
      ∃ t, exec (.lockAcquire m l []) s = .next t ∧ failed s t 0 false false (0x400 + 4 * l.1) ∧ t.hif.rerr = true)) ∧
  (∀ (s : State) (l : Fin 24) (m : Master) (v : W32), s.unhealthy = false → reaches s l m → v.toNat < 256 →
    exec (.lockRelease m l v) s = .next
      (if s.lockOwner l = Master.id (s.resolve m) ∧ v.toNat = (Master.id (s.resolve m)).toNat then s.setLock l 0 else s)) ∧
  (∀ (s : State) (l : Fin 24) (m : Master) (v : W32), s.resolve m = .host ∨ s.resolve m = .dma → reaches s l m → 256 ≤ v.toNat →
    ∃ obj : W16, exec (.lockRelease m l v) s = .fault (.hostError obj))) ∧
  ((∀ (s : State) (m : Master) (e : Fin 16), s.unhealthy = false → embReach s e m →
    ((Vec.at s.emb e).lock = Master.id (s.resolve m) → (Vec.at s.emb e).inFull = false →
      exec (.embPost m e) s = .next ((s.updEmb e fun x => { x with inFull := true }).evp e 4)) ∧
    exec (.embOutRel m e) s = .next ((s.updEmb e fun x => { x with outFull := false }).evp e 4)) ∧
  (∀ (s : State) (e : Fin 16), s.unhealthy = false → alive s e →
    exec (.embInRel e) s = .next (s.updEmb e fun x => { x with inFull := false }) ∧
    exec (.embOutPost e) s = .next (s.updEmb e fun x => { x with outFull := true }) ∧
    exec (.embPost (.eng e) e) s = .next s ∧ exec (.embOutRel (.eng e) e) s = .next s) ∧
  (∀ (s : State) (e : Fin 16), hostUp s → s.checker e = false →
    (s.powered (clDomain (clOf e)) → (Vec.at s.eng e).run = true →
      exec (.engDbRing e) s = .next (s.hostWake.evp e 2)) ∧
    (s.powered (clDomain (clOf e)) → (Vec.at s.eng e).run = false →
      exec (.engDbRing e) s = .next (s.hostWake.updEmb e fun x => { x with ring := true })) ∧
    (s.powered (clDomain (clOf e)) = false →
      exec (.engDbRing e) s = .next
        ((s.hostWake.updEmb e fun x => { x with ring := true }).updPwr fun p => { p with
          requests := p.requests ++ if (Vec.at s.emb e).wakeEn then [⟨finOf 12 (2 + e.1 / 4), true⟩] else [] }))) ∧
  (∀ (s : State) (e : Fin 16) (v : W32), s.unhealthy = false → alive s e →
    ∃ t, exec (.engS2hRing e v) s = .next t ∧
      t.hif.s2h = s.hif.s2h ||| (v &&& BitVec.ofNat 32 ((Vec.at s.cl (clOf e)).grant.toNat * 0x1000000)) ∧
      { t with hif := s.hif, pwr := s.pwr } = s ∧
      (s.powered 10 = true → t.pwr = s.pwr) ∧ (s.pwr.hifsel ≠ 0 → t.hif = { s.hif with s2h := t.hif.s2h })))

/-! ### Host interface: the buses -/

/-- The host reaches shared memory and nothing in it is borrowed, damaged or misused: its octets can be read and written
plainly (R26, R27, R526, R527). -/
def Sys2Proof.Claim.plainShm (s : State) : Prop :=
  s.live = true ∧ s.powered 6 = true ∧ s.shmBad = [] ∧ s.selft.shmBorrow.active = false ∧ s.unhealthy = false

/-- A run of octets of BAR1 that no process image, no state or relay area of a pair and no running LOAD_CUSTOM forbids the
host to write (R27, R60, R314, R434). -/
def Sys2Proof.Claim.mayWrite (s : State) (off : Nat) (bs : List (Option Byte)) : Prop :=
  off + bs.length ≤ 0x800000 ∧
    ∀ c : Fin 4, s.piMisuse c off bs = false ∧ s.areaMisuse c off bs = false ∧ s.imageMisuse c off bs = false

/-- The status byte of SPI (R56). -/
def Sys2Proof.Claim.statusByte (s : State) (err rdy : Bool) : Byte :=
  BitVec.ofNat 8 ((if err then 128 else 0) + (if s.hif.spiPrevErr then 64 else 0) +
    (if s.hif.intStatus &&& s.hif.intEn = 0 then 0 else 32) + (if s.pwr.ready then 0 else 16) + if rdy then 1 else 0)

/-- The parallel bus (R52, R53): a low-half read of a register captures it whole, acquiring a free lock once, and drives its
low half on HD; a high-half read drives the other half of the capture; BERR_N stays high on a served access; a low-half write with both lanes is held and with one lane leaves nothing pending; a high-half
write writes all 32 bits of the register held, and with no such low half it is ignored and sets HALF. (That one with a lane
missing takes the pending low half with it is the model's choice, log 74.) An outbound buffer and shared memory are plain
16-bit memory, the latter written under its byte lanes. Quad SPI (R54–R57): READ0 fetches registers and READ1 words of shared
memory, count + 1 of them from the address with its bits [1:0] dropped; WRITE0 and WRITE1 put words into an inbound
buffer that the host owns and into shared memory, and are discarded with OVERRUN while the last write has not
drained; STATUS sends its byte and then clears PREV_ERR; an unknown command byte sets BADCMD; a rise of CS_N during
read data drops the rest. -/
def Obligations.ParallelBusAndQuadSpi : Prop :=
  ((∀ (s : State) (off : BitVec 23), s.hostOn 1 → s.unhealthy = false → off.toNat < 0x1000 →
    s.bar0Err (off.toNat / 4 * 4) = none →
    (off.toNat < 0x400 ∨ 0x460 ≤ off.toNat → exec (.parLowHalfRead false off) s = .next { s with
      hif := { s.hif with parHold := s.bar0Reg (off.toNat / 4 * 4)
                          hd := (s.bar0Reg (off.toNat / 4 * 4)).setWidth 16, berr := false } }) ∧
    (∀ l : Fin 24, off.toNat = 0x400 + 4 * l.1 → exec (.parLowHalfRead false off) s = .next
      ((if s.lockOwner l = 0 then s.setLock l 1 else s).updHif fun h => { h with
        parHold := (s.lockOwner l).setWidth 32, hd := (s.lockOwner l).setWidth 16, berr := false })) ∧
    exec (.parHighHalfRead false off) s = .next { s with
      hif := { s.hif with hd := BitVec.ofNat 16 (s.hif.parHold.toNat / 0x10000), berr := false } } ∧
    (∀ (lanes : BitVec 2) (v : W16), exec (.parLowHalfWrite false off lanes v) s = .next { s with
      hif := { s.hif with berr := false, parLow := if lanes = 3 then some ⟨BitVec.ofNat 23 (off.toNat / 4 * 4), v⟩ else none } }) ∧
    (∀ (v lo : W16), s.hif.parLow = some ⟨BitVec.ofNat 23 (off.toNat / 4 * 4), lo⟩ →
      exec (.parHighHalfWrite false off 3 v) s =
        exec (.registerWrite (.bar0 .host (BitVec.ofNat 16 off.toNat) 15 (v ++ lo)))
          { s with hif := { s.hif with parLow := none, berr := false } }) ∧
    (∀ (lanes : BitVec 2) (v lo : W16), lanes ≠ 3 → s.hif.parLow = some ⟨BitVec.ofNat 23 (off.toNat / 4 * 4), lo⟩ →
      exec (.parHighHalfWrite false off lanes v) s = .next { s with hif := { s.hif with parLow := none, berr := false } }) ∧
    (∀ (lanes : BitVec 2) (v : W16), (∀ x, s.hif.parLow = some x → x.off.toNat ≠ off.toNat / 4 * 4) →
      ∃ t, exec (.parHighHalfWrite false off lanes v) s = .next t ∧ t.hif.stat = s.hif.stat ||| 8 ∧ { t with hif := s.hif } = s)) ∧
  (∀ (s : State) (off : BitVec 23) (n : Fin 8) (i : Nat), s.hostOn 1 → s.live → i < 512 →
    off.toNat = 0x1400 + 0x800 * n.1 + 2 * i →
    let u := { s with hif := { s.hif with
      hd := BitVec.ofNat 16 ((memRead (Vec.at s.mbx n).outBuf (2 * i)).toNat + 256 * (memRead (Vec.at s.mbx n).outBuf (2 * i + 1)).toNat)
      berr := false } }
    exec (.parLowHalfRead false off) s = .next u ∧ exec (.parHighHalfRead false off) s = .next u) ∧
  (∀ (s : State) (off : BitVec 23) (lanes : BitVec 2) (v : W16), s.hostOn 1 → plainShm s →
    (let a := off.toNat / 2 * 2
     let u := { s with hif := { s.hif with
       hd := BitVec.ofNat 16 ((memRead s.shm a).toNat + 256 * (memRead s.shm (a + 1)).toNat), berr := false } }
     exec (.parLowHalfRead true off) s = .next u ∧ exec (.parHighHalfRead true off) s = .next u) ∧
    (let a := off.toNat / 2 * 2
     let lane := fun (i : Nat) => if lanes.getLsbD i then some (BitVec.ofNat 8 (v.toNat / 2 ^ (8 * i))) else none
     let t := { s with shm := memWriteLanes s.shm a [lane 0, lane 1], hif := { s.hif with berr := false } }
     mayWrite s a [lane 0, lane 1] →
       exec (.parLowHalfWrite true off lanes v) s = .next t ∧ exec (.parHighHalfWrite true off lanes v) s = .next t))) ∧
  ((∀ (s : State) (addr : BitVec 24) (count : BitVec 8), s.hostOn 2 →
    let n := count.toNat + 1
    let off := addr.toNat % 0x10000 / 4 * 4
    off + 4 * n ≤ 0x400 → (off + 4 * n ≤ 0x100 ∨ 0x100 ≤ off) →
    let ws := (List.range n).map fun i => s.bar0Reg (off + 4 * i)
    exec (.read0 addr count) s = .next { s with hif := { s.hif with
      spiBusy := false, rdata := ws, spiOut := ws, rerr := false, spiStatus := statusByte s false true } }) ∧
  (∀ (s : State) (addr : BitVec 24) (count : BitVec 8), s.hostOn 2 → plainShm s →
    let n := count.toNat + 1
    let off := addr.toNat % 0x800000 / 4 * 4
    off + 4 * n ≤ 0x800000 →
    let ws := (List.range n).map fun i => memWord s.shm (off + 4 * i)
    exec (.read1 addr count) s = .next { s with hif := { s.hif with
      spiBusy := false, rdata := ws, spiOut := ws, rerr := false, spiStatus := statusByte s false true } }) ∧
  (∀ (s : State) (drained : Bool) (addr : BitVec 24) (words : List W32) (n : Fin 8), s.hostOn 2 → s.live →
    s.hif.spiBusy = false ∨ drained →
    let off := addr.toNat % 0x10000 / 4 * 4
    0x1000 + 0x800 * n.1 ≤ off → off + 4 * words.length ≤ 0x1400 + 0x800 * n.1 →
    (Vec.at s.mbx n).lock = 1 → (Vec.at s.mbx n).overrun = false → (Vec.at s.mbx n).inFull = false →
    words ≠ [] →
    exec (.write0 drained addr words) s = .next { (s.hostWake.updMbx n fun x => { x with
        inBuf := memWriteN x.inBuf (off - (0x1000 + 0x800 * n.1)) (words.flatMap fun w => leBytes 4 w.toNat) }) with
      hif := { s.hif with spiBusy := true } }) ∧
  (∀ (s : State) (drained : Bool) (addr : BitVec 24) (words : List W32), s.hostOn 2 → plainShm s →
    s.hif.spiBusy = false ∨ drained →
    let off := addr.toNat % 0x800000 / 4 * 4
    let bs := words.flatMap fun w => leBytes 4 w.toNat
    mayWrite s off (bs.map some) →
    exec (.write1 drained addr words) s = .next { s with shm := memWriteN s.shm off bs, hif := { s.hif with spiBusy := true } }) ∧
  (∀ (s : State) (addr : BitVec 24) (words : List W32), s.hostOn 2 → s.hif.spiBusy = true →
    (∃ t, exec (.write0 false addr words) s = .next t ∧ t.hif.stat = s.hif.stat ||| 32 ∧ { t with hif := s.hif } = s) ∧
    (∃ t, exec (.write1 false addr words) s = .next t ∧ t.hif.stat = s.hif.stat ||| 32 ∧ { t with hif := s.hif } = s)) ∧
  (∀ (s : State) (drained : Bool), s.hostOn 2 → exec (.spiStatus drained) s = .next { s with hif := { s.hif with
      spiBusy := s.hif.spiBusy && !drained, spiPrevErr := false
      spiStatus := statusByte s false (!s.hif.spiBusy || drained) } }) ∧
  (∀ (s : State) (b : Byte), s.hostOn 2 → b ∉ [0x30, 0x31, 0x38, 0x39, 0x05] →
    ∃ t, exec (.spiBadCommand b) s = .next t ∧ t.hif.stat = s.hif.stat ||| 16 ∧ { t with hif := s.hif } = s) ∧
  (∀ (s : State) (sent : Nat), s.hostOn 2 →
    exec (.spiCsNRise (.read sent)) s = .next { s with hif := { s.hif with spiOut := s.hif.spiOut.take sent } } ∧
    exec (.spiCsNRise .address) s = .next s ∧ exec (.spiCsNRise .done) s = .next s ∧
    (∀ ws k, exec (.spiCsNRise (.write ws k)) s = .next s)))

/-- PCI Express and the writes of whole runs (R26, R44, R48, R58, R59, R71, R72, R80). PERST_N resets the link's part of
the HIF domain and frees the locks of HOST and its DMA, leaving buffers, doorbells and the rest of the module alone;
the first configuration write fixes HOST's Requester ID, BAR0 decodes 64 KiB and BAR1 8 MiB prefetchable; an
abandoned access sets TIMEOUT and never lands. -/
def Obligations.PcieAndRuns : Prop :=
  (∀ s : State, s.pwr.hifsel = 0 → s.powered 10 →
    ∃ t, exec .perstN s = .next t ∧ t.hif.pcie.linkUp = false ∧ t.hif.pcie.hostRid = none ∧ t.hif.pcie.bar0 = 0 ∧
      t.hif.pcie.msixEn = false ∧
      (∀ l, t.lockOwner l = if s.lockOwner l = 1 ∨ s.lockOwner l = 4 then 0 else s.lockOwner l) ∧
      (∀ n, { Vec.at t.mbx n with lock := 0 } = { Vec.at s.mbx n with lock := 0 }) ∧
      (∀ e, { Vec.at t.emb e with lock := 0 } = { Vec.at s.emb e with lock := 0 }) ∧
      t.hif.stat = s.hif.stat ∧ t.hif.s2h = s.hif.s2h ∧ t.hif.s2hMask = s.hif.s2hMask ∧ t.hif.intEn = s.hif.intEn ∧
      { t with hif := s.hif, mbx := s.mbx, emb := s.emb } = s) ∧
  (∀ s : State, s.pwr.hifsel ≠ 0 → exec .perstN s = .next s) ∧
  (∀ s : State, s.pwr.hifsel = 0 → s.powered 10 → s.hif.pcie.pba = 0 → s.hif.pcie.owed = 0 →
    exec .pcieLinkUp s = .next { s with hif := { s.hif with pcie := { s.hif.pcie with linkUp := true } } }) ∧
  (∀ s : State, s.pwr.hifsel = 0 → s.powered 10 → s.hif.pcie.pba = 0 → msixOpen { s with hif := { s.hif with pcie := { s.hif.pcie with linkUp := true } } } →
    ∃ t, exec .pcieLinkUp s = .next t ∧ t.hif.pcie.owed = 0 ∧ ∀ b : Fin 31, Vec.at t.hif.signals (Fin.ofNat 32 b.1) =
      Vec.at s.hif.signals (Fin.ofNat 32 b.1) + if s.hif.pcie.owed.getLsbD b.1 then 1 else 0) ∧
  (∀ (s : State) (rid : W16) (v : W64), s.pwr.hifsel = 0 → s.powered 10 → s.hif.pcie.linkUp = true →
    s.hif.pcie.pba = 0 → s.hif.pcie.owed = 0 →
    let w : W32 := v.setWidth 32
    let p := { s.hif.pcie with hostRid := some (s.hif.pcie.hostRid.getD rid) }
    let after (q : Pcie) : Host.Outcome State Fault Refusal := .next { s with hif := { s.hif with pcie := q } }
    exec (.pcieConfigWrite rid .bar0 v) s = after { p with bar0 := BitVec.ofNat 32 (w.toNat / 0x10000 * 0x10000) } ∧
    exec (.pcieConfigWrite rid .bar1 v) s = after { p with bar1 := BitVec.ofNat 32 (w.toNat / 0x800000 * 0x800000 + 8) } ∧
    exec (.pcieConfigWrite rid .command v) s = after { p with command := v.setWidth 16 } ∧
    exec (.pcieConfigWrite rid .pmState v) s = after { p with d3hot := decide (w.toNat % 4 = 3) } ∧
    exec (.pcieConfigWrite rid .msixControl v) s = after { p with msixEn := w.getLsbD 15, msixMask := w.getLsbD 14 } ∧
    exec (.pcieConfigWrite rid .msiMask v) s = after { p with msiMask := w } ∧
    exec (.pcieConfigWrite rid .msiData v) s = after { p with msiData := v.setWidth 16 } ∧
    exec (.pcieConfigWrite rid .other v) s = after p) ∧
  (∀ (s : State) (m : Master) (write : Bool) (off : BitVec 23), s.isHost (s.resolve m) →
    ∃ t, exec (.accessAbandoned m write off) s = .next t ∧ failed s t 2 true write off.toNat) ∧
  (∀ (s : State) (m : Master) (off : BitVec 23) (bs : List (Option Byte)), s.isHost (s.resolve m) → plainShm s → mayWrite s off.toNat bs →
    exec (.hostMemoryWrite m true off bs) s = .next { s with shm := memWriteLanes s.shm off.toNat bs }) ∧
  (∀ (s : State) (m : Master) (n : Fin 8) (off : BitVec 23) (bs : List Byte), s.isHost (s.resolve m) → s.live → bs ≠ [] →
    0x1000 + 0x800 * n.1 ≤ off.toNat → off.toNat + bs.length ≤ 0x1400 + 0x800 * n.1 →
    (Vec.at s.mbx n).lock = Master.id (s.resolve m) → (Vec.at s.mbx n).overrun = false → (Vec.at s.mbx n).inFull = false →
    exec (.hostMemoryWrite m false off (bs.map some)) s = .next (s.hostWake.updMbx n fun x => { x with
      inBuf := memWriteN x.inBuf (off.toNat - (0x1000 + 0x800 * n.1)) bs })) ∧
  (∀ (s : State) (m : Master) (off : BitVec 23) (bs : List (Option Byte)), s.isHost (s.resolve m) → s.live → s.powered 6 = false →
    ∃ t, exec (.hostMemoryWrite m true off bs) s = .next t ∧ failed s t 1 true true off.toNat)

/-! ### Supply, resets, start-up -/

/-- The module as a reset leaves it, with its place in the start-up sequence, the cause and the eFuse's inputs given: all
RAM, sessions, personalities and totals are gone, and only the straps' last sample, the RTC, the flash and the fuses
stand (R553, R564). -/
def Sys2Proof.Claim.fresh (s : State) (phase : Phase) (cause : Nat) (f : Power → Power) : State :=
  State.afterReset (f { Power.zero with phase := phase, cause := cause, efuse := s.pwr.efuse, vinOn := s.pwr.vinOn, rstLow := s.pwr.rstLow, hifsel := s.pwr.hifsel, mpos := s.pwr.mpos, rtc := s.pwr.rtc, rtcSet := s.pwr.rtcSet, slots := s.pwr.slots, preferred := s.pwr.preferred, rollback := s.pwr.rollback, keyHash := s.pwr.keyHash })
    s.free s.pending

/-- The module without power: every domain is reset, the RTC in AON included, and nothing is powered. -/
def Sys2Proof.Claim.dark (s : State) (efuse : Efuse) (vinOn : Bool) : State :=
  fresh s .noPower 1 fun p => { p with efuse := efuse, vinOn := vinOn, rtc := 0, rtcSet := false, domains := 0 }

/-- The supply (R552, R553, R579) and the causes of a module reset (R564): VIN and the eFuse start the module from step
1 only together; losing either resets every domain and the RTC; RST_N, the supervisor watchdog and the lockstep
reset everything but the RTC, the flash and the fuses, with causes 2, 4 and 5, and start-up resumes at step 3. An
event that does not apply in the present state changes nothing but the level it reports. -/
def Obligations.SupplyAndResets : Prop :=
  (∀ s : State, exec .vinOn s = .next (if s.pwr.phase = .noPower ∧ s.pwr.efuse = .closed then
      fresh s .ramping 1 fun p => { p with vinOn := true } else { s with pwr := { s.pwr with vinOn := true } })) ∧
  (∀ s : State, exec .vinOff s = .next (if s.pwr.phase = .noPower then { s with pwr := { s.pwr with vinOn := false } }
      else dark s s.pwr.efuse false)) ∧
  (∀ s : State, s.pwr.phase ≠ .noPower → s.pwr.efuse = .closed →
    exec .vinOvlo s = .next (dark s .openOvlo s.pwr.vinOn) ∧ exec .efuseTrip s = .next (dark s .openTrip s.pwr.vinOn) ∧
    exec .mateBreak s = .next (dark s .openMate s.pwr.vinOn)) ∧
  (∀ s : State, s.pwr.phase = .noPower →
    let t := if s.pwr.vinOn then fresh s .ramping 1 fun p => { p with efuse := .closed }
      else { s with pwr := { s.pwr with efuse := .closed } }
    exec .vinOvloRelease s = .next (if s.pwr.efuse = .openOvlo then t else s) ∧
    exec .efuseRetry s = .next (if s.pwr.efuse = .openTrip then t else s) ∧
    exec .mateSettled s = .next (if s.pwr.efuse = .openMate then t else s)) ∧
  (∀ s : State, exec .rstNLow s = .next (if s.pwr.phase = .noPower ∨ s.pwr.phase = .ramping then
      { s with pwr := { s.pwr with rstLow := true } } else fresh s .inReset 2 fun p => { p with rstLow := true })) ∧
  (∀ s : State, exec .supWatchdogReset s = .next (if s.pwr.phase = .run ∨ s.pwr.phase = .standby then
      fresh s .inReset 4 id else s)) ∧
  (∀ s : State, exec .supLockstep s = .next (if s.pwr.phase = .run ∨ s.pwr.phase = .standby then
      fresh s .inReset 5 fun p => { p with lockstepSeen := true } else s))

/-- Start-up from the release of the internal reset (R565–R568, R571–R573). A failure leaves FAULT, READY 0 and
HEARTBEAT with KIND 0xFA, the fault code, the slot and the cause, in the order of the checks. A slot whose image
passes verification boots: READY, TRIES 3 and CONFIRMED, DOMAINS 0x443, HEARTBEAT 0, the straps as sampled, the
timebase from the RTC to within 30.5 µs or 0 when the RTC was never set; with BOOTSEL automatic it is the preferred
slot while it has tries left, else the other. While RST_N is low nothing happens. -/
def Obligations.StartUp : Prop :=
  (∀ (s : State) (b : Boot), s.pwr.phase = .inReset ∨ s.pwr.phase = .ramping →
    (b.rstHigh = false → exec (.resetRelease b) s = .next s) ∧
    (∀ code : Nat, b.rstHigh = true → (if b.testen then code = 1 else if b.bootsel = 3 then code = 2 else if b.fuseErr then code = 8
        else if b.memErr then code = 9 else b.flashErr = true ∧ code = 7) →
      ∃ t, exec (.resetRelease b) s = .next t ∧ t.pwr.phase = .startFault ∧ t.pwr.ready = s.pwr.ready ∧ t.pwr.fault = true ∧
        t.pwr.heartbeat.toNat / 0x10000 = 0xFA00 + code ∧ t.pwr.heartbeat.toNat % 256 = s.pwr.cause % 256 ∧
        t.pwr.slots = s.pwr.slots ∧ t.pwr.hifsel = b.hifsel ∧ t.pwr.mpos = b.mpos ∧ t.hif.stchg = true ∧
        { t with pwr := s.pwr, hif := s.hif } = s) ∧
    (∀ d : Nat, b.rstHigh = true → b.testen = false → b.bootsel.1 < 2 → b.fuseErr = false → b.memErr = false → b.flashErr = false →
      s.slotFault (Fin.ofNat 2 b.bootsel.1) = some d →
      ∃ t, exec (.resetRelease b) s = .next t ∧ t.pwr.fault = true ∧ t.pwr.phase = .startFault ∧
        t.pwr.heartbeat.toNat = 0xFA000000 + (if d = 3 then 6 else if d = 2 then 5 else 4) * 0x10000 + b.bootsel.1 * 256 + s.pwr.cause % 256)) ∧
  (∀ (s : State) (b : Boot) (i : Fin 2), s.pwr.phase = .inReset ∨ s.pwr.phase = .ramping →
    b.rstHigh = true → b.testen = false → b.fuseErr = false → b.memErr = false → b.flashErr = false → b.shmErr = false →
    b.hifsel ≠ 3 → s.pwr.lockstepSeen = false → s.slotFault i = none →
    (b.bootsel.1 = i.1 ∨ (b.bootsel = 2 ∧ (Vec.at s.pwr.slots i).tries ≠ 0 ∧
      (s.pwr.preferred = i ∨ (Vec.at s.pwr.slots s.pwr.preferred).tries = 0 ∨ (s.slotFault s.pwr.preferred).isSome))) →
    ∃ t, exec (.resetRelease b) s = .next t ∧ t.pwr.phase = .run ∧ t.pwr.ready = true ∧ t.pwr.fault = false ∧
      t.pwr.bootimg = decide (i = 1) ∧ t.pwr.domains = 0x443 ∧ t.pwr.heartbeat = 0 ∧ t.pwr.hifsel = b.hifsel ∧ t.pwr.mpos = b.mpos ∧
      (Vec.at t.pwr.slots i).tries = 3 ∧ (Vec.at t.pwr.slots i).confirmed = true ∧
      (∀ j, j ≠ i → Vec.at t.pwr.slots j = Vec.at s.pwr.slots j) ∧
      t.pwr.keyHash = s.pwr.keyHash ∧ s.pwr.rollback ≤ t.pwr.rollback ∧ t.hif.stchg = true ∧
      (s.pwr.rtcSet = false → t.tim.t = 0) ∧
      (s.pwr.rtcSet = true → t.tim.t / 2 ^ 39 ≤ s.pwr.rtc + 30500 ∧ s.pwr.rtc ≤ t.tim.t / 2 ^ 39 + 30500) ∧
      t.tim.freeStep = true ∧
      { t with pwr := s.pwr, hif := s.hif, tim := s.tim, sup := s.sup, free := s.free } = s)

/-! ### Power states, domains, the voltage loop, the RTC -/

/-- A wake source acts (R556, R557): from STANDBY the module returns to RUN and requests the domains that were powered at
entry, SHM first, then the clusters, NETG, NETL, LINK and FIO; from HIBERNATE start-up begins at step 2 with cause 6. -/
def Sys2Proof.Claim.woken (s : State) : State :=
  if s.pwr.phase = .standby then { s with pwr := { s.pwr with
    phase := .run, wakeWord := 0, rtcAlarm := none, restore := 0
    requests := s.pwr.requests ++ (([6, 2, 3, 4, 5, 7, 8, 9, 11] : List (Fin 12)).filter fun d => s.pwr.restore.getLsbD d.1).map
      fun d => ⟨d, true⟩ } }
  else if s.pwr.phase = .hibernate then fresh s .ramping 6 id
  else s

/-- Each lane of LINK that the wiring uses has entered DOWN (R307, R308, R341; the count at the power-up itself is the model's
reading, log 105). -/
def Sys2Proof.Claim.lanesUp (s : State) : State :=
  s.updPair fun p => { p with links := Vec.mapIx p.links fun l x =>
    if l = 0 ∨ p.ak1mode ≠ 0 then { x with ctr := x.ctr.add 2 1 } else x }

/-- Wake sources, domains and the RTC (R46, R311, R556–R559, R574): a low on WAKE_N and a due RTC alarm wake the module
when their WAKE bit is set; a requested domain is powered and its bit set, SHM with a cluster's; a power-down takes
CAN, PIO and port units back to their reset state with their configuration; the RTC takes the timebase in TRACK and
FINE and the correction otherwise; HEARTBEAT counts. The voltage loop of a powered cluster (R561, R563), in steps of
5 mV between 600 and 900 mV: frozen at 0.90 V while a LOAD runs and until ten periods after; below 20 ps one step
up, above 45 ps for ten periods one step down, in between nothing; at 0.90 V below 8 ps CK_CL falls by 25 MHz per
period until 20 ps are reached and LIMITED is set; with LIMITED, above 45 ps at or below 0.85 V it rises again each
100 periods, to F_SET. A margin below 8 ps at an instant raises the rail by five steps at once. -/
def Obligations.PowerStatesAndVoltage : Prop :=
  ((∀ s : State, exec .wakePin s = .next (if s.pwr.wakeWord.getLsbD 0 then woken s else s)) ∧
  (∀ s : State, exec .rtcAlarm s = .next (if s.pwr.rtcAlarm.isSome && s.pwr.wakeWord.getLsbD 1 then woken s else s)) ∧
  (∀ (s : State) (d : Fin 12), s.unhealthy = false → s.powered d.1 = false →
    (s.pwr.requests = [⟨d, true⟩] → s.pwr.powering = 0 →
      ∃ t, exec .powerRequest s = .next t ∧ t.pwr.requests = [] ∧
        t.pwr.domains = s.pwr.domains ||| BitVec.ofNat 12 (2 ^ d.1 + if 2 ≤ d.1 ∧ d.1 ≤ 5 ∧ s.powered 6 = false then 64 else 0) ∧
        { t with pwr := s.pwr, cl := s.cl, pair := s.pair } = s ∧ t.pair = (if d = 9 then lanesUp s else s).pair ∧
        (∀ c : Fin 4, d.1 ≠ 2 + c.1 → Vec.at t.cl c = Vec.at s.cl c)) ∧
    (s.pwr.powering.getLsbD d.1 = true →
      ∃ t, exec (.domainPowerUpDone d) s = .next t ∧ t.powered d.1 = true ∧ t.pwr.powering.getLsbD d.1 = false ∧
        (∀ j : Fin 12, j ≠ d → j ≠ 6 → t.powered j.1 = s.powered j.1) ∧
        (2 ≤ d.1 ∧ d.1 ≤ 5 → t.powered 6 = true) ∧ { t with pwr := s.pwr, cl := s.cl, pair := s.pair } = s ∧
        t.pair = (if d = 9 then lanesUp s else s).pair)) ∧
  (∀ s : State, s.unhealthy = false → s.pwr.requests = [⟨8, false⟩] → s.pwr.powering = 0 → s.powered 8 = true →
    ∃ t, exec .powerRequest s = .next t ∧ t.powered 8 = false ∧
      (∀ n : Fin 4, (Vec.at t.can n).st = (if (Vec.at s.can n).owner.isSome then 1 else 0) ∧
        (Vec.at t.can n).sets = (Vec.at s.can n).sets ∧ (Vec.at t.can n).filters = (Vec.at s.can n).filters ∧ (Vec.at t.can n).tb = Vec.fill 8 none) ∧
      (∀ k : Fin 8, (Vec.at t.pio k).run = false ∧ (Vec.at t.pio k).txq = [] ∧
        (Vec.at t.pio k).pimem = (Vec.at s.pio k).landing.foldl (fun v w => Vec.updN v w.1 fun _ => w.2) (Vec.at s.pio k).pimem) ∧
      (∀ p : Fin 12, (4 ≤ p.1 ∧ p.1 < 10 → (Vec.at t.port p).t1 = (Vec.at s.port p).t1 ∧ (Vec.at t.port p).tx = none) ∧
        (p.1 < 4 ∨ 10 ≤ p.1 → Vec.at t.port p = Vec.at s.port p)) ∧
      t.cl = s.cl ∧ t.eng = s.eng ∧ t.hq = s.hq ∧ t.shm = s.shm ∧ t.fio = s.fio) ∧
  (∀ (s : State) (k : Int), s.live = true → exec (.rtcCorrect k) s = .next { s with pwr :=
    if s.tim.st = 2 ∨ s.tim.st = 3 then { s.pwr with rtc := (BitVec.ofNat 64 (s.tim.t / 2 ^ 39)).toNat, rtcSet := true }
    else { s.pwr with rtc := ((s.pwr.rtc : Int) + k).toNat } }) ∧
  (∀ s : State, s.live = true → exec .heartbeatTick s = .next { s with
    pwr := { s.pwr with heartbeat := s.pwr.heartbeat + 1, uptime := s.pwr.uptime + 1 }
    pair := if s.pair.st = 5 then { s.pair with orphanMs := s.pair.orphanMs + 1 } else s.pair })) ∧
  ((∀ (s : State) (c : Fin 4) (m : Nat), s.powered (2 + c.1) = true →
    let a := (Vec.at s.cl c).avs
    let after := fun (b : Avs) => Host.Outcome.next (State.settle (s.updCl c fun k => { k with avs := b }))
    let b := { a with margin := min m 255 }
    ((Vec.at s.cl c).st = .loading →
      exec (.avsPeriod c m) s = after { b with frozen := true, volt := 900, calm := 10 }) ∧
    ((Vec.at s.cl c).st ≠ .loading → a.frozen = true → exec (.avsPeriod c m) s = after
      (if a.calm < 9 then { b with calm := a.calm + 1 } else { b with frozen := false, calm := 0 })) ∧
    ((Vec.at s.cl c).st ≠ .loading → a.frozen = false →
      (m < 20 → a.volt < 900 → exec (.avsPeriod c m) s = after { b with calm := 0, volt := min 900 (a.volt + 5), lowering := false, rise := 0 }) ∧
      (m < 20 → a.volt = 900 → m < 8 ∨ a.lowering = true → exec (.avsPeriod c m) s = after
        { b with calm := 0, freq := max 8 (a.freq - 1), limited := true, lowering := true, rise := 0 }) ∧
      (8 ≤ m → m < 20 → a.volt = 900 → a.lowering = false → exec (.avsPeriod c m) s = after { b with calm := 0, rise := 0 }) ∧
      (20 ≤ m → m ≤ 45 → exec (.avsPeriod c m) s = after { b with calm := 0, lowering := false, rise := 0 }) ∧
      (45 < m →
        let rises := a.limited && decide (a.volt ≤ 850)
        let due := rises && decide (99 ≤ a.rise)
        exec (.avsPeriod c m) s = after { b with
          lowering := false, calm := (if a.calm < 9 then a.calm + 1 else 0)
          volt := if a.calm < 9 then a.volt else if 600 < a.volt then a.volt - 5 else 600
          rise := if rises && !due then a.rise + 1 else 0
          freq := if due then a.freq + 1 else a.freq
          limited := if due then decide (a.freq + 1 ≠ a.fset) else a.limited })) ∧
    (a.frozen = false → a.volt ≤ 900 → exec (.avsFastStep c) s =
      .next (State.settle (s.updCl c fun k => { k with avs := { a with volt := min 900 (a.volt + 25) } }))) ∧
    (a.frozen = true → exec (.avsFastStep c) s = .next s.settle)) ∧
  (∀ (s : State) (c : Fin 4) (m : Nat), s.unhealthy = false → s.powered (2 + c.1) = false →
    exec (.avsPeriod c m) s = .next s ∧ exec (.avsFastStep c) s = .next s))

/-! ### Field I/O -/

/-- `t` is `w` with what reports bring: messages and notifications, doorbells toward the host, entries of the log and the
alarm store, requests of WAKEEN doorbells, messages on the Aklos links, and the rings to clusters with the events that
these set, and the waits that they end, in engines. Nothing else of the module differs. -/
def Sys2Proof.Claim.reported (w t : State) : Prop :=
  ∃ m h u r l cl eng, t = { w with
      mbx := m, hif := h, sup := u, pwr := { w.pwr with requests := r }, pair := { w.pair with links := l }, cl := cl, eng := eng } ∧
    (∀ c, ∃ x, Vec.at cl c = { Vec.at w.cl c with supdb := x }) ∧
    (∀ e, ∃ d v x, Vec.at eng e = { Vec.at w.eng e with d := d, evp := v, wait := x })

/-- The log and the alarm store have room for one more entry each (R541, R542). -/
def Sys2Proof.Claim.logRoom (s : State) : Prop := s.sup.singles < 192 ∧ s.sup.ring.length < 800

/-- The command leads to `w`, reports apart, with this entry in the log or the alarm store; a paired module that this
leaves unhealthy then withdraws (R327). -/
def Sys2Proof.Claim.reports (i : Instr) (s w : State) (code : Nat) (obj : W16) : Prop :=
  ∃ u : State, exec i s = .next u.settle ∧ reported w u ∧ logged u code obj 0

/-- The command leads to `w`, reports apart. -/
def Sys2Proof.Claim.leads (i : Instr) (s w : State) : Prop := ∃ u : State, exec i s = .next u.settle ∧ reported w u

/-- An output with a fault code of R414 raised, or not. -/
def Sys2Proof.Claim.withFault (x : Dout) (code : Nat) (on : Bool) : Dout :=
  { x with faults := if on then x.faults ||| BitVec.ofNat 8 (2 ^ code) else x.faults &&& ~~~(BitVec.ofNat 8 (2 ^ code)) }

/-- The readback of an output is compared (R409, R412): it is off, on or in LIMIT, no sag suppresses checking, and it is
no shared output of a module in SYNCING. -/
def Sys2Proof.Claim.compared (s : State) (d : Fin 8) : Prop :=
  (Vec.at s.fio.do_ d).st.1 ≤ 2 ∧ s.fio.sag = false ∧ (s.doShared d = true → s.pair.st ≠ 1)

/-- The reports of the pair decide the mismatches of an output: it is shared, and both modules run (R411). -/
def Sys2Proof.Claim.byReports (s : State) (d : Fin 8) : Prop := s.doShared d = true ∧ (s.pair.st = 2 ∨ s.pair.st = 3)

/-- An output in another drive state: a change of its driver takes the readback along (the model's reading). -/
def Sys2Proof.Claim.entered (x : Dout) (st : Fin 8) : Dout :=
  { x with st := st, rb := if (st = 1 ∨ st = 2 ↔ x.st = 1 ∨ x.st = 2) then x.rb else decide (st = 1 ∨ st = 2) }

/-- The protection and the readback of an output (R407–R411, R414, R416), each event changing this output alone: LIMIT
and back; TSD, with do_tsd and the ALARM OVERLOAD raised once, held off at once when RETRY is 0; a retry counts
do_retry and ends in HELD_OFF at RETRY_MAX; 5 ms in LIMIT raise OVERLOAD and 1 s in ON or OFF clears it; a readback
that differs from the command raises FEEDBACK_HIGH or FEEDBACK_LOW and leaves the driver alone, while at the limit the
fault is the OVERLOAD of R408 and the readback raises none of its own, and on a shared output of a running pair the
mismatch waits for the reports of the cycle; where nothing is compared the level is read and no more (R409); OPEN_LOAD
needs OL_EN. An event that finds the output in another state changes nothing. (The readback of a healthy output follows
its driver: the model's reading.) -/
def Obligations.FieldOutputs : Prop :=
  ∀ (s : State) (d : Fin 8), logRoom s →
    let x := Vec.at s.fio.do_ d
    let obj := s.objAt 6 d.1
    let retry := (Vec.at x.sets 1).toNat
    let retryMax := (Vec.at x.sets 2).toNat
    let next := fun (y : Dout) => Host.Outcome.next (State.settle (s.updDo d fun _ => y))
    (exec (.currentLimit d) s = next (if x.st = 1 then entered x 2 else x)) ∧
    (exec (.currentLimitRelease d) s = next (if x.st = 2 then entered x 1 else x)) ∧
    (x.st = 1 ∨ x.st = 2 →
      let y := { entered x (if retry = 0 then 6 else 3) with ctr := x.ctr.add 1 1 }
      (x.faults.getLsbD 3 = false →
        reports (.thermalShutdown d) s (s.updDo d fun _ => withFault { y with ctr := y.ctr.add 0 1 } 3 true) 0x0A03 obj) ∧
      (x.faults.getLsbD 3 = true → exec (.thermalShutdown d) s = next y)) ∧
    (x.st ≠ 1 → x.st ≠ 2 → exec (.thermalShutdown d) s = next x) ∧
    (x.st = 3 → x.cmd = true → exec (.retryTimer d) s = next
      (if retry = 0 ∨ (retryMax ≠ 0 ∧ retryMax ≤ x.retries) then entered x 6
       else { entered x 1 with retries := x.retries + 1, ctr := x.ctr.add 2 1 })) ∧
    (x.st ≠ 3 ∨ x.cmd = false → exec (.retryTimer d) s = next x) ∧
    (x.st = 2 → x.faults.getLsbD 3 = false →
      reports (.overloadTimer d) s (s.updDo d fun _ => withFault { x with ctr := x.ctr.add 0 1 } 3 true) 0x0A03 obj) ∧
    (x.st ≠ 2 ∨ x.faults.getLsbD 3 = true → exec (.overloadTimer d) s = next x) ∧
    (x.st = 1 ∨ x.st = 0 →
      (x.faults.getLsbD 3 = true →
        reports (.overloadClear d) s (s.updDo d fun _ => withFault { x with retries := 0 } 3 false) 0x0A03 obj) ∧
      (x.faults.getLsbD 3 = false → exec (.overloadClear d) s = next { x with retries := 0 })) ∧
    (compared s d → ¬ byReports s d → x.faults.getLsbD 1 = false → x.cmd = false →
      reports (.readbackFault d true) s (s.updDo d fun _ => withFault { x with rb := true, ctr := x.ctr.add 3 1 } 1 true) 0x0A01 obj) ∧
    (compared s d → x.cmd = true → x.st = 2 → exec (.readbackFault d false) s = next { x with rb := false }) ∧
    (compared s d → ¬ byReports s d → x.faults.getLsbD 2 = false → x.cmd = true → x.st ≠ 2 →
      reports (.readbackFault d false) s (s.updDo d fun _ => withFault { x with rb := false, ctr := x.ctr.add 4 1 } 2 true) 0x0A02 obj) ∧
    (∀ rb : Bool, (compared s d → ¬ byReports s d → x.faults.getLsbD (if x.cmd then 2 else 1) = true) ∨ rb = x.cmd ∨ ¬ compared s d →
      (byReports s d → compared s d → rb = x.cmd) → exec (.readbackFault d rb) s = next { x with rb := rb }) ∧
    (∀ rb : Bool, compared s d → byReports s d → rb ≠ x.cmd → ¬ (x.cmd = true ∧ x.st = 2) →
      exec (.readbackFault d rb) s = next { x with rb := rb, rbTimed := some x.cmd }) ∧
    (compared s d → leads (.feedbackClear d) s
      (s.updDo d fun _ => withFault (withFault
        { x with rb := decide (x.st = 1 ∨ x.st = 2), rbTimed := none, rbDue := none } 1 false) 2 false)) ∧
    (¬ compared s d → exec (.feedbackClear d) s = next x) ∧
    (compared s d → x.st = 1 → x.rb = true → Vec.at x.sets 4 = 1 → x.faults.getLsbD 4 = false →
      reports (.openLoad d) s (s.updDo d fun _ => withFault { x with ctr := x.ctr.add 5 1 } 4 true) 0x0A04 obj) ∧
    (Vec.at x.sets 4 = 0 → exec (.openLoad d) s = next x) ∧
    (x.faults.getLsbD 4 = true → reports (.openLoadClear d) s (s.updDo d fun _ => withFault x 4 false) 0x0A04 obj)

/-- VON of a group in mV (R400): 0.55 of L+ for Type 1 and 0.40 for Type 3, in steps of 50 mV, within 9.0–14.5 V and
6.5–10.5 V; with TRACK 0, the value for 24 V. (That the step is taken downward is the model's choice.) -/
def Sys2Proof.Claim.vonFor (type3 track : Bool) (mv : Nat) : Nat :=
  let l := if track then mv else 24000
  if type3 then max 6500 (min 10500 (l * 40 / 100 / 50 * 50)) else max 9000 (min 14500 (l * 55 / 100 / 50 * 50))

/-- The field supply, the temperature and the keep-alive (R396, R405, R412–R416): L+LOW below 18 V suppresses readback
checking until 10 ms above 18.5 V; below 14 V every output but a LOST one enters UVLO, and above 16 V it takes its
command again, or is held off with UV_RESTORE 0; above 135 °C every output but a LOST one enters OVERTEMP; a channel
whose keep-alive is missing is LOST, its output off, until that channel's own resumes; each raises its fault once and clears it. The
inputs (R400–R403, R417, R418): the thresholds follow L+ or stand at 24 V; a filtered edge sets the level, inverted
under INV, marks a change, counts as CNT_EDGE says, wraps with CARRY and the NOTICE DI_CNT_OVF, and a rising one is
stamped for the gate; the end of a host channel's gate records FEDGES and FSPAN (a personality's gate ends at its
drumbeats, and FGATE leaves it alone); a read of COUNT captures the block for the reading
engine, zeros for a channel of another cluster. -/
def Obligations.FieldSupplyAndInputs : Prop :=
  (∀ (s : State) (mv : W16), logRoom s →
    let m := s.objAt 0 0
    let f := { s.fio with lplus := mv }
    (if s.fio.low then exec (.lplusLow mv) s = .next (State.settle { s with fio := f })
     else reports (.lplusLow mv) s (State.madd { s with fio := { f with low := true, sag := true } } cLplusLow 1) 0x0A05 m) ∧
    (if s.fio.low then reports (.lplusLowClear mv) s { s with fio := { f with low := false } } 0x0A05 m
     else exec (.lplusLowClear mv) s = .next (State.settle { s with fio := f })) ∧
    (exec .readbackResume s = .next (State.settle { s with fio := { s.fio with sag := s.fio.sag && s.fio.low } })) ∧
    (s.fio.uvlo = false → reports (.lplusUvlo mv) s (State.madd { s with fio := { f with
        uvlo := true
        do_ := s.fio.do_.map fun x => if x.st = 5 ∨ x.st = 7 then x else entered x 4 } } cUvlo 1) 0x0A06 m) ∧
    (s.fio.uvlo = true → exec (.lplusUvlo mv) s = .next (State.settle { s with fio := f })) ∧
    (s.fio.uvlo = true → reports (.uvloRestore mv) s { s with fio := { f with
        uvlo := false, hotFirst := s.fio.hot
        do_ := s.fio.do_.map fun x => if x.st = 4 then
          entered x (if s.fio.hot then 7 else if s.fio.uvRestore = 1 then (if x.cmd then 1 else 0) else 6) else x } } 0x0A06 m) ∧
    (s.fio.uvlo = false → exec (.uvloRestore mv) s = .next (State.settle { s with fio := f })) ∧
    (s.fio.hot = false → reports .fioOvertemp s { s with fio := { s.fio with
        hot := true, hotFirst := !s.fio.uvlo
        do_ := s.fio.do_.map fun x => if x.st = 5 ∨ x.st = 4 then x else entered x 7 } } 0x0A08 m) ∧
    (s.fio.hot = true → exec .fioOvertemp s = .next s.settle) ∧
    (s.fio.hot = true → reports .overtempRecovery s { s with fio := { s.fio with
        hot := false, hotFirst := false
        do_ := s.fio.do_.map fun x =>
          if x.st = 7 then entered x (if s.fio.uvlo then 4 else if x.cmd then 1 else 0) else x } } 0x0A08 m) ∧
    (s.fio.hot = false → exec .overtempRecovery s = .next s.settle) ∧
    (if s.fio.sumHigh then exec .doSumHigh s = .next s.settle
     else reports .doSumHigh s { s with fio := { s.fio with sumHigh := true } } 0x0A0A m) ∧
    (if s.fio.sumHigh then reports .doSumHighClear s { s with fio := { s.fio with sumHigh := false } } 0x0A0A m
     else exec .doSumHighClear s = .next s.settle) ∧
    (∀ d : Fin 8, (Vec.at s.fio.do_ d).faults.getLsbD 7 = false → reports (.keepAliveMissing (Fin.ofNat 16 (8 + d.1))) s
      (s.updDo d fun x => withFault { entered x 5 with ctr := x.ctr.add 6 1 } 7 true) 0x0A07 (s.objAt 6 d.1)) ∧
    (∀ d : Fin 8, (Vec.at s.fio.do_ d).faults.getLsbD 7 = true → exec (.keepAliveMissing (Fin.ofNat 16 (8 + d.1))) s =
      .next (State.settle (s.updDo d fun x => entered x 5))) ∧
    (∀ d : Fin 8, (Vec.at s.fio.di d).lost = false → reports (.keepAliveMissing (Fin.ofNat 16 d.1)) s
      (s.updDi d fun x => { x with lost := true, ctr := x.ctr.add 0 1 }) 0x0A07 (s.objAt 5 d.1)) ∧
    (∀ d : Fin 8, (Vec.at s.fio.di d).lost = true → exec (.keepAliveMissing (Fin.ofNat 16 d.1)) s = .next s.settle) ∧
    (∀ reach : BitVec 16, leads (.keepAliveSend reach) s { s with fio := { s.fio with
      keepAlives := s.fio.keepAlives + 1
      di := Vec.mapIx s.fio.di fun d x => { x with lost := x.lost && !reach.getLsbD d.1 }
      do_ := Vec.mapIx s.fio.do_ fun d x => if reach.getLsbD (8 + d.1) then withFault x 7 false else x } })) ∧
  ((∀ (s : State) (mv : W16), exec (.thresholdUpdate mv) s = .next (State.settle { s with fio := { s.fio with
      lplus := mv
      von := Vector.ofFn fun g : Fin 2 =>
        let x := Vec.at s.fio.di (Fin.ofNat 8 (4 * g.1))
        BitVec.ofNat 16 (vonFor (decide (Vec.at x.sets 0 = 3)) (decide (Vec.at x.sets 1 = 1)) mv.toNat) } })) ∧
  (∀ (s : State) (d : Fin 8) (level : Bool) (stamp : W32),
    let x := Vec.at s.fio.di d
    let now := if Vec.at x.sets 5 = 1 then !level else level
    let mode := (Vec.at x.sets 6).toNat
    let counts := if now then mode = 1 ∨ mode = 3 else mode = 2 ∨ mode = 3
    mode ≤ 3 →
    (now = x.level → exec (.diEdge d level stamp) s = .next (State.settle (s.updDi d fun x => { x with filt := level }))) ∧
    (now ≠ x.level →
      let y := { x with
        filt := level, level := now, chg := true
        gateN := if now then x.gateN + 1 else x.gateN
        gateFirst := if now ∧ x.gateN = 0 then stamp else x.gateFirst
        gateLast := if now then stamp else x.gateLast }
      (¬ counts → exec (.diEdge d level stamp) s = .next (State.settle (s.updDi d fun _ => y))) ∧
      (counts → x.count ≠ 0xFFFFFFFF →
        exec (.diEdge d level stamp) s = .next (State.settle (s.updDi d fun _ => { y with count := x.count + 1 }))) ∧
      (counts → x.count = 0xFFFFFFFF → logRoom s → reports (.diEdge d level stamp) s
        (s.updDi d fun _ => { y with count := 0, carry := x.carry + 1 }) 0x0A09 (s.objAt 5 d.1)))) ∧
  (∀ (s : State) (d : Fin 8), exec (.freqGateEnd d) s = .next (s.updDi d fun x => if x.owner.isSome then x else { x with
      fedges := x.gateN
      fspan := if x.gateN = 0 then 0 else x.gateLast - x.gateFirst
      gateN := 0 })) ∧
  (∀ (s : State) (e : Fin 16) (d : Fin 8), alive s e →
    let x := Vec.at s.fio.di d
    let carry : W32 := BitVec.ofNat 32 (x.carry.toNat * 0x10000 + if 2 ≤ x.fedges.toNat then 1 else 0)
    let block : Vec W32 3 := if x.owner = some (clOf e) then #v[carry, x.fedges, x.fspan] else #v[0, 0, 0]
    exec (.diCountRead e d) s = .next (State.settle (s.updEng e fun g => { g with diHold := Vec.put g.diHold d block }))))

/-! ### Sundom: what is common to its commands -/

/-- The state once Sundom has taken the message from its channel (R62, R98). -/
def Sys2Proof.Claim.taken (s : State) (m : Msg) : State := s.takeMsg m.chan

/-- The messages that wait on a channel: of MB0–MB7, or of other modules on the ninth (R98). -/
def Sys2Proof.Claim.waits (s : State) (n : Fin 9) : List (List Byte) :=
  if h : n.1 < 8 then (Vec.at s.mbx ⟨n.1, h⟩).taken else s.group

/-- The oldest message of the channel spells this command in the octets of R87. -/
def Sys2Proof.Claim.brings (s : State) (code : Nat) (m : Msg) : Prop :=
  ∃ bs r, waits s m.chan = bs :: r ∧ leAt bs 0 2 = code % 65536 ∧ leAt bs 2 2 = m.tag.toNat ∧
    leAt bs 6 2 = m.flags.toNat ∧ leAt bs 8 4 = m.gen.toNat ∧ leAt bs 12 2 = m.target.toNat ∧
    (bs.drop 16).take (leAt bs 4 2) = m.payload

/-- Sundom runs, no earlier command still lacks its response (R99), and no channel between the one taken last and this one
has a message (R98). -/
def Sys2Proof.Claim.turnOf (s : State) (m : Msg) : Prop :=
  s.live = true ∧ s.sup.proxies = [] ∧ s.sup.mirrors = [] ∧
    ∀ n : Fin 9, (n.1 + 8 - s.sup.rr.1) % 9 < (m.chan.1 + 8 - s.sup.rr.1) % 9 → waits s n = []

/-- Sundom takes this command next. -/
def Sys2Proof.Claim.due (s : State) (code : Nat) (m : Msg) : Prop := turnOf s m ∧ brings s code m

/-- When the channel's oldest message spells it, Sundom takes the command and answers with this status, DETAIL and
payload; the rest of the module is `w`, and a module that the command leaves unhealthy then acts on it (R327). -/
def Sys2Proof.Claim.responds (i : Instr) (s : State) (code : Nat) (m : Msg) (a : Answer) (w : State) : Prop :=
  brings s code m → exec i s = .next (State.settle (w.answer code m a))

/-- The target names an object of one of these classes (R91, R92). -/
def Sys2Proof.Claim.named (cls : List Nat) (m : Msg) : Prop := tgtClass m.target ∈ cls ∧ tgtInst m.target < classSize (tgtClass m.target)

/-- It is the channel's turn, the command names its session, and it is aimed at this module (R92, R95, R98, R113). -/
def Sys2Proof.Claim.asked (s : State) (m : Msg) : Prop :=
  turnOf s m ∧ tgtPos m.target = s.pwr.mpos ∧
    ∃ (k : Fin 8) (x : Session), m.chan.1 = k.1 ∧ (Vec.at s.mbx k).session = some x ∧ x.gen = m.gen

/-- Besides, no job holds the target (R427) and the module works in no pair (R426 governs the others). -/
def Sys2Proof.Claim.served (s : State) (m : Msg) : Prop :=
  asked s m ∧ s.heldBy m.target = none ∧ s.pair.st ≠ 2 ∧ s.pair.st ≠ 3

/-- A cluster of this module whose personality has one of these roles; on another module, that module decides. -/
def Sys2Proof.Claim.drumTarget (roles : List DlRole) (s : State) (m : Msg) : Prop :=
  named [1] m ∧ (tgtPos m.target = s.pwr.mpos → ∃ r ∈ roles, (Vec.at s.cl (Fin.ofNat 4 (tgtInst m.target))).role = some r)

/-- The codes that R424 assigns. -/
def Sys2Proof.Claim.commandCodes : List Nat :=
  [0x100, 0x101, 0x102, 0x103, 0x104, 0x105, 0x200, 0x201, 0x202, 0x203, 0x204, 0x205, 0x300, 0x301, 0x302, 0x303, 0x304, 0x305,
   0x400, 0x401, 0x402, 0x500, 0x501, 0x502, 0x503, 0x600, 0x601, 0x602, 0x603, 0x604, 0x700, 0x701, 0x702, 0x703, 0x704,
   0x800, 0x801, 0x802, 0x803, 0x900, 0x901, 0x902, 0xA00, 0xA01, 0xA02, 0xA03, 0xA04, 0xB00, 0xB01, 0xB02, 0xB03, 0xB04,
   0xC00, 0xC01]

/-- The commands of R424, and those of no assigned code: code, message and accepted targets. -/
def Sys2Proof.Claim.sundomRow : Instr → Option (Nat × Msg × (State → Msg → Prop))
  | .openSession m => some (0x100, m, fun s m => named [0] m ∧ tgtPos m.target = s.pwr.mpos)
  | .closeSession m => some (0x101, m, fun s m => named [0] m ∧ tgtPos m.target = s.pwr.mpos)
  | .getInfo m => some (0x102, m, fun _ => named [0])
  | .getCaps m => some (0x103, m, fun _ => named [0])
  | .setPowerState m => some (0x104, m, fun _ => named [0])
  | .resetObject m => some (0x105, m, fun _ => named (List.range 13))
  | .loadCmd m => some (0x200, m, fun _ => named [1])
  | .startCmd m => some (0x201, m, fun _ => named [1])
  | .stop m => some (0x202, m, fun _ => named [1])
  | .unload m => some (0x203, m, fun _ => named [1])
  | .loadCustom m => some (0x204, m, fun _ => named [1])
  | .cycleConfig m => some (0x205, m, fun _ => named [1])
  | .portConfig m => some (0x300, m, fun _ => named [2])
  | .portStatus m => some (0x301, m, fun _ => named [2])
  | .cableTest m => some (0x302, m, fun _ m => named [2] m ∧ tgtInst m.target < 10)
  | .queueMap m => some (0x303, m, fun _ => named [2])
  | .gateList m => some (0x304, m, fun _ => named [2])
  | .preemptConfig m => some (0x305, m, fun _ m => named [2] m ∧ tgtInst m.target ≠ 8 ∧ tgtInst m.target ≠ 9)
  | .piDefine m => some (0x400, m, fun _ => named [10])
  | .piMap m => some (0x401, m, fun _ => named [1])
  | .piCommit m => some (0x402, m, fun _ => named [10])
  | .timeConfig m => some (0x500, m, fun _ => named [12])
  | .timeGet m => some (0x501, m, fun _ => named [12])
  | .timeAcceptJump m => some (0x502, m, fun _ => named [12])
  | .syncPinConfig m => some (0x503, m, fun _ => named [12])
  | .dlConfig m => some (0x600, m, drumTarget [.controller, .device, .hub])
  | .routeLoad m => some (0x601, m, drumTarget [.controller, .device, .hub])
  | .routeSwitch m => some (0x602, m, drumTarget [.controller])
  | .dlTopology m => some (0x603, m, drumTarget [.controller, .device, .hub])
  | .tollgateConfig m => some (0x604, m, drumTarget [.hub])
  | .pairConfig m => some (0x700, m, fun _ => named [0])
  | .pairApprove m => some (0x701, m, fun _ => named [0])
  | .pairStatus m => some (0x702, m, fun _ => named [0])
  | .pairSwitch m => some (0x703, m, fun _ => named [0])
  | .groupConfig m => some (0x704, m, fun _ => named [0])
  | .canConfig m => some (0x800, m, fun _ => named [3])
  | .canStatus m => some (0x801, m, fun _ => named [3])
  | .canFilter m => some (0x802, m, fun _ => named [3])
  | .canAbort m => some (0x803, m, fun _ => named [3])
  | .pioConfig m => some (0x900, m, fun _ => named [4])
  | .pioProgram m => some (0x901, m, fun _ => named [4])
  | .pioStatus m => some (0x902, m, fun _ => named [4])
  | .fioConfig m => some (0xA00, m, fun _ => named [0])
  | .diConfig m => some (0xA01, m, fun _ => named [0])
  | .doConfig m => some (0xA02, m, fun _ => named [0])
  | .doSet m => some (0xA03, m, fun _ => named [0])
  | .fioStatus m _ _ => some (0xA04, m, fun _ => named [0])
  | .statsConfig m => some (0xB00, m, fun _ => named [0])
  | .logConfig m => some (0xB01, m, fun _ => named [0])
  | .logRead m => some (0xB02, m, fun _ => named [0])
  | .selftest m => some (0xB03, m, fun _ => named [0, 1, 2])
  | .healthGet m _ => some (0xB04, m, fun _ => named [0])
  | .getIdentity m => some (0xC00, m, fun _ => named [0])
  | .attest m => some (0xC01, m, fun _ => named [0])
  | .unassignedCommand code m => if code.toNat ∈ commandCodes then none else some (code.toNat, m, fun _ => named (List.range 13))
  | _ => none

/-- The commands that never answer BUSY (R427). -/
def Sys2Proof.Claim.statusCodes : List Nat := [0x102, 0x103, 0x301, 0x501, 0x603, 0x702, 0x801, 0x902, 0xA04, 0xB02, 0xB04, 0xC00]

/-- Every command of Sundom is taken when it is its channel's turn and no earlier one lacks its response, and stays on its
channel until then (R98, R99); it is checked in this order, and one that fails a check is answered and changes nothing
else (R92, R95, R101, R113, R425, R427): a TARGET outside the command's classes gives BAD_CMD 2, for an unassigned code
one outside R91; a GEN that is not the channel's session's gives STALE_GEN with the channel's GEN, or 0, except for
OPEN_SESSION; a module out of reach gives PEER_REFUSED 1; an unassigned code gives BAD_CMD 1; a target that a LOAD or
cluster reset holds gives BUSY with the job, except for a status command. (The place of the code's check among the
others is the model's reading, log 43.) -/
def Obligations.SundomRules : Prop :=
  (∀ (s : State) (code : W16) (m : Msg), code.toNat ∉ commandCodes → asked s m → named (List.range 13) m →
    responds (.unassignedCommand code m) s code.toNat m (.err 0x20 1) (taken s m)) ∧
  (∀ (i : Instr) (s : State) (code : Nat) (m : Msg) (ok : State → Msg → Prop), sundomRow i = some (code, m, ok) →
    (¬ due s code m → exec i s = .next s) ∧
    (due s code m → ¬ ok s m → exec i s = .next ((taken s m).answer code m (.err 0x20 2))) ∧
    (∀ k : Fin 8, due s code m → ok s m → m.chan.1 = k.1 → code ≠ 0x100 →
      (∀ x, (Vec.at s.mbx k).session = some x → x.gen ≠ m.gen →
        exec i s = .next ((taken s m).answer code m (.err 0x12 x.gen.toNat))) ∧
      ((Vec.at s.mbx k).session = none → exec i s = .next ((taken s m).answer code m (.err 0x12 0)))) ∧
    (∀ (k : Fin 8) (x : Session), due s code m → ok s m → m.chan.1 = k.1 → (Vec.at s.mbx k).session = some x → x.gen = m.gen →
      tgtPos m.target ≠ s.pwr.mpos →
      s.pair.members.getLsbD (tgtPos m.target).1 = false ∨ s.pathTo (tgtPos m.target) = none →
      exec i s = .next ((taken s m).answer code m (.err 0x60 1))) ∧
    (∀ j : Job, asked s m → brings s code m → ok s m → s.heldBy m.target = some j → code ∈ commandCodes → code ∉ statusCodes →
      exec i s = .next ((taken s m).answer code m (.err 0x10 j.num.toNat))))

/-! ### Sundom: reading the module -/

/-- A little-endian field of a payload. -/
def Sys2Proof.Claim.field (bs : List Byte) (off n v : Nat) : Prop := leAt bs off n = v % 256 ^ n

/-- The settings form of R419: FORM 0, COUNT, and records of ID, INDEX and VALUE. -/
def Sys2Proof.Claim.settingsForm (xs : List Setting) : List Byte :=
  leBytes 2 0 ++ leBytes 2 xs.length ++ (xs.map fun x => leBytes 2 x.id ++ leBytes 2 x.index ++ leBytes 8 x.value.toNat).flatten

/-- The settings form carries its records (R419–R421): Sundom reads back exactly the records that a payload of at most
83 of them was built from, and a payload of any other FORM or length is the host error of R420. -/
def Obligations.SettingsPayload : Prop :=
  (∀ (m : Msg) (xs : List Setting), xs.length ≤ 83 → (∀ x ∈ xs, x.id < 65536 ∧ x.index < 65536) → m.payload = settingsForm xs →
    m.settings = some xs) ∧
  (∀ m : Msg, m.payload.length < 4 ∨ leAt m.payload 0 2 ≠ 0 ∨ m.payload.length ≠ 4 + 12 * leAt m.payload 2 2 → m.settings = none)

/-- Sessions and the commands that read (R93, R94, R96, R313, R429, R438, R445, R450–R453, R455–R457, R459, R460): each
answers OK with the fields at the offsets its table gives, and changes nothing else (but that FIO_STATUS reads the
terminals of the outputs, R409); LOG_READ returns at most MAX
entries of the classes asked for, from FROM on, none of them left out below MAX, and marks them read. -/
def Obligations.SundomReads : Prop :=
  (∀ (s : State) (m : Msg) (k : Fin 8), turnOf s m → named [0] m → tgtPos m.target = s.pwr.mpos → m.chan.1 = k.1 → 4 ≤ m.payload.length →
    leAt m.payload 1 1 = 0 → leAt m.payload 3 1 = 0 → s.heldBy m.target = none →
    let g : W32 := if s.sup.gen = 0xFFFFFFFF then 1 else s.sup.gen + 1
    responds (.openSession m) s 0x100 m ⟨0, g.toNat, [BitVec.ofNat 8 k.1, BitVec.ofNat 8 s.pwr.mpos.1]⟩
      (((taken s m).updSup fun u => { u with gen := g }).updMbx k fun x => { x with
        session := some { gen := g, subs := BitVec.ofNat 16 (leAt m.payload 0 2), positions := BitVec.ofNat 8 (leAt m.payload 2 1) } })) ∧
  (∀ (s : State) (m : Msg) (k : Fin 8), asked s m → named [0] m → m.chan.1 = k.1 →
    responds (.closeSession m) s 0x101 m .ok ((taken s m).updMbx k fun x => { x with session := none })) ∧
  (∀ (s : State) (m : Msg), asked s m → named [0] m →
    (∃ bs, responds (.getInfo m) s 0x102 m (.data bs) (taken s m) ∧ bs.length = 0x38 ∧
      field bs 0 8 Config.serial.toNat ∧ field bs 8 4 hifRev.toNat ∧ field bs 0xC 4 s.pwr.fwVer.toNat ∧
      field bs 0x10 4 s.modStatus.toNat ∧ field bs 0x14 4 s.pwr.uptime.toNat ∧
      ∀ c : Fin 4, let k := Vec.at s.cl c
        field bs (0x18 + 8 * c.1) 2 k.id.toNat ∧ field bs (0x1A + 8 * c.1) 1 k.st.code ∧
        leAt bs (0x1B + 8 * c.1) 1 = bit k.checked + 2 * bit (s.inPair c) ∧ field bs (0x1C + 8 * c.1) 4 k.version.toNat) ∧
    (∃ bs n, responds (.getCaps m) s 0x103 m (.data bs) (taken s m) ∧ bs.take 8 = [12, 4, 8, 8, 8, 4, 32, 8] ∧
      n = min 124 (Vec.at s.pwr.slots (if s.pwr.bootimg then 1 else 0)).images.length ∧ field bs 8 2 n ∧ bs.length = 12 + 8 * n ∧
      ∀ j b, j < n → (Vec.at s.pwr.slots (if s.pwr.bootimg then 1 else 0)).images[j]? = some b →
        field bs (12 + 8 * j) 2 (imgId b) ∧ field bs (16 + 8 * j) 4 (imgVersion b).toNat) ∧
    (∀ x : Measured, ∃ bs, responds (.healthGet m x) s 0xB04 m (.data bs) (taken s m) ∧ bs.length = 0x14 ∧
      field bs 0 4 s.health.toNat ∧ field bs 4 4 (if s.pair.st = 0 then 0 else s.pair.peerHealth.toNat) ∧
      field bs 8 2 x.die.toNat ∧ field bs 0xA 2 x.fio.toNat ∧ field bs 0xC 2 x.vin.toNat ∧ field bs 0xE 2 s.fio.lplus.toNat ∧
      field bs 0x10 4 s.selft.round.toNat) ∧
    (2 ≤ m.payload.length → ∃ bs, responds (.getIdentity m) s 0xC00 m (.data bs) (taken s m) ∧
      field bs 0 8 Config.serial.toNat ∧ field bs 8 6 Config.baseMac.toNat ∧ field bs 0x10 8 Config.clockId.toNat ∧
      field bs 0x18 4 s.pwr.rollback ∧ field bs 0x1C 2 Config.certificate.length ∧ leAt bs 0x1E 2 = bs.length - 0x20 ∧
      bs.drop 0x20 = (Config.certificate.drop (leAt m.payload 0 2)).take 976) ∧
    (∃ bs, responds (.pairStatus m) s 0x702 m (.data bs) (taken s m) ∧ bs.length = 0x2E ∧
      (∀ c : Fin 4, field bs (0x1C + 4 * c.1) 4 (s.pairStat c).toNat) ∧
      ∀ l : Fin 2, leAt bs (0x2C + l.1) 1 = (Vec.at s.pair.links l).st.1) ∧
    (∀ (cur : Vec W16 8) (terminals : FieldPins), ∃ bs, responds (.fioStatus m cur terminals) s 0xA04 m (.data bs)
          { taken s m with fio := { s.fio with do_ := Vec.mapIx s.fio.do_ fun d x => { x with rb := terminals.do_.getLsbD d.1 } } } ∧
      bs.length = 0xA4 ∧
      (∀ d : Fin 8, (leAt bs 0 1).testBit d.1 = (Vec.at s.fio.di d).level ∧ (leAt bs 1 1).testBit d.1 = terminals.di.getLsbD d.1 ∧
        (leAt bs 2 1).testBit d.1 = (Vec.at s.fio.do_ d).cmd ∧ (leAt bs 3 1).testBit d.1 = terminals.do_.getLsbD d.1 ∧
        leAt bs (4 + d.1) 1 = (Vec.at s.fio.do_ d).st.1 ∧ field bs (0xC + 2 * d.1) 2 (Vec.at cur d).toNat ∧
        leAt bs (0x24 + d.1) 1 = ((Vec.at s.fio.di d).owner.map (·.1)).getD 0xFF ∧
        leAt bs (0x2C + d.1) 1 = ((Vec.at s.fio.do_ d).owner.map (·.1)).getD 0xFF ∧
        field bs (0x34 + 4 * d.1) 4 (Vec.at s.fio.di d).count.toNat ∧ field bs (0x54 + 2 * d.1) 2 (Vec.at s.fio.di d).carry.toNat ∧
        field bs (0x64 + 8 * d.1) 4 (Vec.at s.fio.di d).fedges.toNat ∧ field bs (0x68 + 8 * d.1) 4 (Vec.at s.fio.di d).fspan.toNat) ∧
      field bs 0x1C 2 s.fio.lplus.toNat ∧ field bs 0x1E 2 (Vec.at s.fio.von 0).toNat ∧ field bs 0x20 2 (Vec.at s.fio.von 1).toNat ∧
      leAt bs 0x22 2 = bit s.fio.sag + 2 * bit s.fio.uvlo + 4 * bit s.fio.hot) ∧
    (8 ≤ m.payload.length → 1 ≤ leAt m.payload 1 1 → leAt m.payload 1 1 ≤ 30 → leAt m.payload 2 2 = 0 →
      let from_ : W32 := BitVec.ofNat 32 (leAt m.payload 4 4)
      let wanted := fun e : LogEntry => e ∈ s.sup.alarms ++ s.sup.ring ∧ (leAt m.payload 0 1).testBit e.cls.1 = true ∧ 0 ≤ timeDiff e.seq from_
      ∃ (bs : List Byte) (es : List LogEntry), responds (.logRead m) s 0xB02 m (.data bs) ((taken s m).updSup fun u => u.markRead es) ∧
        es.length ≤ leAt m.payload 1 1 ∧ (∀ e ∈ es, wanted e) ∧ (es.length < leAt m.payload 1 1 → ∀ e, wanted e → e ∈ es) ∧
        field bs 0 4 (match es.getLast? with | some e => (e.seq + 1).toNat | none => s.sup.seq.toNat) ∧
        (∀ c : Fin 4, field bs (4 + 4 * c.1) 4 (Vec.at s.sup.loss c).toNat) ∧ leAt bs 0x14 2 = es.length ∧
        bs.length = 0x18 + 32 * es.length ∧
        ∀ j e, es[j]? = some e → field bs (0x18 + 32 * j) 4 e.seq.toNat ∧ leAt bs (0x1C + 32 * j) 1 = e.cls.1 ∧
          leAt bs (0x1D + 32 * j) 1 = bit e.cleared + 2 * bit e.summary ∧ field bs (0x1E + 32 * j) 2 e.code.toNat ∧
          field bs (0x20 + 32 * j) 2 e.obj.toNat ∧ field bs (0x22 + 32 * j) 2 e.count ∧ field bs (0x24 + 32 * j) 4 e.data.toNat ∧
          field bs (0x28 + 32 * j) 8 e.first.toNat ∧ field bs (0x30 + 32 * j) 8 e.last.toNat)) ∧
  (∀ (s : State) (m : Msg), asked s m → named [12] m →
    ∃ bs, responds (.timeGet m) s 0x501 m (.data bs) (taken s m) ∧ bs.length = 0x26 ∧
      field bs 0 8 (s.tim.t / 2 ^ 39) ∧ field bs 8 2 (s.tim.t / 2 ^ 23) ∧ leAt bs 0xA 1 = s.tim.st.1 ∧
      (s.tim.tsrc < 4 → s.tim.srcCl < 4 → leAt bs 0xB 1 = bit s.tim.jumpPend + 2 * s.tim.tsrc + 8 * s.tim.srcCl) ∧
      field bs 0xC 8 s.tim.lastOff.toNat ∧ field bs 0x14 8 s.tim.maxOff.toNat ∧ field bs 0x20 4 s.tim.samples.toNat ∧
      field bs 0x24 2 (Vec.at s.tim.sets 9).toNat) ∧
  (∀ (s : State) (m : Msg) (p : Fin 12), asked s m → named [2] m → tgtInst m.target = p.1 →
    ∃ bs, responds (.portStatus m) s 0x301 m (.data bs) (taken s m) ∧
      field bs 0 4 (s.portLoad p 0).toNat ∧ field bs 4 4 (s.portLoad p 4).toNat ∧ field bs 8 4 (s.portLoad p 8).toNat ∧
      (∀ i : Fin 4, i.1 < (if p.1 < 4 then 4 else if p.1 < 8 then 1 else 0) →
        field bs (0xC + 4 * i.1) 2 (Vec.at (Vec.at s.port p).pairSnr i).toNat ∧ leAt bs (0xF + 4 * i.1) 1 = 0 ∧
          leAt bs (0xE + 4 * i.1) 1 = min 100 (((Vec.at (Vec.at s.port p).loop.taps i).map fun t => t.toInt.natAbs).foldl max 0 * 100 / 32768)) ∧
      (∀ i : Fin 4, (if p.1 < 4 then 4 else if p.1 < 8 then 1 else 0) ≤ i.1 → leAt bs (0xC + 4 * i.1) 4 = 0) ∧
      field bs 0x1C 2 (Vec.at s.port p).length.toNat ∧ field bs 0x1E 2 (Vec.at s.port p).guards.toNat) ∧
  (∀ (s : State) (m : Msg) (c : Fin 4) (role : DlRole), asked s m → named [1] m → tgtInst m.target = c.1 →
    (Vec.at s.cl c).role = some role → (Vec.at s.cl c).st = .stopped ∨ (Vec.at s.cl c).st = .started →
    let d := (Vec.at s.cl c).dl
    ∃ bs, responds (.dlTopology m) s 0x603 m (.data bs) (taken s m) ∧ bs.length = (if role = .hub then 0x78 else 0x18) ∧
      leAt bs 0 1 = (match role with | .controller => 1 | .device => 2 | .hub => 3) ∧ leAt bs 1 1 = d.st.1 ∧ leAt bs 2 1 = d.active.1 ∧
      leAt bs 3 1 = bit d.split + 2 * bit (d.proposal.isSome || d.switch.isSome) ∧ field bs 4 1 d.mNode.toNat ∧ field bs 5 1 d.mPrio.toNat ∧
      field bs 6 1 d.elect.toNat ∧ field bs 7 1 d.hops.toNat ∧ field bs 8 8 d.mClock.toNat ∧ field bs 0x10 4 d.roundLast.toNat ∧
      field bs 0x14 4 (Vec.at s.cl c).cycle.toNat) ∧
  (∀ (s : State) (m : Msg) (n : Fin 4), asked s m → named [3] m → tgtInst m.target = n.1 →
    let x := Vec.at s.can n
    ∃ bs, responds (.canStatus m) s 0x801 m (.data bs) (taken s m) ∧
      field bs 0 4 x.cstat.toNat ∧ field bs 4 4 x.cerr.toNat ∧ field bs 8 4 x.ctdc.toNat ∧ field bs 0xC 4 x.ctxb.toNat ∧
      bs.drop 0x10 = settingsForm ((List.range 17).map fun r => ⟨0x101 + r, 0, Vec.atD x.sets r 0⟩)) ∧
  (∀ (s : State) (m : Msg) (k : Fin 8), asked s m → named [4] m → tgtInst m.target = k.1 →
    let x := Vec.at s.pio k
    ∃ bs, responds (.pioStatus m) s 0x902 m (.data bs) (taken s m) ∧ bs.length = 44 ∧
      field bs 0 4 x.pctl.toNat ∧ field bs 4 4 x.pstat.toNat ∧ field bs 8 4 x.pclk.toNat ∧ field bs 0xC 4 x.pfmt.toNat ∧
      field bs 0x10 4 x.ppins.toNat ∧ field bs 0x14 2 x.tcmp.toNat ∧ field bs 0x16 2 x.tcnt.toNat ∧ field bs 0x18 4 x.pde.toNat ∧
      field bs 0x1C 4 x.pevt.toNat ∧ field bs 0x20 2 x.lc1.toNat ∧ field bs 0x22 2 x.lc0.toNat ∧ field bs 0x24 2 x.pmatch.toNat ∧
      field bs 0x26 2 x.mmask.toNat ∧ field bs 0x28 4 x.pflag.toNat) ∧
  (∀ (s : State) (m : Msg), served s m → named [0] m →
    (16 ≤ m.payload.length → 1000 ≤ leAt m.payload 0 4 → leAt m.payload 0 4 ≤ 1000000 → leAt m.payload 4 4 = 0xFFFFFFFF → leAt m.payload 0xC 4 ≤ 1 →
      responds (.statsConfig m) s 0xB00 m .ok ((taken s m).updSup fun u => { u with
        periodNext := BitVec.ofNat 32 (leAt m.payload 0 4), areaNew := u.areaNew || decide (u.area ≠ 0xFFFFFFFF), area := 0xFFFFFFFF
        areaLen := BitVec.ofNat 32 (leAt m.payload 8 4), sflags := BitVec.ofNat 32 (leAt m.payload 0xC 4) })) ∧
    (2 ≤ m.payload.length → leAt m.payload 0 1 ≤ 3 → leAt m.payload 1 1 ≤ 1 →
      responds (.logConfig m) s 0xB01 m .ok ((taken s m).updSup fun u => { u with
        notify := BitVec.ofNat 8 (leAt m.payload 0 1), traceEn := decide (leAt m.payload 1 1 = 1) })))

/-! ### Sundom: personalities, power states, resets, jobs -/

/-- A command starts a job: the next number, ACCEPTED with it in DETAIL, the job running, and `w` besides (R105–R107). -/
def Sys2Proof.Claim.accepts (i : Instr) (s : State) (code : Nat) (m : Msg) (kind : JobKind) (f : State → State) : Prop :=
  responds i s code m ⟨1, s.sup.jobNext.toNat, []⟩ (f ((taken s m).startJob kind m).2)

/-- Neither limit of R107 is reached. -/
def Sys2Proof.Claim.jobRoom (s : State) (m : Msg) : Prop :=
  s.sup.jobs.length < 32 ∧ (s.sup.jobs.filter fun j => j.chan = m.chan && j.gen = m.gen).length +
    (s.sup.remotes.filter fun j => j.chan = m.chan && j.gen = m.gen).length < 8

/-- The job number `num` no longer runs. -/
def Sys2Proof.Claim.ended (t : State) (j : Job) : Prop := ∀ x ∈ t.sup.jobs, x.num ≠ j.num

/-- The booted slot's catalogue holds an image of this ID, of the version asked for or of any with 0 (R432). -/
def Sys2Proof.Claim.inCatalogue (s : State) (id version : Nat) : Prop :=
  ∃ b ∈ (Vec.at s.pwr.slots (if s.pwr.bootimg then 1 else 0)).images, imgId b = id ∧ (version = 0 ∨ (imgVersion b).toNat = version)

/-- What an answer to a command of a mailbox's channel does (R88, R98, R102): with the outbound buffer free and no
message waiting, the response is posted with CODE 0x8000 + the command's, the command's TAG and TARGET, LEN, STATUS
and DETAIL, OUT_FULL is set and DB_S2H bit n rings; with OUT_FULL set it waits behind the others. Only the mailbox,
the host interface and the log differ (no LOG_READY, with TRACE_EN 0). The job numbers start at 1. A job starts with
the next number, which skips 0 as it wraps; its record names the channel, GEN, TAG, FLAGS and TARGET of its command.
At its end JOB_DONE with code 0xF000, the TAG of the command, the final status and the job number goes to the
carrying channel while the session lives; after it, the NOTICE JOB_ORPHANED is made and nothing is sent (R97,
R105–R108). The final status of the job that ended last stays on record, and that of every orphaned job (where the
record of R97 stands is the model's choice, log 79). -/
def Obligations.ResponsesAndJobs : Prop :=
  (∀ (s : State) (m : Msg) (code : Nat) (a : Answer) (k : Fin 8), m.chan.1 = k.1 → s.sup.traceEn = false → code < 0x1000 →
    let x := Vec.at s.mbx k
    let t := s.answer code m a
    let r : OutMsg := { code := BitVec.ofNat 16 (0x8000 + code), tag := m.tag, status := BitVec.ofNat 16 a.status, detail := BitVec.ofNat 32 a.detail, target := m.target, payload := a.payload, held := false }
    (x.outFull = false → x.outq = [] →
      Vec.at t.mbx k = { x with outFull := true, outBuf := memWriteN x.outBuf 0 r.bytes } ∧ rang s t k.1) ∧
    (x.outFull = true → x.outq.length < 32 → t = s.updMbx k fun x => { x with outq := x.outq ++ [r] }) ∧
    (∀ j : Fin 8, j ≠ k → Vec.at t.mbx j = Vec.at s.mbx j) ∧
    { t with mbx := s.mbx, hif := s.hif, pwr := { t.pwr with requests := s.pwr.requests } } = s) ∧
  (State.reset.sup.jobNext = 1 ∧
  (∀ (s : State) (m : Msg) (kind : JobKind),
    let t := (s.startJob kind m).2
    (s.startJob kind m).1 = s.sup.jobNext ∧
    t.sup.jobs = s.sup.jobs ++ [{ num := s.sup.jobNext, kind := kind, chan := m.chan, gen := m.gen, tag := m.tag, flags := m.flags, target := m.target }] ∧
    t.sup.jobNext = (if s.sup.jobNext = 0xFFFFFFFF then 1 else s.sup.jobNext + 1) ∧
    (s.sup.traceEn = false → { t with sup := s.sup } = s)) ∧
  (∀ (s : State) (j : Job) (k : Fin 8) (status : Nat) (bs : List Byte), j.chan.1 = k.1 →
    let x := Vec.at s.mbx k
    let t := s.endJob j status none bs
    let r : OutMsg := { code := 0xF000, tag := j.tag, status := BitVec.ofNat 16 status, detail := j.num, target := j.target, payload := bs, held := false }
    ended t j ∧ (∀ y ∈ s.sup.jobs, y.num ≠ j.num → y ∈ t.sup.jobs) ∧
    (∃ e, t.sup.lastEnd = some e ∧ e.num = j.num ∧ e.status = BitVec.ofNat 16 status) ∧
    (∀ ses, x.session = some ses → ses.gen = j.gen → j.flags.getLsbD 3 = false → x.outFull = false → x.outq = [] →
      Vec.at t.mbx k = { x with outFull := true, outBuf := memWriteN x.outBuf 0 r.bytes } ∧
      (∀ n : Fin 8, n ≠ k → Vec.at t.mbx n = Vec.at s.mbx n)) ∧
    (x.session = none → s.sup.ring.length < 800 → s.sup.notify.toNat < 2 →
      t.mbx = s.mbx ∧ (∃ e, t.sup.lastEnd = some e ∧ e.orphaned = true) ∧
        t.sup.orphans = s.sup.orphans ++ [⟨j.num, BitVec.ofNat 16 status, 0, true⟩] ∧ ∃ e ∈ t.sup.ring, e.code = 0x0101 ∧ e.data = j.num ∧ e.cls = 2)))

/-- LOAD to UNLOAD and CYCLE_CONFIG (R29, R30, R423, R431–R436, R465, R597): LOAD of an EMPTY cluster is accepted when
the image is there and nothing is missing; its job leaves the cluster STOPPED with the body's octets in IMEM, DMEM
clear and the units joined, or EMPTY after AUTH_FAIL; START and STOP release and reset the four engines; UNLOAD
gives the units back; a cluster in another state answers BAD_STATE with its code. The shared memory is left alone. -/
def Obligations.Personalities : Prop :=
  (∀ (s : State) (m : Msg) (c : Fin 4), served s m → named [1] m → tgtInst m.target = c.1 →
    let k := Vec.at s.cl c
    let p := m.payload
    let q := m.payload.drop 8
    let wait := fun (id ck : List Byte) (s : State) => s.updCl c fun k => { k with
      st := .loading, id := BitVec.ofNat 16 (leAt id 0 2), checked := (leAt ck 2 2).testBit 0 }
    (0x90 ≤ p.length → p.length = 0x90 + 4 * leAt p 0xF 1 → leAt p 0xF 1 ≤ 216 → 1 ≤ leAt p 0 2 → leAt p 0 2 < 0x8000 →
      (k.st ≠ .empty → responds (.loadCmd m) s 0x200 m (.err 0x22 k.st.code) (taken s m)) ∧
      (k.st = .empty → loadShape p = true → s.windowsClash c (windowsAt p 0x50) = false →
        (¬ inCatalogue s (leAt p 0 2) (leAt p 4 4) → responds (.loadCmd m) s 0x200 m (.err 0x30 0) (taken s m)) ∧
        (inCatalogue s (leAt p 0 2) (leAt p 4 4) →
          (∀ d, s.missing c p = some d → responds (.loadCmd m) s 0x200 m (.err 0x30 d) (taken s m)) ∧
          (s.missing c p = none → jobRoom s m → accepts (.loadCmd m) s 0x200 m (.load c false p) (wait p p)) ∧
          (s.missing c p = none → ¬ jobRoom s m → responds (.loadCmd m) s 0x200 m (.err 0x10 0) (taken s m))))) ∧
    (0x98 ≤ p.length → q.length = 0x90 + 4 * leAt q 0xF 1 → leAt q 0xF 1 ≤ 214 → 0x8000 ≤ leAt q 0 2 → leAt p 0 4 % 64 = 0 →
      leAt p 0 4 + leAt p 4 4 ≤ 0x800000 → k.st = .empty → loadShape q = true → s.windowsClash c (windowsAt q 0x50) = false →
      (s.memBad .shm (leAt p 0 4) (min (leAt p 4 4) 320) = true → ∃ w, responds (.loadCustom m) s 0x204 m (.err 0x50 0x0B02) w ∧
        w.pair.memOk = false ∧ (Vec.at w.cl c).st = .empty) ∧
      (s.memBad .shm (leAt p 0 4) (min (leAt p 4 4) 320) = false →
        (0x40000 < imgBodyLen (s.peek .shm (leAt p 0 4) (min (leAt p 4 4) 320)) →
          responds (.loadCustom m) s 0x204 m (.err 0x30 (0x100 + c.1)) (taken s m)) ∧
        (imgBodyLen (s.peek .shm (leAt p 0 4) (min (leAt p 4 4) 320)) ≤ 0x40000 → s.missing c q = none → jobRoom s m →
          accepts (.loadCustom m) s 0x204 m (.load c true (q ++ p.take 8)) (wait q q)))) ∧
    (k.st ≠ .stopped → responds (.startCmd m) s 0x201 m (.err 0x22 k.st.code) (taken s m)) ∧
    (k.st = .stopped → k.role = none → s.inPair c = false → ∃ w, responds (.startCmd m) s 0x201 m .ok w ∧
      (Vec.at w.cl c).st = .started ∧ (∀ o, o ≠ c → (Vec.at w.cl o).st = (Vec.at s.cl o).st) ∧
      (∀ j : Fin 4, let g := Vec.at s.eng (engOf c j); let h := Vec.at w.eng (engOf c j)
        h.run = true ∧ h.pc = 0 ∧ h.imem = g.imem ∧ h.dmem = g.dmem) ∧ w.powered (clDomain c) = true) ∧
    (k.st ≠ .started → responds (.stop m) s 0x202 m (.err 0x22 k.st.code) (taken s m)) ∧
    (k.st = .started → ∃ w, responds (.stop m) s 0x202 m .ok w ∧
      (Vec.at w.cl c).st = .stopped ∧ (∀ o, o ≠ c → (Vec.at w.cl o).st = (Vec.at s.cl o).st) ∧ w.shm = s.shm ∧
      (∀ j : Fin 4, let g := Vec.at s.eng (engOf c j); let h := Vec.at w.eng (engOf c j)
        h.run = false ∧ h.imem = g.imem ∧ h.dmem = g.dmem) ∧
      (∀ p, (Vec.at s.port p).owner = some c → (Vec.at w.port p).st ≠ 2 ∧ (Vec.at w.port p).st ≠ 3) ∧
      (∀ n, (Vec.at s.can n).owner = some c → (Vec.at w.can n).st.1 < 2) ∧ (∀ n, (Vec.at s.pio n).owner = some c → (Vec.at w.pio n).st.1 < 2)) ∧
    (k.st ≠ .stopped ∨ s.inPair c = true → responds (.unload m) s 0x203 m (.err 0x22 k.st.code) (taken s m)) ∧
    (k.st = .stopped → s.inPair c = false → ∃ w, responds (.unload m) s 0x203 m .ok w ∧
      (Vec.at w.cl c).st = .empty ∧ (Vec.at w.cl c).id = 0 ∧ (∀ o, o ≠ c → (Vec.at w.cl o).st = (Vec.at s.cl o).st) ∧ w.shm = s.shm ∧
      (∀ p, if (Vec.at s.port p).owner = some c then (Vec.at w.port p).owner = none ∧ (Vec.at w.port p).st = 0 else (Vec.at w.port p).owner = (Vec.at s.port p).owner) ∧
      (∀ n, if (Vec.at s.can n).owner = some c then (Vec.at w.can n).owner = none ∧ (Vec.at w.can n).st = 0 else (Vec.at w.can n).owner = (Vec.at s.can n).owner) ∧
      (∀ n, if (Vec.at s.pio n).owner = some c then (Vec.at w.pio n).owner = none ∧ (Vec.at w.pio n).st = 0 else (Vec.at w.pio n).owner = (Vec.at s.pio n).owner) ∧
      (∀ d, (Vec.at w.fio.di d).owner = if (Vec.at s.fio.di d).owner = some c then none else (Vec.at s.fio.di d).owner) ∧
      (∀ d, (Vec.at w.fio.do_ d).owner = if (Vec.at s.fio.do_ d).owner = some c then none else (Vec.at s.fio.do_ d).owner) ∧
      (∀ h : Fin 256, (192 ≤ h.1 ∧ h.1 < 224) ∨ 240 ≤ h.1 → (Vec.at s.hq h).grant = some c → (Vec.at w.hq h).grant = none ∧ (Vec.at w.hq h).items = []) ∧
      (∀ j : Fin 4, (Vec.at w.eng (engOf c j)).run = false)) ∧
    (8 ≤ p.length →
      (k.st ≠ .stopped → responds (.cycleConfig m) s 0x205 m (.err 0x22 k.st.code) (taken s m)) ∧
      (k.st = .stopped → k.role.isSome = true → responds (.cycleConfig m) s 0x205 m (.err 0x22 0x600) (taken s m)) ∧
      (k.st = .stopped → k.role = none → 125 ≤ leAt p 0 4 → leAt p 0 4 ≤ 800000 → leAt p 4 4 < leAt p 0 4 →
        responds (.cycleConfig m) s 0x205 m .ok ((taken s m).updCl c fun k => { k with ct := leAt p 0 4, phase := leAt p 4 4 })))) ∧
  (∀ (s : State) (c : Fin 4) (j : Job) (custom : Bool) (p : List Byte), s.clusterJob c = some j → j.kind = .load c custom p →
    let r := (s.domainNeed (Fin.ofNat 12 (2 + c.1))).jobImage custom p
    let bad := r.1.2 = true ∨ (s.imgFault r.1.1 (if custom then 3 else 2) (leAt p 0 2)).isSome = true
    (bad → ∃ u, exec (.loadJobEnd c) s = .next u.settle ∧ (Vec.at u.cl c).st = .empty ∧ ended u j) ∧
    (¬ bad → ∃ u, exec (.loadJobEnd c) s = .next u.settle ∧ (Vec.at u.cl c).st = .stopped ∧
      (Vec.at u.cl c).version = imgVersion r.1.1 ∧ ended u j ∧ u.powered (2 + c.1) = true ∧
      (∀ n : Fin 4, let g := Vec.at u.eng (engOf c n)
        g.run = false ∧ g.dmem = [] ∧
        ∀ a, a < 0x10000 → memRead g.imem a = octet (imgBody r.1.1) (0x10000 * (if (Vec.at s.cl c).checked then n.1 / 2 * 2 else n.1) + a)) ∧
      (∀ q : Fin 12, (leAt p 8 2).testBit q.1 = true → (Vec.at u.port q).owner = some c ∧ (Vec.at u.port q).st = 1) ∧
      (∀ q : Fin 4, (leAt p 0xA 1).testBit q.1 = true → (Vec.at u.can q).owner = some c ∧ (Vec.at u.can q).st = 1) ∧
      (∀ q : Fin 8, (leAt p 0xB 1).testBit q.1 = true → (Vec.at u.pio q).owner = some c ∧ (Vec.at u.pio q).st = 1 ∧
        (Vec.at u.pio q).outMask = ldOut p q.1 ∧ (Vec.at u.pio q).inMask = ldIn p q.1) ∧
      (∀ q : Fin 8, (leAt p 0xC 1).testBit q.1 = true → (Vec.at u.fio.di q).owner = some c) ∧
      (∀ q : Fin 8, (leAt p 0xD 1).testBit q.1 = true → (Vec.at u.fio.do_ q).owner = some c) ∧
      (Vec.at u.cl c).grant = BitVec.ofNat 8 (leAt p 0xE 1) ∧ (Vec.at u.cl c).windows = windowsAt p 0x50)) ∧
  (∀ (s : State) (m : Msg) (c : Fin 4), served s m → named [1] m → tgtInst m.target = c.1 →
    ((Vec.at s.cl c).st = .empty → responds (.resetObject m) s 0x105 m (.err 0x22 0) (taken s m)) ∧
    ((Vec.at s.cl c).st ≠ .empty → jobRoom s m → ∃ w, responds (.resetObject m) s 0x105 m ⟨1, s.sup.jobNext.toNat, []⟩ w ∧
      (Vec.at w.cl c).st = .loading ∧ (∃ j ∈ w.sup.jobs, j.kind = .resetCluster c ∧ j.num = s.sup.jobNext) ∧
      ((Vec.at s.cl c).st = .started → ∀ n : Fin 4, (Vec.at w.eng (engOf c n)).run = false))) ∧
  (∀ (s : State) (c : Fin 4) (j : Job) (damaged : Bool), s.clusterJob c = some j → j.kind = .resetCluster c → 0x8000 ≤ (Vec.at s.cl c).id.toNat →
    let k := Vec.at s.cl c
    (damaged = true ∨ (s.imgFault k.image 3 k.id.toNat).isSome = true → ∃ u, exec (.clusterResetJobEnd c damaged) s = .next u.settle ∧
      (Vec.at u.cl c).st = .empty ∧ ended u j ∧ ∀ p, (Vec.at s.port p).owner = some c → (Vec.at u.port p).owner = none) ∧
    (damaged = false → s.imgFault k.image 3 k.id.toNat = none → ∃ u, exec (.clusterResetJobEnd c damaged) s = .next u.settle ∧
      (Vec.at u.cl c).st = .stopped ∧ ended u j ∧ (Vec.at u.cl c).ct = k.ct ∧ (Vec.at u.cl c).phase = k.phase ∧
      (∀ n : Fin 4, (Vec.at u.eng (engOf c n)).run = false ∧ (Vec.at u.eng (engOf c n)).dmem = []) ∧
      ∀ p, (Vec.at u.port p).owner = (Vec.at s.port p).owner))

/-- The power states and the resets of single objects (R7, R11, R12, R72, R184, R387, R430, R431, R554, R555): RUN
powers exactly the domains asked for and those that R12 keeps, and is refused for a domain in use; STANDBY and
HIBERNATE follow the response; a reset of the module restarts it with cause 3; a reset object returns to its reset
state, its settings kept. -/
def Obligations.PowerAndResets : Prop :=
  (∀ (s : State) (m : Msg), served s m → named [0] m → 8 ≤ m.payload.length → leAt m.payload 1 1 = 0 →
    let mask := leAt m.payload 2 2
    let wake : W32 := BitVec.ofNat 32 (leAt m.payload 4 4)
    (leAt m.payload 0 1 = 0 → mask < 4096 → s.pwr.phase = .run → s.pwr.requests = [] → s.pwr.powering = 0 →
      ((∀ d : Fin 12, s.powered d.1 = true → mask.testBit d.1 = false → s.keptDomain d.1 = false) →
        ∃ w, responds (.setPowerState m) s 0x104 m .ok w ∧ ∀ d : Fin 12, w.powered d.1 =
          (decide (d.1 < 2) || mask.testBit d.1 || (d.1 == 6 && (mask / 4 % 16 != 0)) || (d.1 == 9 && s.pair.st != 0))) ∧
      (∀ d : Fin 12, s.powered d.1 = true → mask.testBit d.1 = false → s.keptDomain d.1 = true →
        (∀ e : Fin 12, e.1 < d.1 → s.powered e.1 = false ∨ mask.testBit e.1 = true ∨ s.keptDomain e.1 = false) →
        responds (.setPowerState m) s 0x104 m (.err 0x22 (0x100 + d.1)) (taken s m))) ∧
    (leAt m.payload 0 1 = 1 ∨ leAt m.payload 0 1 = 2 → wakeOk wake = true →
      (∀ c : Fin 4, (Vec.at s.cl c).st ≠ .empty → (∀ b : Fin 4, b.1 < c.1 → (Vec.at s.cl b).st = .empty) →
        responds (.setPowerState m) s 0x104 m (.err 0x22 (0x102 + c.1)) (taken s m)) ∧
      ((∀ c, (Vec.at s.cl c).st = .empty) → s.pair.st = 0 → s.syncOn = false → s.sup.jobs = [] →
        (leAt m.payload 0 1 = 2 → brings s 0x104 m → exec (.setPowerState m) s = .next (State.settle (fresh s .hibernate 6 fun p => { p with
          domains := 1, wakeWord := wake, rtcAlarm := if wake.getLsbD 1 then some (s.pwr.rtc + wake.toNat / 256 * 1000000000) else none }))) ∧
        (leAt m.payload 0 1 = 1 → brings s 0x104 m → s.pwr.phase = .run → s.pwr.requests = [] → s.pwr.powering = 0 → ∃ u : State, exec (.setPowerState m) s = .next u.settle ∧
          u.pwr.phase = .standby ∧ u.pwr.wakeWord = wake ∧ u.pwr.ready = true ∧ u.pwr.rtc = s.pwr.rtc ∧
          (∀ d : Fin 12, u.powered d.1 = (s.powered d.1 && (decide (d.1 < 2) || d.1 == 10))))))) ∧
  (∀ (s : State) (m : Msg), served s m → brings s 0x105 m → named [0] m →
    exec (.resetObject m) s = .next (State.settle (fresh s .inReset 3 id))) ∧
  (∀ (s : State) (m : Msg), served s m → (∀ j ∈ s.sup.jobs, j.target.toNat % 0x4000 ≠ m.target.toNat % 0x4000) →
    let done := fun (f : State → State) => responds (.resetObject m) s 0x105 m .ok (State.hubsRefresh (f (taken s m)))
    (∀ d : Fin 8, named [5] m → tgtInst m.target = d.1 → done fun s => s.updDi d fun x => { x with
      filt := false, level := decide (Vec.at x.sets 5 = 1), count := 0, carry := 0, gateOpen := false, gateN := 0, gateFirst := 0, gateLast := 0, fedges := 0, fspan := 0 }) ∧
    (∀ h : Fin 256, named [7] m → tgtInst m.target = h.1 →
      ((∀ (p : Fin 12) (q : Nat), q < 4 → (Vec.at s.hq (rxHq p q)).fbq ≠ some h) →
        done fun s => s.updHq h fun q => { q with items := [], ovf := false, bad := false }) ∧
      ∃ w, responds (.resetObject m) s 0x105 m .ok w ∧ (Vec.at w.hq h).items = [] ∧ (Vec.at w.hq h).ovf = false) ∧
    (∀ n : Fin 8, named [8] m → tgtInst m.target = n.1 → done fun s => s.updMbx n fun x => { x with
      lock := 0, inFull := false, outFull := false, outq := [], overrun := false, session := none }) ∧
    (∀ e : Fin 16, named [9] m → tgtInst m.target = e.1 → done fun s => s.updEmb e fun b => { b with lock := 0, inFull := false, outFull := false }) ∧
    (∀ c : Fin 4, named [10] m → tgtInst m.target = c.1 → (Vec.at s.cl c).pi.defined = true → (Vec.at s.cl c).st = .started →
      done fun s => s.updPi c fun p => { p with rewrite := true }) ∧
    (∀ c : Fin 4, named [10] m → tgtInst m.target = c.1 → (Vec.at s.cl c).pi.defined = false → done id) ∧
    (∀ p : Fin 12, named [2] m → tgtInst m.target = p.1 →
      ((Vec.at s.port p).st = 0 → done id) ∧
      ((Vec.at s.port p).st ≠ 0 → ∃ w, responds (.resetObject m) s 0x105 m .ok w ∧ (Vec.at w.port p).owner = (Vec.at s.port p).owner ∧
        (Vec.at w.port p).st = (if row (Vec.at s.port p).t1 1 = 1 && s.portStarted p then 2 else 1) ∧
        (Vec.at w.port p).t1 = (Vec.at s.port p).t1 ∧ (Vec.at w.port p).t2 = (Vec.at s.port p).t2)) ∧
    (∀ n : Fin 4, named [3] m → tgtInst m.target = n.1 → (Vec.at s.can n).st ≠ 0 → ∃ w, responds (.resetObject m) s 0x105 m .ok w ∧
      (Vec.at w.can n).sets = (Vec.at s.can n).sets ∧ ((Vec.at s.can n).st ≠ 1 → (Vec.at w.can n).tec = 0 ∧ (Vec.at w.can n).rxErr = 0) ∧
      (Vec.at w.can n).st.1 = (if (Vec.at s.can n).enable && ((Vec.at s.can n).owner.any fun c => s.started c) then 2 else 1)) ∧
    (∀ k : Fin 8, named [4] m → tgtInst m.target = k.1 → (Vec.at s.pio k).st ≠ 0 → ∃ w, responds (.resetObject m) s 0x105 m .ok w ∧
      let x := Vec.at w.pio k
      x.txq = [] ∧ x.rxq = [] ∧ x.sr = 0 ∧ x.bc = 0 ∧ x.lc0 = 0 ∧ x.lc1 = 0 ∧ x.tcnt = 0 ∧ x.pimem = (Vec.at s.pio k).pimem ∧
      (x.st = 1 ∨ x.st = 2)) ∧
    (∀ d : Fin 8, named [6] m → tgtInst m.target = d.1 → s.fio.uvlo = false → s.fio.hot = false → ∃ w, responds (.resetObject m) s 0x105 m .ok w ∧
      (Vec.at w.fio.do_ d).st = 0 ∧ (Vec.at w.fio.do_ d).cmd = false ∧ (Vec.at w.fio.do_ d).faults = 0 ∧
      (Vec.at w.fio.do_ d).sets = (Vec.at s.fio.do_ d).sets) ∧
    (∀ l : Fin 2, named [11] m → tgtInst m.target = l.1 → s.powered 9 = true → ∃ w, responds (.resetObject m) s 0x105 m .ok w ∧ (Vec.at w.pair.links l).st = 1) ∧
    (named [12] m → ∃ w, responds (.resetObject m) s 0x105 m .ok w ∧ w.tim.integ = 0 ∧ w.tim.sets = s.tim.sets ∧ w.tim.t = s.tim.t))

/-! ### Sundom: ports, images, time, Drumline, pairing -/

/-- The settings of a port after these records, in payload order (R419, R437). -/
def Sys2Proof.Claim.portSet (x : Port) (xs : List Setting) : Port := xs.foldl (fun t r =>
  if r.id / 256 = 1 then { t with t1 := Vec.updN t.t1 (r.id % 256 - 1) fun _ => r.value }
  else if r.id / 256 = 2 then { t with t2 := Vec.updN t.t2 (r.id % 256 - 1) fun _ => r.value }
  else if r.id / 256 = 3 then { t with t3 := Vec.updN t.t3 (r.id % 256 - 1) fun _ => r.value }
  else if r.id % 256 = 1 then { t with station := r.value }
  else if r.id % 256 = 2 then { t with mcast := Vec.updN t.mcast r.index fun _ => r.value }
  else { t with vids := Vec.updN t.vids r.index fun _ => r.value }) x

/-- The cluster's engines and SUPDB_CAUSE have the CONFIG ring of a changed setting (R483); a host's unit rings nothing. -/
def Sys2Proof.Claim.configRung (s : State) (o : Option (Fin 4)) : State := match o with
  | some c => (s.updCl c fun k => { k with supdb := k.supdb ||| 1 }).evpCl c 3
  | none => s

/-- The commands on ports and process images (R116, R121, R124, R126, R154, R159, R170, R172, R437, R439–R444):
PORT_CONFIG stores its records and starts, restarts or stops the port as ADMIN and the restart settings say;
QUEUE_MAP, GATE_LIST and PREEMPT_CONFIG store their tables, refused in HELD; CABLE_TEST reads a port in UP, or runs
a job from IDLE or TRAINING; PI_DEFINE lays the image out, PI_MAP replaces the windows and PI_COMMIT names the
drumbeat from which its values hold. -/
def Obligations.PortCommands : Prop :=
  (∀ (s : State) (m : Msg) (p : Fin 12), served s m → s.cableJob p.1 = none → named [2] m → tgtInst m.target = p.1 →
    let x := Vec.at s.port p
    (x.st = 0 → responds (.portConfig m) s 0x300 m (.err 0x22 0) (taken s m) ∧ responds (.queueMap m) s 0x303 m (.err 0x22 0) (taken s m) ∧
      responds (.gateList m) s 0x304 m (.err 0x22 0) (taken s m) ∧ (p.1 ≠ 8 → p.1 ≠ 9 → responds (.preemptConfig m) s 0x305 m (.err 0x22 0) (taken s m))) ∧
    (∀ xs, m.settings = some xs → x.st ≠ 0 → (∀ r ∈ xs, portSettingOk p r = true) →
      (∀ c, x.owner = some c → (Vec.at s.cl c).role.isSome = true → ∀ r ∈ xs, r.id = 0x208 ∨ r.id = 0x209 → r.value = 0) →
      let y := portSet x xs
      ¬ (Vec.at y.t1 5 = 1 ∧ Vec.at y.t1 4 = 1) →
      ∃ w, responds (.portConfig m) s 0x300 m .ok w ∧
        (let z := Vec.at w.port p
         z.t1 = y.t1 ∧ z.t2 = y.t2 ∧ z.t3 = y.t3 ∧ z.station = y.station ∧ z.mcast = y.mcast ∧ z.vids = y.vids ∧ z.owner = x.owner ∧
         z.st = if (x.st = 3 ∨ x.st = 2) ∧ Vec.at y.t1 0 = 0 then 1
           else if x.st = 1 ∧ Vec.at y.t1 0 = 1 ∧ s.portStarted p = true then 2
           else if (x.st = 3 ∨ x.st = 2) ∧ portMustRestart p x y = true then 2 else x.st) ∧
        ∀ q, q ≠ p → Vec.at w.port q = Vec.at s.port q) ∧
    (x.st ≠ 0 → 0x22 ≤ m.payload.length → (∀ i : Fin 8, leAt m.payload (4 * i.1 + 2) 1 ≤ 3 ∧ leAt m.payload (4 * i.1 + 3) 1 ≤ 1) →
      responds (.queueMap m) s 0x303 m .ok (configRung ((taken s m).updPort p fun x => { x with
        etypes := Vector.ofFn fun i => BitVec.ofNat 32 (leAt m.payload (4 * i.1) 4), pcpMap := BitVec.ofNat 16 (leAt m.payload 0x20 2) }) x.owner)) ∧
    (∀ n : Nat, x.st ≠ 0 → leAt m.payload 0 2 = 0 → leAt m.payload 2 2 = n → n ≤ 250 → m.payload.length = 8 + 4 * n → leAt m.payload 4 2 = 1 → leAt m.payload 6 2 = 0 →
      let part := (List.range n).map fun i => BitVec.ofNat 32 (leAt m.payload (8 + 4 * i) 4)
      (∀ e ∈ part, 8 ≤ e.toNat % 2 ^ 24 ∧ e.toNat % 2 ^ 24 ≤ 12500000) →
      responds (.gateList m) s 0x304 m .ok (configRung ((taken s m).updPort p fun x => { x with
        gate := { x.gate with staged := [], pending := some part, clear := false } }) x.owner)) ∧
    (∀ xs, m.settings = some xs → x.st ≠ 0 → p.1 ≠ 8 → p.1 ≠ 9 → (∀ r ∈ xs, preemptOk r = true) →
      let pre := xs.foldl (fun t r => Vec.updN t (r.id % 256 - 1) fun _ => r.value) x.pre
      let changed := (Vec.at x.pre 0 ≠ Vec.at pre 0 ∨ Vec.at x.pre 3 ≠ Vec.at pre 3) ∧ x.st = 3
      responds (.preemptConfig m) s 0x305 m .ok (configRung ((taken s m).updPort p fun x => { x with
        pre := pre, mm := if changed then (if Vec.at pre 0 = 0 then 0 else if Vec.at pre 3 = 0 then 2 else 1) else x.mm
        mmTries := if changed then 0 else x.mmTries }) x.owner)) ∧
    (p.1 < 10 → 1 ≤ m.payload.length →
      (leAt m.payload 0 1 = 0 → x.st ≠ 3 → responds (.cableTest m) s 0x302 m (.err 0x22 x.st.1) (taken s m)) ∧
      (leAt m.payload 0 1 = 0 → x.st = 3 → ∃ bs, responds (.cableTest m) s 0x302 m (.data bs) (taken s m) ∧ bs.length = 16 ∧
        ∀ i : Fin 4, if i.1 < (if p.1 < 4 then 4 else if p.1 < 8 then 1 else 0) then
          field bs (4 * i.1) 2 (Vec.at x.pairSnr i).toNat ∧ field bs (4 * i.1 + 2) 2 x.length.toNat else leAt bs (4 * i.1) 4 = 0) ∧
      (leAt m.payload 0 1 = 1 → x.st = 1 ∨ x.st = 2 → jobRoom s m → ∃ w, responds (.cableTest m) s 0x302 m ⟨1, s.sup.jobNext.toNat, []⟩ w ∧
        (Vec.at w.port p).st = 4 ∧ (∃ j ∈ w.sup.jobs, j.kind = .cableTest p ∧ j.num = s.sup.jobNext) ∧ ∀ q, q ≠ p → Vec.at w.port q = Vec.at s.port q) ∧
      (leAt m.payload 0 1 = 1 → x.st ≠ 1 → x.st ≠ 2 → responds (.cableTest m) s 0x302 m (.err 0x22 x.st.1) (taken s m)))) ∧
  (∀ (s : State) (p : Fin 12) (j : Job) (results : List (Byte × W16)), s.cableJob p.1 = some j →
    let rest := s.setPort p (if Vec.at (Vec.at s.port p).t1 0 = 1 ∧ s.portStarted p = true then 2 else 1) 11
    exec (.cableTestEnd p results) s = .next (State.settle ((if (Vec.at s.port p).st = 4 then rest else s).endJob j 0 none
      ((List.range 4).flatMap fun i =>
        let r := if i < (if p.1 < 4 then 4 else 1) then results.getD i (7, 0) else (7, 0)
        let code := if 7 < r.1.toNat ∨ (r.1 = 3 ∧ 4 ≤ p.1) then 7 else r.1
        [code, 0] ++ leBytes 2 (if code ∈ [1, 2, 3, 4, 5] then r.2.toNat else 0))))) ∧
  (∀ (s : State) (m : Msg) (c : Fin 4), served s m → tgtInst m.target = c.1 →
    let k := Vec.at s.cl c
    let P := m.payload
    let up := fun n : Nat => (n + 63) / 64 * 64
    let base := leAt P 0 4
    let size := 64 + 3 * up (leAt P 4 4) + 3 * up (leAt P 8 4)
    (named [10] m → k.st ≠ .stopped → responds (.piDefine m) s 0x400 m (.err 0x22 k.st.code) (taken s m)) ∧
    (named [10] m → k.st = .stopped → 0x14 ≤ P.length → base % 64 = 0 → 16 ≤ leAt P 4 4 → leAt P 4 4 ≤ 0x100000 → leAt P 8 4 ≤ 0x100000 →
      40 ≤ leAt P 0xC 4 → leAt P 0xC 4 + 40 ≤ k.ct → leAt P 0x12 2 ≤ 1 →
      (∃ w, (Vec.at k.windows w).base ≤ base ∧ base + size ≤ (Vec.at k.windows w).base + (Vec.at k.windows w).len) →
      s.overObjects c base size = false →
      ∃ bs w, responds (.piDefine m) s 0x400 m (.data bs) w ∧ bs.length = 28 ∧ field bs 0 4 base ∧
        (∀ i : Fin 3, field bs (4 + 4 * i.1) 4 (base + 64 + i.1 * up (leAt P 4 4)) ∧
          field bs (0x10 + 4 * i.1) 4 (base + 64 + 3 * up (leAt P 4 4) + i.1 * up (leAt P 8 4))) ∧
        (Vec.at w.cl c).pi = { PiUnit.zero with
          staleWarn := k.pi.staleWarn
          defined := true, base := BitVec.ofNat 32 base, inLen := BitVec.ofNat 32 (leAt P 4 4), outLen := BitVec.ofNat 32 (leAt P 8 4)
          lead := BitVec.ofNat 32 (leAt P 0xC 4), watchdog := BitVec.ofNat 16 (leAt P 0x10 2), pflags := BitVec.ofNat 16 (leAt P 0x12 2) }) ∧
    (named [1] m → k.st ≠ .stopped → responds (.piMap m) s 0x401 m (.err 0x22 k.st.code) (taken s m)) ∧
    (named [1] m → k.st = .stopped → 64 ≤ P.length → windowsOk P 0 = true → s.windowsClash c (windowsAt P 0) = false →
      responds (.piMap m) s 0x401 m .ok ((taken s m).updCl c fun k => { k with windows := windowsAt P 0 })) ∧
    (named [10] m → k.st ≠ .started ∨ k.pi.defined = false → responds (.piCommit m) s 0x402 m (.err 0x22 k.st.code) (taken s m)) ∧
    (named [10] m → k.st = .started → k.pi.defined = true → 8 ≤ P.length → 40 ≤ leAt P 0 4 → leAt P 0 4 + 40 ≤ k.ct → leAt P 6 2 ≤ 1 → k.ct ≠ 0 →
      k.phase * 125 ≤ s.ns.toNat + 2 * (k.ct * 125) →
      ∃ d w, responds (.piCommit m) s 0x402 m ⟨0, d % 2 ^ 32, []⟩ w ∧
        s.ns.toNat + 2 * (k.ct * 125) ≤ d * (k.ct * 125) + k.phase * 125 ∧ d * (k.ct * 125) + k.phase * 125 < s.ns.toNat + 3 * (k.ct * 125) ∧
        (Vec.at w.cl c).pi = { k.pi with news := k.pi.news ++
          [⟨BitVec.ofNat 64 d, BitVec.ofNat 32 (leAt P 0 4), BitVec.ofNat 16 (leAt P 4 2), BitVec.ofNat 16 (leAt P 6 2)⟩] }))

/-- Frame 0 of the active route has room for a ROUTE datagram: at most 31 others, and 1518 octets with the FCS (R279, R302). -/
def Sys2Proof.Claim.roomForRoute (d : Dl) : Bool :=
  match Vec.at d.routes d.active with
  | none => false
  | some r =>
    let ds := r.dgs.filter fun g => g.frame = 0
    ds.length ≤ 31 && (ds.map fun g => 14 + g.len.toNat).sum + 48 ≤ 1518

/-- The commands on time, Drumline personalities, routes and pairing (R214, R220, R231, R236, R249, R281, R298, R303,
R314, R333, R337, R339): the settings are stored where the state allows them, and refused with BAD_STATE where it
does not; TIME_ACCEPT_JUMP removes the offset by a step or a slew and the servo acquires again; a route is loaded at
FINAL; ROUTE_SWITCH and PAIR_SWITCH start their jobs, which end with the result; PAIR_CONFIG enters SYNCING or SOLO. -/
def Obligations.NetworkCommands : Prop :=
  (∀ (s : State) (m : Msg), served s m → named [12] m →
    (∀ xs, m.settings = some xs → (∀ r ∈ xs, timeOkSetting r = true) →
      let sets := xs.foldl (fun t r => Vec.updN t (r.id % 256 - 1) fun _ => r.value) s.tim.sets
      ∃ w, responds (.timeConfig m) s 0x500 m .ok w ∧ w.tim.sets = sets ∧ w.tim.lastOff = 0 ∧ w.tim.samples = 0 ∧ w.tim.t = s.tim.t ∧
        (s.pair.st ≠ 1 → row sets 1 = 0 → w.tim.st = 0 ∧ w.tim.rate = (rowInt sets 9 : Rat) / 1000000000) ∧
        (s.pair.st ≠ 1 → row sets 1 ≠ 0 → row s.tim.sets 1 ≠ row sets 1 ∨ row s.tim.sets 2 ≠ row sets 2 → w.tim.st = 4)) ∧
    (s.tim.st ≠ 5 → responds (.timeAcceptJump m) s 0x502 m (.err 0x22 s.tim.st.1) (taken s m)) ∧
    (s.tim.st = 5 → 1 ≤ m.payload.length → leAt m.payload 0 1 = 0 → ∃ bs w, responds (.timeAcceptJump m) s 0x502 m (.data bs) w ∧
      field bs 0 8 s.tim.offset.toNat ∧ leAt bs 8 4 = 0 ∧ w.tim.st = 1 ∧ w.tim.jumpPend = false ∧ w.tim.slewLeft = 0 ∧
      (if s.tim.offset.toInt < 0 then w.tim.t = s.tim.t + s.tim.offset.toInt.natAbs * 2 ^ 31 ∧ w.tim.stepHold = s.tim.stepHold
       else w.tim.t = s.tim.t ∧ w.tim.stepHold = s.tim.stepHold + s.tim.offset.toInt.natAbs * 2 ^ 31)) ∧
    (s.tim.st = 5 → 1 ≤ m.payload.length → leAt m.payload 0 1 = 1 → ∃ bs w, responds (.timeAcceptJump m) s 0x502 m (.data bs) w ∧
      field bs 0 8 s.tim.offset.toNat ∧ w.tim.st = 1 ∧ w.tim.jumpPend = false ∧ w.tim.t = s.tim.t ∧ w.tim.slewLeft = (s.tim.offset.toInt : Rat) / 256) ∧
    (0x28 ≤ m.payload.length → leAt m.payload 4 4 = 0 → leAt m.payload 0 1 = 0 → leAt m.payload 1 1 = 0 →
      responds (.syncPinConfig m) s 0x503 m .ok ((taken s m).updTim fun t => { t with syncIn := { t.syncIn with
        mode := 0, edge := BitVec.ofNat 8 (leAt m.payload 2 1), period := BitVec.ofNat 64 (leAt m.payload 8 8), phase := BitVec.ofNat 64 (leAt m.payload 0x18 8) } })) ∧
    (∀ i : Fin 2, 0x28 ≤ m.payload.length → leAt m.payload 4 4 = 0 → leAt m.payload 0 1 = i.1 + 1 → leAt m.payload 1 1 = 1 → 100 ≤ leAt m.payload 8 8 → leAt m.payload 8 8 ≤ 10000000000 →
      10 ≤ leAt m.payload 0x10 8 → leAt m.payload 0x10 8 + 10 ≤ leAt m.payload 8 8 → leAt m.payload 0x18 8 < leAt m.payload 8 8 →
      ∃ w, responds (.syncPinConfig m) s 0x503 m .ok w ∧ w.powered 9 = true ∧
        Vec.at w.tim.syncOut i = { (Vec.at s.tim.syncOut i) with
          mode := 1, cluster := BitVec.ofNat 8 (leAt m.payload 3 1), period := BitVec.ofNat 64 (leAt m.payload 8 8)
          width := BitVec.ofNat 64 (leAt m.payload 0x10 8), phase := BitVec.ofNat 64 (leAt m.payload 0x18 8)
          time := BitVec.ofNat 64 (leAt m.payload 0x20 8), armed := false, last := s.ns.toNat })) ∧
  (∀ (s : State) (m : Msg) (c : Fin 4) (role : DlRole), served s m → named [1] m → tgtInst m.target = c.1 → (Vec.at s.cl c).role = some role →
    let k := Vec.at s.cl c
    let d := k.dl
    (k.st ≠ .stopped → responds (.dlConfig m) s 0x600 m (.err 0x22 k.st.code) (taken s m)) ∧
    (∀ xs, k.st = .stopped → m.settings = some xs → (∀ r ∈ xs, dlSettingOk r = true ∧ r.id ≠ 0x104) → role ≠ .hub →
      let e := { d with sets := xs.foldl (fun t r => Vec.updN t (r.id % 256 - 1) fun _ => r.value) d.sets, recSet := d.recSet || xs.any fun r => r.id = 0x112 }
      e.sane = true → ∃ w, responds (.dlConfig m) s 0x600 m .ok w ∧ (Vec.at w.cl c).dl = e ∧ (Vec.at w.cl c).ct = e.ct ∧ (Vec.at w.cl c).phase = e.phase ∧
        ∀ o, o ≠ c → Vec.at w.cl o = Vec.at s.cl o) ∧
    (∀ (n : Fin 8) (x : Route), k.st = .stopped ∨ (k.st = .started ∧ d.active ≠ n) → d.proposal = none → s.switchJob c.1 = none → d.topo ≠ 1 →
      4 ≤ m.payload.length → leAt m.payload 0 1 = n.1 → leAt m.payload 1 1 = 0 → leAt m.payload 2 1 = 1 → leAt m.payload 3 1 = 0 →
      routePart role m.payload s.newRoute = some x → x.ok role d k.period = true →
      ∃ w, responds (.routeLoad m) s 0x601 m .ok w ∧ (Vec.at w.cl c).dl = { d with staging := none, routes := Vec.put d.routes n (some x) } ∧
        (Vec.at w.cl c).supdb.getLsbD 2 = true) ∧
    (k.st = .started → d.active = Fin.ofNat 8 (leAt m.payload 0 1) → leAt m.payload 0 1 ≤ 7 → 4 ≤ m.payload.length → leAt m.payload 1 1 = 0 → leAt m.payload 2 1 = 1 → leAt m.payload 3 1 = 0 →
      s.switchJob c.1 = none → d.topo ≠ 1 → (routePart role m.payload s.newRoute).isSome = true →
      responds (.routeLoad m) s 0x601 m (.err 0x22 (0x100 + leAt m.payload 0 1)) (taken s m)) ∧
    (role = .controller → s.switchJob c.1 = none →
      (d.st ≠ 3 → responds (.routeSwitch m) s 0x602 m (.err 0x22 d.st.1) (taken s m)) ∧
      (d.st = 3 → 3 ≤ m.payload.length → leAt m.payload 0 1 ≤ 7 → 2 ≤ leAt m.payload 1 1 → 1 ≤ leAt m.payload 2 1 →
        let n : Fin 8 := Fin.ofNat 8 (leAt m.payload 0 1)
        (Vec.at d.routes n = none → responds (.routeSwitch m) s 0x602 m (.err 0x22 (0x100 + n.1)) (taken s m)) ∧
        (Vec.at d.routes n ≠ none → d.active = n → responds (.routeSwitch m) s 0x602 m (.err 0x22 (0x200 + n.1)) (taken s m)) ∧
        (Vec.at d.routes n ≠ none → d.active ≠ n → roomForRoute d = false →
          brings s 0x602 m → exec (.routeSwitch m) s = .fault (.hostError m.target)) ∧
        (Vec.at d.routes n ≠ none → d.active ≠ n → roomForRoute d = true → jobRoom s m → accepts (.routeSwitch m) s 0x602 m (.routeSwitch c) fun t => t.updCl c fun k => { k with
          dl := { k.dl with switch := some { route := n, first := k.cycle + 1, cycle := k.cycle + 1 + BitVec.ofNat 64 (leAt m.payload 1 1), nodes := leAt m.payload 2 1, committed := false, maxTally := 0, job := s.sup.jobNext, done := none } } }))) ∧
    (role = .hub → ∀ xs, m.settings = some xs → (∀ r ∈ xs, tollgateOk r = true) →
      (k.st ≠ .stopped → (∃ r ∈ xs, r.id = 0x101) → responds (.tollgateConfig m) s 0x604 m (.err 0x22 d.st.1) (taken s m)) ∧
      (k.st = .stopped → (∀ r ∈ xs, r.id ≠ 0x107) → ∃ w, responds (.tollgateConfig m) s 0x604 m .ok w ∧
        (Vec.at w.cl c).dl.tgSets = (if (∀ r ∈ xs, r.id = 0x101) then d.tgSets
          else (xs.filter fun r => r.id ≠ 0x101).foldl (fun t r => Vec.updN t (r.id % 256 - 2) fun _ => r.value) (d.tgNext.getD d.tgSets)) ∧
        (Vec.at w.cl c).dl.branchPorts = (xs.filter fun r => r.id = 0x101).foldl (fun t r => Vec.updN t r.index fun _ => r.value) d.branchPorts) ∧
      (k.st = .started → xs ≠ [] → (∀ r ∈ xs, r.id ≠ 0x101 ∧ r.id ≠ 0x107) → ∃ w, responds (.tollgateConfig m) s 0x604 m .ok w ∧
        (Vec.at w.cl c).dl.tgSets = d.tgSets ∧ (Vec.at w.cl c).dl.branchPorts = d.branchPorts ∧
        (Vec.at w.cl c).dl.tgNext = some (xs.foldl (fun t r => Vec.updN t (r.id % 256 - 2) fun _ => r.value) (d.tgNext.getD d.tgSets))))) ∧
  (∀ (s : State) (c : Fin 4) (j : Job) (r : SwitchRun) (result : Byte), (Vec.at s.cl c).dl.switch = some r → s.switchJob c.1 = some j → r.done = some result →
    exec (.routeSwitchJobEnd c) s = .next (State.settle ((s.updDl c fun d => { d with switch := none }).endJob j 0 none
      ([result, 0] ++ leBytes 2 r.maxTally.toNat ++ leBytes 4 r.cycle.toNat)))) ∧
  (∀ (s : State) (m : Msg), asked s m → named [0] m →
    (s.pairJob = none → s.pair.st ≠ 0 → s.pair.st ≠ 1 → responds (.pairConfig m) s 0x700 m (.err 0x22 s.pair.st.1) (taken s m) ∧
      responds (.groupConfig m) s 0x704 m (.err 0x22 s.pair.st.1) (taken s m)) ∧
    (∀ xs, s.pairJob = none → s.pair.st = 0 ∨ s.pair.st = 1 → m.settings = some xs → (∀ r ∈ xs, pairSettingOk r = true) →
      let q := xs.foldl Pair.put s.pair
      (∀ c, (row q.sets 2).testBit c.1 = true → (Vec.at s.cl c).st = .stopped ∧ (Vec.at s.cl c).id ≠ 2 ∧ (Vec.at s.cl c).id ≠ 3 ∧ s.stateInside q c = true) →
      s.budgetOk q (row q.sets 2) = true →
      ∃ w, responds (.pairConfig m) s 0x700 m .ok w ∧ w.pair.sets = q.sets ∧ w.pair.stateBase = q.stateBase ∧ w.pair.stateLen = q.stateLen ∧
        w.pair.st = (if row q.sets 1 = 1 then 1 else 0) ∧ (row q.sets 1 = 1 → w.powered 9 = true)) ∧
    (s.heldBy m.target = none → 8 ≤ m.payload.length →
      (s.pair.pendingSerial ≠ some (BitVec.ofNat 64 (leAt m.payload 0 8)) → responds (.pairApprove m) s 0x701 m (.err 0x22 s.pair.st.1) (taken s m)) ∧
      (s.pair.pendingSerial = some (BitVec.ofNat 64 (leAt m.payload 0 8)) → s.pair.configMismatch = true →
        responds (.pairApprove m) s 0x701 m (.err 0x60 2) (taken s m)) ∧
      (s.pair.pendingSerial = some (BitVec.ofNat 64 (leAt m.payload 0 8)) → s.pair.configMismatch = false → ∃ w, responds (.pairApprove m) s 0x701 m .ok w ∧
        w.pair.lastSerial = BitVec.ofNat 64 (leAt m.payload 0 8) ∧ w.pair.pendingSerial = none ∧ w.pair.approved = true)) ∧
    (s.pairJob = none →
      (s.pair.st ≠ 2 → s.pair.st ≠ 3 → responds (.pairSwitch m) s 0x703 m (.err 0x22 s.pair.st.1) (taken s m)) ∧
      (s.pair.st = 2 ∨ s.pair.st = 3 → jobRoom s m → ∃ w, responds (.pairSwitch m) s 0x703 m ⟨1, s.sup.jobNext.toNat, []⟩ w ∧
        (∃ j ∈ w.sup.jobs, j.kind = .pairSwitch ∧ j.num = s.sup.jobNext) ∧
        ∀ c, (row s.pair.sets 2).testBit c.1 = true → (Vec.at s.cl c).st = .started → (Vec.at w.cl c).pair.switchAt = some ((Vec.at s.cl c).cycle + 2))) ∧
    (s.pairJob = none → s.pair.st = 0 ∨ s.pair.st = 1 → 8 ≤ m.payload.length → leAt m.payload 0 1 ≤ 15 → leAt m.payload 1 1 ≤ 2 → leAt m.payload 2 2 = 0 →
      ∃ w, responds (.groupConfig m) s 0x704 m .ok w ∧ w.pair.members = BitVec.ofNat 8 (leAt m.payload 0 1) ∧ w.pair.ak1mode = BitVec.ofNat 8 (leAt m.payload 1 1) ∧
        (∀ i : Fin 4, Vec.at w.pair.allow i = BitVec.ofNat 8 (leAt m.payload (4 + i.1) 1)) ∧ w.powered 9 = true ∧
        (leAt m.payload 1 1 = 0 → (Vec.at w.pair.links 1).st = 0))) ∧
  (∀ (s : State) (j : Job), s.pairJob = some j →
    (s.pair.switchBad = true → exec .pairSwitchJobEnd s = .next (State.settle (s.endJob j 0x60 (some 4) []))) ∧
    (s.pair.switchBad = false → (∀ c, (Vec.at s.cl c).pair.switchAt = none) → exec .pairSwitchJobEnd s = .next (State.settle (s.endJob j 0 none []))))

/-! ### Sundom: CAN, PIO and field I/O; diagnostics -/

/-- The commands on CAN controllers, PIO engines and field channels (R344, R349, R355, R371, R386, R388, R392,
R397–R406, R417, R452–R455): settings are stored, and refused in HELD, or outside IDLE where the table asks for
IDLE; CAN_FILTER replaces the set, and a frame on the bus is judged by the set before; CAN_ABORT completes what is not on the bus and marks what is; PIO_CONFIG drives
the idle values of the owned pins; PIO_PROGRAM writes its words, all of them where nothing fetches, and for a running
engine the first one at once with the others to land behind it; a value out of range is a host error of the channel; an input's type and tracking hold for its group;
DO_SET drives host channels only and is refused whole otherwise, and a shared output takes 0 while the module is in
SYNCING (R409; the model's reading, log 101); its effect is stated with the FIO domain powered. -/
def Obligations.UnitCommands : Prop :=
  (∀ (s : State) (m : Msg) (n : Fin 4), served s m → named [3] m → tgtInst m.target = n.1 →
    let x := Vec.at s.can n
    (x.st = 0 → responds (.canConfig m) s 0x800 m (.err 0x22 0) (taken s m) ∧ responds (.canFilter m) s 0x802 m (.err 0x22 0) (taken s m) ∧
      responds (.canAbort m) s 0x803 m (.err 0x22 0) (taken s m)) ∧
    (∀ xs, m.settings = some xs → (∀ r ∈ xs, canSettingOk r = true) →
      let sets := xs.foldl (fun t r => Vec.updN t (r.id % 256 - 1) fun _ => r.value) x.sets
      (x.st ≠ 0 → x.st ≠ 1 → (∃ r ∈ xs, canIdleRow (r.id % 256) = true) → responds (.canConfig m) s 0x800 m (.err 0x22 x.st.1) (taken s m)) ∧
      (x.st = 1 → canSetsOk sets = true → (∀ c, x.owner = some c → s.started c = false) → row sets 1 = 1 ∨ (∀ r ∈ xs, r.id ≠ 0x101) →
        responds (.canConfig m) s 0x800 m .ok (configRung ((taken s m).updCan n fun x =>
          let y := if row x.sets 1 ≠ 1 ∧ row sets 1 = 1 then { x with tdcValid := false, tdcv := 0, tdco := 0, ssp := 0 } else x
          { y with sets := sets, past := if xs.any fun r => r.id % 256 = 17 then (x.filters, Vec.at x.sets 16) :: x.past else x.past }) x.owner)) ∧
      (∀ c, x.st = 1 → canSetsOk sets = true → x.owner = some c → s.started c = true → Vec.at sets 0 = 1 → ∃ w, responds (.canConfig m) s 0x800 m .ok w ∧
        (Vec.at w.can n).st = 2 ∧ (Vec.at w.can n).sets = sets ∧ (Vec.at w.can n).tec = 0 ∧ (Vec.at w.can n).rxErr = 0)) ∧
    (x.st ≠ 0 → 384 ≤ m.payload.length → (∀ i, i < 32 → filterOk m.payload i = true) →
      responds (.canFilter m) s 0x802 m .ok (configRung ((taken s m).updCan n fun x => { x with past := (x.filters, Vec.at x.sets 16) :: x.past, filters := Vector.ofFn fun i => {
        valid := decide (leAt m.payload (12 * i.1) 1 = 1), typ := BitVec.ofNat 8 (leAt m.payload (12 * i.1 + 1) 1)
        frames := BitVec.ofNat 8 (leAt m.payload (12 * i.1 + 2) 1), action := BitVec.ofNat 8 (leAt m.payload (12 * i.1 + 3) 1)
        id := BitVec.ofNat 32 (leAt m.payload (12 * i.1 + 4) 4), mask := BitVec.ofNat 32 (leAt m.payload (12 * i.1 + 8) 4) } }) x.owner)) ∧
    (x.st ≠ 0 → 2 ≤ m.payload.length → leAt m.payload 1 1 ≤ 1 → ∃ w, responds (.canAbort m) s 0x803 m (.data (leBytes 4 (Vec.at w.can n).ctxb.toNat)) w ∧
      ∀ b : Fin 8, if leAt m.payload 1 1 = 1 ∨ (leAt m.payload 0 1).testBit b.1 = true then
          (if x.onbus = some b then Vec.at (Vec.at w.can n).tb b = Vec.at x.tb b ∧ ((Vec.at x.tb b).isSome = true → (Vec.at w.can n).abort.getLsbD b.1 = true)
           else Vec.at (Vec.at w.can n).tb b = none)
        else Vec.at (Vec.at w.can n).tb b = Vec.at x.tb b)) ∧
  (∀ (s : State) (m : Msg) (k : Fin 8), served s m → named [4] m → tgtInst m.target = k.1 →
    let x := Vec.at s.pio k
    let w := fun i => BitVec.ofNat 32 (leAt m.payload (4 * i) 4)
    (x.st ≠ 1 → responds (.pioConfig m) s 0x900 m (.err 0x22 x.st.1) (taken s m)) ∧
    (x.st = 1 → 0x24 ≤ m.payload.length → pclkOk (w 0) = true → pfmtOk (w 1) = true → s.linkOk k (w 1) = true → ppinsOk (w 2) = true → pdeOk (w 3) = true →
      pevtOk (w 4) = true → leAt m.payload 0x18 1 < 48 → leAt m.payload 0x19 3 = 0 →
      responds (.pioConfig m) s 0x900 m .ok (configRung ((taken s m).updPio k fun x => { x with
        pclk := w 0, pfmt := w 1, ppins := w 2, pde := w 3, pevt := w 4
        mmask := BitVec.ofNat 16 (leAt m.payload 0x16 2), pmatch := BitVec.ofNat 16 (leAt m.payload 0x14 2)
        start := Fin.ofNat 48 (leAt m.payload 0x18 1)
        rxq := if (w 1).toNat / 65536 % 16 = x.pfmt.toNat / 65536 % 16 then x.rxq else []
        idleVal := w 7 &&& x.outMask, idleDir := w 8 &&& x.outMask, level := w 7 &&& x.outMask, dir := w 8 &&& x.outMask }) x.owner)) ∧
    (∀ first count : Nat, leAt m.payload 0 1 = first → leAt m.payload 1 1 = count → 1 ≤ count → first + count ≤ 48 → leAt m.payload 2 2 = 0 → 4 + 4 * count ≤ m.payload.length →
      let ws := x.landing ++ (List.range count).map fun i => (first + i, w (i + 1))
      (x.st ≠ 0 → x.st ≠ 1 → ∀ v rest, ws = v :: rest → responds (.pioProgram m) s 0x901 m .ok ((taken s m).updPio k fun x =>
        { x with pimem := Vec.updN x.pimem v.1 fun _ => v.2, landing := rest })) ∧
      (x.st = 0 ∨ x.st = 1 → x.landing = [] → ∃ t, responds (.pioProgram m) s 0x901 m .ok ((taken s m).updPio k fun x => { x with pimem := t, landing := [] }) ∧
        ∀ i : Fin 48, Vec.at t i = if first ≤ i.1 ∧ i.1 < first + count then BitVec.ofNat 32 (leAt m.payload (4 + 4 * (i.1 - first)) 4) else Vec.at x.pimem i))) ∧
  (∀ (s : State) (m : Msg), served s m → named [0] m →
    (∀ v : W64, m.settings = some [⟨0x107, 0, v⟩] → v.toNat ≤ 1 → responds (.fioConfig m) s 0xA00 m .ok { taken s m with fio := { s.fio with uvRestore := v } }) ∧
    (∀ v : W64, m.settings = some [⟨0x108, 0, v⟩] → 1 ≤ v.toNat → v.toNat ≤ 10000 →
      responds (.fioConfig m) s 0xA00 m .ok { taken s m with fio := { s.fio with fgate := v } }) ∧
    (∀ (d : Fin 8) (r : Fin 5) (v : W64), m.settings = some [⟨0x101 + r.1, d.1, v⟩] → doSettingOk ⟨0x101 + r.1, d.1, v⟩ = true →
      (Vec.at s.fio.do_ d).owner = none →
      responds (.doConfig m) s 0xA02 m .ok ((taken s m).updDo d fun y => { y with sets := Vec.put y.sets r v })) ∧
    (∀ d : Fin 8, m.settings = some [⟨0x106, d.1, 1⟩] → s.fio.uvlo = false → s.fio.hot = false →
      responds (.doConfig m) s 0xA02 m .ok ((taken s m).updDo d fun y => if y.st = 6 then
        entered { y with retries := 0 } (if y.cmd then 1 else 0) else y)) ∧
    (∀ (d : Fin 8) (id : Nat) (v : W64), m.settings = some [⟨id, d.1, v⟩] →
      (diSettingOk ⟨id, d.1, v⟩ = false → brings s 0xA01 m → exec (.diConfig m) s = .fault (.hostError (s.objAt 5 d.1))) ∧
      (doSettingOk ⟨id, d.1, v⟩ = false → brings s 0xA02 m → exec (.doConfig m) s = .fault (.hostError (s.objAt 6 d.1)))) ∧
    (∀ (d : Fin 8) (v : W64), m.settings = some [⟨0x104, d.1, v⟩] → diSettingOk ⟨0x104, d.1, v⟩ = true → (Vec.at s.fio.di d).owner = none →
      (s.fio.diStore ⟨0x104, d.1, v⟩).heatOk = true →
      responds (.diConfig m) s 0xA01 m .ok ((taken s m).updDi d fun y => { y with sets := Vec.put y.sets 3 v })) ∧
    (∀ (d : Fin 8) (v : W64), m.settings = some [⟨0x104, d.1, v⟩] → diSettingOk ⟨0x104, d.1, v⟩ = true →
      (s.fio.diStore ⟨0x104, d.1, v⟩).heatOk = false → responds (.diConfig m) s 0xA01 m (.err 0x30 (0x500 + d.1)) (taken s m)) ∧
    (∀ (d : Fin 8) (v : W64), m.settings = some [⟨0x101, d.1, v⟩] → v = 0 ∨ v = 3 → (∀ e : Fin 8, (Vec.at s.fio.di e).owner = none) → s.fio.heatOk = true →
      ∃ w, responds (.diConfig m) s 0xA01 m .ok w ∧
        (∀ e : Fin 8, (Vec.at w.fio.di e).sets = if e.1 / 4 = d.1 / 4 then Vec.put (Vec.at s.fio.di e).sets 0 v else (Vec.at s.fio.di e).sets) ∧
        (Vec.at w.fio.von (Fin.ofNat 2 (d.1 / 4))).toNat = vonFor (decide (v = 3)) (decide (Vec.at (Vec.at s.fio.di (Fin.ofNat 8 (d.1 / 4 * 4))).sets 1 = 1)) s.fio.lplus.toNat) ∧
    (∀ d : Fin 8, m.settings = some [⟨0x108, d.1, 1⟩] → (Vec.at s.fio.di d).owner = none → s.fio.heatOk = true →
      responds (.diConfig m) s 0xA01 m .ok ((taken s m).updDi d fun y => { y with count := 0, carry := 0 })) ∧
    (2 ≤ m.payload.length →
      (∀ d : Fin 8, (leAt m.payload 0 1).testBit d.1 = true → (Vec.at s.fio.do_ d).owner.isSome = true →
        (∀ e : Fin 8, e.1 < d.1 → (leAt m.payload 0 1).testBit e.1 = false ∨ (Vec.at s.fio.do_ e).owner = none) →
        responds (.doSet m) s 0xA03 m (.err 0x30 (0x600 + d.1)) (taken s m)) ∧
      ((∀ d : Fin 8, (leAt m.payload 0 1).testBit d.1 = true → (Vec.at s.fio.do_ d).owner = none) → s.powered 11 = true → s.fio.uvlo = false → s.fio.hot = false →
        ∃ w, responds (.doSet m) s 0xA03 m .ok w ∧ { w with fio := s.fio } = taken s m ∧ ∀ d : Fin 8,
          let x := Vec.at s.fio.do_ d
          let v := (leAt m.payload 1 1).testBit d.1 && !(s.doShared d && s.pair.st = 1)
          if (leAt m.payload 0 1).testBit d.1 then
            (Vec.at w.fio.do_ d).cmd = v ∧ (x.st.1 ≤ 1 → (Vec.at w.fio.do_ d).st = if v then 1 else 0) ∧ (x.st = 6 ∨ x.st = 4 ∨ x.st = 7 → (Vec.at w.fio.do_ d).st = x.st)
          else Vec.at w.fio.do_ d = x)))

/-- A block being borrowed: COPY, then HELD with the 256 octets of its block, then RESTORE after the patterns, or PERMANENT
after a faulty cell (R527, R530). -/
def Sys2Proof.Claim.borrowNext (b : Borrow) (m : Mem) (next : Nat) (faulty : Bool) : Borrow :=
  if b.active = false then { active := true, phase := 0, block := next, copied := 0, shadow := [] }
  else if b.phase = 0 then { b with phase := 1, copied := 32, shadow := memWriteN [] 0 (memReadN m (256 * b.block) 256) }
  else if b.phase = 1 then { b with phase := if faulty then 3 else 2 }
  else if b.phase = 2 then Borrow.none else b

/-- A WARNING of R329 is due: its bit of the health word (PORTS_OK, TIME_OK, FIO_OK, RELAY_LATE, CKPT_OLD) has changed since
the last one. -/
def Sys2Proof.Claim.warnDue (s : State) (i : Fin 5) : Bool :=
  (if i.1 < 3 then !s.health.getLsbD (21 - i.1) else s.health.getLsbD (21 - i.1)) != s.pair.clearWarn.getLsbD i.1

/-- Diagnostics and identity (R111, R458, R461, R522, R525, R526, R533, R538, R546–R551, R599): SELFTEST and ATTEST
start their jobs and their ends carry the results; a failure clears ST_OK; the statistics period latches and closes
the module's counters; a slice moves a borrow on and makes a NOTICE of a correctable word that its copy meets; a starved request records its 1024 cycles; the scrub counts what
it finds; the health summary goes out every 100 ms, with a WARNING for a condition of R329 that has come or gone, and a held
notification when its 100 µs are over. -/
def Obligations.Diagnostics : Prop :=
  (∀ (s : State) (m : Msg), served s m → named [0, 1, 2] m → s.testJob m.target = none → 2 ≤ m.payload.length → leAt m.payload 0 2 < 16 →
    (jobRoom s m → s.scopeSelects m.target (leAt m.payload 0 2) = true →
      accepts (.selftest m) s 0xB03 m (.selftest m.target (BitVec.ofNat 16 (leAt m.payload 0 2))) id) ∧
    (¬ jobRoom s m → responds (.selftest m) s 0xB03 m (.err 0x10 0) (taken s m)) ∧
    (jobRoom s m → s.scopeSelects m.target (leAt m.payload 0 2) = false → brings s 0xB03 m →
      let kind := JobKind.selftest m.target (BitVec.ofNat 16 (leAt m.payload 0 2))
      let j : Job := { num := s.sup.jobNext, kind := kind, chan := m.chan, gen := m.gen, tag := m.tag, flags := m.flags, target := m.target }
      exec (.selftest m) s = .next (State.settle ((((taken s m).startJob kind m).2.answer 0xB03 m ⟨1, s.sup.jobNext.toNat, []⟩).endJob j 0 none
        (List.replicate 12 0)))) ∧
  (∀ (s : State) (j : Job) (o sc : W16) (item : W16) (addr slices : W32), s.sup.jobs.find? (fun x => x.num == j.num && match x.kind with | .selftest _ _ => true | _ => false) = some j →
    j.kind = .selftest o sc → item.toNat / 256 = 1 ∨ item.toNat / 256 = 2 ∨ item.toNat / 256 = 4 ∨ item.toNat / 256 = 5 →
    ∃ u, exec (.selftestJobEnd j.num true item addr slices) s = .next u.settle ∧ u.selft.stOk = false ∧ ended u j) ∧
  (∀ (s : State) (j : Job) (o sc : W16) (addr slices : W32), s.sup.jobs.find? (fun x => x.num == j.num && match x.kind with | .selftest _ _ => true | _ => false) = some j →
    j.kind = .selftest o sc → s.scopeItems j.target sc.toNat = [] →
    exec (.selftestJobEnd j.num false 0 addr slices) s = .next (State.settle (s.endJob j 0 none ([0, 0, 0, 0, 0, 0, 0, 0] ++ leBytes 4 slices.toNat)))) ∧
  (∀ (s : State) (m : Msg), asked s m → named [0] m → 16 ≤ m.payload.length →
    (∀ j, s.attestJob = some j → responds (.attest m) s 0xC01 m (.err 0x10 j.num.toNat) (taken s m)) ∧
    (s.attestJob = none → jobRoom s m → accepts (.attest m) s 0xC01 m (.attest (m.payload.take 16)) id)) ∧
  (∀ (s : State) (j : Job) (nonce : List Byte), s.attestJob = some j → j.kind = .attest nonce → nonce.length = 16 →
    ∃ bs n, exec .attestJobEnd s = .next (State.settle (({ s with free := n } : State).endJob j 0 none bs)) ∧ bs.length = 224 ∧ bs.take 16 = nonce ∧
      (bs.drop 16).take 32 = sha256 (imgWhole (Vec.at s.pwr.slots (if s.pwr.bootimg then 1 else 0)).sundom) ∧
      (∀ c : Fin 4, field bs (0x30 + 36 * c.1) 2 (Vec.at s.cl c).id.toNat ∧
        ((Vec.at s.cl c).image ≠ [] → (bs.drop (0x34 + 36 * c.1)).take 32 = sha256 (imgWhole (Vec.at s.cl c).image))) ∧
      field bs 0xC0 4 s.pwr.rollback) ∧
  (∀ (s : State) (n : Fin 8), exec (.notificationPost n) s = .next (if s.live then (s.updMbx n fun x => { x with slotOpen := true }).postNext n else s)) ∧
  (∀ s : State, s.live = true →
    ((∀ i : Fin 5, warnDue s i = false) → exec .pairStatePeriodic s = .next (s.notify 0xF002 (s.objAt 0 0) ([BitVec.ofNat 8 s.pair.st.1, s.pair.peerState, 11, 1] ++
      leBytes 4 s.health.toNat ++ leBytes 4 (if s.pair.st = 0 then 0 else s.pair.peerHealth.toNat) ++
      leBytes 8 s.pair.peerSerial.toNat ++ leBytes 4 s.pair.mismatch.toNat ++ leBytes 4 s.pair.takeovers.toNat))) ∧
    (∀ i : Fin 5, logRoom s → warnDue s i = true → (∀ j : Fin 5, j ≠ i → warnDue s j = false) → ∃ u, exec .pairStatePeriodic s = .next u ∧
      reported (s.updPair fun p => { p with clearWarn := p.clearWarn ^^^ BitVec.ofNat 5 (2 ^ i.1) }) u ∧ logged u (0x708 + i.1) (s.objAt 0 0) 0)) ∧
  (∀ s : State, s.sup.area = 0xFFFFFFFF → ∃ t : State, exec .moduleStatsPeriod s = .next t.settle ∧ t.sup.periods = s.sup.periods + 1 ∧ t.sup.period = s.sup.periodNext ∧
    t.tim.maxOff = 0 ∧ (∀ i : Fin 75, ¬ (8 ≤ i.1 ∧ i.1 ≤ 39) → Vec.at t.modCtr.live i = 0 ∧ Vec.at t.modCtr.ival i = 0 ∧
      (Vec.at t.modCtr.tot i).toNat = ((Vec.at s.modCtr.tot i).toNat + min 0xFFFFFFFF ((Vec.at s.modCtr.ival i).toNat + (Vec.at s.modCtr.live i).toNat)) % 2 ^ 64) ∧
    (∀ c, (Vec.at t.cl c).ival = if (Vec.at s.cl c).st = .started then true else (Vec.at s.cl c).ival) ∧ t.shm = s.shm) ∧
  (∀ (s : State) (c : Fin 4), s.powered (2 + c.1) = true →
    let k := Vec.at s.cl c
    (∀ faulty corr, (k.borrow.active = true ∧ k.borrow.phase = 1 → faulty = false) → k.borrow.active = false ∨ k.borrow.phase ≠ 2 →
      (k.borrow.active = true ∧ k.borrow.phase = 0 → corr = none) →
      exec (.selftestSlice (.spadStep c faulty corr)) s = .next (State.settle (s.updCl c fun k => { k with borrow := borrowNext k.borrow k.spad k.nextBlock faulty }))) ∧
    (∀ faulty (i : BitVec 5), k.borrow.active = true → k.borrow.phase = 0 → logRoom s →
      ∃ u, exec (.selftestSlice (.spadStep c faulty (some i))) s = .next u.settle ∧
      (Vec.at u.cl c).borrow = borrowNext k.borrow k.spad k.nextBlock faulty ∧
      logged u 0x0B01 (s.objAt 1 c.1) (memData 63 0 0 (32 * k.borrow.block + i.toNat))) ∧
    (∀ corr, k.borrow.active = true → k.borrow.phase = 1 → logRoom s → ∃ u, exec (.selftestSlice (.spadStep c true corr)) s = .next u.settle ∧
      (Vec.at u.cl c).borrow = { k.borrow with phase := 3 } ∧ u.selft.stOk = false ∧ logged u 0x0B03 (s.objAt 1 c.1) (memData 63 0 0 (32 * k.borrow.block))) ∧
    (∀ corr, k.borrow.active = true → k.borrow.phase = 2 → memWf k.spad = true → ∃ u : State, exec (.selftestSlice (.spadStep c false corr)) s = .next u.settle ∧ (Vec.at u.cl c).borrow = Borrow.none ∧
      (∀ a, memRead (Vec.at u.cl c).spad a = if 256 * k.borrow.block ≤ a ∧ a < 256 * k.borrow.block + 256 then memRead k.borrow.shadow (a - 256 * k.borrow.block) else memRead k.spad a) ∧
      (Vec.at u.cl c).nextBlock = if k.nextBlock + 1 < 2048 then k.nextBlock + 1 else 0) ∧
    (logRoom s → ∃ u, exec (.selftestSlice (.logic c false)) s = .next u.settle ∧ u.selft.stOk = false ∧ logged u 0x0103 (s.objAt 1 c.1) (BitVec.ofNat 32 (0x400 + c.1)))) ∧
  (∀ (s : State) (p : Fin 12), logRoom s →
    ((Vec.at s.port p).st = 0 → exec (.calStarved p) s = .next s) ∧
    ((Vec.at s.port p).st ≠ 0 → ∃ u, exec (.calStarved p) s = .next u ∧ reported s u ∧ logged u 0x0304 (s.objAt 2 p.1) 0)) ∧
  (∀ (s : State) (c : Fin 4) (code : BitVec 6) (word : BitVec 20), logRoom s → ∃ u, exec (.memStarve (.spad c) code word) s = .next u.settle ∧
    logged u 0x0B00 (s.objAt 1 c.1) (memData code.toNat 0 0 word.toNat) ∧
    let b : Fin 8 := Fin.ofNat 8 word.toNat
    (Vec.at (Vec.at u.cl c).spstall b).toNat % 2 ^ 16 = max ((Vec.at (Vec.at s.cl c).spstall b).toNat % 2 ^ 16) 1024) ∧
  (∀ (s : State) (e : Fin 16) (dmem : Bool) (word : BitVec 20), logRoom s →
    (∃ u, exec (.imemDmemScrub e dmem word false) s = .next u.settle ∧ logged u 0x0B01 (s.objAt 1 (clOf e).1) (memData 63 (if dmem then 3 else 2) (kOf e).1 word.toNat) ∧
      (∀ f, (Vec.at u.eng f).badI = (Vec.at s.eng f).badI ∧ (Vec.at u.eng f).badD = (Vec.at s.eng f).badD)) ∧
    (∃ u, exec (.imemDmemScrub e dmem word true) s = .next u.settle ∧ logged u 0x0B02 (s.objAt 1 (clOf e).1) (memData 63 (if dmem then 3 else 2) (kOf e).1 word.toNat) ∧
      (if dmem then word.toNat ∈ (Vec.at u.eng e).badD else word.toNat ∈ (Vec.at u.eng e).badI))))

/-! ### Ports: lines, PLCA, energy-efficient Ethernet -/

/-- `u` is `w`, reports apart, with the branches of hubs following their ports (R292). -/
def Sys2Proof.Claim.relinked (w u : State) : Prop :=
  ∃ cl, (∀ c, ∃ b, Vec.at cl c = { Vec.at w.cl c with dl := { (Vec.at w.cl c).dl with branches := b } }) ∧
    (∀ c, (Vec.at w.cl c).role ≠ some .hub → Vec.at cl c = Vec.at w.cl c) ∧ reported { w with cl := cl } u

/-- A running engine of the owning cluster that does not wait sees EVP bit 13 (R146). -/
def Sys2Proof.Claim.linkEvent (s u : State) (p : Fin 12) : Prop :=
  ∀ c e, (Vec.at s.port p).owner = some c → clOf e = c → (Vec.at s.eng e).run = true → (Vec.at s.eng e).wait = .none →
    (Vec.at u.eng e).evp.getLsbD 13 = true

/-- The remote fault bits that an X port with auto-negotiation sends once it enters a state for a reason (R143, log 83). -/
def Sys2Proof.Claim.faultSent (x : Port) (p : Fin 12) (st : Fin 6) (reason : BitVec 4) : BitVec 2 :=
  if 10 ≤ p.1 ∧ Vec.at x.t1 17 = 0 then
    (if st = 3 then 0 else if reason = 2 then 2 else if reason = 5 then 3 else if st = 2 then 0 else 1)
  else 0

/-- The command changes the state of this port (R146): the port becomes `y`, with the new state, its reason, the remote
fault bits that go with them and one more change counted, training begins at its first step size (R137), the owner's engines
see it, and nothing else changes, reports and hubs' branches apart. -/
def Sys2Proof.Claim.movesTo (i : Instr) (s w : State) (p : Fin 12) (st : Fin 6) (reason : BitVec 4) (y : Port) : Prop :=
  ∃ u : State, exec i s = .next u.settle ∧ linkEvent s u p ∧
    relinked { w with port := Vec.put w.port p { y with
      st := st, reason := reason, chg := (Vec.at s.port p).chg + 1, rf := faultSent (Vec.at s.port p) p st reason
      loop := if st = 2 then { y.loop with stage := 0 } else y.loop } } u

/-- A port that leaves UP with nothing on its line (R125, R146): the frame it receives is discarded and counted. -/
def Sys2Proof.Claim.lineDown (x : Port) : Port :=
  { x with speed := 0, role := false, lpiTx := false, lpiRx := false, lpiRefresh := false, snrMin := 0, pauseRx := false,
           pauseTx := false, xoff := false, pauseLeft := 0, pauseSub := 0, mm := 0, mmTries := 0, retry := false, turn := 0,
           burst := 0, opportunity := false, eeeOn := false, launched := Vec.fill 8 false, receiving := false, reasm := none
           ways := { x.ways with store := [], hold := [] }
           ctr := (x.ctr.add 4 ((if x.receiving then 1 else 0) + if x.reasm.isSome then 1 else 0)).add 1 1 }

/-- Auto-negotiation begins again where the port runs it (R128, R143, R147). -/
def Sys2Proof.Claim.renegotiates (x : Port) (p : Fin 12) : Port :=
  if (p.1 < 4 ∧ Vec.at x.t1 1 ≠ 3) ∨ (10 ≤ p.1 ∧ Vec.at x.t1 17 = 0) then { x with ctr := x.ctr.add 2 1 } else x

/-- The speed of an L, S or X port, and of a G port from what it advertises and what was resolved (R123, R126, R143). -/
def Sys2Proof.Claim.speedOf (x : Port) (p : Fin 12) (resolved : Fin 5) : BitVec 4 :=
  if 10 ≤ p.1 then (if Vec.at x.t1 17 = 2 then 4 else 3)
  else if 4 ≤ p.1 then 1
  else if Vec.at x.t1 1 = 1 then 3
  else if Vec.at x.t1 1 = 2 ∨ Vec.at x.t1 1 = 3 ∨ resolved = 2 then 2 else 3

/-- The port's transmitter may use LPI (R148, R151). -/
abbrev Sys2Proof.Claim.lpiAble (x : Port) (p : Fin 12) : Prop :=
  (p.1 < 4 ∧ x.eeeOn = true) ∨ (4 ≤ p.1 ∧ p.1 < 8 ∧ Vec.at x.t1 9 = 1)

/-- Bring-up and loss of links (R124, R125, R131, R132, R136, R144–R152). A link established takes TRAINING to UP with
REASON LINK_OK, speed, length and pair margins as found; a loss takes UP to TRAINING with its reason, clearing what
PLINK shows of the link, counting link_down and the frames being received, and a frame on the line ends with a bad FCS;
retries stay within TRAINING; an impulse guard is counted and suspends adaptation for 256 symbols; a PHY fault takes
any port but a HELD or failed one to FAULT with an ALARM; LPI is shown without a change of state, and is entered only from a
quiet line, far enough from the next scheduled event. (The counting of an_restart per retry and restart, the codes of the
remote fault bits and the measuring of the gap from the entry are the model's reading, logs 83 and 89.) -/
def Obligations.PortLines : Prop :=
  ∀ (s : State) (p : Fin 12),
    let x := Vec.at s.port p
    let stays := Host.Outcome.next (φ := Fault) (ρ := Refusal) s.settle
    let becomes := fun (y : Port) => Host.Outcome.next (φ := Fault) (ρ := Refusal) (State.settle (s.updPort p fun _ => y))
    let speed := fun (r : LinkRes) => speedOf x p r.speed
    let loses := fun (reason : Fin 16) => (reason = 2 ∧ (p.1 < 8 ∨ 10 ≤ p.1)) ∨ (reason = 6 ∧ p.1 < 8) ∨
      (reason = 9 ∧ 10 ≤ p.1 ∧ Vec.at x.t1 17 = 0)
    (∀ r : LinkRes, x.st = 2 → Vec.at x.t2 8 ≠ 1 → (Vec.at x.t2 7 = 1 → r.pause = false) → p.1 < 8 ∨ 10 ≤ p.1 →
      ∃ y, movesTo (.linkUp p r) s s p 3 3 y ∧
      y.speed = speed r ∧ y.length = r.length ∧ y.pairSnr = r.snr ∧ y.guards = 0 ∧ y.ctr = x.ctr ∧ y.pauseTx = false ∧
      (y.pauseRx = true → Vec.at x.t2 7 = 1) ∧ (y.eeeOn = true → p.1 < 4 ∧ Vec.at x.t1 9 = 1 ∧ r.partnerEee = true) ∧
      (y.mm = 0 ↔ Vec.at x.pre 0 = 0) ∧ (p.1 < 8 → y.loop.mse = r.mse) ∧ y.loop.guarded = 0 ∧
      y.t1 = x.t1 ∧ y.t2 = x.t2 ∧ y.t3 = x.t3 ∧ y.owner = x.owner ∧ y.tx = x.tx) ∧
    (∀ r : LinkRes, x.st = 2 → ∃ u : State, exec (.linkUp p r) s = .next u.settle ∧ (Vec.at u.port p).st = 3 ∧
      (Vec.at u.port p).reason = 3 ∧ (Vec.at u.port p).chg = x.chg + 1 ∧ (Vec.at u.port p).speed = speed r ∧
      ∀ q, q ≠ p → Vec.at u.port q = Vec.at s.port q) ∧
    (∀ r : LinkRes, x.st ≠ 2 → exec (.linkUp p r) s = stays) ∧
    (∀ reason : Fin 16, x.st = 3 → loses reason →
      (x.tx = none → x.preempted = none → movesTo (.linkLoss p reason) s s p 2 (BitVec.ofNat 4 reason.1) (renegotiates (lineDown x) p)) ∧
      (∀ t, x.tx = some t → ∃ u : State, exec (.linkLoss p reason) s = .next u.settle ∧ (Vec.at u.port p).tx = none ∧
        (Vec.at u.port p).wire = some (t.whole .bad) ∧ (Vec.at u.port p).st = 2)) ∧
    (∀ reason : Fin 16, x.st ≠ 3 ∨ ¬ loses reason → exec (.linkLoss p reason) s = stays) ∧
    (∀ nc : Bool, x.st ≠ 2 → exec (.trainingRetry p nc) s = stays) ∧
    (∀ nc : Bool, x.st = 2 →
      (p.1 < 4 → exec (.trainingRetry p nc) s = becomes (if Vec.at x.t1 1 = 3 then x
        else if nc then { x with ctr := x.ctr.add 2 1, reason := 5, rf := 0 } else { x with ctr := x.ctr.add 2 1 })) ∧
      (4 ≤ p.1 → p.1 < 8 → exec (.trainingRetry p nc) s = becomes { x with reason := 4, rf := 0 }) ∧
      (8 ≤ p.1 → p.1 < 10 → exec (.trainingRetry p nc) s = stays) ∧
      (10 ≤ p.1 → exec (.trainingRetry p nc) s = becomes (if Vec.at x.t1 17 ≠ 0 then x
        else if nc then { x with ctr := x.ctr.add 2 1, reason := 5, rf := 3 } else { x with ctr := x.ctr.add 2 1 }))) ∧
    (∀ (k : Fin 4) (m : W16), logRoom s → x.st = 3 → p.1 < 8 → m.toInt < (Vec.at x.t1 8).toNat →
      ∃ n, reports (.snrLow p k m) s (s.updPort p fun _ => { x with pairSnr := Vec.put x.pairSnr k m, snrMin := n }) 0x0301 (s.objAt 2 p.1)) ∧
    (∀ (k : Fin 4) (m : W16), x.st ≠ 3 ∨ 8 ≤ p.1 ∨ (Vec.at x.t1 8).toNat ≤ m.toInt → exec (.snrLow p k m) s = stays) ∧
    (exec (.impulseGuard p) s = if (x.st = 3 ∨ x.st = 2) ∧ p.1 < 8 then becomes { x with
        guards := x.guards + 1, ctr := x.ctr.add 3 1
        loop := { x.loop with guarded := 256 * if p.1 < 4 then 80 else 1333 } } else stays) ∧
    (logRoom s → x.st ≠ 0 → x.st ≠ 5 → x.tx = none → x.preempted = none →
      movesTo (.phyFault p) s s p 5 12 (if x.st = 3 then lineDown x else x) ∧
      ∃ u : State, exec (.phyFault p) s = .next u.settle ∧ logged u 0x0300 (s.objAt 2 p.1) 0 ∧
        u.sup.jobs.all (fun j => decide (j.kind ≠ .cableTest p)) = true) ∧
    (x.st = 0 ∨ x.st = 5 → exec (.phyFault p) s = stays) ∧
    (exec (.lpiEntry p) s = if x.st = 3 ∧ lpiAble x p ∧ x.lpiTx = false ∧ x.tx = none ∧ x.preempted = none ∧
        x.ways.store = [] ∧ x.copies = [] ∧ (∀ c : Fin 8, (Vec.at s.hq (finOf 256 (8 * p.1 + c.1))).items = []) ∧ s.lpiGap p = true
      then becomes { x with lpiTx := true, ctr := x.ctr.add 5 1 } else stays) ∧
    (exec (.lpiScheduledWake p) s = becomes { x with lpiTx := false }) ∧
    (x.st = 3 → exec (.partnerLpi p .awake) s = becomes { x with lpiRx := false, lpiRefresh := false }) ∧
    (x.st = 3 → exec (.partnerLpi p .refresh) s = if x.lpiRx then becomes { x with lpiRefresh := true } else stays) ∧
    (x.st = 3 → exec (.partnerLpi p .quiet) s = if lpiAble x p
      then becomes { x with lpiRx := true, lpiRefresh := false, ctr := if x.lpiRx then x.ctr else x.ctr.add 6 1 } else stays) ∧
    (∀ line, x.st ≠ 3 → exec (.partnerLpi p line) s = stays)

/-- A PLCA cycle at its start: opportunity 0, with the burst limit in force now (R126, R139). -/
def Sys2Proof.Claim.plcaBegun (x : Port) : Port :=
  { x with turn := 0, burst := 0, burstMax := (Vec.at x.t1 15).toNat, opportunity := decide (Vec.at x.t1 12 = 0) }

/-- PLCA on an S port in UP (R139–R142): after the last of PLCA_COUNT opportunities a coordinator's beacon begins a cycle at
ID 0, opportunities follow in ID order, none while a frame is on the line, and a listen-only port has none; energy in a
coordinator's beacon, or a beacon it receives, is a clash, counted and warned, that leaves its role; a follower that loses
the beacon goes to TRAINING and comes back on the next one; a collision is counted and the frame waits for the next
opportunity, and the 16th attempt drops it. -/
def Obligations.PlcaRules : Prop :=
  ∀ (s : State) (p : Fin 12), 8 ≤ p.1 → p.1 < 10 →
    let x := Vec.at s.port p
    let id := (Vec.at x.t1 12).toNat
    let obj := s.objAt 2 p.1
    let stays := Host.Outcome.next (φ := Fault) (ρ := Refusal) s.settle
    let becomes := fun (y : Port) => Host.Outcome.next (φ := Fault) (ρ := Refusal) (State.settle (s.updPort p fun _ => y))
    let free := x.tx = none ∨ x.retry = true
    let taken := id = 0 ∧ (Vec.at x.t1 13).toNat ≤ x.turn
    (x.st = 3 → id = 0 → logRoom s →
      (taken → free → exec (.plcaBeacon p false) s = becomes (plcaBegun x) ∧
        reports (.plcaBeacon p true) s (s.updPort p fun _ => { plcaBegun x with ctr := x.ctr.add 7 1 }) 0x0302 obj) ∧
      reports (.beaconReceived p) s (s.updPort p fun _ => { x with ctr := x.ctr.add 7 1 }) 0x0302 obj ∧
      exec (.beaconLost p) s = stays) ∧
    (∀ energy, x.st ≠ 3 ∨ ¬ taken ∨ ¬ free → exec (.plcaBeacon p energy) s = stays) ∧
    (x.st = 3 → id ≠ 0 →
      exec (.beaconReceived p) s = becomes (plcaBegun x) ∧
      (x.tx = none → x.preempted = none → movesTo (.beaconLost p) s s p 2 7 (lineDown x))) ∧
    (x.st = 3 → free → ¬ taken → exec (.transmitOpportunityEnd p) s =
      becomes { x with turn := x.turn + 1, burst := 0, opportunity := decide (id = x.turn + 1 ∧ id ≠ 255) }) ∧
    (x.st ≠ 3 ∨ ¬ free ∨ taken → exec (.transmitOpportunityEnd p) s = stays) ∧
    (x.st = 2 → x.reason = 7 →
      ∃ u : State, exec (.beaconReceived p) s = .next u.settle ∧
      (Vec.at u.port p).st = 3 ∧ (Vec.at u.port p).reason = 8 ∧ (Vec.at u.port p).chg = x.chg + 1 ∧
      (Vec.at u.port p).speed = 1 ∧ (Vec.at u.port p).turn = 0 ∧ linkEvent s u p ∧ ∀ q, q ≠ p → Vec.at u.port q = Vec.at s.port q) ∧
    (x.st ≠ 3 → exec (.beaconLost p) s = stays ∧ exec (.plcaCollision p) s = stays) ∧
    (x.tx = none ∨ x.retry = true → exec (.plcaCollision p) s = stays) ∧
    (∀ t, x.st = 3 → x.tx = some t → x.retry = false →
      (x.attempts + 1 < 16 → ∃ u : State, exec (.plcaCollision p) s = .next u.settle ∧
        reported (s.updPort p fun _ =>
          { x with wire := some (t.whole .bad), opportunity := false, attempts := x.attempts + 1, retry := true, ctr := x.ctr.add 8 1 }) u ∧
        (logRoom s → Vec.atD x.ctr.live 8 0 = 0 → Vec.atD x.ctr.ival 8 0 = 0 → logged u 0x0303 obj 0)) ∧
      (16 ≤ x.attempts + 1 → t.descs.all (fun d => !d.ret) = true → leads (.plcaCollision p) s (s.updPort p fun _ =>
        { x with wire := some (t.whole .bad), opportunity := false, attempts := 0, retry := false, tx := none, ctr := (x.ctr.add 8 1).add 9 1 })))

/-! ### The frame MAC -/

/-- A running engine of a cluster that does not wait sees an event bit. -/
def Sys2Proof.Claim.clusterEvent (s u : State) (c : Fin 4) (b : Nat) : Prop :=
  ∀ e, clOf e = c → (Vec.at s.eng e).run = true → (Vec.at s.eng e).wait = .none → (Vec.at u.eng e).evp.getLsbD b = true

/-- A frame's octets laid into buffers in order, each filled up to its size (R161), until octets or buffers end. -/
def Sys2Proof.Claim.filled : List Desc → List Byte → List (Desc × List Byte)
  | [], _ => []
  | d :: r, bs => if bs = [] then [] else (d, bs.take d.size) :: filled r (bs.drop d.size)

/-- Descriptor `i` of `n` of a received frame (R191–R193): word 0 as it stood; FIRST, LAST, DISCARD and ERR of a cut
frame, TS, BSZ, the port and the octets in word 1; the stamp in word 2 of the first; the tag fields in word 3 of the
first, the checksum states, the error code 5 of a cut frame and the queue in word 3 of the last. -/
def Sys2Proof.Claim.filedAs (f : RxFrame) (p : Fin 12) (q : Nat) (tagged : Bool) (pcp vid ip4 l4 : Nat) (cut : Bool) (n i : Nat)
    (d : Desc) (len : Nat) : Desc :=
  let bit := fun (b : Bool) (k : Nat) => if b then 2 ^ k else 0
  let first := decide (i = 0)
  let last := decide (i + 1 = n)
  { w0 := d.w0
    w1 := BitVec.ofNat 32 (bit first 31 + bit last 30 + bit cut 29 + bit cut 28 + bit first 27 + d.bsz * 2 ^ 24 + p.1 * 2 ^ 20 + len)
    w2 := if first then f.stamp else 0
    w3 := BitVec.ofNat 32 ((if first then f.tfrac.toNat * 2 ^ 30 + bit tagged 29 + pcp * 2 ^ 26 + vid * 2 ^ 12 else 0) +
      (if last then ip4 * 2 ^ 10 + l4 * 2 ^ 8 + (if cut then 5 else 0) * 16 + q * 4 else 0)) }

/-- A buffer in the scratchpad (R190). -/
def Sys2Proof.Claim.inSpad (d : Desc) : Prop := 0x10000000 ≤ d.w0.toNat ∧ d.w0.toNat + d.size ≤ 0x10080000

/-- A frame or fragment has arrived at a port (R125, R147, R197): nothing is being received any more, and the invalid symbols
inside it and before it are counted, on S ports not. -/
def Sys2Proof.Claim.arrivedAt (x : Port) (p : Fin 12) (f : RxFrame) : Port :=
  { x with receiving := false, ctr := if 8 ≤ p.1 ∧ p.1 < 10 then x.ctr else x.ctr.add 0 (f.symErrs + f.lineErrs) }

/-- No queue is in the error of R196. -/
def Sys2Proof.Claim.soundQueues (s : State) : Prop := ∀ h, (Vec.at s.hq h).bad = false

/-- The port is no branch of a started hub: what comes in meets no Tollgate (R289). -/
def Sys2Proof.Claim.offBranch (s : State) (p : Fin 12) (c : Fin 4) : Prop :=
  let k := Vec.at s.cl c
  k.role = some .hub → k.st = .started → k.dl.portA = p.1 ∨ k.dl.portB = p.1 ∨ ∀ b, (Vec.at k.dl.branchPorts b).toNat ≠ p.1

/-- The receive path (R156, R159–R163, R175, R177, R178, R180). Fragments join the frame that their start began, one that
does not fit it, or arrives without it, discards it and counts rx_reasm_err; a runt, a bad FCS, a symbol error
and an oversize frame are dropped and counted with RX_KEEP_BAD 0; a MAC Control frame is consumed, and a PAUSE that
the port honours replaces the remaining time; the Drumline EtherType never enters a receive queue; a foreign address
and a VID not listed are dropped and counted; a frame that passes fills buffers from the queue's FBQ and its
descriptors enter the receive queue, EVP bit 15 following; without a buffer it is dropped and counted rx_nobuf,
running out it is cut, with DISCARD and ERR throughout; a queue without room counts rx_qfull and the buffers go
back. (That the first stage looks for runt, FCS and symbol errors in this order, that octets are counted without
the FCS, and that VID 0 passes VLAN_FILTER are the model's reading, log 87.) The duplicate table of a PRP pair (R180): a frame
with a valid trailer that came from the other LAN before is discarded and counted; one that names the wrong LAN is counted;
one that is delivered, and only then, is noted. (The trailer is IEC 62439-3's, the model's presumption.) A bad frame that
RX_KEEP_BAD = 1 keeps is delivered with ERR and its code, and is counted as bad, not as good (the model's reading, log 102).
A frame that would take a buffer from a queue in the error of R196 ends in that error. -/
def Obligations.FrameReception : Prop :=
  (∀ (s : State) (p : Fin 12) (f : RxFrame) (c : Fin 4),
    let x := Vec.at s.port p
    let bs := f.bytes
    let e := beAt bs 12 2
    let tagged := decide (e = 0x8100)
    let tci := beAt bs 14 2
    let ety := if tagged then beAt bs 16 2 else e
    let vid := if tagged = true ∧ tci % 4096 ≠ 0 then tci % 4096 else (Vec.at x.t2 4).toNat
    let pcp := if tagged then tci / 8192 else (Vec.at x.t2 5).toNat
    let k := Vec.at s.cl c
    let stays := Host.Outcome.next (φ := Fault) (ρ := Refusal) s.settle
    let got := arrivedAt x p f
    let becomes := fun (y : Port) => Host.Outcome.next (φ := Fault) (ρ := Refusal) (State.settle (s.updPort p fun _ => y))
    let counts := fun (n : Nat) => becomes { got with ctr := got.ctr.add n 1 }
    let onS := 8 ≤ p.1 ∧ p.1 < 10
    let good := f.asm = .whole ∧ 60 ≤ bs.length ∧ f.fcs = .good ∧ f.symErrs = 0 ∧ bs.length + 4 ≤ (Vec.at x.t2 0).toNat
    let own := fun (b : List Byte) => beAt b 0 6 = (s.stationOf p).toNat ∨ beAt b 0 6 = 2 ^ 48 - 1 ∨
      ∃ i, Vec.at x.mcast i ≠ 0 ∧ (Vec.at x.mcast i).toNat = beAt b 0 6
    let plain := e ≠ 0x8808 ∧ (k.role = none ∨ e ≠ k.dl.etype)
    let listed := Vec.at x.t2 6 ≠ 1 ∨ tagged = false ∨ tci % 4096 = 0 ∨ ∃ i, (Vec.at x.vids i).toNat = tci % 4096
    let sums := if p.1 < 4 ∨ 10 ≤ p.1 then rxChecks bs else (0, 0)
    let broken := sums.1 = 2 ∨ sums.2 = 3
    let honoured := x.pauseRx = true ∧ ¬ onS ∧ beAt bs 14 2 = 1
    (soundQueues s → x.st ≠ 3 ∨ x.owner = none → exec (.frameReceived p f) s = stays) ∧
    (soundQueues s → x.st = 3 → x.owner = some c → offBranch s p c →
      (f.asm = .begins → exec (.frameReceived p f) s = becomes { got with receiving := true }) ∧
      (onS → (∃ n tail, f.asm = .first n tail) ∨ (∃ n i tail, f.asm = .more n i tail) → exec (.frameReceived p f) s = becomes got) ∧
      (¬ onS → ∀ n, x.reasm = none →
        (f.asm = .first n .mcrc → exec (.frameReceived p f) s =
          becomes { got with reasm := some ⟨bs, n, 0, f.symErrs, f.stamp, f.tfrac⟩ }) ∧
        (f.asm = .first n .badMcrc → exec (.frameReceived p f) s = counts 21) ∧
        (f.asm = .first n .fcs → exec (.frameReceived p f) s = exec (.frameReceived p { f with asm := .whole }) s) ∧
        (∀ i tail, f.asm = .more n i tail → exec (.frameReceived p f) s = counts 21)) ∧
      (¬ onS → ∀ n, x.reasm ≠ none → f.asm = .first n .mcrc → exec (.frameReceived p f) s = becomes { got with
        reasm := some ⟨bs, n, 0, f.symErrs, f.stamp, f.tfrac⟩, ctr := got.ctr.add 21 1 }) ∧
      (¬ onS → ∀ (r : Reasm) (n i : Fin 4) (tail : FragEnd), x.reasm = some r → f.asm = .more n i tail →
        let joined : RxFrame :=
          { bytes := r.bytes ++ bs, fcs := f.fcs, symErrs := 0, asm := .whole, stamp := r.stamp, tfrac := r.tfrac, lineErrs := f.lineErrs }
        (n ≠ r.n ∨ i ≠ r.count ∨ tail = .badMcrc →
          exec (.frameReceived p f) s = becomes { got with reasm := none, ctr := got.ctr.add 21 1 }) ∧
        (n = r.n → i = r.count → tail = .mcrc → exec (.frameReceived p f) s = becomes { got with
          reasm := some { r with bytes := r.bytes ++ bs, count := i + 1, symErrs := r.symErrs + f.symErrs } }) ∧
        (n = r.n → i = r.count → tail = .fcs → r.symErrs = 0 → f.symErrs = 0 →
          exec (.frameReceived p f) s = exec (.frameReceived p joined) (s.updPort p fun x => { x with reasm := none }))) ∧
      (f.asm = .whole → Vec.at x.t2 2 ≠ 1 →
        (bs.length + 4 < 64 → exec (.frameReceived p f) s = counts 13) ∧
        (64 ≤ bs.length + 4 → f.fcs ≠ .good → exec (.frameReceived p f) s = counts 12) ∧
        (64 ≤ bs.length + 4 → f.fcs = .good → 0 < f.symErrs → exec (.frameReceived p f) s = becomes got) ∧
        (64 ≤ bs.length + 4 → f.fcs = .good → f.symErrs = 0 → (Vec.at x.t2 0).toNat < bs.length + 4 →
          exec (.frameReceived p f) s = counts 14)) ∧
      (f.asm = .whole → Vec.at x.t2 2 = 1 → Vec.at x.t2 3 ≠ 1 → x.pcpMap = 0 → (∀ i, (Vec.at x.etypes i).getLsbD 24 = false) → bs ≠ [] →
        let code := if bs.length + 4 < 64 then 3 else if f.fcs ≠ .good then 1 else if 0 < f.symErrs then 4
          else if (Vec.at x.t2 0).toNat < bs.length + 4 then 2 else 0
        let kept := if code = 2 then bs.take (Vec.at x.t2 0).toNat else bs
        let h := finOf 256 (96 + 4 * p.1)
        let hq := Vec.at s.hq h
        ∀ (b : Fin 256) (d : Desc) (r : List Desc), code ≠ 0 → kept ≠ [] → hq.fbq = some b → b ≠ h → (Vec.at s.hq b).items = d :: r →
          kept.length ≤ d.size → hq.items.length < hq.depth → inSpad d → k.borrow.active = false → k.badWords = [] →
          ∃ (u : State) (w3 : W32), exec (.frameReceived p f) s = .next u.settle ∧ fld w3 4 4 = code ∧ clusterEvent s u c 15 ∧
            (Vec.at u.hq b).items = r ∧ (Vec.at u.cl c).spad = memWriteN k.spad (d.w0.toNat - 0x10000000) kept ∧
            (Vec.at u.hq h).items = hq.items ++ [⟨d.w0, BitVec.ofNat 32 (2 ^ 31 + 2 ^ 30 + 2 ^ 28 + 2 ^ 27 + d.bsz * 2 ^ 24 + p.1 * 2 ^ 20 + kept.length), f.stamp, w3⟩] ∧
            Vec.atD (Vec.at u.port p).ctr.live 10 0 = Vec.atD x.ctr.live 10 0 ∧
            ∀ n, (code = 3 ∧ n = 13) ∨ (code = 1 ∧ n = 12) ∨ (code = 2 ∧ n = 14) →
              Vec.atD (Vec.at u.port p).ctr.live n 0 = Vec.atD (x.ctr.add n 1).live n 0) ∧
      (good → e = 0x8808 →
        let paused := if onS then got else { got with ctr := got.ctr.add 19 1 }
        (¬ honoured → exec (.frameReceived p f) s = becomes paused) ∧
        (honoured → beAt bs 16 2 ≠ 0 → exec (.frameReceived p f) s = becomes { paused with
          pauseLeft := BitVec.ofNat 16 (beAt bs 16 2), pauseSub := quantum x.speed }) ∧
        (honoured → beAt bs 16 2 = 0 → x.ways.store = [] → x.copies = [] →
          exec (.frameReceived p f) s = becomes { paused with pauseLeft := 0, pauseSub := 0 })) ∧
      (good → e ≠ 0x8808 → k.role ≠ none → e = k.dl.etype →
        exec (.frameReceived p f) s = if onS then counts 45 else becomes got) ∧
      (good → plain → ¬ own bs → Vec.at x.t2 1 = 0 → exec (.frameReceived p f) s = counts 15) ∧
      (good → plain → own bs ∨ Vec.at x.t2 1 ≠ 0 → ¬ listed → exec (.frameReceived p f) s = counts 16) ∧
      (good → plain → own bs ∨ Vec.at x.t2 1 ≠ 0 → listed → Vec.at x.t2 11 = 0 → ∀ q : Fin 4,
        (∀ i, (∀ j, j.1 < i.1 → ¬ ((Vec.at x.etypes j).getLsbD 24 = true ∧ fld (Vec.at x.etypes j) 0 16 = ety)) →
          (Vec.at x.etypes i).getLsbD 24 = true → fld (Vec.at x.etypes i) 0 16 = ety → fld (Vec.at x.etypes i) 16 2 = q.1) →
        ((∀ i, ¬ ((Vec.at x.etypes i).getLsbD 24 = true ∧ fld (Vec.at x.etypes i) 0 16 = ety)) → fld x.pcpMap (2 * pcp) 2 = q.1) →
        let h := finOf 256 (96 + 4 * p.1 + q.1)
        let hq := Vec.at s.hq h
        let kept := if tagged = true ∧ Vec.at x.t2 3 = 1 then bs.take 12 ++ bs.drop 16 else bs
        (hq.fbq = none → exec (.frameReceived p f) s = counts 17) ∧
        (∀ b, hq.fbq = some b → b ≠ h →
          let fs := (Vec.at s.hq b).items
          let bufs := filled fs kept
          let whole := (bufs.map fun y => y.2.length).foldl (· + ·) 0 = kept.length
          let rest := fs.drop bufs.length
          let descs := fun cut => (bufs.zip (List.range bufs.length)).map fun y =>
            filedAs f p q.1 tagged pcp vid sums.1 sums.2 cut bufs.length y.2 y.1.1 y.1.2.length
          (fs = [] → exec (.frameReceived p f) s = counts 17) ∧
          (fs ≠ [] → hq.items.length + bufs.length ≤ hq.depth → (∀ y ∈ bufs, inSpad y.1) → k.borrow.active = false → k.badWords = [] →
            ∃ u : State, exec (.frameReceived p f) s = .next u.settle ∧ clusterEvent s u c 15 ∧
              (Vec.at u.hq b).items = rest ∧
              (Vec.at u.cl c).spad = bufs.foldl (fun m y => memWriteN m (y.1.w0.toNat - 0x10000000) y.2) k.spad ∧ u.shm = s.shm ∧
              (∀ g, g ≠ h → g ≠ b → Vec.at u.hq g = Vec.at s.hq g) ∧
              Vec.atD (Vec.at u.port p).ctr.live 20 0 = Vec.atD (if broken then x.ctr.add 20 1 else x.ctr).live 20 0 ∧
              (Vec.at u.hq h).items = hq.items ++ descs (decide (¬ whole)) ∧
              (whole → Vec.atD (Vec.at u.port p).ctr.live 10 0 = Vec.atD (x.ctr.add 10 1).live 10 0 ∧
                Vec.atD (Vec.at u.port p).ctr.live 11 0 = Vec.atD (x.ctr.add 11 kept.length).live 11 0) ∧
              (¬ whole → rest = [] ∧ Vec.atD (Vec.at u.port p).ctr.live 17 0 = Vec.atD (x.ctr.add 17 1).live 17 0)) ∧
          (fs ≠ [] → hq.depth < hq.items.length + bufs.length → fs.length ≤ (Vec.at s.hq b).depth →
            ∃ u : State, exec (.frameReceived p f) s = .next u.settle ∧ (Vec.at u.hq h).items = hq.items ∧
              (Vec.at u.hq b).items = rest ++ fs.take bufs.length ∧
              Vec.atD (Vec.at u.port p).ctr.live 18 0 = Vec.atD (x.ctr.add 18 1).live 18 0 ∧
              (Vec.at u.cl c).spad = k.spad ∧ u.shm = s.shm)))) ∧
    ((x.ways.store = [] ∧ x.copies = []) ∨ x.st ≠ 3 ∨ x.tx ≠ none →
      exec (.pauseExpiry p) s = becomes { x with pauseLeft := 0, pauseSub := 0 }) ∧
    (∀ w, x.st = 3 → x.tx = none → x.ways.store = [] → x.copies = [w] → exec (.pauseExpiry p) s =
      becomes { x with pauseLeft := 0, pauseSub := 0, copies := [], wire := some w, lpiTx := false }) ∧
    (x.st = 3 → x.pauseTx = true → x.xoff = true → exec (.pauseRepeat p) s = .next (State.settle (s.updPort p fun x => { x with
      ctr := x.ctr.add 29 1, lpiTx := false
      ctrlOut := x.ctrlOut ++ [⟨pauseFrame (s.stationOf p) (Vec.at x.t2 9).toNat, .good, .frame⟩] }))) ∧
    (x.st ≠ 3 ∨ x.pauseTx = false ∨ x.xoff = false → exec (.pauseRepeat p) s = stays) ∧
    (∀ (b : Fin 256) (d : Desc) (r : List Desc), x.st = 3 → x.owner = some c → s.pair.st = 0 → good → plain → Vec.at x.t2 1 ≠ 0 → Vec.at x.t2 6 ≠ 1 →
      Vec.at x.t2 11 = 0 → x.pcpMap = 0 → (∀ i, (Vec.at x.etypes i).getLsbD 24 = false) → offBranch s p c →
      let h := finOf 256 (96 + 4 * p.1)
      (Vec.at s.hq h).fbq = some b → b ≠ h → (Vec.at s.hq b).items = d :: r → bs.length ≤ d.size → (Vec.at s.hq h).items.length < (Vec.at s.hq h).depth →
      inSpad d → k.borrow.active = false → k.badWords = [] → (Vec.at s.hq b).bad = true → (∀ g, g ≠ b → (Vec.at s.hq g).bad = false) →
      exec (.frameReceived p f) s = .fault (.firmwareError (s.objAt 7 b.1))) ∧
    (∀ (g : Fin 2) (src : BitVec 48), exec (.prpEntryAge g src) s = .next { s with
      prp := Vec.upd s.prp g fun t => { t with entries := t.entries.filter fun y => decide (y.src ≠ src) } })) ∧
  (∀ (s : State) (p q : Fin 12) (f : RxFrame) (c : Fin 4) (g : Fin 2),
    p.1 < 4 → q.1 = (if p.1 % 2 = 0 then p.1 + 1 else p.1 - 1) → g.1 = p.1 / 2 →
    (Vec.at s.port p).st = 3 → (Vec.at s.port p).owner = some c → (Vec.at s.port q).owner = some c →
    Vec.at (Vec.at s.port p).t2 11 = 1 → Vec.at (Vec.at s.port q).t2 11 = 1 → Vec.at (Vec.at s.port p).t2 1 = 1 →
    Vec.at (Vec.at s.port p).t2 6 = 0 → (Vec.at s.cl c).role = none → soundQueues s →
    f.asm = .whole → 60 ≤ f.bytes.length → f.fcs = .good → f.symErrs = 0 →
    f.bytes.length + 4 ≤ (Vec.at (Vec.at s.port p).t2 0).toNat → beAt f.bytes 12 2 = 0x88F7 →
    let n := f.bytes.length
    let seq := BitVec.ofNat 16 (beAt f.bytes (n - 6) 2)
    let lan := beAt f.bytes (n - 4) 2 / 4096
    let src := BitVec.ofNat 48 (beAt f.bytes 6 6)
    let mine := if p.1 % 2 = 0 then 0xA else 0xB
    let t := Vec.at s.prp g
    let b := decide (p.1 % 2 = 1)
    beAt f.bytes (n - 2) 2 = 0x88FB → beAt f.bytes (n - 4) 2 % 4096 = n - 14 →
    (lan = mine → (∃ y ∈ t.entries, y.src = src ∧ y.seq = seq ∧ y.lanB = !b) →
      ∃ u : State, exec (.frameReceived p f) s = .next u.settle ∧ u = { s with
        port := Vec.upd s.port p fun x => { arrivedAt x p f with ctr := (arrivedAt x p f).ctr.add 32 1 } }) ∧
    (lan = mine → (∀ y ∈ t.entries, y.src ≠ src) → t.entries.length < 512 → ∀ q : Fin 4,
      (∀ i, (Vec.at (Vec.at s.port p).etypes i).getLsbD 24 = false) → fld (Vec.at s.port p).pcpMap (2 * (Vec.at (Vec.at s.port p).t2 5).toNat) 2 = q.1 →
      let hq := Vec.at s.hq (finOf 256 (96 + 4 * p.1 + q.1))
      (hq.fbq = none → ∃ u : State, exec (.frameReceived p f) s = .next u.settle ∧ Vec.at u.prp g = t) ∧
      (∀ v d r, hq.fbq = some v → v ≠ finOf 256 (96 + 4 * p.1 + q.1) → (Vec.at s.hq v).items = d :: r → n ≤ d.size + 6 →
        hq.items.length < hq.depth →
        ∃ u : State, exec (.frameReceived p f) s = .next u.settle ∧ (Vec.at u.prp g).entries = t.entries ++ [⟨src, seq, b⟩])) ∧
    (lan ≠ mine → ∃ u : State, exec (.frameReceived p f) s = .next u.settle ∧ Vec.at u.prp g = t ∧
      Vec.atD (Vec.at u.port p).ctr.live 33 0 = Vec.atD ((Vec.at s.port p).ctr.add 33 1).live 33 0))

/-- A queue of a port's class (R181). -/
def Sys2Proof.Claim.classQ (s : State) (p : Fin 12) (k : Fin 8) : List Desc := (Vec.at s.hq (finOf 256 (8 * p.1 + k.1))).items

/-- No descriptor of the list ends a frame. -/
def Sys2Proof.Claim.noFrame (ds : List Desc) : Prop := ∀ d ∈ ds, d.last = false

/-- The head of a queue is the frame `d` in one descriptor, and it may be sent: FIRST and LAST, at most MAXLEN, without
a launch time (R166, R168, R169). -/
def Sys2Proof.Claim.oneFrame (s : State) (p : Fin 12) (k : Fin 8) (d : Desc) : Prop :=
  (classQ s p k).head? = some d ∧ d.first = true ∧ d.last = true ∧ d.lt = false ∧
    (let n := d.len + if d.w3.getLsbD 27 then 4 else 0
     if d.nofcs then n else max 60 n + 4) ≤ (Vec.at (Vec.at s.port p).t2 0).toNat

/-- The line of a port is free for a queued frame (R139, R166, R177). -/
def Sys2Proof.Claim.lineFree (x : Port) (p : Fin 12) : Prop :=
  x.st = 3 ∧ x.pauseLeft = 0 ∧ x.retry = false ∧ x.tx = none ∧ x.preempted = none ∧ x.ways.launches = [] ∧ (p.1 < 8 ∨ 10 ≤ p.1 ∨ x.opportunity = true ∧ Vec.at x.t1 12 ≠ 255)

/-- No frame waits for the port's line in its elastic store, or as a copy for LAN B (R167, R180). -/
def Sys2Proof.Claim.idleLine (x : Port) : Prop := x.ways.store = [] ∧ x.copies = []

/-- The transmit path (R142, R165–R173, R189, R194, R195). The highest class with a frame that may start is sent from
its buffer, padded to 60 octets, its tag inserted, and leaves its queue; a head that is late, too long or without
FIRST completes with its RESULT and is counted; a frame that ends is counted and its descriptors with RET return,
the LAST with the transmit stamp when TS asks for it; a memory error cuts it; a port that is not free sends nothing.
Gate entries apply in order, and the close of the gates of all preemptable classes holds the frame on the line with a fragment
that ends in its mCRC; verification sends its mPackets, goes through its attempts and fails with a WARNING. A pause bars starts, and a preempted frame
goes on in it (the model's reading, log 102). (The stamp of a
returned descriptor in units of 2^-16 ns, and octets counted without the FCS, are the model's.) -/
def Obligations.FrameTransmit : Prop :=
  ∀ (s : State) (p : Fin 12) (stamp : W64),
    let x := Vec.at s.port p
    let stays := Host.Outcome.next (φ := Fault) (ρ := Refusal) s.settle
    let at_ := fun (y : Port) => Host.Outcome.next (φ := Fault) (ρ := Refusal) (s.updPort p fun _ => y)
    let run := exec (.transmitSelection p stamp) s
    -- verification
    (∀ ev, x.st ≠ 3 ∨ x.mm ≠ 1 → exec (.preemptVerify p ev) s = .next s) ∧
    (x.st = 3 → x.mm = 1 → exec (.preemptVerify p .respond) s = at_ { x with mm := 2 } ∧
      (x.mmTries < 3 → exec (.preemptVerify p .timer) s = at_ { x with
        mmTries := x.mmTries + 1, lpiTx := false, ctrlOut := x.ctrlOut ++ [⟨List.replicate 60 0, .good, .verify⟩] }) ∧
      (3 ≤ x.mmTries → logRoom s → ∃ u, exec (.preemptVerify p .timer) s = .next u ∧
        reported (s.updPort p fun _ => { x with mm := 3 }) u ∧ logged u 0x0305 (s.objAt 2 p.1) 0)) ∧
    -- launch times and gates
    (∀ q : Fin 8, noFrame (classQ s p q) → exec (.launchTimeReached p q) s = .next s) ∧
    (∀ (q : Fin 8) (d : Desc) (r : List Desc), classQ s p q = d :: r → ¬ noFrame (d :: r) → exec (.launchTimeReached p q) s =
      if d.lt then at_ { x with launched := Vec.put x.launched q true } else .next s) ∧
    (x.gate.active = [] → exec (.gateEntryEnd p) s = .next s) ∧
    (∀ (a : W32) (r : List W32) (i : Nat) (e : W32), x.gate.active = a :: r → i = (if x.gate.entry + 1 ≤ r.length then x.gate.entry + 1 else 0) →
      (a :: r)[i]? = some e → (x.tx = none ∧ idleLine x) ∨ (x.tx ≠ none ∧ x.mm ≠ 2) →
      exec (.gateEntryEnd p) s = at_ { x with
        gate := { x.gate with entry := i, gates := BitVec.ofNat 8 (e.toNat / 2 ^ 24) }
        preempted := if ∀ k : Fin 8, x.mm = 2 → (Vec.at x.pre 1).toNat.testBit k.1 = true → e.getLsbD (24 + k.1) = false
          then x.preempted.map fun t => { t with held := true } else x.preempted }) ∧
    (∀ (a : W32) (r : List W32) (t : TxRun), x.gate.active = a :: r → x.tx = some t → t.pre = false ∨ t.total ≤ 64 * (Vec.at x.pre 2).toNat + 123 →
      ∃ u, exec (.gateEntryEnd p) s = .next u ∧ (Vec.at u.port p).tx = some t ∧
        ((Vec.at u.port p).preempted = x.preempted ∨ (Vec.at u.port p).preempted = x.preempted.map fun t => { t with held := true })) ∧
    (∀ (a : W32) (t : TxRun), x.gate.active = [a] → x.tx = some t → x.mm = 2 → t.pre = true → idleLine x → (∀ k : Fin 8, (Vec.at x.pre 1).toNat.testBit k.1 = true → a.getLsbD (24 + k.1) = false) →
      t.since = BitVec.ofNat 64 (s.tim.t / 2 ^ 23) → let least := 64 * (1 + (Vec.at x.pre 2).toNat) - 4
      64 * (Vec.at x.pre 2).toNat + 123 < t.total → t.sent + least + 64 ≤ t.total →
      ∃ u, exec (.gateEntryEnd p) s = .next u ∧ (Vec.at u.port p).tx = none ∧
        (Vec.at u.port p).preempted = some { t with sent := t.sent + least, held := true } ∧
        (Vec.at u.port p).wire = some (t.line false (t.sent + least) .good) ∧ (Vec.at u.port p).ctr = x.ctr.add 24 1) ∧
    -- selection
    (x.st ≠ 3 ∨ x.owner = none ∨ (x.pauseLeft ≠ 0 ∧ (x.tx ≠ none ∨ x.preempted = none)) ∨ (8 ≤ p.1 ∧ p.1 < 10 ∧ (x.opportunity = false ∨ Vec.at x.t1 12 = 255)) → run = stays) ∧
    (∀ t c, x.owner = some c → x.st = 3 → p.1 < 8 ∨ 10 ≤ p.1 → x.pauseLeft ≠ 0 → x.tx = none → x.preempted = some t →
      t.held = false ∨ x.gate.gates.getLsbD t.cls.1 = true → (∀ a b, s.inWindow c p a b = false) →
      let on := { t with since := stamp, frag := t.frag + 1, held := false }
      run = .next (State.settle (s.updPort p fun x => { x with
        preempted := none, tx := some on, wire := some (on.whole (if t.result = 1 then .bad else .good)), lpiTx := false
        smd := if t.pre = true ∧ t.sent = 0 then x.smd + 1 else x.smd }))) ∧
    (lineFree x p → (∀ k, noFrame (classQ s p k)) → run = stays) ∧
    (∀ t c d r, x.owner = some c → lineFree { x with retry := false, tx := none } p → x.retry = true → x.tx = some t →
      t.descs = d :: r → t.nofcs = false → t.pre = false → d.w3.getLsbD 27 = false → d.w3.getLsbD 30 = false → fld d.w3 28 2 = 0 →
      Vec.at x.t3 0 ≠ 1 → Vec.at x.t3 1 ≠ 1 →
      let again := { t with bytes := t.raw ++ List.replicate (60 - t.raw.length) 0, stamp := stamp, since := stamp, cskip := false }
      run = .next (State.settle (s.updPort p fun x => { x with
        retry := false, lpiTx := false, tx := some again, wire := some (again.whole (if t.result = 1 then .bad else .good)) }))) ∧
    (∀ (c : Fin 4) (k : Fin 8) (d : Desc), x.owner = some c → lineFree x p → oneFrame s p k d →
      (∀ j, k.1 < j.1 → noFrame (classQ s p j)) → (∀ j, j.1 < k.1 → noFrame (classQ s p j) ∨ ∃ e, oneFrame s p j e) →
      (∀ e, x.gate.gates.getLsbD e = decide (e < 8)) → x.gate.active = [] → (∀ a b, s.inWindow c p a b = false) → s.inPair c = false →
      (Vec.at s.cl c).sinceBeat (s.stampNs stamp).toNat + frameNs x.speed (max 60 (d.len + 4) + 4) ≤ (Vec.at s.cl c).period →
      inSpad d → d.len ≤ d.size → (Vec.at s.cl c).borrow.active = false → (Vec.at s.cl c).badWords = [] → d.w3.getLsbD 30 = false → fld d.w3 28 2 = 0 →
      d.dup = false → d.nofcs = false → (Vec.at x.t3 0 ≠ 1) → (Vec.at x.t3 1 ≠ 1) →
      let raw := memReadN (Vec.at s.cl c).spad (d.w0.toNat - 0x10000000) d.len
      let tagged := raw.take 12 ++ beBytes 2 0x8100 ++ beBytes 2 (fld d.w3 24 3 * 8192 + fld d.w3 12 12) ++ raw.drop 12
      let bs := if d.w3.getLsbD 27 then tagged else raw
      ∃ u : State, run = .next u.settle ∧
        (∃ t, (Vec.at u.port p).tx = some t ∧ t.cls = k ∧ t.descs = [d] ∧ t.stamp = stamp ∧ t.sent = 0 ∧ t.result = 0 ∧
          t.bytes = bs ++ List.replicate (60 - bs.length) 0 ∧ (Vec.at u.port p).wire = some (t.whole .good)) ∧
        (x.mm ≠ 2 → (Vec.at u.port p).wire = some ⟨bs ++ List.replicate (60 - bs.length) 0, .good, .frame⟩) ∧ classQ u p k = (classQ s p k).tail ∧
        (∀ j, j ≠ k → classQ u p j = classQ s p j) ∧ (∀ q, q ≠ p → Vec.at u.port q = Vec.at s.port q) ∧
        (∀ j, (Vec.at u.cl j).spad = (Vec.at s.cl j).spad) ∧ u.shm = s.shm) ∧
    (∀ (c : Fin 4) (k : Fin 8) (d : Desc) (result : Nat), x.owner = some c → lineFree x p → classQ s p k = [d] → d.last = true →
      (∀ j, j ≠ k → classQ s p j = []) → d.nofcs = false →
      let long := decide ((Vec.at x.t2 0).toNat < max 60 (d.len + if d.w3.getLsbD 27 then 4 else 0) + 4)
      let late := d.lt && decide (timeDiff d.w2 (Vec.at x.headAt k) < -1000)
      (d.first = false ∧ result = 5) ∨ (d.first = true ∧ long = true ∧ result = 4) ∨ (d.first = true ∧ long = false ∧ late = true ∧ result = 3) →
      160 ≤ d.retq.1 → (Vec.at s.hq d.retq).items.length < (Vec.at s.hq d.retq).depth →
      ∃ u : State, run = .next u.settle ∧ classQ u p k = [] ∧ (Vec.at u.port p).tx = none ∧
        (Vec.at u.hq d.retq).items = (Vec.at s.hq d.retq).items ++ (if d.ret then
          [{ d with w1 := d.w1 ||| 0x10000000, w2 := if d.ts then 0 else d.w2, w3 := BitVec.ofNat 32 (result * 2 ^ 27) }] else []) ∧
        (d.ret = true → clusterEvent s u c 14) ∧
        Vec.atD (Vec.at u.port p).ctr.live 25 0 = Vec.atD (if result = 3 then x.ctr.add 25 1 else x.ctr).live 25 0 ∧
        Vec.atD (Vec.at u.port p).ctr.live 27 0 = Vec.atD (if result = 4 then x.ctr.add 27 1 else x.ctr).live 27 0) ∧
    -- completion
    (x.tx = none ∨ x.retry = true → exec (.frameTransmitEnd p false) s = stays) ∧
    (∀ t, x.tx = some t → x.retry = false → t.result = 0 →
      let y := { x with tx := none, attempts := 0, burst := x.burst + 1, opportunity := x.opportunity && decide (x.burst < x.burstMax)
                        ctr := (x.ctr.add 22 1).add 23 (t.bytes.length - if t.nofcs then 4 else 0) }
      (t.descs.all (fun d => !d.ret) = true → idleLine x → exec (.frameTransmitEnd p false) s = .next (State.settle (s.updPort p fun _ => y))) ∧
      (∀ d, t.descs = [d] → d.ret = true → d.last = true → 160 ≤ d.retq.1 → (Vec.at s.hq d.retq).items.length < (Vec.at s.hq d.retq).depth →
        ∃ u : State, exec (.frameTransmitEnd p false) s = .next u.settle ∧ (∀ c, x.owner = some c → clusterEvent s u c 14) ∧
          (Vec.at u.port p).tx = none ∧ Vec.atD (Vec.at u.port p).ctr.live 22 0 = Vec.atD y.ctr.live 22 0 ∧
          (Vec.at u.hq d.retq).items = (Vec.at s.hq d.retq).items ++ [{ d with
            w2 := if d.ts then BitVec.ofNat 32 (t.stamp.toNat / 65536) else d.w2
            w3 := BitVec.ofNat 32 ((if d.ts then t.stamp.toNat / 16384 % 4 * 2 ^ 30 else 0) + if t.cskip then 2 ^ 26 else 0) }])) ∧
    (∀ t, x.tx = some t → x.retry = false → idleLine x → ∃ u : State, exec (.frameTransmitEnd p true) s = .next u.settle ∧
      (Vec.at u.port p).tx = none ∧ (Vec.at u.port p).wire = some (t.whole .bad) ∧
      Vec.atD (Vec.at u.port p).ctr.live 22 0 = Vec.atD x.ctr.live 22 0)

/-! ### Drumline -/

/-- A drum port of a cluster (R236): port A or port B. -/
def Sys2Proof.Claim.drumPort (s : State) (c : Fin 4) (p : Fin 12) (sideB : Bool) : Prop :=
  (Vec.at s.port p).owner = some c ∧ (Vec.at s.cl c).dl.portA ≠ (Vec.at s.cl c).dl.portB ∧
    (if sideB then (Vec.at s.cl c).dl.portB else (Vec.at s.cl c).dl.portA) = p.1

/-- A CLAIM frame (R240, R241, R271): the header of type 2, then PRIO, NODE, CFLAGS, CLOCK_ID, CT and PHASE. -/
def Sys2Proof.Claim.claimOctets (s : State) (c : Fin 4) (p : Fin 12) (master : Bool) : List Byte :=
  let k := Vec.at s.cl c
  let set := fun (i : Fin 20) => (Vec.at k.dl.sets i).toNat
  beBytes 6 (set 1) ++ beBytes 6 (s.stationOf p).toNat ++ beBytes 2 (set 0) ++ [0x12, 0] ++ beBytes 2 k.cycle.toNat ++ [0, 0, 0, 0] ++
    [BitVec.ofNat 8 (set 5), BitVec.ofNat 8 (set 4)] ++ [0, if master then 1 else 0] ++ beBytes 8 s.clockId.toNat ++
    beBytes 4 (set 6) ++ beBytes 4 (set 7) ++ List.replicate 18 0

/-- Every drum port in UP that the cluster owns sends a CLAIM, and no other port changes. -/
def Sys2Proof.Claim.claimSent (s u : State) (c : Fin 4) (master : Bool) : Prop :=
  let d := (Vec.at s.cl c).dl
  d.portA ≠ d.portB ∧ ∀ p, Vec.at u.port p = if (p.1 = d.portA ∨ p.1 = d.portB) ∧ (Vec.at s.port p).st = 3 ∧ (Vec.at s.port p).owner = some c
    then { Vec.at s.port p with lpiTx := false, ctrlOut := (Vec.at s.port p).ctrlOut ++ [⟨claimOctets s c p master, .good, .frame⟩] }
    else Vec.at s.port p

/-- A port counts the invalid symbols of a frame; S ports do not (R147). -/
def Sys2Proof.Claim.symbols (s : State) (p : Fin 12) (n : Nat) : State :=
  s.updPort p fun x => { x with ctr := if 8 ≤ p.1 ∧ p.1 < 10 then x.ctr else x.ctr.add 0 n }

/-- A frame has arrived whole at a drum port (R125, R147). -/
def Sys2Proof.Claim.landed (s : State) (p : Fin 12) (f : DrumIn) : State :=
  symbols (s.updPort p fun x => { x with receiving := false }) p f.symErrs

/-- A port counts one event. -/
def Sys2Proof.Claim.countedAt (s : State) (p : Fin 12) (n : Nat) : State := s.updPort p fun x => { x with ctr := x.ctr.add n 1 }

/-- What a passage over `span` leaves of a drum port's windows (R255, R301): in the first cycle after a switch the window that
stands open closes DW_GUARD after it. -/
def Sys2Proof.Claim.passedBy (s : State) (c : Fin 4) (w : Ways) (span : Int × Int) : Ways :=
  { w with
    passed := w.passed ++ [span]
    windows := if w.first then [(0, span.2 + ((Vec.at (Vec.at s.cl c).dl.sets 15).toNat : Int))] else w.windows }

/-- The frame as sent on: HOPS one more (R238, R242). -/
def Sys2Proof.Claim.hopped (bs : List Byte) : List Byte := bs.take 20 ++ [Machine.octet bs 20 + 1] ++ bs.drop 21

/-- A length that a drum frame may have, without its FCS (R240, R279). -/
def Sys2Proof.Claim.drumSized (bs : List Byte) : Prop := 60 ≤ bs.length ∧ bs.length ≤ 1514

/-- Nothing keeps a drum frame from the port's line (R167, R177): no frame on it, no pause, nothing in the elastic store. -/
def Sys2Proof.Claim.clearLine (x : Port) : Prop := x.tx = none ∧ x.pauseLeft = 0 ∧ x.ways.store = []

/-- Election, watchdog and link delay (R261, R271–R274). Nothing heard in LISTEN leads to CLAIM, or to BACKUP with PRIO
255; the fourth drumbeat after the first CLAIM makes a MASTER, with SEQ 1024 beyond the newest heard; a MASTER
repeats its CLAIM; LOSS_CYCLES cycles without a frame send a BACKUP to LISTEN; a better CLAIM turns LISTEN and CLAIM
into BACKUP and deposes a MASTER, a worse one turns LISTEN into CLAIM, and a BACKUP sends either on; WD_CYCLES missed drumbeats put a device in
SAFE and clear its window; a PROBE exchange keeps the mean of the last results in WS_LDLY. (How the fourth drumbeat
is counted, and that the mean is rounded down, are the model's.) -/
def Obligations.DrumElection : Prop :=
  ∀ (s : State) (c : Fin 4),
    let k := Vec.at s.cl c
    let d := k.dl
    let obj := s.objAt 1 c.1
    let stays := Host.Outcome.next (φ := Fault) (ρ := Refusal) s.settle
    let dl := fun (s : State) (f : Dl → Dl) => { s with cl := Vec.upd s.cl c fun k => { k with dl := f k.dl } }
    let leader := k.st = .started ∧ k.id = 1 ∧ s.inPair c = false
    let follower := k.st = .started ∧ (k.id = 2 ∨ k.id = 3)
    let backup := fun (d : Dl) => { d with
      st := 4, idleCycles := 0, heardGood := true, claims := 0, deposed := false, routeTaken := d.routeTaken && decide (d.st = 1) }
    (leader → d.st = 1 → Vec.at d.sets 5 = 255 → exec (.listenTimeout c) s = .next (State.settle (dl s backup))) ∧
    (leader → d.st = 1 → Vec.at d.sets 5 ≠ 255 → d.portA ≠ d.portB → ∃ u : State, exec (.listenTimeout c) s = .next u.settle ∧ claimSent s u c false ∧
      { u with port := s.port } = dl s fun d => { d with st := 2, elect := 1, claims := 1 }) ∧
    (k.id ≠ 1 ∨ d.st ≠ 1 ∨ k.st ≠ .started → exec (.listenTimeout c) s = stays) ∧
    (∀ r, leader → d.st = 2 → d.claims = 5 → logRoom s → Vec.at d.routes d.active = some r → ∃ u : State,
      exec (.dlElected c) s = .next u.settle ∧ logged u 0x0606 obj 0 ∧ (Vec.at u.cl c).dl.st = 3 ∧
      (Vec.at u.cl c).dl.seqOut = (match d.newest with
        | some n => n + 1024
        | none => 0) + BitVec.ofNat 16 (min r.frames.toNat 4)) ∧
    (leader → d.st = 2 → d.claims = 5 → logRoom s → Vec.at d.routes d.active = none →
      reports (.dlElected c) s (dl s fun d => { d with
        st := 3
        claims := 0
        deposed := false
        mNode := BitVec.ofNat 8 (Vec.at d.sets 4).toNat
        mPrio := BitVec.ofNat 8 (Vec.at d.sets 5).toNat
        mClock := s.clockId
        seqOut := match d.newest with
          | some n => n + 1024
          | none => 0 }) 0x0606 obj) ∧
    (d.st ≠ 2 ∨ d.claims ≠ 5 → exec (.dlElected c) s = stays) ∧
    (leader → d.st = 3 → d.portA ≠ d.portB → ∃ u : State, exec (.masterClaim c) s = .next u.settle ∧ claimSent s u c true ∧ { u with port := s.port } = s) ∧
    (d.st ≠ 3 → exec (.masterClaim c) s = stays) ∧
    (leader → d.st = 4 → (Vec.at d.sets 12).toNat ≤ d.idleCycles → logRoom s →
      reports (.dlMasterLost c) s (dl s fun d => { d with st := 1, idleCycles := 0, routeTaken := false }) 0x0605 obj) ∧
    (d.st ≠ 4 ∨ d.idleCycles < (Vec.at d.sets 12).toNat → exec (.dlMasterLost c) s = stays) ∧
    (follower → d.st = 3 → (Vec.at d.sets 11).toNat ≤ d.missed → logRoom s → ∃ u : State, exec (.dlWatchdog c) s = .next u ∧
      reported (dl s fun d => { d with
        st := 4, goodRun := 0, missed := 0, agreed := false, routeTaken := false, newest := none, seen := 0, hubSeen := []
        outs := if Vec.at d.sets 13 = 0 then d.outs.map fun o => List.replicate o.length 0 else d.outs }) u ∧ logged u 0x0609 obj 0) ∧
    (d.st ≠ 3 ∨ d.missed < (Vec.at d.sets 11).toNat → exec (.dlWatchdog c) s = .next s) ∧
    (follower → d.st = 2 → d.agreed = false → logRoom s → reports (.dlCycleMismatch c) s s 0x0608 obj) ∧
    (d.st ≠ 2 ∨ d.agreed = true → exec (.dlCycleMismatch c) s = stays) ∧
    (∀ (p : Fin 12) (sideB : Bool), drumPort s c p sideB → k.st = .started → (k.id = 1 ∨ k.id = 2 ∨ k.id = 3) → (Vec.at s.port p).st = 3 →
      let w := (Vec.at s.port p).ways
      let frame := fun (typ : Nat) (body : List Byte) => beBytes 6 (Vec.at d.sets 1).toNat ++ beBytes 6 (s.stationOf p).toNat ++
        beBytes 2 (Vec.at d.sets 0).toNat ++ [BitVec.ofNat 8 (16 + typ), 0] ++ beBytes 2 k.cycle.toNat ++ [0, 0, 0, 0] ++ body
      let out := fun (bs : List Byte) => (Vec.at s.port p).ctrlOut ++ [⟨bs, .good, .frame⟩]
      (∀ t1, exec (.probeTimer p t1) s = .next (s.updPort p fun x => { x with
        lpiTx := false, ctrlOut := out (frame 3 [] ++ List.replicate 38 0), ways := { x.ways with probeT1 := some t1 } })) ∧
      (∀ t2 t3, exec (.probeReqRx p t2 t3) s = .next (s.updPort p fun x => { x with
        lpiTx := false, ctrlOut := out (frame 4 (beBytes 8 t2.toNat ++ beBytes 8 t3.toNat) ++ List.replicate 22 0) })) ∧
      (∀ t2 t3 t4, w.probeT1 = none → exec (.probeRespRx p t2 t3 t4) s = .next s) ∧
      (∀ t1 t2 t3 t4, w.probeT1 = some t1 → w.delays.length ≤ 8 →
        let one := (t4 - t1).toInt - (t3 - t2).toInt
        let ds := (if w.delays.length = 8 then w.delays.tail else w.delays) ++ [one]
        exec (.probeRespRx p t2 t3 t4) s = .next (s.updPort p fun x => { x with ways := { x.ways with
          probeT1 := none, delays := ds, ldly := BitVec.ofInt 32 (ds.foldl (· + ·) 0 / (512 * (ds.length : Int))) } }))) ∧
    (∀ (p : Fin 12) (sideB : Bool) (f : DrumIn), drumPort s c p sideB → leader → (Vec.at s.port p).st = 3 → f.fcs = .good → drumSized f.bytes →
      Machine.octet f.bytes 14 = 0x12 → Machine.octet f.bytes 20 ≠ 255 → beAt f.bytes 34 4 = (Vec.at d.sets 6).toNat → beAt f.bytes 38 4 = (Vec.at d.sets 7).toNat →
      let prio := (Machine.octet f.bytes 22).toNat
      let mine := (Vec.at d.sets 5).toNat
      let better := prio < mine ∨ (prio = mine ∧ beAt f.bytes 26 8 < s.clockId.toNat)
      let heard := fun (d : Dl) => { d with mNode := Machine.octet f.bytes 23, mPrio := Machine.octet f.bytes 22, mClock := BitVec.ofNat 64 (beAt f.bytes 26 8), elect := if prio = mine then 3 else 2 }
      (d.st = 1 ∨ d.st = 2 → better → exec (.claimRx p f) s = .next (State.settle (dl (landed s p f) fun d => backup (heard d)))) ∧
      (d.st = 1 → ¬ better → ∃ u : State, exec (.claimRx p f) s = .next u.settle ∧ claimSent (landed s p f) u c false ∧
        { u with port := s.port } = dl s fun d => { d with st := 2, claims := 1, elect := if prio = mine then 3 else 2 }) ∧
      (d.st = 2 → ¬ better → exec (.claimRx p f) s = .next (State.settle (dl (landed s p f) fun d => { d with elect := if prio = mine then 3 else 2 }))) ∧
      (d.st = 3 → better → exec (.claimRx p f) s = .next (State.settle (dl (landed s p f) fun d => { heard d with deposed := true }))) ∧
      (d.st = 3 → ¬ better → exec (.claimRx p f) s = .next (State.settle (landed s p f))) ∧
      (∀ o : Fin 12, d.st = 4 → o.1 = (if sideB then d.portA else d.portB) → (Vec.at s.port o).st = 3 → (Vec.at s.port o).owner = some c →
        clearLine (Vec.at s.port o) → ∃ span, exec (.claimRx p f) s = .next (State.settle ((dl (landed s p f) fun d =>
          if better then heard d else d).updPort o fun x => { x with
            wire := some ⟨hopped f.bytes, .good, .frame⟩, lpiTx := false, ways := passedBy s c x.ways span }))))

/-- A frame's record (R256, R257): 16 octets in the port's ring, HEAD and ARR advanced, and EVP bit 15. -/
def Sys2Proof.Claim.recorded (s u : State) (c : Fin 4) (p : Fin 12) (f : DrumIn) (flags : Nat) (bad : Nat) : Prop :=
  let w := (Vec.at s.port p).ways
  memReadN (Vec.at u.cl c).spad (w.base.toNat * 256 + 16 * w.head.toNat) 16 =
      leBytes 4 (beAt f.bytes 16 2 * 65536 + beAt f.bytes 18 2) ++ leBytes 4 flags ++ leBytes 4 bad ++ leBytes 4 (f.rx.toNat / 65536) ∧
    (Vec.at u.port p).ways.head = w.head + 1 ∧ (Vec.at u.port p).ways.arr = BitVec.ofNat 32 (f.rx.toNat / 65536) ∧ clusterEvent s u c 15

/-- The FLAGS of a record (R257). -/
def Sys2Proof.Claim.recordFlags (f : DrumIn) (good dup turned late sideB : Bool) (n : Nat) : Nat :=
  let bit := fun (b : Bool) (k : Nat) => if b then 2 ^ k else 0
  bit good 31 + bit dup 30 + bit turned 29 + bit late 28 + bit sideB 26 + (Machine.octet f.bytes 21).toNat % 4 * 2 ^ 24 + (Machine.octet f.bytes 20).toNat * 2 ^ 16 + n * 2 ^ 8

/-- A well-formed DRUM frame of one datagram (R240, R241, R244): 64 to 1518 octets with its FCS, version 1, type 1, HOPS below
255. -/
def Sys2Proof.Claim.oneDatagram (f : DrumIn) (d : DgHead) : Prop :=
  Machine.octet f.bytes 14 = 0x11 ∧ Machine.octet f.bytes 20 ≠ 255 ∧ dfDatagrams f.bytes = ([d], false) ∧ drumSized f.bytes

/-- Drum frames at a device and at the master (R238, R242, R243, R245, R246, R250, R252, R256, R257, R265, R269). A port
that carries no running personality does nothing; a length below 64 or above 1518 and HOPS 255 end a frame; a version or type
not known is passed on unprocessed, and waits in the elastic store while another frame is on the line; a turned frame is passed on unprocessed; else the device takes into, or gives from, the half of the
frame's cycle, adds its weight to the tally, forwards the frame with HOPS one more on its other port, or turned on
the same one, keeps the window and writes a record; a second copy makes no takes; a frame returning to the master
fills its take half, an EVENT's bitmap as well (the model's reading, log 103), and a tally that differs from TEXP is counted,
marked and warned; one of another route than the active one is counted and not processed (R300). -/
def Obligations.DrumFrames : Prop :=
  ∀ (s : State) (p : Fin 12) (f : DrumIn) (c : Fin 4) (sideB : Bool),
    let k := Vec.at s.cl c
    let x := Vec.at s.port p
    let l := k.dl
    let bs := f.bytes
    let stays := Host.Outcome.next (φ := Fault) (ρ := Refusal) s.settle
    let counts := fun (n : Nat) => Host.Outcome.next (φ := Fault) (ρ := Refusal) (State.settle (countedAt (landed s p f) p n))
    (x.owner = none ∨ x.st ≠ 3 → exec (.drumFrameRx p f) s = stays ∧ exec (.drumFrameReturn p f) s = stays) ∧
    (drumPort s c p sideB → k.id = 1 ∨ k.id = 2 → k.st ≠ .started ∨ l.st = 0 → exec (.drumFrameRx p f) s = stays) ∧
    (drumPort s c p sideB → k.st = .started → l.st ≠ 0 → x.st = 3 → k.id = 1 ∨ k.id = 2 →
      (bs.length < 60 → exec (.drumFrameRx p f) s = counts 13) ∧ (1514 < bs.length → exec (.drumFrameRx p f) s = counts 14) ∧
      (drumSized bs → Machine.octet bs 20 = 255 → exec (.drumFrameRx p f) s = counts 46)) ∧
    (drumPort s c p sideB → k.st = .started → x.st = 3 → k.id = 2 → l.st = 3 → s.inPair c = false → k.borrow.active = false → k.badWords = [] →
      l.proposal = none → l.silent = false → l.guardIn = 0 → ∀ o : Fin 12, o.1 = (if sideB then l.portA else l.portB) →
      (Vec.at s.port o).owner = some c →
      ((Machine.octet bs 14).toNat / 16 ≠ 1 ∨ (Machine.octet bs 14).toNat % 16 = 0 ∨ 4 < (Machine.octet bs 14).toNat % 16 → Machine.octet bs 20 ≠ 255 → f.fcs = .good → drumSized bs → (Vec.at s.port o).st = 3 →
        let w := countedAt (landed s p f) p 45
        (clearLine (Vec.at s.port o) → ∃ span, exec (.drumFrameRx p f) s = .next (State.settle (w.updPort o fun x => { x with
          wire := some ⟨hopped bs, .good, .frame⟩, lpiTx := false, ways := passedBy s c x.ways span }))) ∧
        ((Vec.at s.port o).tx ≠ none → (Vec.at s.port o).mm ≠ 2 → (Vec.at s.port o).ways.stored + bs.length + 4 ≤ 2048 →
          exec (.drumFrameRx p f) s = .next (State.settle (w.updPort o fun x => { x with
            ctr := x.ctr.add 47 1, ways := { x.ways with store := x.ways.store ++ [⟨hopped bs, .good, .frame⟩] } })))) ∧
      (∀ (d : DgHead) (m : MapEntry), oneDatagram f d → (Machine.octet bs 15).toNat / 32 = l.active.1 → (Vec.at s.port o).st = 3 → clearLine (Vec.at s.port o) →
        l.activeEntries = [m] → 0 < m.len → d.na = false → d.laddr.toNat = m.laddr → d.len = m.len → d.data + d.len + 2 ≤ bs.length → 22 ≤ d.pos →
        let h := m.spad + (Machine.octet bs 17).toNat % 2 * (8 * ((m.len + 7) / 8))
        let lag := (k.cycle.setWidth 16 - BitVec.ofNat 16 (beAt bs 16 2)).toInt
        let seq := BitVec.ofNat 16 (beAt bs 18 2)
        let ring := x.ways.base.toNat * 256 + 16 * x.ways.head.toNat
        let apart := h + m.len ≤ ring ∨ ring + 16 ≤ h
        let new := l.newest = none ∨ ∃ n, l.newest = some n ∧ 0 < (seq - n).toInt
        let tallied := fun (v : List Byte) (w : Nat) => bs.take d.data ++ v ++ beBytes 2 (min 65535 (beAt bs (d.data + d.len) 2 + w)) ++ bs.drop (d.data + d.len + 2)
        let data := slice bs d.data d.len
        let own := memReadN k.spad h m.len
        let gone := fun (u : State) (v : List Byte) (w : Nat) => (Vec.at u.port o).wire = some ⟨hopped (tallied v w), .good, .frame⟩
        let still := fun (u : State) => ∀ a, (a < ring ∨ ring + 16 ≤ a) → memRead (Vec.at u.cl c).spad a = memRead k.spad a
        let kept := fun (u : State) (dup : Bool) => recorded s u c p f (recordFlags f true dup false false sideB 1) 0 ∧ (Vec.at u.cl c).dl.hops = Machine.octet bs 20
        (Machine.octet bs 15).getLsbD 4 = false → f.fcs = .good → lag = 0 ∨ lag = 1 →
        (new → m.give = false → d.cmd = 2 → apart → ∃ u : State, exec (.drumFrameRx p f) s = .next u.settle ∧ kept u false ∧ gone u data 1 ∧
          memReadN (Vec.at u.cl c).spad h m.len = data ∧ (Vec.at u.cl c).dl.newest = some seq ∧
          (∀ a, (a < ring ∨ ring + 16 ≤ a) → (a < h ∨ h + m.len ≤ a) → memRead (Vec.at u.cl c).spad a = memRead k.spad a)) ∧
        (new → m.give = true → d.cmd = 1 → ∃ u : State, exec (.drumFrameRx p f) s = .next u.settle ∧ kept u false ∧ gone u own 1 ∧ still u) ∧
        (new → m.give = true → d.cmd = 4 → ∃ u : State, exec (.drumFrameRx p f) s = .next u.settle ∧ kept u false ∧ still u ∧
          gone u ((own.zip data).map fun y => y.1 ||| y.2) 1) ∧
        (new → (m.give = true ∧ d.cmd = 2) ∨ (m.give = false ∧ d.cmd = 1) ∨ d.cmd = 0 → ∃ u : State, exec (.drumFrameRx p f) s = .next u.settle ∧
          kept u false ∧ gone u data 0 ∧ still u) ∧
        (l.newest = some seq → l.seen.getLsbD 0 = true → m.give = false → d.cmd = 2 → ∃ u : State, exec (.drumFrameRx p f) s = .next u.settle ∧
          kept u true ∧ gone u data 1 ∧ still u ∧ Vec.atD (Vec.at u.port p).ctr.live 38 0 = Vec.atD (x.ctr.add 38 1).live 38 0)) ∧
      (∀ d : DgHead, oneDatagram f d → (Machine.octet bs 15).toNat / 32 = l.active.1 → (Machine.octet bs 15).getLsbD 4 = true →
        clearLine (Vec.at s.port (if (Vec.at s.port o).st = 3 then o else p)) →
        ∃ u : State, exec (.drumFrameRx p f) s = .next u.settle ∧ recorded s u c p f (recordFlags f (decide (f.fcs = .good)) false true false sideB 1) 0 ∧
          (Vec.at u.port (if (Vec.at s.port o).st = 3 then o else p)).wire = some ⟨hopped bs, if f.fcs = .good then .good else .inverted, .frame⟩ ∧
          Vec.atD (Vec.at u.port p).ctr.live 36 0 = Vec.atD (if f.fcs = .bad then x.ctr.add 36 1 else x.ctr).live 36 0 ∧
          Vec.atD (Vec.at u.port p).ctr.live 37 0 = Vec.atD (if f.fcs = .inverted then x.ctr.add 37 1 else x.ctr).live 37 0) ∧
      (∀ d : DgHead, oneDatagram f d → (Machine.octet bs 15).toNat / 32 = l.active.1 → (Machine.octet bs 15).getLsbD 4 = false → (Vec.at s.port o).st ≠ 3 → d.cmd = 0 → d.na = false →
        l.routes = Vec.fill 8 none → clearLine x → ∃ u : State, exec (.drumFrameRx p f) s = .next u.settle ∧
          (Vec.at u.port p).wire = some ⟨hopped (bs.take 15 ++ [Machine.octet bs 15 ||| 16] ++ bs.drop 16), if f.fcs = .good then .good else .inverted, .frame⟩ ∧
          Vec.atD (Vec.at u.port p).ctr.live 43 0 = Vec.atD (x.ctr.add 43 1).live 43 0)) ∧
    (drumPort s c p sideB → k.st = .started → x.st = 3 → k.id = 1 → l.st = 3 → s.inPair c = false → k.borrow.active = false → k.badWords = [] → l.split = false →
      (∀ d : DgHead, oneDatagram f d → (Machine.octet bs 15).getLsbD 3 = false → (Machine.octet bs 15).toNat / 32 ≠ l.active.1 →
        let ring := x.ways.base.toNat * 256 + 16 * x.ways.head.toNat
        ∃ u : State, exec (.drumFrameReturn p f) s = .next u.settle ∧
          Vec.atD (Vec.at u.port p).ctr.live 57 0 = Vec.atD (x.ctr.add 57 1).live 57 0 ∧
          (∀ a, (a < ring ∨ ring + 16 ≤ a) → memRead (Vec.at u.cl c).spad a = memRead k.spad a)) ∧
      (∀ d : DgHead, oneDatagram f d → (Machine.octet bs 15).getLsbD 3 = false → (Machine.octet bs 15).toNat / 32 = l.active.1 → f.fcs = .good →
        d.na = true → d.cmd = 1 → l.naBase ≠ 0xFFFFFFFF → d.laddr.toNat / 4096 % 4096 = 0 → d.laddr.toNat % 4096 + d.len ≤ 4096 →
        d.data + d.len + 2 ≤ bs.length →
        let h := l.naBase + d.laddr.toNat % 4096
        let ring := x.ways.base.toNat * 256 + 16 * x.ways.head.toNat
        h + d.len ≤ ring ∨ ring + 16 ≤ h →
        ∃ u : State, exec (.drumFrameReturn p f) s = .next u.settle ∧ memReadN (Vec.at u.cl c).spad h d.len = slice bs d.data d.len ∧
          (∀ a, (a < ring ∨ ring + 16 ≤ a) → (a < h ∨ h + d.len ≤ a) → memRead (Vec.at u.cl c).spad a = memRead k.spad a)) ∧
      ∀ (d : DgHead) (m : MapEntry), oneDatagram f d → (Machine.octet bs 15).getLsbD 3 = false → (Machine.octet bs 15).toNat / 32 = l.active.1 →
        f.fcs = .good → l.entries = [m] → m.give = false → d.na = false →
        (1 ≤ d.cmd ∧ d.cmd ≤ 4) ∨ d.cmd = 8 → d.laddr.toNat = m.laddr → d.len = m.len → d.data + d.len + 2 ≤ bs.length →
        let h := m.spad + (Machine.octet bs 17).toNat % 2 * (8 * ((m.len + 7) / 8))
        let ring := x.ways.base.toNat * 256 + 16 * x.ways.head.toNat
        let wrong := decide (beAt bs (d.data + d.len) 2 ≠ d.texp.toNat)
        h + m.len ≤ ring ∨ ring + 16 ≤ h →
        ∃ u : State, exec (.drumFrameReturn p f) s = .next u.settle ∧
          (∃ late, recorded s u c p f (recordFlags f true false ((Machine.octet bs 15).getLsbD 4) late sideB 1) (if wrong then 1 else 0)) ∧
          memReadN (Vec.at u.cl c).spad h m.len = slice bs d.data d.len ∧
          (∀ a, (a < ring ∨ ring + 16 ≤ a) → (a < h ∨ h + m.len ≤ a) → memRead (Vec.at u.cl c).spad a = memRead k.spad a) ∧
          (Vec.at u.cl c).dl.hops = Machine.octet bs 20 ∧
          Vec.atD (Vec.at u.cl c).dl.returned (4 * ((Machine.octet bs 17).toNat % 2) + (Machine.octet bs 21).toNat % 4) false = true ∧
          (logRoom s → wrong = true → logged u 0x0602 (s.objAt 1 c.1) 0) ∧
          Vec.atD (Vec.at u.port p).ctr.live 42 0 = Vec.atD (if wrong then x.ctr.add 42 1 else x.ctr).live 42 0)

/-! ### Tollgate -/

/-- The branch of a hub on a port, which is neither uplink (R281, R282). -/
def Sys2Proof.Claim.branchAt (s : State) (c : Fin 4) (b : Fin 8) (p : Fin 12) : Prop :=
  (Vec.at s.cl c).id = 3 ∧ (Vec.at s.port p).owner = some c ∧ (Vec.at s.cl c).dl.portA ≠ p.1 ∧ (Vec.at s.cl c).dl.portB ≠ p.1 ∧
    (Vec.at (Vec.at s.cl c).dl.branchPorts b).toNat = p.1 ∧ ∀ a, a < b → (Vec.at (Vec.at s.cl c).dl.branchPorts a).toNat ≠ p.1

/-- A branch of a cluster's hub becomes `y`. -/
def Sys2Proof.Claim.withBranch (s : State) (c : Fin 4) (b : Fin 8) (y : Branch) : State :=
  { s with cl := Vec.upd s.cl c fun k => { k with dl := { k.dl with branches := Vec.put k.dl.branches b y } } }

/-- TG_STAT and TG_GUARD of a branch as the drumbeat writes them (R295). -/
def Sys2Proof.Claim.registers (y : Branch) (b : Fin 8) : Branch :=
  { y with
    tgStat := BitVec.ofNat 32 (y.st.1 * 2 ^ 29 + b.1 * 2 ^ 26 + y.isorun % 16 * 2 ^ 22 + min 63 y.violLast * 2 ^ 16 + y.left % 65536)
    tgGuard := BitVec.ofNat 32 (y.guard % 65536 * 65536 + (BitVec.ofInt 16 (max (-32767) (min 32767 (y.drift + 1 / 2).floor))).toNat) }

/-- The star hub's downstream pass, admission, branch states and merge, and the release of held returns (R282, R284–R287,
R289, R290, R292, R293, R295). A drum frame from an uplink goes to every branch of the active route that is not OFF, a second
copy of it to none; a CLAIM goes on, a branch's second one of a cycle being a violation. A
return of the current cycle, of the length sent, that starts in its window is admitted and stored, and the guard loop takes its
sample; one that starts before or after it is blocked and counted as a violation, as is one that still arrives where a window
opens; the limit of violations, or one in PROBATION, isolates the
branch with a WARNING; an isolated or locked branch's frames are counted tg_blocked; a window that closes without a
frame counts tg_missing and one still arriving is cut; each drum frame of a branch has its record; an isolation ends in
PROBATION or, at the limit, LOCKED with
an ALARM; a probation ends in NORMAL; what passes goes on to the receive path; the merged frame carries the branches' octets
and tallies on every uplink.
(That LOCKED is entered at the end of the isolation, and that blocked frames have their records too, are the model's reading,
log 103.) -/
def Obligations.TollgateBranches : Prop :=
  ∀ (s : State) (c : Fin 4) (b : Fin 8) (f : Fin 4),
    let k := Vec.at s.cl c
    let d := k.dl
    let x := Vec.at d.branches b
    let set := fun (i : Fin 5) => (Vec.at d.tgSets i).toNat
    let stays := Host.Outcome.next (φ := Fault) (ρ := Refusal) s.settle
    let becomes := fun (w : State) => Host.Outcome.next (φ := Fault) (ρ := Refusal) w.settle
    let live := x.st = 1 ∨ x.st = 3
    let inRoute := fun (b : Fin 8) => match Vec.at d.routes d.active with
      | some r => (Vec.at r.branches b).inRoute
      | none => false
    -- the end of isolation and probation
    (∀ p : Fin 12, (Vec.at d.branchPorts b).toNat = p.1 → x.st = 2 → x.left = 0 → logRoom s →
      if set 3 ≠ 0 ∧ set 3 ≤ x.isorun then reports (.isolationEnd c b) s (withBranch s c b (registers { x with st := 4 } b)) 0x060D (s.objAt 2 p.1)
      else exec (.isolationEnd c b) s = becomes (withBranch s c b (registers { x with st := 3, left := set 2, viol := 0 } b))) ∧
    (x.st ≠ 2 ∨ x.left ≠ 0 → exec (.isolationEnd c b) s = stays) ∧
    (exec (.probationEnd c b) s = if x.st = 3 ∧ x.left = 0 then becomes (withBranch s c b (registers { x with st := 1, isorun := 0 } b)) else stays) ∧
    -- the held returns of devices
    (∀ late : Bool, ∃ u : State, exec (.returnRelease c f late) s = becomes u ∧ { u with port := s.port } = s ∧ ∀ p,
      let y := Vec.at s.port p
      let mine := y.ways.hold.filter fun h => decide (h.1 = f)
      let rest := { y.ways with hold := y.ways.hold.filter fun h => decide (h.1 ≠ f) }
      (y.owner ≠ some c → Vec.at u.port p = y) ∧
      (y.owner = some c → d.silent = true ∨ d.st ≠ 3 ∨ mine = [] → Vec.at u.port p = { y with ways := rest }) ∧
      (∀ w, y.owner = some c → d.silent = false → d.st = 3 → mine = [(f, w)] → clearLine y → ∃ span, Vec.at u.port p = { y with
          ways := passedBy s c rest span
          wire := some ⟨w.bytes, w.fcs, .frame⟩
          lpiTx := false
          ctr := if late then y.ctr.add 59 1 else y.ctr })) ∧
    -- downstream
    (∀ (p : Fin 12) (sideB : Bool) (a : DrumIn) (g : DgHead), k.id = 3 → k.st = .started → drumPort s c p sideB → (Vec.at s.port p).st = 3 → d.st = 3 →
      d.proposal = none → k.borrow.active = false → k.badWords = [] → oneDatagram a g → a.fcs = .good → g.cmd ≤ 4 ∨ g.cmd = 8 →
      (Machine.octet a.bytes 15).toNat / 32 = d.active.1 →
      let copy := ∃ q : Fin 12, q ≠ p ∧ (BitVec.ofNat 16 (beAt a.bytes 16 2), BitVec.ofNat 16 (beAt a.bytes 18 2), Machine.octet a.bytes 21, q) ∈ d.hubSeen
      let flags := fun (dup : Bool) => recordFlags a true dup ((Machine.octet a.bytes 15).getLsbD 4) false sideB 1
      (copy → ∃ u : State, exec (.drumFrameRx p a) s = .next u.settle ∧ recorded s u c p a (flags true) 0 ∧
        Vec.atD (Vec.at u.port p).ctr.live 38 0 = Vec.atD ((Vec.at s.port p).ctr.add 38 1).live 38 0 ∧ ∀ q, q ≠ p → Vec.at u.port q = Vec.at s.port q) ∧
      (¬ copy → ∃ u : State, exec (.drumFrameRx p a) s = .next u.settle ∧ recorded s u c p a (flags false) 0 ∧
        Vec.at (Vec.at u.cl c).dl.sentFrames (Fin.ofNat 4 (Machine.octet a.bytes 21).toNat) = some a.bytes ∧
        ∀ (e : Fin 8) (q : Fin 12), (Vec.at d.branchPorts e).toNat = q.1 → inRoute e = true → (Vec.at d.branches e).st ≠ 0 →
          (Vec.at s.port q).st = 3 → (Vec.at s.port q).owner = some c → clearLine (Vec.at s.port q) →
          (Vec.at u.port q).wire = some ⟨a.bytes, .good, .frame⟩)) ∧
    (∀ (p : Fin 12) (r : Route), branchAt s c b p → k.st = .started → soundQueues s → Vec.at d.routes d.active = some r → (Vec.at r.branches b).inRoute = true →
      let w := Vec.at r.branches b
      let opn := ((Vec.at w.opens f).toNat : Int)
      let cls := ((Vec.at w.closes f).toNat : Int)
      let slot := fun (i : Fin 4) => Vec.at w.opens i ≠ Vec.at w.closes i
      let g : Int := x.guard
      let port := Vec.at s.port p
      let ring := port.ways.base.toNat * 256 + 16 * port.ways.head.toNat
      let here := s.updPort p fun x => { x with receiving := false }
      -- the close of a window
      (d.st = 3 → live → slot f → Vec.at x.admitted f = false → ∀ late, exec (.slotWindowClose c b f late) s = becomes (countedAt s p 54)) ∧
      (d.st = 3 → x.st = 1 → slot f → Vec.at x.admitted f = true → Vec.at x.returns f ≠ none → x.viol + 1 < set 0 → set 0 ≤ 255 →
        exec (.slotWindowClose c b f true) s = becomes (countedAt (withBranch s c b { x with returns := Vec.put x.returns f none, viol := x.viol + 1 }) p 50)) ∧
      (d.st = 3 → Vec.at x.admitted f = true → exec (.slotWindowClose c b f false) s = stays) ∧
      (d.st ≠ 3 ∨ ¬ live ∨ ¬ slot f → exec (.slotWindowClose c b f true) s = stays) ∧
      -- arrivals
      (∀ a : BranchIn, port.st ≠ 3 → exec (.branchReturnArrival p a) s = .next s) ∧
      (∀ a : BranchIn, port.st = 3 → d.st = 3 → ¬ live → a.drumEtype = false →
        exec (.branchReturnArrival p a) s = becomes (symbols (countedAt here p 55) p a.frame.symErrs)) ∧
      (∀ a : BranchIn, port.st = 3 → d.st ≠ 3 → a.drumEtype = false → a.frame.bytes.length < 60 → Vec.at port.t2 2 ≠ 1 →
        exec (.branchReturnArrival p a) s = becomes (countedAt (symbols here p a.frame.symErrs) p 13)) ∧
      (∀ a : BranchIn, port.st = 3 → d.st = 3 → live → a.drumEtype = false → (∀ i, slot i → a.start < (Vec.at w.opens i).toNat - g ∨ (Vec.at w.closes i).toNat + g < a.start) →
        (∀ i, slot i → (Vec.at w.opens i).toNat - g ≤ a.start ∨ a.stop ≤ (Vec.at w.opens i).toNat - g) → a.frame.bytes.length < 60 → Vec.at port.t2 2 ≠ 1 →
        exec (.branchReturnArrival p a) s = becomes (countedAt (symbols here p a.frame.symErrs) p 13)) ∧
      -- CLAIM frames
      (∀ a : BranchIn, port.st = 3 → a.drumEtype = true → Machine.octet a.frame.bytes 14 = 0x12 → Machine.octet a.frame.bytes 20 ≠ 255 → drumSized a.frame.bytes → a.frame.fcs = .good →
        (x.claimed = true → x.st ≠ 3 → x.viol + 1 < set 0 → set 0 ≤ 255 → exec (.branchReturnArrival p a) s =
          becomes (symbols (countedAt (withBranch here c b { x with viol := x.viol + 1 }) p 53) p a.frame.symErrs)) ∧
        (x.claimed = false → ∃ u : State, exec (.branchReturnArrival p a) s = becomes u ∧ Vec.at (Vec.at u.cl c).dl.branches b = { x with claimed := true } ∧
          ∀ q : Fin 12, q ≠ p → q.1 = d.portA ∨ q.1 = d.portB ∨ (∃ e, (Vec.at d.branchPorts e).toNat = q.1) → (Vec.at s.port q).st = 3 →
            (Vec.at s.port q).owner = some c → clearLine (Vec.at s.port q) → (Vec.at u.port q).wire = some ⟨hopped a.frame.bytes, .good, .frame⟩)) ∧
      -- DRUM frames
      (∀ a : BranchIn, port.st = 3 → k.borrow.active = false → k.badWords = [] → a.drumEtype = true → Machine.octet a.frame.bytes 14 = 0x11 →
        Machine.octet a.frame.bytes 20 ≠ 255 → (Machine.octet a.frame.bytes 21).toNat % 4 = f.1 →
        let sound := decide (a.frame.fcs = .good) && !(dfDatagrams a.frame.bytes).2
        let leaves := fun (n : Nat) (y : Branch) (good : Bool) => ∃ (u : State) (flags : Nat), exec (.branchReturnArrival p a) s = .next u.settle ∧
          recorded s u c p a.frame flags 0 ∧ flags.testBit 31 = good ∧ (Vec.at u.cl c).dl = { d with branches := Vec.put d.branches b y } ∧
          (∀ q, q ≠ p → Vec.at u.port q = Vec.at s.port q) ∧ Vec.atD (Vec.at u.port p).ctr.live n 0 = Vec.atD (port.ctr.add n 1).live n 0 ∧
          ∀ a, (a < ring ∨ ring + 16 ≤ a) → memRead (Vec.at u.cl c).spad a = memRead k.spad a
        let clear := ∀ i, slot i → (Vec.at w.opens i).toNat - g ≤ a.start ∨ a.stop ≤ (Vec.at w.opens i).toNat - g
        let violated := fun (n : Nat) =>
          (x.st = 1 → x.viol + 1 < set 0 → set 0 ≤ 255 → leaves n { x with viol := x.viol + 1 } sound) ∧
          (x.viol < 255 → x.st = 3 ∨ set 0 ≤ x.viol + 1 →
            let y := { x with st := 2, viol := x.viol + 1, isorun := min 15 (x.isorun + 1), left := set 1, isoCycle := k.cycle }
            leaves n y sound ∧ leaves 56 y sound ∧
            (logRoom s → ∃ u : State, exec (.branchReturnArrival p a) s = .next u.settle ∧ logged u 0x060C (s.objAt 2 p.1) 0))
        let matching := slot f ∧ beAt a.frame.bytes 16 2 = k.cycle.toNat % 65536 ∧
          (∃ t, Vec.at d.sentFrames f = some t ∧ t.length = a.frame.bytes.length) ∧ Vec.at x.admitted f = false
        let admitted := { x with admitted := Vec.put x.admitted f true }
        (d.st = 3 → ¬ live → leaves 55 x sound) ∧
        (d.st = 3 → live → matching → opn - g ≤ a.start → a.start ≤ cls - g → a.stop ≤ cls + g →
          (set 4 = 1 → leaves 49 (if a.frame.fcs = .good then { admitted with returns := Vec.put x.returns f (some a.frame.bytes) } else admitted) sound) ∧
          (set 4 = 1 → a.frame.fcs = .bad → leaves 36 admitted false) ∧
          (set 4 ≠ 1 → s.tim.st = 2 ∨ s.tim.st = 3 → ∃ u : State, exec (.branchReturnArrival p a) s = .next u.settle ∧
            let e : Rat := ((a.start - opn : Int) : Rat)
            let m := x.drift + (e - x.drift) / 16
            let y := Vec.at (Vec.at u.cl c).dl.branches b
            y.drift = m ∧ y.var = x.var + ((e - m) * (e - m) - x.var) / 16 ∧ y.guard = x.guard ∧ y.guardNext = some (guardOf w.baseGuard.toNat y.var) ∧
            y.admitted = admitted.admitted)) ∧
        (d.st = 3 → x.st = 1 → matching → opn - g ≤ a.start → a.start ≤ cls - g → cls + g < a.stop → set 4 = 1 → x.viol + 1 < set 0 → set 0 ≤ 255 →
          leaves 50 { admitted with viol := x.viol + 1 } false) ∧
        (d.st = 3 → live → clear → slot f → a.start < opn - g → violated 51) ∧
        (d.st = 3 → live → clear → slot f → opn - g ≤ a.start → cls - g < a.start → violated 52) ∧
        (d.st = 3 → live → clear → slot f → opn - g ≤ a.start → a.start ≤ cls - g → ¬ matching → violated 53) ∧
        (d.st = 3 → x.st = 1 → slot f → a.start < opn - g → opn - g < a.stop → x.viol + 2 < set 0 → set 0 ≤ 255 →
          leaves 50 { x with viol := x.viol + 2 } sound ∧ leaves 51 { x with viol := x.viol + 2 } sound) ∧
        (d.st ≠ 3 → ∃ u : State, exec (.branchReturnArrival p a) s = .next u.settle ∧ (Vec.at u.cl c).dl = d ∧ ∀ q, q ≠ p → Vec.at u.port q = Vec.at s.port q))) ∧
    -- the merge
    (d.st ≠ 3 ∨ Vec.at d.sentFrames f = none → exec (.mergedFrame c f) s = stays) ∧
    (∀ (sent : List Byte) (g : DgHead), d.st = 3 → d.portA ≠ d.portB → Vec.at d.sentFrames f = some sent → dfDatagrams sent = ([g], false) →
      1 ≤ g.cmd → g.cmd ≤ 4 → 22 ≤ g.pos → g.data + g.len + 2 ≤ sent.length →
      let rs := (allFin 8).filterMap fun b =>
        let y := Vec.at d.branches b
        if (y.st = 1 ∨ y.st = 3) ∧ inRoute b = true then Vec.at y.returns f else none
      (∀ r ∈ rs, r.length = sent.length ∧ beAt sent (g.data + g.len) 2 ≤ beAt r (g.data + g.len) 2 ∧ Machine.octet sent 20 ≤ Machine.octet r 20) →
      (∀ p : Fin 12, p.1 = d.portA ∨ p.1 = d.portB → clearLine (Vec.at s.port p)) →
      ∃ (m : List Byte) (span : Fin 12 → Int × Int), (exec (.mergedFrame c f) s = becomes
        { s with port := Vec.mapIx s.port fun p y =>
          if (p.1 = d.portA ∨ p.1 = d.portB) ∧ y.st = 3 ∧ y.owner = some c then { y with
            wire := some ⟨m, .good, .frame⟩, lpiTx := false, ways := passedBy s c y.ways (span p) } else y }) ∧
        m.length = sent.length ∧ (Machine.octet m 15 = Machine.octet sent 15 ||| 16) ∧ m.take 15 = sent.take 15 ∧ slice m 16 4 = slice sent 16 4 ∧
        (Machine.octet m 20).toNat = rs.foldl (fun h r => max h (Machine.octet r 20).toNat) (Machine.octet sent 20).toNat ∧
        beAt m (g.data + g.len) 2 = min 65535 (rs.foldl (fun t r => t + (beAt r (g.data + g.len) 2 - beAt sent (g.data + g.len) 2)) (beAt sent (g.data + g.len) 2)) ∧
        ∀ i, i < g.len → Machine.octet m (g.data + i) = if g.cmd = 4 then rs.foldl (fun v r => v ||| Machine.octet r (g.data + i)) (Machine.octet sent (g.data + i))
          else ((rs.map fun r => Machine.octet r (g.data + i)).find? fun v => decide (v ≠ Machine.octet sent (g.data + i))).getD (Machine.octet sent (g.data + i)))

/-! ### Aklos and pairing -/

/-- The command brings the module into a pair state (R311, R313, R324, R483): STATE, REASON, STCHG, the ring to every
paired cluster, and TX and OWN as the state has them (a takeover leaves these to its drumbeats). -/
def Sys2Proof.Claim.pairMoves (i : Instr) (s : State) (st : Fin 6) (reason : Byte) : Prop :=
  ∃ u : State, exec i s = .next u.settle ∧ u.pair.st = st ∧ u.pair.reason = reason ∧ u.hif.stchg = true ∧
    ∀ c, s.inPair c = true → (Vec.at u.cl c).supdb.getLsbD 3 = true ∧
      (Vec.at u.cl c).pair.tx = (if st = 4 then (Vec.at s.cl c).pair.tx else decide (2 ≤ st)) ∧
      (Vec.at u.cl c).pair.own = (if st = 4 then (Vec.at s.cl c).pair.own else decide (st = 2 ∨ st = 5))

/-- An Aklos link changes its state (R308): one change more, the other link as it was, and nothing else but reports. -/
def Sys2Proof.Claim.linkMoves (i : Instr) (s : State) (l : Fin 2) (st : Fin 3) : Prop :=
  ∃ u : State, exec i s = .next u.settle ∧ reported s u ∧ (Vec.at u.pair.links l).st = st ∧
    (Vec.at u.pair.links l).chg = (Vec.at s.pair.links l).chg + 1 ∧
    (Vec.at u.pair.links l).ctr = (if st = 0 then (Vec.at s.pair.links l).ctr.add 2 1 else (Vec.at s.pair.links l).ctr) ∧
    ∀ j, j ≠ l → (Vec.at u.pair.links j).st = (Vec.at s.pair.links j).st ∧ (Vec.at u.pair.links j).chg = (Vec.at s.pair.links j).chg

/-- A link of the module with some of its fields changed. -/
def Sys2Proof.Claim.withLink (s : State) (l : Fin 2) (f : AkLink → AkLink) : State :=
  { s with pair := { s.pair with links := Vec.upd s.pair.links l f } }

/-- The pairing data of a cluster changed. -/
def Sys2Proof.Claim.withPc (s : State) (c : Fin 4) (f : PairCl → PairCl) : State :=
  { s with cl := Vec.upd s.cl c fun k => { k with pair := f k.pair } }

/-- A message on an Aklos link as it leaves: its octets, then CRC-32 over them (R306, R309). -/
def Sys2Proof.Claim.withCrc (data : List Byte) : List Byte := data ++ beBytes 4 (crc32 data)

/-- The module with a message sent on a link (R306, R309). -/
def Sys2Proof.Claim.sentOn (s : State) (l : Fin 2) (typ : Byte) (data : List Byte) : State :=
  withLink s l fun k => { k with sent := k.sent ++ [⟨typ, withCrc data⟩] }

/-- The other link of the module. -/
def Sys2Proof.Claim.otherLink (l : Fin 2) : Fin 2 := if l = 0 then 1 else 0

/-- The time master that a TIME message on a link names (R227): the lowest position, of the module's own where its TSRC is
not 3, and of the member at the far end of the other link where that link names it; 0xFF for none (log 84). -/
def Sys2Proof.Claim.masterFor (s : State) (l : Fin 2) : Byte :=
  let j := otherLink l
  match (allFin 4).find? fun m => decide ((m = s.pwr.mpos ∧ s.tim.tsrc ≠ 3) ∨
      ((Vec.at s.pair.links j).master = some m ∧ m = s.farEnd j)) with
  | some m => BitVec.ofNat 8 m.1
  | none => 0xFF

/-- The time on a link that names `master` is the one that the module follows with TSRC = 3 (R227): no lower position is
named on the other link, and of two links that name the same, it is the one that leads there, else the lower-numbered one
(log 84). -/
def Sys2Proof.Claim.timeFrom (s : State) (l : Fin 2) (master : Option (Fin 4)) : Prop :=
  let j := otherLink l
  ∃ m, master = some m ∧ m ≠ s.pwr.mpos ∧
    ∀ x, (Vec.at s.pair.links j).master = some x → x ≠ s.pwr.mpos → m.1 ≤ x.1 ∧
      (x = m → s.farEnd j ≠ m ∨ (s.farEnd l = m ∧ l = 0)) ∧ (x = m → s.farEnd l = m ∨ l = 0)

/-- A message with a bad CRC is discarded and counted (R306); the 16th within 1 ms takes the link DOWN (R308). -/
def Sys2Proof.Claim.discards (i : Instr) (s : State) (l : Fin 2) : Prop :=
  let k := Vec.at s.pair.links l
  let errs := (k.errs.filter fun t => decide (s.ns.toNat < t + 1000000)) ++ [s.ns.toNat]
  (errs.length < 16 → exec i s = .next (State.settle (withLink s l fun k => { k with errs := errs, ctr := k.ctr.add 0 1 }))) ∧
  (16 ≤ errs.length → ∃ u : State, exec i s = .next u.settle ∧
    (Vec.at u.pair.links l).st = 0 ∧ (Vec.at u.pair.links l).chg = k.chg + 1 ∧ (Vec.at u.pair.links l).ctr = (k.ctr.add 0 1).add 2 1)

/-- The Aklos links (R306–R312, R314, R337, R338, R340). A signal starts training of a lane in use, a trained link enters UP and
sends its IDENT, a lost one goes DOWN and is counted; a BEAT and a TIME leave on every link in UP; a message with a
bad CRC is counted and discarded, and the 16th within 1 ms takes the link DOWN; a TIME is a sample from the partner, or from the
group time master's link; BEATs of other members go on along the two-hop path; settings or images that differ raise an ALARM, and no
pair forms; with those that agree the partner's BEAT makes the pair of an ORPHAN and a standby, and ends one with a partner that
fell back; of two ORPHAN modules the longer one stays, both raising PAIR_DUAL_ACTIVE; an IDENT that
fails verification raises PEER_AUTH, a new serial number waits for approval or is taken; messages of the pair are ignored until the
partner is verified; BULK content of a verified partner leaves for a joiner, and lands and takes effect there. (The layouts of the
messages, which the source does not give, are the model's, log 24.) -/
def Obligations.AklosLinks : Prop :=
  ∀ (s : State) (l : Fin 2),
    let k := Vec.at s.pair.links l
    let p := s.pair
    let stays := Host.Outcome.next (φ := Fault) (ρ := Refusal) s.settle
    let becomes := fun (w : State) => Host.Outcome.next (φ := Fault) (ρ := Refusal) w.settle
    let lane := s.pwr.domains.getLsbD 9 = true ∧ (l = 0 ∨ p.ak1mode ≠ 0)
    let partner := l = 0 ∨ p.ak1mode = 1
    let own := s.pwr.mpos.1
    let beatOf := fun (mp : Fin 4) (q : Fin 6) (ms n : Nat) => [BitVec.ofNat 8 mp.1, BitVec.ofNat 8 q.1] ++ beBytes 4 ms ++ beBytes 2 n
    (lane → k.st = 0 → linkMoves (.aklosSignalPresent l) s l 1) ∧
    (¬ lane ∨ k.st ≠ 0 → exec (.aklosSignalPresent l) s = stays) ∧
    (k.st ≠ 0 → linkMoves (.aklosLinkDown l) s l 0) ∧
    (k.st = 0 → exec (.aklosLinkDown l) s = stays) ∧
    -- entry into UP
    (∀ i : PeerInfo, k.st ≠ 1 → exec (.aklosLinkUp l i) s = stays) ∧
    (∀ i : PeerInfo, k.st = 1 →
      let same := i.settings = p.compared ∧
        i.images = ((allFin 4).filter fun c => (Vec.at p.sets 1).toNat.testBit c.1).map fun c => sha256 (Vec.at s.cl c).image
      (∃ u : State, exec (.aklosLinkUp l i) s = .next u.settle ∧ (Vec.at u.pair.links l).st = 2 ∧
        ⟨0x40, withCrc (beBytes 8 Config.serial.toNat ++ Config.certificate.take 1000)⟩ ∈ (Vec.at u.pair.links l).sent ∧
        (partner → u.pair.configMismatch = decide (¬ same) ∧ u.pair.peerLost = false ∧
          (p.st ≠ 5 ∨ ¬ same ∨ i.bothOrphan = false → u.pair.st = p.st) ∧
          (p.st = 5 → same → i.bothOrphan = true → u.pair.st =
            if i.peerOrphanMs < p.orphanMs ∨ (i.peerOrphanMs = p.orphanMs ∧ own < own ^^^ 1) then 5 else 1) ∧
          (logRoom s → (¬ same → logged u 0x0701 (s.objAt 0 0) 0) ∧
            (p.st = 5 → same → i.bothOrphan = true → logged u 0x0700 (s.objAt 0 0) 0)))) ∧
      (¬ partner → linkMoves (.aklosLinkUp l i) s l 2)) ∧
    -- what leaves
    (exec (.beatSend l) s = if k.st = 2
      then becomes (withLink (sentOn s l 0x01 (beatOf s.pwr.mpos p.st p.orphanMs k.beats)) l fun k => { k with beats := k.beats + 1 }) else stays) ∧
    (exec (.aklosTimeSend l) s = if k.st = 2 then becomes (sentOn s l 0x02
      (beBytes 8 s.tim.ns.toNat ++ beBytes 2 s.tim.frac.toNat ++ [masterFor s l] ++ List.replicate 13 0)) else stays) ∧
    -- a bad CRC, a link that is not UP, a partner that is not verified
    (∀ (mp : Fin 4) (q : Fin 6) (ms n : Nat) (pr : Bool) (off : W64) (at_ : W32) (master : Option (Fin 4)) (c : Fin 4) (data : List Byte)
      (r : Report) (w : PairCtl) (src dst : Fin 4) (num : BitVec 30) (cmd tag status : W16) (m : Msg) (detail : W32) (b : BulkPlace)
      (cyc : W64) (block : Nat) (route : RouteCopy) (me : Bool),
      let ofPair := fun (ok : Bool) => [Instr.aklosRelay l c data ok, .aklosReport l r ok, .aklosPairctl l w ok, .aklosBulk l b data ok]
      let every := fun (ok : Bool) => ofPair ok ++ [.aklosBeat l mp q ms n pr ok, .aklosTime l off at_ master ok, .aklosCmd l src num cmd m ok,
        .proxyResponse l src dst num cmd tag status detail m.target data ok]
      (k.st ≠ 2 → ∀ ok, ∀ i ∈ .aklosCopy l c cyc block data route ok me :: every ok, exec i s = stays) ∧
      (k.st = 2 → ∀ i ∈ every false, discards i s l) ∧
      (k.st = 2 → k.identOk = false ∨ ¬ partner → ∀ i ∈ .aklosCopy l c cyc block data route true me :: ofPair true, exec i s = stays)) ∧
    -- TIME
    (∀ (off : W64) (at_ : W32) (master : Option (Fin 4)), k.st = 2 →
      let heeded := if p.st = 1 ∨ p.st = 3 then s.partnerLink = some l else s.tim.tsrc = 3 ∧ timeFrom s l master
      (¬ heeded → exec (.aklosTime l off at_ master true) s = becomes (withLink s l fun k => { k with master := master })) ∧
      (heeded → ∃ u : State, exec (.aklosTime l off at_ master true) s = .next u.settle ∧
        u.tim.lastOff = off ∧ u.tim.offsetAt = at_ ∧ u.tim.samples = s.tim.samples + 1 ∧ (Vec.at u.pair.links l).master = master)) ∧
    -- BEATs of another member, and of the partner
    (∀ (mp : Fin 4) (q : Fin 6) (ms n : Nat) (pr : Bool), k.st = 2 → mp ≠ finOf 4 (own ^^^ 1) →
      let hop := finOf 4 (own ^^^ if l = 0 then 3 else 2)
      let w := if ¬ partner ∧ mp = finOf 4 (own ^^^ 2)
        then withLink s l fun k => { k with heard := some n, ctr := k.ctr.add 1 (match k.heard with
          | some h => n - (h + 1)
          | none => 0) } else s
      exec (.aklosBeat l mp q ms n pr true) s = becomes (if p.ak1mode = 2 ∧ mp = hop ∧ (Vec.at p.links (otherLink l)).st = 2
        then sentOn w (otherLink l) 0x01 (beatOf mp q ms n) else w)) ∧
    (∀ (q : Fin 6) (ms n : Nat) (pr : Bool), k.st = 2 →
      let beat := Instr.aklosBeat l (finOf 4 (own ^^^ 1)) q ms n pr true
      let stands := fun (st : Fin 6) => ∃ u : State, exec beat s = .next u.settle ∧ u.pair.st = st
      (∃ u : State, exec beat s = .next u.settle ∧ u.pair.peerState = BitVec.ofNat 8 q.1 ∧ u.pair.peerLost = false ∧
        (partner → (Vec.at u.pair.links l).heard = some n ∧ (Vec.at u.pair.links l).ctr = match k.heard with
          | some h => k.ctr.add 1 (n - (h + 1))
          | none => k.ctr.add 1 0)) ∧
      (p.configMismatch = true → stands p.st) ∧
      (p.configMismatch = false →
        (p.st = 5 → q = 3 → if s.pairLink.isSome then pairMoves beat s 2 2 else stands 5) ∧
        (p.st = 2 → q = 1 → pairMoves beat s 5 7) ∧ (p.st = 2 → q = 0 → pairMoves beat s 5 4) ∧
        (p.st ≠ 2 → p.st ≠ 5 → ∃ u : State, exec beat s = .next u.settle ∧ u.pair.st = p.st ∧ ∀ c, Vec.at u.cl c =
          if s.inPair c then { Vec.at s.cl c with pair := { (Vec.at s.cl c).pair with checkFrom := none } } else Vec.at s.cl c) ∧
        (p.st = 5 → q = 5 → p.orphanMs < ms → pairMoves beat s 1 9) ∧
        (p.st = 5 → q = 5 → ¬ (ms = 0 ∧ p.orphanMs = 0) → ∃ u : State, exec beat s = .next u.settle ∧ (logRoom s → logged u 0x0700 (s.objAt 0 0) 0) ∧
          u.pair.st = if ms < p.orphanMs ∨ (ms = p.orphanMs ∧ own < own ^^^ 1) then 5 else 1) ∧
        (p.st = 5 → q = 5 → ms = 0 → p.orphanMs = 0 →
          let prefer := decide (Vec.at p.sets 3 = 1)
          if (if prefer = pr then decide (own < own ^^^ 1) else prefer) then stands 5 else pairMoves beat s 1 0) ∧
        (∀ j, p.st = 5 → q = 1 → p.bulkSent = false → s.pairLink = some j → s.syncAllowed = true → ∃ u : State, exec beat s = .next u.settle ∧
          u.pair.bulkSent = true ∧ u.pair.st = 5 ∧ ∀ c, s.inPair c = true → (Vec.at s.cl c).st = .started →
            ∃ x ∈ (Vec.at u.pair.links j).sent, x.typ = 0x30))) ∧
    -- identity
    (∀ (serial : W64) (good : Bool), (k.st = 0 → ∀ ok, exec (.aklosIdent l serial good ok) s = stays) ∧
      (k.st ≠ 0 → discards (.aklosIdent l serial good false) s l)) ∧
    (∀ serial : W64, k.st ≠ 0 → logRoom s → ∃ u : State, exec (.aklosIdent l serial false true) s = .next u.settle ∧
      reported s u ∧ (Vec.at u.pair.links l).identOk = false ∧ logged u 0x0707 (s.objAt 0 0) 0) ∧
    (∀ serial : W64, k.st ≠ 0 → partner → serial ≠ p.lastSerial → ∃ u : State, exec (.aklosIdent l serial true true) s = .next u.settle ∧
      (Vec.at u.pair.links l).identOk = true ∧ u.pair.peerSerial = serial ∧
      (if Vec.at p.sets 2 = 1 then u.pair.lastSerial = serial ∧ u.pair.pendingSerial = none
       else u.pair.lastSerial = p.lastSerial ∧ u.pair.pendingSerial = some serial ∧ u.pair.approved = false)) ∧
    (k.st ≠ 0 → partner → p.st ≠ 5 → exec (.aklosIdent l p.lastSerial true true) s = becomes { s with pair := { p with
      peerSerial := p.lastSerial, bulkSent := false, links := Vec.upd p.links l fun k => { k with identOk := true } } }) ∧
    (∀ serial : W64, k.st ≠ 0 → ¬ partner → exec (.aklosIdent l serial true true) s = becomes (withLink s l fun k => { k with identOk := true })) ∧
    -- bulk synchronisation
    (∀ (b : BulkPlace) (data : List Byte), k.st = 2 → p.st ≠ 1 ∨ s.peerOk = false → exec (.aklosBulk l b data true) s = stays) ∧
    (∀ (b : BulkPlace) (data : List Byte), k.st = 2 → p.st = 1 → partner → k.identOk = true → s.peerOk = true →
      (∀ off, b = .shm off → s.selft.shmBorrow.active = false → s.shmBad = [] → exec (.aklosBulk l b data true) s =
        becomes { s with shm := memWriteN s.shm off.toNat (data.take 1024) }) ∧
      (∀ i : Fin 64, b = .object i.1 →
        let c := finOf 4 (i.1 / 16)
        let d := (Vec.at s.cl c).dl
        let d' := if 0 < i.1 % 16 then { d with maps := memWriteN d.maps (1024 * (i.1 % 16 - 1)) (data.take 1024) }
          else if data.length < 160 then d else { d with sets := Vector.ofFn fun r => BitVec.ofNat 64 (beAt data (8 * r.1) 8) }
        exec (.aklosBulk l b data true) s = becomes { s with
          pair := { p with bulk := Vec.put p.bulk i (data.take 1024) }
          cl := if s.inPair c then Vec.upd s.cl c (fun k => { k with dl := d' }) else s.cl }) ∧
      (∀ (c : Fin 4) (cyc : W64) (off : Nat), b = .checkpoint c cyc off →
        let q := (Vec.at s.cl c).pair
        let n := (Vec.at p.stateLen c).toNat * 1024
        let at_ := (Vec.at p.stateBase c).toNat + (if q.ckptValid = true ∧ q.ckptBuf = false then 3 else 2) * n + off
        let w := { s with shm := memWriteN s.shm at_ data }
        (s.inPair c = false ∨ n < off + data.length → exec (.aklosBulk l b data true) s = stays) ∧
        (s.inPair c = true → off + data.length ≤ n → s.selft.shmBorrow.active = false → s.shmBad = [] → exec (.aklosBulk l b data true) s =
          becomes (if off + data.length = n then withPc w c fun q => { q with
            ckptBuf := q.ckptValid && !q.ckptBuf, ckptValid := true, ckptCycle := cyc, copyBlocks := [], copying := false } else w)))) ∧
    (exec .bulkSyncDone s = if p.st = 1 ∧ s.peerOk = true then becomes { s with pair := { p with bulkDone := true } } else stays)

/-- A module counter counts once. -/
def Sys2Proof.Claim.modCounts (s : State) (n : Nat) : State := { s with modCtr := s.modCtr.add n 1 }

/-- What the quick check of R328 finds in the halves of a paired cluster: no uncorrectable error in the live state half nor in what
was given in the cycle that a REPORT differed in, and the digest that was reported, from the octets given and the field output
command applied last. -/
def Sys2Proof.Claim.halvesSound (s : State) (c : Fin 4) : Prop :=
  let q := (Vec.at s.cl c).pair
  let r := q.check.getD q.last
  let n := (Vec.at s.pair.stateLen c).toNat * 1024
  s.memBad .shm ((Vec.at s.pair.stateBase c).toNat + r.cycle.toNat % 2 * n) n = false ∧ (∀ a ∈ r.given, s.memBad (.spad c) a 1 = false) ∧
    digestFold 0 ((r.given.flatMap fun a => s.peek (.spad c) a 1) ++ [r.applied]) = r.digest

/-- A route switch that comes with a state copy is followed (R303): the active route, and the switch in progress. -/
def Sys2Proof.Claim.routeFollowed (d d' : Dl) (route : RouteCopy) : Prop :=
  d'.active = route.active ∧ (route.switch = none → d.switch = none → d'.switch = none) ∧
    ∀ w, route.switch = some w → ∃ x, d'.switch = some x ∧ x.route = w.route ∧ x.first = w.first ∧ x.cycle = w.cycle ∧ x.nodes = w.nodes ∧
      x.committed = w.committed ∧ x.maxTally = w.maxTally ∧ x.done = none

/-- The cycle of a pair (R303, R320–R328, R411). A relay that lands before the standby take serves its cycle, a later one is
counted; a first missing relay holds the last value, a second one parts the pair; COPY blocks fill the buffer that
is not committed, and a complete set commits it and brings the route state, an incomplete one is counted; a block with a bad CRC is
asked for once more; a REPORT is compared when both frames
were sent and neither held, and a difference raises PAIR_DIGEST and starts the quick check, whose four outcomes
follow the table of R328; a readback mismatch of a shared output is raised with the reports of its cycle; a presumed loss makes an active ORPHAN at once and a standby check the next cycle; a
withdrawal of the active leads to TAKEOVER. The engine's side of a pair and the checked mode (R40, R320, R323):
BUILD_DONE sends the coming cycle's relay half to the partner that is fed, STATE_DONE marks the live half complete,
both read as ignored outside a pair; a mismatch of a checked pair stops the personality with an ALARM. (How the sender learns of a
block that came with a bad CRC is the model's choice, log 24.) -/
def Obligations.PairedOperation : Prop :=
  (∀ (s : State) (l : Fin 2) (c : Fin 4),
    let k := Vec.at s.cl c
    let q := k.pair
    let p := s.pair
    let stays := Host.Outcome.next (φ := Fault) (ρ := Refusal) s.settle
    let becomes := fun (w : State) => Host.Outcome.next (φ := Fault) (ρ := Refusal) w.settle
    let up := (Vec.at p.links l).st = 2 ∧ (Vec.at p.links l).identOk = true ∧ (l = 0 ∨ p.ak1mode = 1)
    let paired := s.inPair c = true
    let n := k.cycle + 1
    let half := n.toNat % 2
    let plainShm := s.selft.shmBorrow.active = false ∧ s.shmBad = []
    let follower := paired ∧ q.own = false ∧ p.st ≠ 2 ∧ p.st ≠ 5
    let moves := fun (i : Instr) (st : Fin 6) => ∃ u : State, exec i s = .next u.settle ∧ u.pair.st = st
    -- the relay and the standby take
    (∀ data : List Byte, up → follower →
      let cyc := k.cycle + (BitVec.ofNat 32 (leAt data 0 4) - k.cycle.setWidth 32).signExtend 64
      ((∃ t, q.takenFor = some t ∧ cyc.toInt ≤ t.toInt) → exec (.aklosRelay l c data true) s = becomes (modCounts s 2)) ∧
      ((∀ t, q.takenFor = some t → t.toInt < cyc.toInt) → plainShm → exec (.aklosRelay l c data true) s = becomes (withPc
        { s with shm := memWriteN s.shm ((Vec.at p.relayBase c).toNat + cyc.toNat % 2 * (16 + (Vec.at p.buildLen c).toNat)) (data.take (16 + (Vec.at p.buildLen c).toNat)) }
        c fun q => { q with relay := Vec.updN q.relay (cyc.toNat % 2) fun _ => some cyc }))) ∧
    (∀ data : List Byte, up → ¬ follower → exec (.aklosRelay l c data true) s = stays) ∧
    (follower → k.st = .started →
      (Vec.atD q.relay half none = some n → exec (.standbyTake c) s =
        becomes (withPc s c fun q => { q with relayOk := true, relayHalf := decide (half = 1), takenFor := some n, missed := 0 })) ∧
      (Vec.atD q.relay half none ≠ some n → q.missed = 0 ∨ p.st ≠ 3 ∨ p.peerLost = true → exec (.standbyTake c) s =
        becomes (withPc s c fun q => { q with relayOk := false, takenFor := some n, missed := q.missed + 1 })) ∧
      (Vec.atD q.relay half none ≠ some n → 1 ≤ q.missed → p.st = 3 → p.peerLost = false → pairMoves (.standbyTake c) s 1 7 ∧
        (logRoom s → ∃ u : State, exec (.standbyTake c) s = .next u.settle ∧ logged u 0x0706 (s.objAt 1 c.1) 0))) ∧
    (¬ follower ∨ k.st ≠ .started → exec (.standbyTake c) s = stays) ∧
    -- the state copy
    (∀ (cycle : W64) (block : Nat) (data : List Byte) (route : RouteCopy) (me : Bool), up → paired → p.st = 3 ∨ p.st = 1 →
      let len := (Vec.at p.stateLen c).toNat
      let got := if q.copyCycle = cycle then q.copyBlocks else []
      let committed := q.ckptValid = true ∧ q.ckptCycle = cycle
      let spare := if q.ckptValid = true ∧ q.ckptBuf = false then 3 else 2
      let w := { s with shm := memWriteN s.shm ((Vec.at p.stateBase c).toNat + spare * (len * 1024) + 1024 * block) (data.take 1024) }
      let blocks := if block ∈ got then got else block :: got
      let commit := withPc w c fun q => { q with
        ckptBuf := decide (spare = 3), ckptValid := true, ckptCycle := cycle, copyCycle := cycle, copyBlocks := [], copying := false, copied := true }
      let i := Instr.aklosCopy l c cycle block data route true me
      (len ≤ block ∨ me = true ∨ committed → exec i s = becomes (withPc s c fun q => { q with
        copyCycle := cycle, copyBlocks := got, copying := decide (¬ committed) })) ∧
      (plainShm → ¬ committed → block < len → me = false →
        (blocks.length ≠ len → exec i s = becomes (withPc w c fun q => { q with copyCycle := cycle, copyBlocks := blocks, copying := true })) ∧
        (blocks.length = len → k.role ≠ some .controller → exec i s = becomes commit) ∧
        (blocks.length = len → k.role = some .controller → ∃ d : Dl, exec i s = becomes { commit with cl := Vec.upd commit.cl c fun k => { k with dl := d } } ∧
          d = { k.dl with active := d.active, switch := d.switch } ∧ routeFollowed k.dl d route))) ∧
    (∀ (cycle : W64) (block : Nat) (data : List Byte) (route : RouteCopy) (me : Bool), up → ¬ paired ∨ (p.st ≠ 3 ∧ p.st ≠ 1) →
      exec (.aklosCopy l c cycle block data route true me) s = stays) ∧
    (∀ (cycle : W64) (block : Nat) (data : List Byte) (route : RouteCopy) (me : Bool), (Vec.at p.links l).st = 2 →
      let i := Instr.aklosCopy l c cycle block data route false me
      (¬ up ∨ ¬ paired ∨ (p.st ≠ 3 ∧ p.st ≠ 1) → discards i s l) ∧
      (up → paired → p.st = 3 ∨ p.st = 1 → ∃ u : State, exec i s = .next u.settle ∧ u.shm = s.shm ∧
        Vec.atD (Vec.at u.pair.links l).ctr.live 0 0 = Vec.atD ((Vec.at p.links l).ctr.add 0 1).live 0 0 ∧
        (∀ j, (Vec.at p.links l).errs.length < 15 → s.pairLink = some j →
          ⟨0x21, withCrc ([4, BitVec.ofNat 8 c.1, BitVec.ofNat 8 block, 0] ++ beBytes 8 cycle.toNat)⟩ ∈ (Vec.at u.pair.links j).sent) ∧
        (Vec.at u.cl c).pair.copying = decide (¬ (q.ckptValid = true ∧ q.ckptCycle = cycle)))) ∧
    (exec (.copyBudgetEnd c) s = if s.inPair c = true ∧ q.copying = true
      then becomes (modCounts (withPc s c fun q => { q with copyBlocks := [], copying := false }) 1) else stays) ∧
    (∀ block : Nat, up →
      let i := Instr.aklosPairctl l (.copyBad c block) true
      (q.copySent = none ∨ ¬ paired ∨ s.feeds = false → exec i s = stays) ∧
      (∀ (old at_ : W64) (again : List Nat), q.copySent = some (old, at_, again) →
        let room := s.ns.toNat + 1700 ≤ at_.toNat + s.copyBudget
        let len := (Vec.at p.stateLen c).toNat * 1024
        (block ∈ again ∨ (Vec.at p.stateLen c).toNat ≤ block ∨ ¬ room → exec i s = stays) ∧
        (∀ j, s.pairLink = some j → paired → s.feeds = true → block ∉ again → block < (Vec.at p.stateLen c).toNat → room → plainShm → exec i s =
          becomes (sentOn (withPc s c fun q => { q with copySent := some (old, at_, block :: again) }) j 0x10
            ([BitVec.ofNat 8 c.1, 0] ++ beBytes 2 block ++ beBytes 4 0 ++ beBytes 8 old.toNat ++
              memReadN s.shm ((Vec.at p.stateBase c).toNat + old.toNat % 2 * len + 1024 * block) 1024))))) ∧
    -- reports
    (∀ r : Report, up → r.cluster = c → paired → q.reportSeen = false → p.st = 2 ∨ p.st = 3 → (∀ d, (Vec.at s.fio.do_ d).rbDue = none) →
      let w := withPc { s with pair := { p with peerHealth := r.health } } c fun q => { q with reportSeen := true }
      let compared := r.cycle = (k.cycle - 1).setWidth 16 ∧ q.lastFlags.getLsbD 0 = true ∧ q.lastFlags.getLsbD 1 = false ∧ r.flags.getLsbD 0 = true ∧ r.flags.getLsbD 1 = false
      (¬ compared → exec (.aklosReport l r true) s = becomes (modCounts w 4)) ∧
      (compared → r.digest = q.last.digest → exec (.aklosReport l r true) s = becomes w) ∧
      (compared → r.digest ≠ q.last.digest → logRoom s → reports (.aklosReport l r true) s
        (modCounts { (withPc w c fun q => { q with check := some q.last }) with
          pair := { w.pair with mismatch := p.mismatch + 1, quick := true, quickOwn := none, quickPeer := none } } 3) 0x0703 (s.objAt 1 c.1))) ∧
    (∀ (r : Report) (d : Fin 8) (ref : Bool), up → r.cluster = c → paired → q.reportSeen = false → p.st = 2 ∨ p.st = 3 →
      (∀ j, j ≠ d → (Vec.at s.fio.do_ j).rbDue = none) → (Vec.at s.fio.do_ d).rbDue = some ref →
      (Vec.at s.fio.do_ d).owner = some c ∨ (Vec.at s.fio.do_ d).owner = none →
      let x := Vec.at s.fio.do_ d
      let w := withPc { s with pair := { p with peerHealth := r.health } } c fun q => { q with reportSeen := true }
      let compared := r.cycle = (k.cycle - 1).setWidth 16 ∧ q.lastFlags.getLsbD 0 = true ∧ q.lastFlags.getLsbD 1 = false ∧ r.flags.getLsbD 0 = true ∧ r.flags.getLsbD 1 = false
      let code := if ref then 2 else 1
      (¬ compared → exec (.aklosReport l r true) s = becomes (modCounts (w.updDo d fun _ => { x with rbDue := none }) 4)) ∧
      (compared → r.digest = q.last.digest → x.faults.getLsbD code = false → logRoom s → reports (.aklosReport l r true) s
        (w.updDo d fun _ => withFault { x with rbDue := none, ctr := x.ctr.add (code + 2) 1 } code true) (0x0A00 + code) (s.objAt 6 d.1))) ∧
    (∀ r : Report, up → r.cluster = c → ¬ paired ∨ q.reportSeen = true ∨ (p.st ≠ 2 ∧ p.st ≠ 3) →
      exec (.aklosReport l r true) s = becomes { s with pair := { p with peerHealth := r.health } }) ∧
    ((∀ d, (Vec.at s.fio.do_ d).rbDue = none) → exec (.reportTimeout c) s = if s.inPair c = true ∧ k.st = .started ∧ q.reportSeen = false ∧ (p.st = 2 ∨ p.st = 3)
      then becomes (modCounts (withPc s c fun q => { q with reportSeen := true }) 4) else stays) ∧
    -- the quick check
    (p.quick = false → (∀ pass, exec (.quickCheckDone pass) s = stays) ∧ exec .quickCheckTimeout s = stays) ∧
    (p.quick = true → ∀ pass,
      let passes := pass = true ∧ ∀ x, s.inPair x = true → (Vec.at s.cl x).st = .started → halvesSound s x
      let i := Instr.quickCheckDone pass
      (p.quickPeer = none → ∃ ok : Bool, (ok = true ↔ passes) ∧
        let w := { s with pair := { p with quickOwn := some ok } }
        exec i s = becomes (match s.pairLink with
          | some j => sentOn w j 0x21 ([1, if ok then 1 else 0, 0, 0] ++ beBytes 8 0)
          | none => w)) ∧
      (p.quickPeer = some true →
        (p.st = 2 → (passes → pairMoves i s 5 6) ∧ (¬ passes → moves i 0)) ∧
        (p.st = 3 → (passes → pairMoves i s 1 6) ∧ (¬ passes → moves i 0))) ∧
      (p.quickPeer = some false →
        (p.st = 2 → (passes → pairMoves i s 5 4) ∧
          (¬ passes → ∃ u : State, exec i s = .next u.settle ∧ u.pair.st = 2 ∧ (logRoom s → logged u 0x0704 (s.objAt 0 0) 0))) ∧
        (p.st = 3 → (passes → pairMoves i s 4 4) ∧ (¬ passes → moves i 0)))) ∧
    (p.quick = true → p.quickOwn = some true → p.quickPeer = none → (p.st = 2 → pairMoves .quickCheckTimeout s 5 4) ∧ (p.st = 3 → pairMoves .quickCheckTimeout s 4 4)) ∧
    (p.quick = true → p.quickOwn = none → p.quickPeer = some true → p.st = 2 ∨ p.st = 3 → moves .quickCheckTimeout 0) ∧
    -- PAIRCTL and loss
    (up → (p.st = 3 → pairMoves (.aklosPairctl l .withdraw true) s 4 4) ∧ (p.st = 2 → pairMoves (.aklosPairctl l .withdraw true) s 5 4) ∧
      (p.st ≠ 2 → p.st ≠ 3 → exec (.aklosPairctl l .withdraw true) s = stays) ∧
      (∀ pass, p.st ≠ 2 → p.st ≠ 3 → exec (.aklosPairctl l (.quickResult pass) true) s = stays) ∧
      (∀ pass, p.st = 2 ∨ p.st = 3 → p.quickOwn = none → exec (.aklosPairctl l (.quickResult pass) true) s =
        becomes { s with pair := { p with quick := true, quickPeer := some pass } }) ∧
      (∀ pass mine, p.quickOwn = some mine →
        let i := Instr.aklosPairctl l (.quickResult pass) true
        (p.st = 2 → (mine = true → pairMoves i s 5 (if pass then 6 else 4)) ∧ (mine = false → pass = true → moves i 0) ∧
          (mine = false → pass = false → ∃ u : State, exec i s = .next u.settle ∧ u.pair.st = 2 ∧ (logRoom s → logged u 0x0704 (s.objAt 0 0) 0))) ∧
        (p.st = 3 → (mine = true → if pass then pairMoves i s 1 6 else pairMoves i s 4 4) ∧ (mine = false → moves i 0))) ∧
      (∀ cyc, (p.st = 2 ∨ p.st = 3) ∧ paired ∧ k.st = .started → exec (.aklosPairctl l (.roleChange c cyc) true) s = becomes (withPc s c fun q => { q with switchAt := some cyc })) ∧
      (∀ cyc, ¬ ((p.st = 2 ∨ p.st = 3) ∧ paired ∧ k.st = .started) → ∀ j, s.pairLink = some j → exec (.aklosPairctl l (.roleChange c cyc) true) s =
        becomes (sentOn s j 0x21 ([3, 0, 0, 0] ++ beBytes 8 0))) ∧
      (paired → q.switchAt ≠ none → ∃ u : State, exec (.aklosPairctl l .roleFailed true) s = .next u.settle ∧ u.pair.st = p.st ∧ u.pair.switchBad = true ∧
        ∀ x, s.inPair x = true → (Vec.at u.cl x).pair.switchAt = none) ∧
      ((∀ x, s.inPair x = true → (Vec.at s.cl x).pair.switchAt = none) → if p.st = 3 then pairMoves (.aklosPairctl l .roleFailed true) s 1 6
        else exec (.aklosPairctl l .roleFailed true) s = stays)) ∧
    ((p.st = 2 → p.peerLost = false → pairMoves .partnerPresumedLost s 5 3) ∧
      (p.st = 0 ∨ p.peerLost = true → exec .partnerPresumedLost s = stays) ∧
      (p.st = 3 → p.peerLost = false → ∃ u : State, exec .partnerPresumedLost s = .next u.settle ∧ u.pair = { p with peerLost := true } ∧
        (paired → k.st = .started → k.role = some .controller → (Vec.at u.cl c).pair.checkFrom = some (k.cycle + 1) ∧ (Vec.at u.cl c).pair.origSeen = [])) ∧
      (p.st = 1 ∨ p.st = 4 ∨ p.st = 5 → p.peerLost = false → exec .partnerPresumedLost s = becomes { s with pair := { p with peerLost := true } })) ∧
    (∀ x, q.checkFrom = some x → p.st = 3 → paired → x.toInt ≤ k.cycle.toInt →
      if k.cycle ∈ q.origSeen then pairMoves (.lossCheckInstant c) s 1 3 else pairMoves (.lossCheckInstant c) s 4 3) ∧
    (q.checkFrom = none ∨ p.st ≠ 3 ∨ ¬ paired ∨ (∃ x, q.checkFrom = some x ∧ k.cycle.toInt < x.toInt) → exec (.lossCheckInstant c) s = stays)) ∧
  (∀ (s : State) (e : Fin 16) (pair : Fin 2),
    let c := clOf e
    let k := Vec.at s.cl c
    (alive s e → s.inPair c = false → exec (.buildDone e) s = .next s.settle ∧ exec (.stateDone e) s = .next s.settle) ∧
    (alive s e → s.inPair c = true → exec (.stateDone e) s = .next (State.settle (withPc s c fun q => { q with stateDone := true }))) ∧
    (∀ l, alive s e → s.inPair c = true → s.feeds = true → s.partnerLink = some l → s.selft.shmBorrow.active = false → s.shmBad = [] →
      let len := 16 + (Vec.at s.pair.buildLen c).toNat
      let half := (k.cycle.toNat + 1) % 2
      exec (.buildDone e) s = .next (State.settle (sentOn s l 0x11 (memReadN s.shm ((Vec.at s.pair.relayBase c).toNat + half * len) len)))) ∧
    (alive s e → s.inPair c = true → s.feeds = false ∨ s.partnerLink = none → exec (.buildDone e) s = .next s.settle) ∧
    (∀ supplied, k.st ≠ .started ∨ k.checked = false → exec (.checkMismatch c pair supplied) s = .next s) ∧
    (∀ supplied, k.st = .started → k.checked = true → logRoom s → s.pair.st = 0 → ∃ u, exec (.checkMismatch c pair supplied) s = .next u ∧
      (∀ (p : Fin 12) (t : TxRun), (Vec.at s.port p).owner = some c → (Vec.at s.port p).st = 3 → (Vec.at s.port p).tx = some t →
        (Vec.at s.port p).retry = false → t.result = 0 →
        if supplied.getLsbD p.1 then (Vec.at u.port p).wire = some (t.whole .bad)
        else (Vec.at u.port p).wire = (Vec.at s.port p).wire ∧
          Vec.atD (Vec.at u.port p).ctr.live 22 0 = Vec.atD ((Vec.at s.port p).ctr.add 22 1).live 22 0) ∧
      (Vec.at u.cl c).st = .stopped ∧ u.pair.clOk.getLsbD c.1 = false ∧ logged u 0x0200 (s.objAt 1 c.1) (BitVec.ofNat 32 (4 * c.1 + 2 * pair.1)) ∧
      ∀ g, clOf g = c → (Vec.at u.eng g).run = false))

/-- A message between modules in the octets of the model (log 24): kind, the two positions, the request number, code, TAG, STATUS
(of a command: FLAGS), DETAIL, TARGET and payload. -/
def Sys2Proof.Claim.betweenModules (kind : Byte) (src dst : Fin 4) (num : BitVec 30) (code tag status : W16) (detail : W32) (target : W16)
    (payload : List Byte) : List Byte :=
  [kind, BitVec.ofNat 8 (src.1 * 16 + dst.1)] ++ beBytes 4 num.toNat ++ beBytes 2 code.toNat ++ beBytes 2 tag.toNat ++ beBytes 2 status.toNat ++
    beBytes 4 detail.toNat ++ beBytes 2 target.toNat ++ payload

/-- The link towards a member over at most two hops (R307, R340): the partner's own link, the cross link of AK1MODE 2, and for the
fourth member either of the two. -/
def Sys2Proof.Claim.routeTo (s : State) (pos : Fin 4) : Option (Fin 2) :=
  let isUp := fun (l : Fin 2) => decide ((Vec.at s.pair.links l).st = 2)
  let beside := if isUp 0 then some 0 else if s.pair.ak1mode = 1 ∧ isUp 1 = true then some 1 else none
  let cross := if s.pair.ak1mode = 2 ∧ isUp 1 = true then some 1 else none
  if pos.1 = s.pwr.mpos.1 ^^^ 1 then beside
  else if pos.1 = s.pwr.mpos.1 ^^^ 2 then cross
  else if s.pair.ak1mode = 2 then (match beside with
    | some l => some l
    | none => cross)
  else none

/-- The module with a message on its way to a member, where a path is up. -/
def Sys2Proof.Claim.towards (s : State) (pos : Fin 4) (data : List Byte) : State :=
  match routeTo s pos with
  | some l => sentOn s l 0x20 data
  | none => s

/-- Commands between the modules of a group (R109, R113–R115, R339, R340, R426). A command for this module waits on the
ninth channel if its sender is allowed, and is refused otherwise, as is a mirrored one of the partner joined to it; one for another
member goes on over at most two hops; an answer goes to
the channel whose command it answers, a job's number being kept for its JOB_DONE, which goes to that channel; one that answers no
waiting command came late and is discarded; no answer within the bound is PEER_REFUSED with DETAIL 3; a standby that does not answer a
mirrored command, or answers it otherwise, parts the pair, and the response says so in DETAIL bit 31. (The request number that joins
an answer to its command, and the layout of the messages, are the model's, log 24.) -/
def Obligations.GroupCommands : Prop :=
  ∀ (s : State) (l : Fin 2) (src pos : Fin 4) (num : BitVec 30) (cmd : W16) (m : Msg),
    let stays := Host.Outcome.next (φ := Fault) (ρ := Refusal) s.settle
    let becomes := fun (w : State) => Host.Outcome.next (φ := Fault) (ρ := Refusal) w.settle
    let own := s.pwr.mpos
    let target := finOf 4 (fld m.target 14 2)
    let up := (Vec.at s.pair.links l).st = 2
    let waits := leBytes 2 cmd.toNat ++ leBytes 2 m.tag.toNat ++ leBytes 2 m.payload.length ++ leBytes 2 m.flags.toNat ++ leBytes 4 (num.toNat * 4 + src.1) ++
      leBytes 2 m.target.toNat ++ [0, 0] ++ m.payload
    let joined := becomes { s with group := s.group ++ [waits] }
    let mirrored := target = src ∧ src.1 = own.1 ^^^ 1
    (up → target = own → (Vec.at s.pair.allow own).getLsbD src.1 = true → exec (.aklosCmd l src num cmd m true) s = joined) ∧
    (up → target = own → (Vec.at s.pair.allow own).getLsbD src.1 = false → exec (.aklosCmd l src num cmd m true) s =
      becomes (towards s src (betweenModules 1 own src num (cmd ||| 0x8000) m.tag 0x60 2 m.target []))) ∧
    (up → target ≠ own → mirrored → exec (.aklosCmd l src num cmd m true) s = joined) ∧
    (up → target ≠ own → ¬ mirrored → exec (.aklosCmd l src num cmd m true) s =
      becomes (towards s target (betweenModules 0 src target num cmd m.tag m.flags 0 m.target m.payload))) ∧
    (∀ (tag status : W16) (detail : W32) (tgt : W16) (payload : List Byte), up →
      let answers := fun (dst : Fin 4) (code : W16) => Instr.proxyResponse l pos dst num code tag status detail tgt payload true
      (∀ dst, dst ≠ own → exec (answers dst cmd) s = becomes (towards s dst
        (betweenModules (if cmd.toNat < 0xF000 then 1 else 2) pos dst num cmd tag status detail tgt payload))) ∧
      (0xF000 < cmd.toNat → leads (answers own cmd) s s) ∧
      (cmd.toNat < 0xF000 → (∀ p ∈ s.sup.proxies, finOf 4 (fld p.target 14 2) = pos → p.num ≠ num) →
        (∀ p ∈ s.sup.mirrors, p.num = num → pos.1 ≠ own.1 ^^^ 1) → exec (answers own cmd) s = stays) ∧
      (∀ (p : Proxy) (r : List Proxy) (n : Fin 8), s.sup.proxies = p :: r → p.chan.1 = n.1 → finOf 4 (fld p.target 14 2) = pos → p.num = num →
        cmd.toNat < 0xF000 →
        let remotes := if status = 1 then s.sup.remotes ++ [⟨pos, detail, p.num, p.chan, p.gen, p.tag, p.flags, p.target⟩] else s.sup.remotes
        exec (answers own cmd) s = becomes (State.send { s with sup := { s.sup with proxies := r, remotes := remotes } } n
          { code := p.cmd ||| 0x8000, tag := p.tag, status := status, detail := detail, target := p.target, payload := payload, held := false })) ∧
      -- the standby's answer to a mirrored command
      (∀ (x : Mirror) (r : List Mirror) (n : Fin 8), s.sup.proxies = [] → s.sup.mirrors = x :: r → x.num = num → x.chan.1 = n.1 → pos.1 = own.1 ^^^ 1 →
        cmd.toNat < 0xF000 →
        (status = x.response.status → exec (answers own cmd) s = becomes (State.send { s with sup := { s.sup with mirrors := r } } n x.response)) ∧
        (status ≠ x.response.status → s.pair.st = 2 → pairMoves (answers own cmd) s 5 6) ∧
        (status ≠ x.response.status → s.pair.st ≠ 2 → exec (answers own cmd) s = becomes (State.send { s with sup := { s.sup with mirrors := r } } n
          { x.response with detail := x.response.detail ||| 0x80000000 }))) ∧
      -- JOB_DONE of another member
      ((∀ r ∈ s.sup.remotes, r.pos = pos → r.req ≠ num ∧ r.num ≠ detail) → exec (answers own 0xF000) s = stays) ∧
      (∀ (r : Remote) (rest : List Remote) (n : Fin 8) (x : Session), s.sup.remotes = r :: rest → r.pos = pos → r.req = num →
        (∀ y ∈ rest, y.pos = pos → y.num ≠ r.num) → r.chan.1 = n.1 → r.flags.getLsbD 3 = false → (Vec.at s.mbx n).session = some x →
        x.gen = r.gen → exec (answers own 0xF000) s = becomes (State.send { s with sup := { s.sup with
            remotes := rest, lastEnd := some ⟨r.num, status, if detail = r.num then 0 else detail, false⟩ } } n
          { code := 0xF000, tag := r.tag, status := status, detail := detail, target := r.target, payload := payload, held := false }))) ∧
    ((∀ p ∈ s.sup.proxies, finOf 4 (fld p.target 14 2) ≠ pos) → exec (.proxyTimeout pos) s = stays) ∧
    (∀ (p : Proxy) (r : List Proxy) (n : Fin 8), s.sup.proxies = p :: r → p.chan.1 = n.1 → finOf 4 (fld p.target 14 2) = pos →
      exec (.proxyTimeout pos) s = becomes (State.send { s with sup := { s.sup with proxies := r } } n
        { code := p.cmd ||| 0x8000, tag := p.tag, status := 0x60, detail := 3, target := p.target, payload := [], held := false })) ∧
    (s.sup.mirrors = [] → exec .mirrorTimeout s = stays) ∧
    (∀ (x : Mirror) (r : List Mirror) (n : Fin 8), s.sup.mirrors = x :: r → x.chan.1 = n.1 → (s.pair.st = 2 → pairMoves .mirrorTimeout s 5 6) ∧
      (s.pair.st ≠ 2 → s.partnerLink = none → exec .mirrorTimeout s = becomes (State.send { s with sup := { s.sup with mirrors := r } } n
        { x.response with detail := x.response.detail ||| 0x80000000 })))

/-! ### CAN controllers -/

/-- A controller's frame completes (R355, R356, R359): `y` is what the controller becomes (`true`: the completion queue
had no room, which counts can_retq_ovf), the descriptor goes to its RETQ where RET asks for it and a personality still holds the
controller, with RESULT, ATTEMPTS and, for a frame with TS that has started, the stamp of its last start (one that never started
keeps its word 2: the model's choice, log 106); the owner's engines see EVP bit 14; where no port hangs on that queue, nothing else
changes, reports apart. -/
def Sys2Proof.Claim.canDone (i : Instr) (s : State) (n : Fin 4) (d : Desc) (result attempts : Nat) (stamp : W32)
    (y : Bool → Can → Prop) : Prop :=
  let back : Desc :=
    { d with
      w2 := if d.w3.getLsbD 29 = true ∧ (result = 0 ∨ 0 < attempts) then stamp else d.w2
      w3 := BitVec.ofNat 32 (result * 2 ^ 27 + min 255 attempts * 2 ^ 16 + fld d.w3 12 4 * 2 ^ 12) }
  let ret := d.ret && (Vec.at s.can n).owner.isSome
  let full := decide (ret = true ∧ (Vec.at s.hq d.retq).depth ≤ (Vec.at s.hq d.retq).items.length)
  let hq := if ret then (pushed s d.retq back).hq else s.hq
  ∃ (u : State) (z : Can), exec i s = .next u.settle ∧ y full z ∧
    (∀ g, Vec.at u.hq g = { Vec.at hq g with bad := (Vec.at u.hq g).bad }) ∧ (s.isFbq d.retq = false → u.hq = hq) ∧ u.can = Vec.put s.can n z ∧ u.shm = s.shm ∧
    (∀ c, (Vec.at s.can n).owner = some c → clusterEvent s u c 14) ∧
    (ret = false ∨ 96 ≤ d.retq.1 ∧ s.isFbq d.retq = false → reported { s with can := Vec.put s.can n z, hq := hq } u)

/-- A controller after the frame of buffer `b` completed with nothing but its result counted (`k`: R367's counter). -/
def Sys2Proof.Claim.bufferFree (x : Can) (b : Fin 8) (k : Nat) (full : Bool) : Can :=
  let c := if k = 0 then x.ctr else x.ctr.add k 1
  { x with
    tb := Vec.put x.tb b none
    onbus := if x.onbus = some b then none else x.onbus
    abort := x.abort &&& ~~~(BitVec.ofNat 8 (2 ^ b.1))
    ctr := if full then c.add 11 1 else c }

/-- The controller enters a state (R343, R366): one change more, EVP bit 13 in the owner's engines, the controller being
`y` besides, and nothing else but reports. -/
def Sys2Proof.Claim.canEnters (i : Instr) (s w : State) (n : Fin 4) (st : Fin 6) (y : Can) (warned : Bool) (u : State) : Prop :=
  exec i s = .next u.settle ∧ (∀ c, (Vec.at s.can n).owner = some c → clusterEvent s u c 13) ∧
    reported { w with can := Vec.put w.can n { y with st := st, chg := y.chg + 1, passiveWarn := warned } } u

/-- The descriptor of a received frame (R357, R358): word 0 as the free descriptor had it, the identifier and formats, the stamp, and
BRS, ESI, the filter that accepted it or NOFILT, the DLC and the queue. -/
def Sys2Proof.Claim.canFiled (d : Desc) (f : CanFrame) (by_ : Option (Fin 32)) (act : Nat) : Desc :=
  { d with
    w1 := BitVec.ofNat 32 ((if f.ide then 2 ^ 31 else 0) + (if f.fdf then 2 ^ 30 else 0) + (if f.rtr then 2 ^ 29 else 0) +
      (if f.ide then f.id.toNat else f.id.toNat % 2048))
    w2 := f.stamp
    w3 := BitVec.ofNat 32 ((if f.brs then 2 ^ 29 else 0) + (if f.esi then 2 ^ 28 else 0) +
      (match by_ with | some i => i.1 * 2 ^ 16 | none => 31 * 2 ^ 16 + 2 ^ 11) + f.dlc.toNat * 2 ^ 12 + (act - 1) * 2 ^ 10) }

/-- A filter admits a frame by TYPE, ID and MASK (R349). -/
def Sys2Proof.Claim.admits (k : Filter) (ide : Bool) (id : BitVec 29) : Prop :=
  k.valid = true ∧ (k.typ = 2 ∨ k.typ = if ide then 1 else 0) ∧
    ∀ j, j < (if ide then 29 else 11) → k.mask.getLsbD j = true → id.getLsbD j = k.id.getLsbD j

/-- What decides a frame that saw `n` changes of the filters since its start (R344, R349): the first filter of the set then in
force that admits it and its kind, and that filter's action; or NOFILT_RXQ. -/
def Sys2Proof.Claim.decides (x : Can) (n : Nat) (f : CanFrame) (by_ : Option (Fin 32)) (act : Nat) : Prop :=
  let kind := if f.fdf then 2 else if f.rtr then 1 else 0
  let inForce := if n = 0 then (x.filters, Vec.at x.sets 16) else x.past.getD (n - 1) (x.filters, Vec.at x.sets 16)
  let fits := fun (i : Fin 32) => admits (Vec.at inForce.1 i) f.ide f.id ∧ (Vec.at inForce.1 i).frames.getLsbD kind = true
  match by_ with
    | some i => fits i ∧ (∀ j, j < i → ¬ fits j) ∧ act = (Vec.at inForce.1 i).action.toNat
    | none => (∀ i, ¬ fits i) ∧ act = inForce.2.toNat

/-- Rank of a transmit descriptor in arbitration (R353): base identifier, SRR or RTR, IDE, extended identifier, RTR; the
lower goes first. -/
def Sys2Proof.Claim.rank (d : Desc) : Nat :=
  let r := if d.w1.getLsbD 29 then 1 else 0
  if d.w1.getLsbD 31 then (((fld d.w1 18 11 * 2 + 1) * 2 + 1) * 2 ^ 18 + fld d.w1 0 18) * 2 + r
  else ((fld d.w1 0 11 * 2 + r) * 2) * 2 ^ 19

/-- Reception by a CAN controller (R344, R349–R351, R359, R361). Outside ACTIVE and PASSIVE, in MODE 3 and in MODE 2's rest after
an error nothing is received; a good frame is acknowledged unless in listen-only, and brings REC down by one, or to 120 from
above 127; the first filter, of the set in force at the frame's start, that admits the frame and its kind decides,
NOFILT_RXQ if none does; a frame turned away, one without a buffer and one without room are counted, the last giving
its buffer back; an accepted one lies in the buffer, at most 64 octets, its descriptor in the receive queue, and EVP
bit 15 follows. A frame that takes a buffer from a free-buffer queue in the error of R196 has no stated result. -/
def Obligations.CanReception : Prop :=
  ∀ (s : State) (n : Fin 4) (f : CanFrame) (c : Fin 4),
    let x := Vec.at s.can n
    let recN := if Vec.at x.sets 1 = 2 then x.rxErr else min 255 (if 127 < x.rxErr then 120 else x.rxErr - 1)
    let hears := x.owner = some c ∧ (x.st = 3 ∨ x.st = 4) ∧ Vec.at x.sets 1 ≠ 3 ∧ x.resting = false
    let counted := fun (u : State) (k : Nat) => Vec.atD (Vec.at u.can n).ctr.live k 0 = Vec.atD (x.ctr.add k 1).live k 0
    (soundQueues s → x.owner = none ∨ (x.st ≠ 3 ∧ x.st ≠ 4) ∨ Vec.at x.sets 1 = 3 ∨ x.resting = true → exec (.canFrameValid n f) s = .next s.settle) ∧
    (soundQueues s → hears → ∃ u : State, exec (.canFrameValid n f) s = .next u.settle ∧ (Vec.at u.can n).rxErr = recN ∧ (Vec.at u.can n).tec = x.tec ∧
      (Vec.at u.can n).acked = decide (Vec.at x.sets 1 ≠ 1) ∧ (Vec.at u.can n).past = [] ∧ (Vec.at u.can n).tb = x.tb ∧ (Vec.at u.can n).onbus = x.onbus ∧ ∀ m, m ≠ n → Vec.at u.can m = Vec.at s.can m) ∧
    (∀ (act : Nat) (by_ : Option (Fin 32)), hears → decides x f.changes f by_ act → act ≤ 2 →
      let h := finOf 256 (144 + 4 * n.1 + (act - 1))
      (∀ b, act ≠ 0 → (Vec.at s.hq h).fbq = some b → b ≠ h → (Vec.at s.hq b).bad = true → (∀ g, g ≠ b → (Vec.at s.hq g).bad = false) →
        (Vec.at s.hq b).items ≠ [] → (Vec.at s.hq h).items.length < (Vec.at s.hq h).depth → s.pair.st = 0 →
        exec (.canFrameValid n f) s = .fault (.firmwareError (s.objAt 7 b.1))) ∧
      (soundQueues s → act = 0 → ∃ u : State, exec (.canFrameValid n f) s = .next u.settle ∧ counted u 2 ∧ u.hq = s.hq ∧ u.shm = s.shm ∧
        ∀ a, (Vec.at u.cl a).spad = (Vec.at s.cl a).spad) ∧
      (soundQueues s → act ≠ 0 → (Vec.at s.hq h).fbq = none → ∃ u : State, exec (.canFrameValid n f) s = .next u.settle ∧ counted u 3 ∧ u.hq = s.hq) ∧
      (∀ b, soundQueues s → act ≠ 0 → (Vec.at s.hq h).fbq = some b → b ≠ h →
        ((Vec.at s.hq b).items = [] → ∃ u : State, exec (.canFrameValid n f) s = .next u.settle ∧ counted u 3 ∧ u.hq = s.hq) ∧
        (∀ (d : Desc) (r : List Desc), (Vec.at s.hq b).items = d :: r →
          ((Vec.at s.hq h).depth ≤ (Vec.at s.hq h).items.length → r.length < (Vec.at s.hq b).depth →
            ∃ u : State, exec (.canFrameValid n f) s = .next u.settle ∧ counted u 4 ∧ (Vec.at u.hq b).items = r ++ [d] ∧
              (Vec.at u.hq h).items = (Vec.at s.hq h).items) ∧
          ((Vec.at s.hq h).items.length < (Vec.at s.hq h).depth → ∃ u : State, exec (.canFrameValid n f) s = .next u.settle ∧
            clusterEvent s u c 15 ∧ counted u 0 ∧ (f.fdf = true → counted u 1) ∧ (Vec.at u.hq b).items = r ∧
            (∀ g, g ≠ h → g ≠ b → Vec.at u.hq g = Vec.at s.hq g) ∧
            (Vec.at u.hq h).items = (Vec.at s.hq h).items ++ [canFiled d f by_ act] ∧
            (0x10000000 ≤ d.w0.toNat → d.w0.toNat + 64 ≤ 0x10080000 → (Vec.at s.cl c).borrow.active = false → (Vec.at s.cl c).badWords = [] →
              (Vec.at u.cl c).spad = memWriteN (Vec.at s.cl c).spad (d.w0.toNat - 0x10000000) (f.data.take 64) ∧ u.shm = s.shm ∧
              ∀ a, a ≠ c → (Vec.at u.cl a).spad = (Vec.at s.cl a).spad)))))

/-- Transmission by a CAN controller, its errors and its recovery (R343, R352–R356, R361–R365). A free buffer takes the
head of its queue; a start point offers the loaded buffer of best rank whose launch time has come; a lost
arbitration or an error leaves it waiting, or completes it when it is SINGLE or aborted; a sent frame completes SENT
and brings TEC down; a late one completes LATE; errors change TEC and REC, enter PASSIVE above 127 and BUS_OFF above
255; 128 recessive sequences end BUS_OFF; a protocol exception leads to INTEGRATING, which 11 recessive bits end, as they end
MODE 2's rest after an error; in MODE 3 a sent frame comes back to the controller itself; a CAN FD frame pushed under FD = 1 that
loads or starts under FD = 0 is an error of engine firmware (R360).
(TEC and REC follow ISO 11898-1 as the model presumes it.) -/
def Obligations.CanTransmission : Prop :=
  ∀ (s : State) (n : Fin 4) (b : Fin 8),
    let x := Vec.at s.can n
    let stays := Host.Outcome.next (φ := Fault) (ρ := Refusal) s.settle
    let becomes := fun (y : Can) => Host.Outcome.next (φ := Fault) (ρ := Refusal) (State.settle { s with can := Vec.put s.can n y })
    let taking := x.st = 3 ∨ x.st = 4
    let sending := Vec.at x.sets 1 ≠ 1 ∧ Vec.at x.sets 1 ≠ 2
    let ready := fun (t : TxBuf) => t.desc.lt = false ∨ (s.tim.eng - t.desc.w2).msb = false
    let h := finOf 256 (144 + 4 * n.1 + (if b.1 < 4 then 2 else 3))
    -- loading
    (x.owner = none ∨ (Vec.at s.hq h).items = [] ∨ x.st = 0 ∨ ¬ sending ∨ Vec.at x.tb b ≠ none →
      ∀ e, exec (.txBufferLoad n b e) s = stays) ∧
    (∀ (c : Fin 4) (d : Desc) (r : List Desc), x.owner = some c → (Vec.at s.hq h).items = d :: r → x.st ≠ 0 → sending → Vec.at x.tb b = none →
      let len := if d.w1.getLsbD 29 then 0 else if fld d.w3 12 4 ≤ 8 then fld d.w3 12 4
        else if d.w1.getLsbD 30 then [12, 16, 20, 24, 32, 48, 64].getD (fld d.w3 12 4 - 9) 64 else 8
      0x10000000 ≤ d.w0.toNat → d.w0.toNat + 64 ≤ 0x10080000 → (Vec.at s.cl c).borrow.active = false → (Vec.at s.cl c).badWords = [] →
      (Vec.at x.sets 2 ≠ 1 → d.w1.getLsbD 30 = true → exec (.txBufferLoad n b false) s = .fault (.firmwareError (s.objAt 3 n.1))) ∧
      (s.isFbq h = false → Vec.at x.sets 2 = 1 ∨ d.w1.getLsbD 30 = false → exec (.txBufferLoad n b false) s = .next (State.settle { s with
        hq := (popped s h).hq
        can := Vec.put s.can n { x with
          order := x.order + 1
          tb := Vec.put x.tb b (some ⟨d, (List.range len).map fun i => memRead (Vec.at s.cl c).spad (d.w0.toNat - 0x10000000 + i), 0, x.order, 0, 0⟩) } })) ∧
      (∃ u : State, exec (.txBufferLoad n b true) s = .next u.settle ∧ Vec.at (Vec.at u.can n).tb b = none ∧
        clusterEvent s u c 14 ∧ (d.ret = false → (Vec.at u.hq h).items = r) ∧
        (d.ret = true → d.retq ≠ h → (Vec.at s.hq d.retq).items.length < (Vec.at s.hq d.retq).depth →
          (Vec.at u.hq h).items = r ∧ (Vec.at u.hq d.retq).items = (Vec.at s.hq d.retq).items ++ [{ d with
            w3 := BitVec.ofNat 32 (4 * 2 ^ 27 + fld d.w3 12 4 * 2 ^ 12) }]))) ∧
    -- a start point
    (x.owner = none ∨ ¬ taking ∨ ¬ sending ∨ x.resting = true ∨ x.onbus ≠ none → exec (.canStartPoint n) s = stays) ∧
    (∀ c, x.owner = some c → (Vec.at s.cl c).id = 0x0030 → s.inPair c = true → (Vec.at s.cl c).pair.own = false ∨ (Vec.at s.cl c).pair.fallBack ≠ 0 → exec (.canStartPoint n) s = stays) ∧
    ((∀ a t, Vec.at x.tb a = some t → ¬ ready t) → exec (.canStartPoint n) s = stays) ∧
    (∀ (c : Fin 4) (t : TxBuf), x.owner = some c → ¬ ((Vec.at s.cl c).id = 0x0030 ∧ s.inPair c = true ∧ ((Vec.at s.cl c).pair.own = false ∨ (Vec.at s.cl c).pair.fallBack ≠ 0)) → taking → sending → x.resting = false → x.onbus = none → Vec.at x.tb b = some t → ready t →
      (∀ a v, a ≠ b → Vec.at x.tb a = some v → ready v → rank t.desc < rank v.desc ∨ rank t.desc = rank v.desc ∧ t.order < v.order) →
      (Vec.at x.sets 2 = 1 ∨ t.desc.w1.getLsbD 30 = false → exec (.canStartPoint n) s = becomes { x with
        onbus := some b
        tb := Vec.put x.tb b (some { t with attempts := t.attempts + 1, stamp := s.tim.eng, past := x.past.length })
        ctr := if t.attempts = 0 then x.ctr else x.ctr.add 7 1 }) ∧
      (Vec.at x.sets 2 ≠ 1 → t.desc.w1.getLsbD 30 = true → exec (.canStartPoint n) s = .fault (.firmwareError (s.objAt 3 n.1)))) ∧
    -- the frame on the bus
    (x.onbus = none → exec (.canArbitrationLost n) s = stays ∧ (soundQueues s → ∀ st m, exec (.canFrameComplete n st m) s = stays)) ∧
    (∀ t, x.onbus = some b → Vec.at x.tb b = some t →
      (x.abort.getLsbD b.1 = true → canDone (.canArbitrationLost n) s n t.desc 1 t.attempts t.stamp
        fun f z => z = bufferFree { x with ctr := x.ctr.add 6 1 } b 9 f) ∧
      (x.abort.getLsbD b.1 = false → t.desc.w3.getLsbD 28 = true ∨ x.retry = false → canDone (.canArbitrationLost n) s n t.desc 4 t.attempts t.stamp
        fun f z => z = bufferFree { x with ctr := x.ctr.add 6 1 } b 0 f) ∧
      (x.abort.getLsbD b.1 = false → t.desc.w3.getLsbD 28 = false → x.retry = true →
        exec (.canArbitrationLost n) s = becomes { x with onbus := none, ctr := x.ctr.add 6 1 }) ∧
      (∀ (c : Fin 4) (stamp : W32) (m : Option (BitVec 7)) (by_ : Option (Fin 32)) (act : Nat), Vec.at x.sets 1 = 3 → soundQueues s →
        x.owner = some c → taking →
        let f : CanFrame :=
          { ide := t.desc.w1.getLsbD 31, fdf := t.desc.w1.getLsbD 30, rtr := t.desc.w1.getLsbD 29, brs := t.desc.w3.getLsbD 30
            esi := t.desc.w1.getLsbD 30 && decide (x.st = 4), id := BitVec.ofNat 29 (fld t.desc.w1 0 29), dlc := BitVec.ofNat 4 (fld t.desc.w3 12 4)
            data := if t.desc.w1.getLsbD 29 then [] else t.data, stamp := stamp, changes := x.past.length - t.past }
        decides x f.changes f by_ act →
        let h := finOf 256 (144 + 4 * n.1 + (act - 1))
        let counted := fun (u : State) (k : Nat) => Vec.atD (Vec.at u.can n).ctr.live k 0 = Vec.atD (x.ctr.add k 1).live k 0
        ∃ u : State, exec (.canFrameComplete n stamp m) s = .next u.settle ∧
          (Vec.at u.can n).onbus = none ∧ Vec.at (Vec.at u.can n).tb b = none ∧ (Vec.at u.can n).tec = x.tec - 1 ∧ counted u 5 ∧
          (act = 0 → counted u 2) ∧
          (∀ (fb : Fin 256) (d : Desc) (r : List Desc), act = 1 ∨ act = 2 → (Vec.at s.hq h).fbq = some fb → fb ≠ h → t.desc.ret = false →
            (Vec.at s.hq fb).items = d :: r → (Vec.at s.hq h).items.length < (Vec.at s.hq h).depth →
            counted u 0 ∧ (Vec.at u.hq fb).items = r ∧ (Vec.at u.hq h).items = (Vec.at s.hq h).items ++ [canFiled d f by_ act] ∧
            clusterEvent s u c 15)) ∧
      (∀ (stamp : W32) (m : Option (BitVec 7)), Vec.at x.sets 1 ≠ 3 → canDone (.canFrameComplete n stamp m) s n t.desc 0 t.attempts stamp fun f z =>
        z.tb = Vec.put x.tb b none ∧ z.onbus = none ∧ z.abort.getLsbD b.1 = false ∧ z.tec = x.tec - 1 ∧ z.rxErr = min 255 x.rxErr ∧
        z.st = (if x.st = 4 ∧ x.tec ≤ 128 ∧ x.rxErr ≤ 127 then 3 else if x.st = 3 ∧ (128 < x.tec ∨ 127 < x.rxErr) then 4 else x.st) ∧
        Vec.atD z.ctr.live 5 0 = Vec.atD (x.ctr.add 5 1).live 5 0 ∧ (f = true → Vec.atD z.ctr.live 11 0 = Vec.atD (x.ctr.add 11 1).live 11 0) ∧
        (t.desc.w1.getLsbD 30 = false ∨ t.desc.w3.getLsbD 30 = false ∨ Vec.at x.sets 12 = 0 → z.tdcValid = x.tdcValid ∧ z.tdcv = x.tdcv) ∧
        (t.desc.w1.getLsbD 30 = true → t.desc.w3.getLsbD 30 = true → Vec.at x.sets 12 = 1 → Vec.at x.sets 13 ≠ 0 → (Vec.at x.sets 13).toNat < 128 →
          (Vec.at x.sets 14).toNat ≤ (m.getD 127).toNat → z.tdcValid = true ∧ z.tdcv = m.getD 127 ∧ z.tdco.toNat = (Vec.at x.sets 13).toNat ∧
          z.ssp.toNat = (m.getD 127).toNat + (Vec.at x.sets 13).toNat ∧
          (m = none → Vec.atD z.ctr.live 18 0 = Vec.atD (x.ctr.add 18 1).live 18 0)))) ∧
    -- launch times and aborts
    (∀ t, Vec.at x.tb b = some t →
      (t.desc.lt = true → Vec.at x.sets 15 ≠ 0 → t.attempts = 0 → x.onbus ≠ some b →
        1000 * ((Vec.at x.sets 15).toNat : Int) ≤ timeDiff s.tim.eng t.desc.w2 →
        canDone (.canLate n b) s n t.desc 3 0 0 fun f z => z = bufferFree x b 8 f) ∧
      (t.desc.lt = false ∨ Vec.at x.sets 15 = 0 ∨ t.attempts ≠ 0 ∨ x.onbus = some b ∨
        timeDiff s.tim.eng t.desc.w2 < 1000 * ((Vec.at x.sets 15).toNat : Int) → exec (.canLate n b) s = stays) ∧
      (∀ e, alive s e → x.owner = some (clOf e) →
        (x.onbus ≠ some b → canDone (.ctxbAbort e n (BitVec.ofNat 8 (2 ^ b.1))) s n t.desc 1 t.attempts t.stamp fun f z => z = bufferFree x b 9 f) ∧
        (x.onbus = some b → exec (.ctxbAbort e n (BitVec.ofNat 8 (2 ^ b.1))) s = becomes { x with abort := x.abort ||| BitVec.ofNat 8 (2 ^ b.1) }))) ∧
    (Vec.at x.tb b = none → exec (.canLate n b) s = stays ∧ ∀ e, alive s e → x.owner = some (clOf e) →
      exec (.ctxbAbort e n (BitVec.ofNat 8 (2 ^ b.1))) s = stays) ∧
    -- errors
    let notes := fun (e : CanErr) => (taking ∨ x.onbus ≠ none) ∧ (Vec.at x.sets 1 ≠ 3 ∨ e.transmitter = true) ∧ x.resting = false
    (∀ e : CanErr, ¬ notes e → exec (.canError n e) s = stays) ∧
    (∀ e : CanErr, notes e → ∃ u : State, exec (.canError n e) s = .next u.settle ∧ (Vec.at u.can n).count = x.count + 1 ∧
      (Vec.at u.can n).last = (match e.kind with | .bit => 1 | .stuff => 2 | .form => 3 | .crc => 4 | .ack => 5) ∧
      (Vec.at u.can n).lastData = e.dataPhase ∧ (Vec.at u.can n).lastTx = e.transmitter ∧
      (let k := 12 + (match e.kind with | .bit => 0 | .stuff => 1 | .form => 2 | .crc => 3 | .ack => 4)
       Vec.atD (Vec.at u.can n).ctr.live k 0 = Vec.atD (x.ctr.add k 1).live k 0) ∧
      (taking → Vec.at x.sets 1 ≠ 2 → (Vec.at u.can n).tec = (if e.transmitter = true ∧ e.exempt = false then x.tec + 8 else x.tec) ∧
        (Vec.at u.can n).rxErr = min 255 (if e.transmitter then x.rxErr else if e.flagError then x.rxErr + 8 else x.rxErr + 1)) ∧
      (Vec.at x.sets 1 = 2 → (Vec.at u.can n).resting = true ∧ (Vec.at u.can n).tec = x.tec ∧ (Vec.at u.can n).rxErr = x.rxErr ∧ (Vec.at u.can n).st = x.st)) ∧
    (∀ e : CanErr, notes e → e.transmitter = false → Vec.at x.sets 1 ≠ 2 → logRoom s → x.st = 3 → x.tec ≤ 255 →
      127 < (if e.flagError then x.rxErr + 8 else x.rxErr + 1) → ∃ u : State, exec (.canError n e) s = .next u.settle ∧
        (Vec.at u.can n).st = 4 ∧ (∀ c, x.owner = some c → clusterEvent s u c 13) ∧ logged u 0x0800 (s.objAt 3 n.1) 0) ∧
    (∀ (e : CanErr) (t : TxBuf), notes e → e.transmitter = true → e.exempt = false → e.kind ≠ .bit ∨ e.afterArbitration = false → Vec.at x.sets 1 ≠ 2 → taking →
      x.onbus = some b → Vec.at x.tb b = some t → t.desc.w3.getLsbD 28 = false → x.abort.getLsbD b.1 = false →
      (x.tec + 8 ≤ 255 → x.retry = true → ∃ u : State, exec (.canError n e) s = .next u.settle ∧ (Vec.at u.can n).onbus = none ∧
        (Vec.at u.can n).tb = x.tb ∧ u.hq = s.hq) ∧
      (255 < x.tec + 8 → logRoom s → ∃ u : State, exec (.canError n e) s = .next u.settle ∧ (Vec.at u.can n).st = 5 ∧ (Vec.at u.can n).onbus = none ∧
        (Vec.at u.can n).tb = x.tb ∧ (Vec.at u.can n).recov = 0 ∧ u.hq = s.hq ∧ logged u 0x0801 (s.objAt 3 n.1) 0 ∧
        Vec.atD (Vec.at u.can n).ctr.live 20 0 = Vec.atD (x.ctr.add 20 1).live 20 0 ∧ ∀ c, x.owner = some c → clusterEvent s u c 13)) ∧
    (∀ (e : CanErr) (t : TxBuf), notes e → e.transmitter = true → Vec.at x.sets 1 ≠ 2 → x.onbus = some b → Vec.at x.tb b = some t →
      t.desc.w3.getLsbD 28 = true ∨ x.abort.getLsbD b.1 = true → ∃ u : State, exec (.canError n e) s = .next u.settle ∧
        (Vec.at u.can n).onbus = none ∧ Vec.at (Vec.at u.can n).tb b = none ∧ (t.desc.ret = false → u.hq = s.hq) ∧
        (∀ c, x.owner = some c → t.desc.ret = true → (Vec.at s.hq t.desc.retq).items.length < (Vec.at s.hq t.desc.retq).depth →
          (Vec.at u.hq t.desc.retq).items = (Vec.at s.hq t.desc.retq).items ++ [{ t.desc with
            w2 := if t.desc.w3.getLsbD 29 = true ∧ 0 < t.attempts then t.stamp else t.desc.w2
            w3 := BitVec.ofNat 32 ((if x.abort.getLsbD b.1 then 1 else 4) * 2 ^ 27 + min 255 t.attempts * 2 ^ 16 + fld t.desc.w3 12 4 * 2 ^ 12) }])) ∧
    (∀ (e : CanErr) (t : TxBuf) (i : Fin 32), notes e → e.kind = .bit → e.transmitter = true → e.afterArbitration = true → logRoom s →
      x.onbus = some b → Vec.at x.tb b = some t → x.clashSeen = false →
      let hit := fun (j : Fin 32) => admits (Vec.at x.filters j) (t.desc.w1.getLsbD 31) (BitVec.ofNat 29 (fld t.desc.w1 0 29))
      ∃ u : State, exec (.canError n e) s = .next u.settle ∧ logged u 0x0803 (s.objAt 3 n.1) 0 ∧ (Vec.at u.can n).clashSeen = true ∧
        (hit i → (∀ j, j < i → ¬ hit j) → Vec.atD (Vec.at u.can n).ctr.live (21 + i.1) 0 = Vec.atD (x.ctr.add (21 + i.1) 1).live (21 + i.1) 0) ∧
        ((∀ j, ¬ hit j) → Vec.atD (Vec.at u.can n).ctr.live 53 0 = Vec.atD (x.ctr.add 53 1).live 53 0)) ∧
    -- states
    (x.st ≠ 5 → exec (.canRecovered n) s = stays) ∧
    (x.st = 5 → logRoom s → ∃ u : State, canEnters (.canRecovered n) s s n 3 { x with tec := 0, rxErr := 0, recov := 128 } false u ∧
      logged u 0x0802 (s.objAt 3 n.1) 0) ∧
    (x.st ≠ 2 → x.resting = false → exec (.integrationDone n) s = stays) ∧
    (x.st ≠ 2 → x.resting = true → exec (.integrationDone n) s = becomes { x with resting := false }) ∧
    (x.st = 2 → x.tec ≤ 127 → x.rxErr ≤ 127 → ∃ u : State, canEnters (.integrationDone n) s s n 3 x false u) ∧
    (x.st = 2 → 127 < x.tec ∨ 127 < x.rxErr → logRoom s → ∃ u : State,
      canEnters (.integrationDone n) s s n 4 { x with ctr := x.ctr.add 19 1 } true u ∧ logged u 0x0800 (s.objAt 3 n.1) 0) ∧
    (∀ tx, ¬ taking ∨ x.resting = true → exec (.protocolException n tx) s = stays) ∧
    (∀ tx, taking → x.resting = false → Vec.at x.sets 3 = 1 → tx = false ∨ x.onbus = none → ∃ u : State, canEnters (.protocolException n tx) s s n 2
      { x with ctr := x.ctr.add 17 1, last := 6, lastData := false, lastTx := tx, count := x.count + 1 } x.passiveWarn u) ∧
    (∀ t, taking → x.resting = false → Vec.at x.sets 3 = 1 → x.onbus = some b → Vec.at x.tb b = some t → t.desc.w3.getLsbD 28 = false →
      x.retry = true → x.abort.getLsbD b.1 = false → ∃ u : State, canEnters (.protocolException n true) s s n 2
        { x with ctr := x.ctr.add 17 1, last := 6, lastData := false, lastTx := true, count := x.count + 1, onbus := none } x.passiveWarn u) ∧
    (∀ tx, taking → x.resting = false → Vec.at x.sets 3 ≠ 1 →
      exec (.protocolException n tx) s = exec (.canError n ⟨.form, false, tx, true, false, false, none⟩) s)

/-! ### PIO engines -/

/-- The engine, OP, operand bits and ticks of a PIO instruction row (R375). -/
def Sys2Proof.Claim.pioRow : Instr → Option (Fin 8 × Nat × BitVec 28 × List PinTick)
  | .pioNop k o t => some (k, 0, o, t)
  | .xfer k o t => some (k, 1, o, t)
  | .pioLoad k o t => some (k, 2, o, t)
  | .pioStore k o t => some (k, 3, o, t)
  | .waite k o t => some (k, 4, o, t)
  | .waitt k o t => some (k, 5, o, t)
  | .pioBr k o t => some (k, 6, o, t)
  | .pins k o t => some (k, 7, o, t)
  | .ldc k o t => some (k, 8, o, t)
  | .sig k o t => some (k, 9, o, t)
  | .srx k o t => some (k, 10, o, t)
  | _ => none

/-- An invalid instruction word, by OP and operand bits (R377). -/
def Sys2Proof.Claim.invalidPio (op : Nat) (o : BitVec 28) : Prop :=
  match op with
  | 0 => o ≠ 0
  | 1 => fld o 0 12 ≠ 0 ∨ o.getLsbD 21 = true ∧ fld o 17 4 + 1 ≤ fld o 13 4
  | 2 | 3 | 5 => fld o 0 27 ≠ 0
  | 4 => fld o 0 20 ≠ 0 ∨ fld o 26 2 = 3
  | 6 => fld o 6 13 ≠ 0 ∨ 11 ≤ fld o 24 4
  | 7 => fld o 0 10 ≠ 0 ∨ fld o 26 2 = 3
  | 8 => fld o 16 9 ≠ 0 ∨ fld o 25 3 = 7 ∨ fld o 25 3 = 4 ∧ (fld o 0 16 = 0 ∨ 32 < fld o 0 16)
  | 9 => fld o 3 25 ≠ 0
  | 10 => fld o 0 26 ≠ 0
  | _ => True

/-- The levels an engine works with at a tick: the newest sample, or with IN_FILT the majority of the last three (R382). -/
def Sys2Proof.Claim.sampled (x : Pio) (t : PinTick) : W32 :=
  if x.pfmt.getLsbD 23 then
    BitVec.ofNat 32 ((List.range 32).foldl (fun n j =>
      n + if 2 ≤ (t.now.getLsbD j).toNat + (t.mid.getLsbD j).toNat + (t.old.getLsbD j).toNat then 2 ^ j else 0) 0)
  else t.now

/-- The GP pins at tick `i`: the last levels given hold on; without any, those of the tick before. -/
def Sys2Proof.Claim.pinsAtTick (x : Pio) (ticks : List W32) (i : Nat) : W32 := (ticks.drop i).headD (ticks.getLastD x.prevPins)

/-- What an engine reads of a pin (R380). -/
def Sys2Proof.Claim.sees (x : Pio) (pins : W32) (i : Nat) : Bool := pins.getLsbD (i % 32) && x.inMask.getLsbD (i % 32)

/-- The module with the pins of the last tick and an engine become `y`. -/
def Sys2Proof.Claim.ran (s : State) (k : Fin 8) (raw : List PinTick) (y : Pio) : State :=
  { s with
    gpIn := (raw.map (·.now)).getLastD s.gpIn, gpAt := if raw = [] then s.gpAt else some s.ns, pio := Vec.put s.pio k y }

/-- The divider's accumulator at the `n`th tick from now (R373): NUM is added each cycle, and at a tick, when it reaches
DEN, DEN is taken off. -/
def Sys2Proof.Claim.dividerAt (num den : Nat) : Nat → Nat → Nat
  | 0, d => d
  | n + 1, d => dividerAt num den n (d + (den - d + num - 1) / num * num - den)

/-- CK_PIO cycles until the `n`th tick from now (R373). -/
def Sys2Proof.Claim.cyclesTo (num den : Nat) : Nat → Nat → Nat
  | 0, _ => 0
  | n + 1, d => (den - d + num - 1) / num + cyclesTo num den n (d + (den - d + num - 1) / num * num - den)

/-- An engine `n` ticks on, of those from tick `t` on (R370, R373, R379, R381, R386): the timer counts down to 0, the last pins
are kept for edges, the divider goes on, DE_PIN falls at the tick DE_LAG ticks after the last bit sent, and a word of a PIO_PROGRAM
lands in each CK_PIO cycle. -/
def Sys2Proof.Claim.ticked (x : Pio) (ticks : List W32) (t n : Nat) : Pio :=
  let falls := x.deTail && decide (n ≠ 0 ∧ fld x.pde 8 8 < x.deAgo + n)
  let cycles := cyclesTo (fld x.pclk 0 16) (fld x.pclk 16 16) n x.divAcc
  { x with
    pimem := (x.landing.take cycles).foldl (fun m w => Vec.updN m w.1 fun _ => w.2) x.pimem
    landing := x.landing.drop cycles
    tcnt := x.tcnt - BitVec.ofNat 16 (min x.tcnt.toNat n)
    prevPins := if n = 0 then x.prevPins else pinsAtTick x ticks (t + n - 1)
    divAcc := dividerAt (fld x.pclk 0 16) (fld x.pclk 16 16) n x.divAcc
    de := x.de && !falls
    deTail := x.deTail && !falls
    deAgo := x.deAgo + n }

/-- The next instruction follows. -/
def Sys2Proof.Claim.onward (x : Pio) : Pio := { x with pc := x.pc + 1, latched := none }

/-- A level written to a pin, within the output mask (R380). -/
def Sys2Proof.Claim.levelled (x : Pio) (i : Nat) (b : Bool) : W32 :=
  BitVec.ofNat 32 ((List.range 32).foldl (fun n j =>
    n + if (if j = i % 32 ∧ x.outMask.getLsbD j = true then b else x.level.getLsbD j) then 2 ^ j else 0) 0)

/-- `n` bits of an XFER from tick `t` on (R378): the bit that SR sends next on OUT_BASE, the level of IN_BASE at tick SP
into SR, one shift, BC up to 32. -/
def Sys2Proof.Claim.moved (o : BitVec 28) (ticks : List W32) : Nat → Nat → Pio → Pio
  | 0, _, x => x
  | n + 1, t, x =>
    let bt := fld o 17 4 + 1
    let out := if x.pfmt.getLsbD 31 then x.sr.getLsbD (x.frame - 1) else x.sr.getLsbD 0
    let inn := o.getLsbD 21 && sees x (pinsAtTick x ticks (t + fld o 13 4)) (fld x.ppins 13 5)
    let left := if o.getLsbD 21 then x.pfmt.getLsbD 30 else x.pfmt.getLsbD 31
    let sr := if o.getLsbD 21 = false ∧ o.getLsbD 22 = false then x.sr
      else if left then BitVec.ofNat 32 (2 * x.sr.toNat + inn.toNat)
      else BitVec.ofNat 32 (x.sr.toNat / 2 + 2 ^ 31 * inn.toNat)
    let y := { x with level := if o.getLsbD 22 then levelled x (fld x.ppins 27 5) out else x.level, sr := sr, bc := min 32 (x.bc + 1) }
    let z := ticked y ticks t bt
    moved o ticks n (t + bt) { z with deAgo := if o.getLsbD 22 then 0 else z.deAgo }

/-- The BC bits received, right-justified (R378). -/
def Sys2Proof.Claim.justified (x : Pio) : W32 :=
  if x.pfmt.getLsbD 30 then BitVec.ofNat 32 (x.sr.toNat % 2 ^ x.bc) else BitVec.ofNat 32 (x.sr.toNat / 2 ^ (32 - x.bc))

/-- The edge of a WAITE at tick `j` of the ticks given (R375, R379): the level there against that of the tick before. -/
def Sys2Proof.Claim.edgeAt (x : Pio) (ticks : List W32) (o : BitVec 28) (j : Nat) : Bool :=
  let lv := fun (j : Nat) => sees x (if j = 0 then x.prevPins else pinsAtTick x ticks (j - 1)) (fld o 21 5)
  match fld o 26 2 with
  | 0 => lv (j + 1) && !lv j
  | 1 => !lv (j + 1) && lv j
  | _ => lv (j + 1) != lv j

/-- A wait ends on the timer at tick `j`: WAITT, or WAITE with TO. -/
def Sys2Proof.Claim.timedAt (x : Pio) (op : Nat) (o : BitVec 28) (j : Nat) : Prop :=
  x.tcnt.toNat ≤ j + 1 ∧ (op = 5 ∨ o.getLsbD 20 = true)

/-- The engine after a wait (OP `op`) that ended at tick `f`. -/
def Sys2Proof.Claim.waitEnds (x : Pio) (ticks : List W32) (op : Nat) (o : BitVec 28) (f : Nat) : Pio :=
  let y := ticked x ticks 0 (f + 1)
  onward { y with
    tcnt := if op = 5 ∧ o.getLsbD 27 = true then x.tcmp else y.tcnt
    tout := if op = 4 ∧ o.getLsbD 20 = true then !(edgeAt x ticks o f) else x.tout
    ctr := if f = 0 then x.ctr else x.ctr.add 4 f }

/-- Room for a stored word: in the receive queue, or in the joined transmit queue (R383). -/
def Sys2Proof.Claim.roomFor (s : State) (x : Pio) : Prop :=
  if x.pfmt.getLsbD 19 then (Vec.at s.pio (finOf 8 (fld x.pfmt 16 3))).txq.length < 16 else x.rxq.length < 16

/-- The command leads to `w` but for what an event sets in engines, and engines of the owner see this event when `on`. -/
def Sys2Proof.Claim.pioLeads (i : Instr) (s w : State) (k : Fin 8) (b : Nat) (on : Prop) : Prop :=
  ∃ u : State, (exec i s = .next u ∨ exec i s = .next u.settle) ∧ reported w u ∧
    ∀ c, (Vec.at s.pio k).owner = some c → on → clusterEvent s u c b

/-- The PIO instructions (R369, R371, R374–R379, R381, R382, R384). Outside RUN, and where PIMEM at PC holds another word,
no instruction executes. An invalid word leads to FAULT with a WARNING. NOP, PINS, LDC, SIG, SRX and BR take one tick and go on; LOAD and STORE move a word and
clear BC, stall with BLK, or go on without it; WAITE and WAITT complete at the first tick at which their condition
holds and count the others as stalled; XFER moves its bits after the lead of the driver enable, and at a frame
boundary under AUTO stores and loads, or stalls. (That the timer counts before the instruction acts is the model's
choice; so is what is fetched past PIMEM47, log 93.) -/
def Obligations.PioInstructions : Prop :=
  ∀ (s : State) (i : Instr) (k : Fin 8) (op : Nat) (o : BitVec 28) (raw : List PinTick), pioRow i = some (k, op, o, raw) →
    let x := Vec.at s.pio k
    let ticks := raw.map (sampled x)
    let p := pinsAtTick x ticks 0
    let z := ticked x ticks 0 1
    let goes := fun (y : Pio) => exec i s = .next (ran s k raw (onward y))
    let word := BitVec.ofNat 32 (op * 2 ^ 28 + o.toNat)
    let runs := x.st = 2 ∧ (48 ≤ x.pc.toNat ∨ Vec.atD x.pimem x.pc.toNat 0 = word)
    let stalls := fun (y : Pio) (code : BitVec 3) (bits : Nat) (storing : Bool) => pioLeads i s
      (ran s k raw { y with st := 3, stallc := code, latched := some ⟨word, bits, storing⟩ }) k 13 (x.st ≠ 3)
    (¬ runs → exec i s = .next s) ∧
    (runs → invalidPio op o → logRoom s → ∃ u : State, exec i s = .next u ∧
      reported (ran s k raw { z with st := 4, stallc := 0, ctr := x.ctr.add 3 1 }) u ∧
      logged u 0x0900 (s.objAt 4 k.1) 0 ∧ ∀ c, x.owner = some c → clusterEvent s u c 13) ∧
    (runs → x.stallc = 0 → ¬ invalidPio op o →
      (op = 0 → goes z) ∧
      -- LOAD
      (op = 2 → ∀ (w : W32) (r : List W32), x.txq = w :: r →
        pioLeads i s (ran s k raw (onward { z with txq := r, sr := w, bc := 0 })) k 14 (x.pevt.getLsbD 30 = true ∧ r.length = fld x.pevt 0 5)) ∧
      (op = 2 → x.txq = [] → if o.getLsbD 27 then stalls { z with ctr := x.ctr.add 4 1 } 1 0 false else goes z) ∧
      -- STORE
      (op = 3 → roomFor s x → x.pfmt.getLsbD 19 = false → pioLeads i s (ran s k raw (onward { z with rxq := x.rxq ++ [justified x], sr := 0, bc := 0 })) k 15
        (x.pevt.getLsbD 31 = true ∧ x.rxq.length + 1 = fld x.pevt 8 5)) ∧
      (op = 3 → roomFor s x → x.pfmt.getLsbD 19 = true → ∀ t, fld x.pfmt 16 3 = t.1 → t ≠ k → exec i s = .next
        (let w := ran s k raw (onward { z with sr := 0, bc := 0 }); { w with pio := Vec.upd w.pio t fun y => { y with txq := y.txq ++ [justified x] } })) ∧
      (op = 3 → ¬ roomFor s x → if o.getLsbD 27 then stalls { z with ctr := x.ctr.add 4 1 } 2 0 false
        else goes { z with rxdrop := true, sr := 0, bc := 0, ctr := x.ctr.add 2 1 }) ∧
      -- WAITE and WAITT
      (∀ f : Nat, op = 4 ∨ op = 5 →
        let n := max 1 ticks.length
        let ends := fun (j : Nat) => op = 4 ∧ edgeAt x ticks o j = true ∨ timedAt x op o j
        (∀ j, j < f → ¬ ends j) →
          (f < n → ends f → pioLeads i s (ran s k raw (waitEnds x ticks op o f)) k 13 (f ≠ 0)) ∧
          (f = n → let y := ticked x ticks 0 n
            stalls { y with ctr := x.ctr.add 4 n } (if op = 4 then 3 else 4) 0 false)) ∧
      -- BR
      (op = 6 →
        let at_ := fld o 19 5
        let c : Prop := match fld o 24 4 with
          | 0 => True
          | 1 => x.lc0 ≠ 0
          | 2 => x.lc1 ≠ 0
          | 3 => sees x p at_ = true
          | 4 => sees x p at_ = false
          | 5 => x.bc < x.frame
          | 6 => x.txq ≠ []
          | 7 => ¬ roomFor s x
          | 8 => z.tcnt ≠ 0
          | 9 => ∀ j, j < 16 → x.mmask.getLsbD j = true → (justified x).getLsbD j = x.pmatch.getLsbD j
          | _ => x.tout = true
        let y := { z with
          lc0 := if fld o 24 4 = 1 ∧ x.lc0 ≠ 0 then x.lc0 - 1 else x.lc0
          lc1 := if fld o 24 4 = 2 ∧ x.lc1 ≠ 0 then x.lc1 - 1 else x.lc1 }
        (c → exec i s = .next (ran s k raw { y with pc := BitVec.ofNat 6 (fld o 0 6) })) ∧ (¬ c → goes y)) ∧
      -- PINS, LDC, SIG, SRX
      (op = 7 → ∃ y : Pio, goes y ∧ y = { z with level := y.level, dir := y.dir } ∧ ∀ j, j < 32 →
        let m := (j + 32 - fld x.ppins 18 5) % 32
        let hit := m < 8 ∧ o.getLsbD (18 + m) = true ∧ x.outMask.getLsbD j = true
        (y.level.getLsbD j = if hit ∧ fld o 26 2 = 0 then o.getLsbD (10 + m) else if hit ∧ fld o 26 2 = 2 then !x.level.getLsbD j else x.level.getLsbD j) ∧
        (y.dir.getLsbD j = if hit ∧ fld o 26 2 = 1 then o.getLsbD (10 + m) else x.dir.getLsbD j)) ∧
      (op = 8 → let v := BitVec.ofNat 16 (fld o 0 16)
        goes (match fld o 25 3 with
          | 0 => { z with lc0 := v }
          | 1 => { z with lc1 := v }
          | 2 => { z with tcnt := v }
          | 3 => { z with tcmp := v }
          | 4 => { z with frame := v.toNat }
          | 5 => { z with pmatch := v }
          | _ => { z with mmask := v })) ∧
      (op = 9 → pioLeads i s (ran s k raw (onward { z with pflag := x.pflag ||| BitVec.ofNat 8 (2 ^ fld o 0 3) })) k 15 True) ∧
      (op = 10 → fld o 26 2 = 0 → goes { z with sr := 0, bc := 0 }) ∧
      (op = 10 → fld o 26 2 = 1 → goes { z with sr := ~~~x.sr }) ∧
      (op = 10 → fld o 26 2 = 2 → ∃ v : W32, goes { z with sr := v, bc := 8 } ∧ ∀ j, v.getLsbD j = (decide (j < 8) && sees x p (fld x.ppins 13 5 + j))) ∧
      (op = 10 → fld o 26 2 = 3 → fld x.ppins 23 4 ≤ 8 → ∃ v : W32, goes { z with level := v } ∧ ∀ j, j < 32 →
        let m := (j + 32 - fld x.ppins 27 5) % 32
        v.getLsbD j = if m < fld x.ppins 23 4 ∧ x.outMask.getLsbD j = true then x.sr.getLsbD m else x.level.getLsbD j) ∧
      -- XFER
      (op = 1 → o.getLsbD 21 = true → o.getLsbD 22 = true → x.pfmt.getLsbD 31 ≠ x.pfmt.getLsbD 30 →
        exec i s = .fault (.firmwareError (s.objAt 4 k.1))) ∧
      (op = 1 → o.getLsbD 21 = false ∨ o.getLsbD 22 = false ∨ x.pfmt.getLsbD 31 = x.pfmt.getLsbD 30 →
        let oe := o.getLsbD 22
        let ie := o.getLsbD 21
        let n := fld o 23 5 + 1
        let bt := fld o 17 4 + 1
        let driven := oe = true ∧ x.ppins.getLsbD 12 = true
        let lead := if driven ∧ x.de = false then fld x.pde 0 4 else 0
        let y := ticked (if driven then { x with de := true, deTail := false } else x) ticks 0 lead
        let ends := fun (y : Pio) => onward { y with deTail := if oe then y.de else y.deTail }
        let m := x.frame - x.bc
        (o.getLsbD 12 = false ∨ x.frame ≤ x.bc ∧ x.frame < 32 ∨ n ≤ m ∨ n = 1 → exec i s = .next (ran s k raw (ends (moved o ticks n lead y)))) ∧
        (o.getLsbD 12 = true → x.bc < x.frame → m < n → x.frame ≤ 32 → x.pfmt.getLsbD 19 = false →
          let w := moved o ticks m lead y
          let stored := if ie then { w with rxq := x.rxq ++ [justified w], sr := 0, bc := 0 } else w
          (ie = true → ¬ roomFor s x → stalls w 6 m true) ∧
          (ie = true → roomFor s x → oe = true → x.txq = [] → x.pevt.getLsbD 31 = false → stalls stored 5 m false) ∧
          (ie = false → oe = true → x.txq = [] → stalls w 5 m false) ∧
          (ie = false → oe = false → n ≤ 32 → exec i s = .next (ran s k raw (ends (moved o ticks (n - m) (lead + m * bt) w)))) ∧
          (∀ (v : W32) (r : List W32), oe = true → x.txq = v :: r → ie = false ∨ roomFor s x → n - m ≤ x.frame →
            pioLeads i s (ran s k raw (ends (moved o ticks (n - m) (lead + m * bt) { stored with txq := r, sr := v, bc := 0 }))) k 14
              (x.pevt.getLsbD 30 = true ∧ r.length = fld x.pevt 0 5)))))

/-- The PIO window's commands (R369–R371, R379, R381, R383–R387). RUN starts an engine in IDLE at START; RESTART does
what R387 lists in RUN, STALL and FAULT and nothing in IDLE and HELD; CLRTX and CLRRX empty their queues; a push to
a full transmit queue is dropped and counted, a pop of an empty receive queue underflows, and that of a joined one
raises BUSERR; PIMEM takes a word in every state; a stall releases at the first tick at which its condition holds;
DE_PIN falls; an unused OP is an invalid word. -/
def Obligations.PioWindow : Prop :=
  ∀ (s : State) (e : Fin 16) (k : Fin 8),
    let x := Vec.at s.pio k
    let becomes := fun (y : Pio) => Host.Outcome.next (φ := Fault) (ρ := Refusal) (State.settle { s with pio := Vec.put s.pio k y })
    let stays := Host.Outcome.next (φ := Fault) (ρ := Refusal) s.settle
    let own := alive s e ∧ x.owner = some (clOf e)
    let pc0 := fun (a : Fin 48) => BitVec.ofNat 6 a.1
    -- run control
    (own → ∀ a : Fin 48,
      (x.st = 0 → exec (.pioRun e k a) s = stays ∧ exec (.restart e k a) s = stays) ∧
      (x.st = 1 → (Vec.at s.cl (clOf e)).st = .started → pioLeads (.pioRun e k a) s { s with pio := Vec.put s.pio k { x with
        run := true, start := a, st := 2, stallc := 0, pc := pc0 a, frame := fld x.pfmt 24 6, divAcc := 0, latched := none } } k 13 True) ∧
      (x.st = 1 → (Vec.at s.cl (clOf e)).st ≠ .started → exec (.pioRun e k a) s = becomes { x with run := true, start := a }) ∧
      (2 ≤ x.st → exec (.pioRun e k a) s = becomes { x with run := true, start := a }) ∧
      (2 ≤ x.st → x.run = true → pioLeads (.restart e k a) s { s with pio := Vec.put s.pio k { x with
        start := a, st := 2, stallc := 0, pc := pc0 a, sr := 0, bc := 0, lc0 := 0, lc1 := 0, tcnt := 0, tout := false
        frame := fld x.pfmt 24 6, divAcc := 0, latched := none, deTail := x.de } } k 13 (x.st ≠ 2)) ∧
      (x.st = 1 → x.run = false ∨ (Vec.at s.cl (clOf e)).st ≠ .started → exec (.restart e k a) s = becomes { x with start := a })) ∧
    -- queues and memory
    (own → x.st ≠ 0 → (x.run = true ∧ 2 ≤ x.st ∨ x.run = false ∧ x.st = 1) →
      pioLeads (.clrtx e k) s { s with pio := Vec.put s.pio k { x with txq := [] } } k 14
        (x.pevt.getLsbD 30 = true ∧ fld x.pevt 0 5 < x.txq.length) ∧
      exec (.clrrx e k) s = becomes { x with rxq := [] }) ∧
    (own → ∀ w, exec (.ptxqPush e k w) s = if x.txq.length < 16 then becomes { x with txq := x.txq ++ [w] }
      else becomes { x with txovf := true, ctr := x.ctr.add 0 1 }) ∧
    (own → x.pfmt.getLsbD 19 = false → exec (.prxqPop e k) s = match x.rxq with
      | _ :: r => becomes { x with rxq := r }
      | [] => becomes { x with rxund := true, ctr := x.ctr.add 1 1 }) ∧
    (own → x.pfmt.getLsbD 19 = true → (Vec.at s.eng e).inTrap = false → exec (.prxqPop e k) s =
      .next (State.settle (s.updEng e fun g => trapped g 4 g.pc g.pc (BitVec.ofNat 32 (0x4A00000C + 0x100 * k.1)) 0 0))) ∧
    (own → ∀ (j : Fin 48) (w : W32), exec (.pimemWrite e k j w) s = becomes { x with pimem := Vec.put x.pimem j w }) ∧
    -- events of the engine
    (exec (.dePinFall k) s = .next { s with pio := Vec.put s.pio k (if x.deTail then { x with de := false, deTail := false } else x) }) ∧
    (∀ w : W32,
      let invalid := invalidPio (w.toNat / 2 ^ 28) (w.setWidth 28)
      let fetched := x.st = 2 ∧ (48 ≤ x.pc.toNat ∨ Vec.atD x.pimem x.pc.toNat 0 = w)
      (¬ invalid ∨ ¬ fetched → exec (.pioInvalidFetch k w) s = .next s) ∧
      (invalid → fetched → logRoom s → ∃ u : State, exec (.pioInvalidFetch k w) s = .next u ∧
        reported { s with pio := Vec.put s.pio k { ticked x [] 0 1 with st := 4, stallc := 0, ctr := x.ctr.add 3 1 } } u ∧
        logged u 0x0900 (s.objAt 4 k.1) 0 ∧ ∀ c, x.owner = some c → clusterEvent s u c 13)) ∧
    (∀ raw : List PinTick,
      let i := Instr.pioStallRelease k raw
      let ticks := raw.map (sampled x)
      let z := ticked x ticks 0 1
      (x.st ≠ 3 ∨ x.latched = none → exec i s = stays) ∧
      (∀ l, x.st = 3 → x.latched = some l →
        let op := l.word.toNat / 2 ^ 28
        let idle := fun (w : State) => exec i s = .next (State.settle w)
        let y := ticked x ticks 0 ticks.length
        (op = 2 → x.txq = [] → idle (ran s k raw { y with ctr := x.ctr.add 4 ticks.length })) ∧
        (op = 2 → ∀ (w : W32) (r : List W32), x.txq = w :: r →
          pioLeads i s (ran s k raw (onward { z with st := 2, stallc := 0, txq := r, sr := w, bc := 0 })) k 13 True) ∧
        (op = 3 → ¬ roomFor s x → idle (ran s k raw { y with ctr := x.ctr.add 4 ticks.length })) ∧
        (op = 3 → roomFor s x → x.pfmt.getLsbD 19 = false →
          pioLeads i s (ran s k raw (onward { z with st := 2, stallc := 0, rxq := x.rxq ++ [justified x], sr := 0, bc := 0 })) k 13 True) ∧
        (∀ f : Nat, op = 4 ∨ op = 5 →
          let o : BitVec 28 := l.word.setWidth 28
          let ends := fun (j : Nat) => op = 4 ∧ edgeAt x ticks o j = true ∨ timedAt x op o j
          (∀ j, j < f → ¬ ends j) →
            (f < ticks.length → ends f → pioLeads i s (ran s k raw { waitEnds x ticks op o f with st := 2, stallc := 0 }) k 13 True) ∧
            (f = ticks.length → x.stallc = (if op = 4 then 3 else 4) → l.bits = 0 → l.storing = false →
              idle (ran s k raw { y with ctr := if f = 0 then x.ctr else x.ctr.add 4 f }))) ∧
        (op = 1 → l.storing = true → l.word.getLsbD 21 = true → ¬ roomFor s x → idle (ran s k raw { y with ctr := x.ctr.add 4 ticks.length })) ∧
        (op = 1 → l.storing = true → l.word.getLsbD 21 = true → l.word.getLsbD 22 = false → roomFor s x → x.pfmt.getLsbD 19 = false →
          let n := fld l.word 23 5 + 1 - l.bits
          n ≤ x.frame → 0 < n →
          let m := moved (l.word.setWidth 28) ticks n 0 { x with rxq := x.rxq ++ [justified x], sr := 0, bc := 0 }
          pioLeads i s (ran s k raw (onward { m with st := 2, stallc := 0 })) k 13 True) ∧
        (op = 1 → l.storing = false → l.word.getLsbD 22 = true → x.txq = [] →
          idle (ran s k raw { y with ctr := x.ctr.add 4 ticks.length, stallc := 5, latched := some ⟨l.word, l.bits, false⟩ })) ∧
        (op = 1 → l.storing = false → l.word.getLsbD 22 = true → ∀ (w : W32) (r : List W32), x.txq = w :: r →
          let n := fld l.word 23 5 + 1 - l.bits
          n ≤ x.frame → 0 < n →
          let m := moved (l.word.setWidth 28) ticks n 0 { x with txq := r, sr := w, bc := 0 }
          pioLeads i s (ran s k raw (onward { m with st := 2, stallc := 0, deTail := m.de })) k 13 True) ∧
        -- a frame further on it may stall again, having run in between (R378, R384)
        (op = 1 → l.storing = false → l.word.getLsbD 22 = true → l.word.getLsbD 21 = false → l.word.getLsbD 12 = true → ∀ w : W32, x.txq = [w] →
          l.bits + x.frame < fld l.word 23 5 + 1 → 0 < x.frame → x.frame ≤ 32 →
          let m := moved (l.word.setWidth 28) ticks x.frame 0 { x with txq := [], sr := w, bc := 0 }
          pioLeads i s (ran s k raw { m with st := 3, stallc := 5, latched := some ⟨l.word, l.bits + x.frame, false⟩ }) k 13 True)))

/-! ### The time unit -/

/-- The offset of a sample in ns (R215). -/
def Sys2Proof.Claim.nsOf (o : W64) : Rat := (o.toInt : Rat) / 256

/-- TSTAT, with the adjustment now applied in ADJ, a slew's share included (R215, R220). -/
def Sys2Proof.Claim.tstatOf (t : Tim) : W32 :=
  let now := if t.slewLeft = 0 then t.rate else if 0 < t.slewLeft then t.rate - t.slewRate else t.rate + t.slewRate
  BitVec.ofNat 32 (t.st.1 * 2 ^ 29 + (if t.jumpPend then 2 ^ 28 else 0) + (Vec.at t.sets 0).toNat * 2 ^ 26 +
    ((now * 1000000000).floor % 2 ^ 26).toNat)

/-- The unit after a sample was measured, whether or not it is applied (R215). -/
def Sys2Proof.Claim.measured (t : Tim) (x : Sample) : Tim :=
  { t with
    lastOff := x.off, samples := t.samples + 1
    maxOff := if t.maxOff.toInt.natAbs < x.off.toInt.natAbs then BitVec.ofNat 64 x.off.toInt.natAbs else t.maxOff }

/-- The servo (R215–R221, R223, R225). A post by the source's cluster waits for Sundom, a second one replaces it and is
counted, any other has no effect. A sample taken is measured; in FREE, in HOLDOVER with HOLD and under a partner it
goes no further. Less what a slew has still to remove, or as it stands from a new source, beyond JMPTHR it leads to
JUMP_WAIT with a WARNING, which four calm samples leave; the first after INIT_STEP steps instead, forward at once and
backward by holding the timebase. Within 100 µs of the last applied it waits to be averaged. Otherwise rate and integral follow the gains of the state, clamped at 250 ppm with the
integral frozen, and the run counts move the state. SRC_TIMEOUT brings HOLDOVER at the mean of the last 16 rates;
the end of a slew restarts ACQUIRE, but for FREE, HOLDOVER and JUMP_WAIT. (That the gains are those of the state before the sample, and that the first
sample only sets the reference, are the model's reading.) -/
def Obligations.Servo : Prop :=
  ∀ s : State,
    let t := s.tim
    let stays := Host.Outcome.next (φ := Fault) (ρ := Refusal) s.settle
    let follows := s.pair.st = 1 ∨ s.pair.st = 3
    -- the post
    (∀ (e : Fin 16) (v : W32), alive s e → v.toNat < 4 →
      let c := clOf e
      let k := Vec.at s.cl c
      let x : Sample := ⟨BitVec.ofNat 64 (k.tsOffHi.toNat * 2 ^ 32 + k.tsOffLo.toNat), k.tsAt, v.getLsbD 1⟩
      let source := Vec.at t.sets 0 = 1 ∧ Vec.at t.sets 1 = BitVec.ofNat 64 c.1 ∧ t.stoppedSrc = false
      (v.getLsbD 0 = false ∨ ¬ source → exec (.tsmpPost e v) s = stays) ∧
      (v.getLsbD 0 = true → source → exec (.tsmpPost e v) s = .next (State.settle { s with
        cl := Vec.upd s.cl c fun k => { k with tsBusy := true, tsSample := some x }
        tim := if k.tsBusy then { t with ctr := t.ctr.add 1 1 } else t }))) ∧
    -- the sample taken
    (∀ (c : Fin 4) (x : Sample), (Vec.at s.cl c).tsSample = some x →
      let i := Instr.servoSampleTaken c
      let m := { measured t x with offset := x.off, offsetAt := x.at_ }
      let raw := nsOf x.off
      let o := raw - t.slewLeft
      let fresh := t.st = 0 ∨ t.st = 4 ∨ x.newSrc = true
      let judged := if fresh then raw else o
      let thr : Rat := ((Vec.at t.sets 2).toNat : Rat)
      let lock : Rat := ((Vec.at t.sets 4).toNat : Rat)
      let big := thr < judged ∨ thr < -judged
      let hold := t.st = 4 ∧ Vec.at t.sets 7 = 1
      let takes := fun (f : Tim → Prop) => ∃ u : State, exec i s = .next u.settle ∧ f u.tim ∧ (Vec.at u.cl c).tsBusy = false ∧ (Vec.at u.cl c).tsSample = none
      (follows → takes fun u => u = measured t x) ∧
      (¬ follows → hold ∨ t.st = 0 → takes fun u => u = m) ∧
      (¬ follows → ¬ hold → t.st ≠ 0 → t.freeStep = true → raw ≠ 0 → takes fun u =>
        u.st = 1 ∧ u.jumpPend = false ∧ u.lastAt = none ∧ u.avg = [] ∧ u.freeStep = false ∧ u.rate = t.rate ∧ u.slewLeft = 0 ∧
        Vec.atD u.ctr.live 3 0 = Vec.atD (t.ctr.add 3 1).live 3 0 ∧
        (raw < 0 → u.t = t.t + (-raw * 2 ^ 39).floor.toNat ∧ u.stepHold = t.stepHold) ∧
        (0 < raw → u.t = t.t ∧ u.stepHold = t.stepHold + (raw * 2 ^ 39).floor.toNat)) ∧
      (¬ follows → ¬ hold → t.st ≠ 0 → t.freeStep = true → raw = 0 → takes fun u =>
        u.st = 1 ∧ u.freeStep = false ∧ u.lastAt = some x.at_ ∧ u.avg = [] ∧ u.t = t.t ∧ u.stepHold = t.stepHold) ∧
      (¬ follows → t.st = 5 → t.freeStep = false → takes fun u => u.rate = t.rate ∧ u.integ = t.integ ∧ u.jumpCount = t.jumpCount + 1 ∧
        (if big ∨ t.runCalm + 1 < 4 then u.st = 5 ∧ u.jumpPend = t.jumpPend ∧ u.runCalm = (if big then 0 else t.runCalm + 1)
         else u.st = 1 ∧ u.jumpPend = false)) ∧
      (¬ follows → ¬ hold → t.st ≠ 0 → t.st ≠ 5 → t.freeStep = false → big → logRoom s → ∃ u : State, exec i s = .next u.settle ∧
        u.tim.st = 5 ∧ u.tim.jumpPend = true ∧ u.tim.rate = t.rate ∧ u.tim.integ = t.integ ∧ logged u 0x0502 (s.objAt 12 0) 0 ∧
        Vec.atD u.tim.ctr.live 2 0 = Vec.atD (t.ctr.add 2 1).live 2 0 ∧
        ∀ a, fld (Vec.at u.cl a).tstat 28 4 = 11) ∧
      (¬ follows → ¬ hold → t.freeStep = false → ¬ big → t.st = 4 ∨ x.newSrc = true ∧ (t.st = 1 ∨ t.st = 2 ∨ t.st = 3) → takes fun u =>
        u.st = 1 ∧ u.rate = t.rate ∧ u.integ = t.integ ∧ u.lastAt = some x.at_ ∧ u.avg = [] ∧
        Vec.atD u.ctr.live 0 0 = Vec.atD (t.ctr.add 0 1).live 0 0) ∧
      (∀ a : W32, ¬ follows → t.freeStep = false → ¬ big → x.newSrc = false → t.st = 1 ∨ t.st = 2 ∨ t.st = 3 → t.lastAt = some a →
        let d := (x.at_ - a).toInt
        (d < 100000 → takes fun u => u = { m with avg := t.avg ++ [o], ctr := t.ctr.add 0 1 }) ∧
        (100000 ≤ d → t.avg = [] →
          let T : Rat := (d : Rat)
          let (kp, ki) := if t.st = 1 then ((1 / 2, 1 / 8) : Rat × Rat) else if t.st = 2 then (1 / 8, 1 / 64) else (1 / 32, 1 / 1024)
          let r := t.integ + ki * o / T + kp * o / T
          let lim : Rat := 1 / 4000
          let near := fun (l : Rat) => -l < o ∧ o < l
          let beyond := fun (l : Rat) => l < o ∨ l < -o
          let low := if near lock then t.runLow + 1 else 0
          let quarter := if near (lock / 4) then t.runQuarter + 1 else 0
          let high := if beyond lock then t.runHigh + 1 else 0
          let far := if beyond (4 * lock) then t.runBig + 1 else 0
          let st : Fin 6 := if t.slewLeft ≠ 0 then t.st else if t.st ≠ 1 ∧ 4 ≤ far then 1 else if t.st = 1 ∧ 16 ≤ low then 2 else if t.st = 2 ∧ 64 ≤ quarter then 3
            else if t.st = 3 ∧ 2 ≤ high then 2 else t.st
          ∃ u : State, exec i s = .next u.settle ∧ u.tim.rate = max (-lim) (min lim r) ∧
            u.tim.integ = (if r < -lim ∨ lim < r then t.integ else t.integ + ki * o / T) ∧
            u.tim.lastAt = some x.at_ ∧ u.tim.avg = [] ∧ u.tim.st = st ∧ (u.tim.st = t.st → u.tim.runLow = low ∧ u.tim.runBig = far) ∧ (t.st = 3 → u.tim.st = 2 → u.tim.runBig = far) ∧
            u.tim.t = t.t ∧ (∀ b, (Vec.at u.cl b).tstat = tstatOf u.tim)))) ∧
    (∀ c, (Vec.at s.cl c).tsSample = none → ∃ u : State, exec (.servoSampleTaken c) s = .next u.settle ∧ u.tim = t) ∧
    -- timeouts and the end of a slew
    (t.st = 0 ∨ t.st = 4 → ∃ u : State, exec .srcTimeout s = .next u.settle ∧ u.tim = t) ∧
    (t.st ≠ 0 → t.st ≠ 4 → logRoom s → ∃ u : State, exec .srcTimeout s = .next u.settle ∧ u.tim.st = 4 ∧ u.tim.jumpPend = false ∧ u.tim.t = t.t ∧
      u.tim.integ = t.integ ∧ logged u 0x0500 (s.objAt 12 0) 0 ∧ Vec.atD u.tim.ctr.live 4 0 = Vec.atD (t.ctr.add 4 1).live 4 0 ∧
      u.tim.rate = if t.hist.length < 16 then t.rate else (t.hist.take 16).foldl (· + ·) 0 / 16) ∧
    (t.slewLeft = 0 → ∃ u : State, exec .slewEnd s = .next u.settle ∧ u.tim = t) ∧
    (t.slewLeft ≠ 0 → ∃ u : State, exec .slewEnd s = .next u.settle ∧
      u.tim.st = (if t.st = 0 ∨ t.st = 4 ∨ t.st = 5 then t.st else 1) ∧ u.tim.slewLeft = 0 ∧ u.tim.rate = t.rate ∧ u.tim.t = t.t ∧
      u.tim.lastAt = none ∧ u.tim.avg = [])

/-- Steps, milestones, stamps and SYNC pins (R201, R203, R221, R228, R229, R232, R233). The held timebase runs on; an armed
milestone that the timebase has reached fires once, for the arming it belongs to; a read of TNS captures TNS_HI and TNS_FRAC, one of SYNCIN_NS
captures SYNCIN_AUX, for the reading engine; a selected edge of SYNC_IN is stamped, one within 100 ns of the last is
counted lost, and in mode 2 it is a sample of its distance from the nearest instant; a pulse of SYNC_OUT rises at the
latest instant n × PERIOD + PHASE that has raised none, and a one-shot rises once, at its time. -/
def Obligations.TimeEvents : Prop :=
  ∀ s : State,
    let t := s.tim
    let i := t.syncIn
    (exec .stepHoldEnd s = .next { s with tim := { t with stepHold := 0 } }) ∧
    (∀ (e : Fin 16) (arm : BitVec 2), let g := Vec.at s.eng e
      let due := g.milestone = true ∧ g.arm = arm ∧ 0 ≤ (BitVec.ofNat 32 (t.t / 2 ^ 39) - g.ms).toInt
      (¬ due → exec (.milestoneFire e arm) s = .next s) ∧
      (due → g.run = false → exec (.milestoneFire e arm) s = .next (s.updEng e fun g => { g with milestone := false })) ∧
      (due → g.run = true → g.wait = .none → exec (.milestoneFire e arm) s = .next (s.updEng e fun g =>
        { g with milestone := false, evp := g.evp ||| 2 })) ∧
      (∀ (d : Fin 32) (a : W32), due → g.run = true → g.wait = .mwait d a → g.waitMask.getLsbD 1 = true →
        g.evp &&& g.waitMask = 0 → exec (.milestoneFire e arm) s = .next (s.updEng e fun g =>
          { g with milestone := false, wait := .none, d := Vec.put g.d d 2, evp := g.evp &&& ~~~(2#32) }))) ∧
    (∀ e, alive s e → exec (.tnsRead e) s = .next (State.settle (s.updEng e fun g => { g with
      tnsHi := BitVec.ofNat 32 (t.t / 2 ^ 39 / 2 ^ 32), tnsFrac := BitVec.ofNat 16 (t.t / 2 ^ 23 % 2 ^ 16) }))) ∧
    (∀ e, alive s e → exec (.syncinNsRead e) s = .next (State.settle (s.updEng e fun g => { g with
      syncAux := BitVec.ofNat 32 (i.seq.toNat * 2 ^ 16 + i.frac.toNat) }))) ∧
    (∀ e, ¬ alive s e → exec (.tnsRead e) s = .next s ∧ exec (.syncinNsRead e) s = .next s) ∧
    -- SYNC_IN
    (∀ (rising : Bool) (ns : W64) (frac : W16),
      let chosen := i.mode ≠ 0 ∧ (i.edge = 2 ∨ i.edge = 0 ∧ rising = true ∨ i.edge = 1 ∧ rising = false)
      let lost := i.stamped = true ∧ ns.toNat * 2 ^ 16 + frac.toNat < (i.stamp.toNat + 100) * 2 ^ 16 + i.frac.toNat
      let stamped : SyncIn := { i with stamp := ns, frac := frac, seq := i.seq + 1, stamped := true }
      let leads_ := fun (f : Tim → Prop) => ∃ u : State, exec (.syncInEdge rising ns frac) s = .next u.settle ∧ f u.tim
      (¬ chosen → leads_ fun u => u = t) ∧
      (chosen → lost → leads_ fun u => u = { t with ctr := t.ctr.add 5 1 }) ∧
      (chosen → ¬ lost → i.mode ≠ 2 ∨ Vec.at t.sets 0 ≠ 2 → leads_ fun u => u = { t with syncIn := stamped }) ∧
      (chosen → ¬ lost → i.mode = 2 → Vec.at t.sets 0 = 2 → i.period.toNat ≠ 0 → i.period.toNat < 2 ^ 40 → i.phase.toNat < i.period.toNat →
        leads_ fun u => u.syncIn = stamped ∧ u.samples = t.samples + 1 ∧
          (¬ (s.pair.st = 1 ∨ s.pair.st = 3) → u.offset = u.lastOff ∧ u.offsetAt = ns.setWidth 32) ∧
          ∃ n : Int, u.lastOff.toInt = (ns.toNat - n * i.period.toNat - i.phase.toNat) * 256 + frac.toNat / 256 ∧
            -(i.period.toNat : Int) ≤ 2 * (ns.toNat - n * i.period.toNat - i.phase.toNat) ∧
            2 * (ns.toNat - n * i.period.toNat - i.phase.toNat) < (i.period.toNat : Int))) ∧
    -- SYNC_OUT
    (∀ q : Fin 2, let o := Vec.at t.syncOut q
      let now := t.t / 2 ^ 39
      let rises := fun (a : Nat) => exec (.syncOutPulse q) s = .next { s with tim := { t with syncOut := Vec.put t.syncOut q { o with
        pulses := o.pulses + 1, last := a, high := o.width.toNat, armed := false } } }
      let idle := exec (.syncOutPulse q) s = .next s
      (o.mode ≠ 1 → o.mode ≠ 3 → idle) ∧
      (∀ n : Nat, o.mode = 1 → now < 2 ^ 64 → let a := n * o.period.toNat + o.phase.toNat
        a ≤ now → now < a + o.period.toNat → (o.last < a → rises a) ∧ (a ≤ o.last → idle)) ∧
      (o.mode = 1 → now < o.phase.toNat → idle) ∧
      (o.mode = 3 → now < 2 ^ 64 → if o.armed = true ∧ o.time.toNat ≤ now then rises o.time.toNat else idle))

/-! ### Drumbeats and process images -/

/-- A word of shared memory. -/
def Sys2Proof.Claim.shmWord (m : Mem) (a : Nat) : Nat :=
  (List.range 4).foldl (fun n i => n + (memRead m (a + i)).toNat * 2 ^ (8 * i)) 0

/-- A word laid into shared memory. -/
def Sys2Proof.Claim.withWord (m : Mem) (a v : Nat) : Mem :=
  memWriteN m a ((List.range 4).map fun i => BitVec.ofNat 8 (v / 2 ^ (8 * i)))

/-- Drumbeats and the process image (R33, R34, R36, R116, R117, R120, R122, R170, R222, R263, R393, R394, R403, R534). A stopped cluster
does not beat. A drumbeat takes the number of the timebase, never one that has begun, counts what was passed over, raises
the SYNC_OUT pins set to it, sets EVP bit 0 in the cluster's engines, fills the other snapshot bank under its number, puts pending gate lists in
force from their first entry, samples the cluster's inputs and applies the FIO_DOCMD value that landed 50 ns before to its outputs, and publishes the buffer marked complete, or counts it late with a WARNING; it then
writes the CYCLE word and rings. A take copies a new publication into OUT_STATE or counts TAKE_MISS. IN_DONE marks
the fill buffer; a silent host raises PI_HOST_STALE, which its ring ends. -/
def Obligations.Drumbeats : Prop :=
  ∀ (s : State) (c : Fin 4),
    let k := Vec.at s.cl c
    let p := k.pi
    let base := p.base.toNat
    let stays := Host.Outcome.next (φ := Fault) (ρ := Refusal) s.settle
    let plain := s.shmBad = [] ∧ s.selft.shmBorrow.active = false
    -- the drumbeat
    (∀ m inputs terminals, k.st ≠ .started → exec (.drumbeat c m inputs terminals) s = .next s) ∧
    (∀ (merged : Bool) (inputs : List (List Byte)) (terminals : FieldPins), k.st = .started → k.ct ≠ 0 →
      let n : Int := ((s.ns.toNat : Int) - k.phase * 125) / (k.ct * 125)
      let next : Int := max n (k.cycle.toInt + 1)
      let missed := max merged.toNat (next - k.cycle.toInt - 1).toNat
      let cyc := (BitVec.ofInt 64 next).toNat
      ∃ u : State, exec (.drumbeat c merged inputs terminals) s = .next u.settle ∧
        (Vec.at u.cl c).cycle = BitVec.ofNat 64 cyc ∧
        (k.ival = false → (Vec.atD (Vec.at u.cl c).ctr.ival 0 0).toNat =
          min 0xFFFFFFFF ((Vec.atD k.ctr.ival 0 0).toNat + min 0xFFFFFFFF ((Vec.atD k.ctr.live 0 0).toNat + missed))) ∧
        clusterEvent s u c 0 ∧
        ((Vec.at u.cl c).snapHdr.getLsbD 31 = !k.snapHdr.getLsbD 31) ∧ fld (Vec.at u.cl c).snapHdr 0 30 = cyc % 2 ^ 30 ∧
        (s.inPair c = false → u.tim = { s.tim with syncOut := u.tim.syncOut } ∧ ∀ q : Fin 2,
          let o := Vec.at s.tim.syncOut q
          Vec.at u.tim.syncOut q = if o.mode = 2 ∧ o.cluster.toNat = c.1 then
            { o with pulses := o.pulses + 1, last := s.ns.toNat, high := o.width.toNat, armed := false } else o) ∧
        (∀ q : Fin 12, (Vec.at s.port q).owner = some c →
          let g := (Vec.at s.port q).gate
          (Vec.at u.port q).gate.active = (if g.clear then [] else match g.pending with | some l => l | none => g.active) ∧
          (Vec.at u.port q).gate.pending = none ∧ (Vec.at u.port q).gate.entry = 0) ∧
        (p.defined = false → (Vec.at u.cl c).pi = p) ∧
        (p.defined = true → p.news = [] → p.rewrite = false → plain → k.ival = false → s.inPair c = false →
            k.role ≠ some .controller ∨ k.dl.stat = none → base + 64 ≤ 2 ^ 23 →
          let hold := shmWord s.shm (base + 4)
          let other := if hold / 4 % 2 = 1 ∧ hold % 4 ≠ 3 ∧ hold % 4 ≠ p.inFill.toNat then hold % 4 else p.newest.toNat
          (p.inDone = true → ∃ f, f < 4 ∧ (p.inFill ≠ 3 → p.newest ≠ 3 → other ≠ p.inFill.toNat → f < 3 ∧ f ≠ p.inFill.toNat ∧ f ≠ other) ∧
            u.shm = withWord (withWord s.shm base (p.inFill.toNat + f * 4 + cyc % 65536 * 65536)) (base + 16) (cyc % 2 ^ 32) ∧
            (Vec.at u.cl c).pi = { p with newest := p.inFill, inFill := BitVec.ofNat 2 f, inDone := false, stale := p.stale + 1 }) ∧
          (p.inDone = false → logRoom s → u.shm = withWord (withWord s.shm (base + 24) ((p.inLate.toNat + 1) % 2 ^ 32)) (base + 16) (cyc % 2 ^ 32) ∧
            (Vec.at u.cl c).pi = { p with inLate := p.inLate + 1, stale := p.stale + 1 } ∧ logged u 0x0203 (s.objAt 10 c.1) 0) ∧
          u.hif.s2h.getLsbD (16 + c.1) = true ∧ (p.pflags.getLsbD 0 = true → u.hif.s2h.getLsbD (20 + c.1) = true))) ∧
    -- field channels at the drumbeat
    (∀ (merged : Bool) (inputs : List (List Byte)) (pins : FieldPins), k.st = .started → s.inPair c = false → s.inGap c = false →
      let now := s.ns.toNat
      let cmd := match k.docmdPast.find? fun w => decide (¬ (w.1.toNat ≤ now ∧ now < w.1.toNat + 50)) with
        | some w => w.2
        | none => k.docmdOld
      ∃ u : State, exec (.drumbeat c merged inputs pins) s = .next u.settle ∧
        (∀ d : Fin 8, let x := Vec.at s.fio.di d
          let y := Vec.at u.fio.di d
          let own := x.owner = some c
          ((Vec.at u.cl c).fioDi.getLsbD d.1 = (decide own && x.level)) ∧ ((Vec.at u.cl c).fioDi.getLsbD (8 + d.1) = (decide own && pins.di.getLsbD d.1)) ∧
          ((Vec.at u.cl c).fioDi.getLsbD (16 + d.1) = (decide own && x.chg)) ∧
          (own → y = { x with
            gateOpen := true, chg := false, gateN := 0, fedges := if x.gateOpen then x.gateN else x.fedges
            fspan := if x.gateOpen then (if x.gateN = 0 then 0 else x.gateLast - x.gateFirst) else x.fspan, ctr := y.ctr })) ∧
        (∀ d : Fin 8, let x := Vec.at s.fio.do_ d
          let y := Vec.at u.fio.do_ d
          let v := cmd.getLsbD d.1 && !(s.doShared d && decide (s.pair.st = 1))
          x.owner = some c → s.pwr.domains.getLsbD 11 = true → y.cmd = v ∧ y.faults = x.faults ∧
            (x.st.1 ≤ 3 → y.st = if v then (if x.st = 0 then 1 else x.st) else 0) ∧ (x.st = 4 ∨ x.st = 6 ∨ x.st = 7 → y.st = x.st))) ∧
    -- the take
    (p.defined = false ∨ k.st ≠ .started → exec (.piTake c) s = stays) ∧
    (p.defined = true → k.st = .started → plain → base + 64 ≤ 2 ^ 23 →
      let pub := shmWord s.shm (base + 8)
      let key := (BitVec.ofNat 2 (pub % 4), BitVec.ofNat 16 (pub / 65536))
      exec (.piTake c) s = .next (State.settle (
        if pub / 4 % 2 = 1 ∧ p.lastTake ≠ some key then
          { s with
            cl := Vec.upd s.cl c fun k => { k with pi := { p with outTaken := key.1, outValid := true, lastTake := some key } }
            shm := withWord s.shm (base + 12) (pub % 4 + 4 + pub / 65536 * 65536) }
        else
          { s with
            cl := Vec.upd s.cl c fun k => { k with pi := { p with takeMiss := p.takeMiss + 1 } }
            shm := withWord s.shm (base + 20) ((p.takeMiss.toNat + 1) % 2 ^ 32) }))) ∧
    -- the marks and the watchdog
    (∀ e, alive s e → clOf e = c → exec (.inDone e) s = .next (State.settle (s.updCl c fun k =>
      if p.defined then { k with pi := { p with inDone := true } } else k))) ∧
    (let due := p.defined = true ∧ k.st = .started ∧ p.watchdog ≠ 0 ∧ p.watchdog.toNat ≤ p.stale ∧ p.staleWarn = false
     (¬ due → exec (.piHostStale c) s = stays) ∧
     (due → logRoom s → reports (.piHostStale c) s (s.updCl c fun k => { k with pi := { p with staleWarn := true } }) 0x0204 (s.objAt 10 c.1))) ∧
    (hostUp s → s.pwr.phase = .run → (p.defined = false → p.staleWarn = false → ∃ u : State, exec (.outputPublishRing c) s = .next u ∧ reported s u) ∧
      (p.defined = true ∨ p.staleWarn = true → ∃ u : State, exec (.outputPublishRing c) s = .next u ∧
        reported (s.updCl c fun k => { k with pi := { p with stale := 0, staleWarn := false } }) u))

/-! ### Completion -/

/-- Where the remaining commands complete, under conditions on the state and the operands alone: the register writes of the
host once its interface is served (R45, R46, R74, R75); the halves of the parallel bus and the SPI transactions on
registers without side effects and on shared memory (R52–R57); each PIO instruction in RUN at the word that PIMEM
holds at PC, where nothing makes it stall (R375, R378, R379); the servo's commands with a sample posted or taken, a
source lost and a slew running (R215, R217, R220, R223); and a held step, a due milestone, an edge of SYNC_IN, a pulse
of SYNC_OUT and the reads of TNS and SYNCIN_NS (R201, R221, R229, R232, R233). -/
def Obligations.CommandsComplete : Prop :=
  -- the host's registers
  (∀ (s : State) (v : W32), s.hostServed →
    (∃ t, exec (.hifStatWrite v) s = .next t ∧ t.hif.stat = s.hif.stat &&& ~~~(v.setWidth 6) ∧ t.hif.errcnt = 0) ∧
    ∃ t, exec (.intStatusWrite v) s = .next t ∧ t.hif.stchg = (s.hif.stchg && !v.getLsbD 2)) ∧
  (∀ (s : State) (v : W32) (b : Fin 8), hostUp s →
    (∃ t, exec (.dbS2hClear v) s = .next t ∧ t.hif.s2h = s.hif.s2h &&& ~~~v) ∧
    (∃ t, exec (.dbS2hMaskWrite v) s = .next t ∧ t.hif.s2hMask = v) ∧
    (∃ t, exec (.dbH2sFutureRing b) s = .next t ∧ t.hif = s.hif) ∧
    exec (.registerWrite (.bar0 .host 0x618 15 v)) s = .next { s with hif := { s.hif with s2hWake := v } }) ∧
  -- the buses
  (∀ (s : State) (off : BitVec 23) (v : W16), s.hostOn 1 → s.unhealthy = false → off.toNat < 0x400 →
    (∃ t, exec (.parLowHalfRead false off) s = .next t ∧ t.hif.parHold = s.bar0Reg (off.toNat / 4 * 4) ∧ t.hif.berr = false) ∧
    (∃ t, exec (.parHighHalfRead false off) s = .next t ∧ t.hif.hd.toNat = s.hif.parHold.toNat / 0x10000 ∧ t.hif.berr = false) ∧
    ∃ t, exec (.parLowHalfWrite false off 3 v) s = .next t ∧ t.hif.parLow = some ⟨BitVec.ofNat 23 (off.toNat / 4 * 4), v⟩) ∧
  (∀ (s : State) (v lo : W16), s.hostOn 1 → s.live → s.hif.parLow = some ⟨0x618, lo⟩ →
    ∃ t, exec (.parHighHalfWrite false 0x618 3 v) s = .next t ∧ t.hif.s2hWake = v ++ lo ∧ t.hif.parLow = none) ∧
  (∀ (s : State) (drained : Bool) (b : Byte) (sent : Nat), s.hostOn 2 →
    (∃ t, exec (.read0 0 0) s = .next t ∧ t.hif.spiOut = [s.bar0Reg 0] ∧ t.hif.rerr = false) ∧
    (∃ t, exec (.spiStatus drained) s = .next t ∧ t.hif.spiPrevErr = false ∧ t.hif.spiBusy = (s.hif.spiBusy && !drained)) ∧
    (b ∉ [0x30, 0x31, 0x38, 0x39, 0x05] → ∃ t, exec (.spiBadCommand b) s = .next t ∧ t.hif.stat = s.hif.stat ||| 16) ∧
    (∃ t, exec (.spiCsNRise (.read sent)) s = .next t ∧ t.hif.spiOut = s.hif.spiOut.take sent) ∧
    ((s.hif.spiBusy = false ∨ drained) → s.live → ∀ w, ∃ t, exec (.write0 drained 0x618 [w]) s = .next t ∧
      t.hif.s2hWake = w ∧ t.hif.spiBusy = true)) ∧
  (∀ (s : State) (drained : Bool) (addr : BitVec 24) (w : W32), s.hostOn 2 → plainShm s →
    let off := addr.toNat % 0x800000 / 4 * 4
    (∃ t, exec (.read1 addr 0) s = .next t ∧ t.hif.spiOut = [memWord s.shm off]) ∧
    (s.hif.spiBusy = false ∨ drained → mayWrite s off ((leBytes 4 w.toNat).map some) →
      ∃ t, exec (.write1 drained addr [w]) s = .next t ∧ t.shm = memWriteN s.shm off (leBytes 4 w.toNat) ∧ t.hif.spiBusy = true)) ∧
  -- the PIO instructions
  (∀ (s : State) (i : Instr) (k : Fin 8) (op : Nat) (o : BitVec 28) (raw : List PinTick), pioRow i = some (k, op, o, raw) →
    let x := Vec.at s.pio k
    let ticks := raw.map (sampled x)
    x.st = 2 → x.stallc = 0 → x.pc.toNat < 48 → Vec.atD x.pimem x.pc.toNat 0 = BitVec.ofNat 32 (op * 2 ^ 28 + o.toNat) →
    ¬ invalidPio op o →
    (op = 1 → o.getLsbD 12 = false ∧ (o.getLsbD 21 = false ∨ o.getLsbD 22 = false)) →
    (op = 2 → x.txq ≠ []) → (op = 3 → roomFor s x) →
    (op = 4 ∨ op = 5 → x.tcnt.toNat ≤ 1 ∧ (op = 4 → o.getLsbD 20 = true)) →
    ∃ t, exec i s = .next t ∧ (Vec.at t.pio k).st = 2 ∧ (Vec.at t.pio k).stallc = 0 ∧
      (op ≠ 6 → (Vec.at t.pio k).pc = x.pc + 1) ∧
      (op = 6 → fld o 24 4 = 0 → (Vec.at t.pio k).pc = BitVec.ofNat 6 (fld o 0 6)) ∧
      (op = 2 → x.txq = (Vec.at t.pio k).sr :: (Vec.at t.pio k).txq) ∧
      (op = 3 → (Vec.at t.pio k).sr = 0 ∧ (Vec.at t.pio k).bc = 0) ∧
      (op = 5 → o.getLsbD 27 = true → (Vec.at t.pio k).tcnt = x.tcmp) ∧
      (op = 8 → fld o 25 3 = 0 → (Vec.at t.pio k).lc0.toNat = fld o 0 16) ∧
      (op = 9 → (Vec.at t.pio k).pflag = x.pflag ||| BitVec.ofNat 8 (2 ^ fld o 0 3)) ∧
      (op = 10 → fld o 26 2 = 1 → (Vec.at t.pio k).sr = ~~~x.sr)) ∧
  -- the servo
  (∀ s : State,
    let tim := s.tim
    (∀ (e : Fin 16) (n : Bool), alive s e → Vec.at tim.sets 0 = 1 → Vec.at tim.sets 1 = BitVec.ofNat 64 (clOf e).1 →
      tim.stoppedSrc = false → ∃ t, exec (.tsmpPost e (if n then 3 else 1)) s = .next (State.settle t) ∧
        (Vec.at t.cl (clOf e)).tsBusy = true ∧ ∃ x, (Vec.at t.cl (clOf e)).tsSample = some x ∧ x.newSrc = n) ∧
    (∀ (c : Fin 4) (x : Sample), (Vec.at s.cl c).tsSample = some x →
      ∃ t, exec (.servoSampleTaken c) s = .next (State.settle t) ∧ t.tim.lastOff = x.off ∧ t.tim.samples = tim.samples + 1 ∧
        (Vec.at t.cl c).tsBusy = false) ∧
    (tim.st ≠ 0 → ∃ t, exec .srcTimeout s = .next (State.settle t) ∧ t.tim.st = 4) ∧
    (∃ t, exec .slewEnd s = .next (State.settle t) ∧ t.tim.slewLeft = 0)) ∧
  -- the events of the time unit
  (∀ s : State,
    let tim := s.tim
    let now := tim.t / 2 ^ 39
    (exec .stepHoldEnd s = .next { s with tim := { tim with stepHold := 0 } }) ∧
    (∀ e : Fin 16, let g := Vec.at s.eng e
      g.milestone = true → 0 ≤ (BitVec.ofNat 32 now - g.ms).toInt → g.wait = .none → g.run = true →
        ∃ t, exec (.milestoneFire e g.arm) s = .next t ∧ (Vec.at t.eng e).milestone = false ∧ (Vec.at t.eng e).evp = g.evp ||| 2) ∧
    (∀ e : Fin 16, alive s e →
      (∃ t, exec (.tnsRead e) s = .next (State.settle t) ∧ (Vec.at t.eng e).tnsHi = BitVec.ofNat 32 (now / 2 ^ 32) ∧
        (Vec.at t.eng e).tnsFrac = BitVec.ofNat 16 (tim.t / 2 ^ 23)) ∧
      ∃ t, exec (.syncinNsRead e) s = .next (State.settle t) ∧
        (Vec.at t.eng e).syncAux = BitVec.ofNat 32 (tim.syncIn.seq.toNat * 2 ^ 16 + tim.syncIn.frac.toNat)) ∧
    (∀ (rising : Bool) (ns : W64) (frac : W16), tim.syncIn.mode = 1 → tim.syncIn.edge = 2 → tim.syncIn.stamped = false →
      ∃ t, exec (.syncInEdge rising ns frac) s = .next (State.settle t) ∧ t.tim.syncIn.stamp = ns ∧ t.tim.syncIn.frac = frac ∧
        t.tim.syncIn.seq = tim.syncIn.seq + 1) ∧
    (∀ q : Fin 2, let o := Vec.at tim.syncOut q
      o.mode = 3 → o.armed = true → o.time.toNat ≤ now → now < 2 ^ 64 →
        ∃ t, exec (.syncOutPulse q) s = .next t ∧ (Vec.at t.tim.syncOut q).pulses = o.pulses + 1 ∧
          (Vec.at t.tim.syncOut q).armed = false))
end

