-- ==== Sys2Proof/Laws/Memory.lean ====
section
/-!
SUPPORT. The sparse memories: a read after a write, the octets a write leaves alone, and that every memory operation
keeps the canonical form.
-/
namespace Sys2Proof.Machine

/-! ### Reads after writes -/

theorem memRead_above {m : Mem} : ∀ {lo a : Nat}, memWfFrom (some lo) m = true → a ≤ lo → memRead m a = 0 := by
  induction m with
  | nil => intros; rfl
  | cons e r ih =>
    intro lo a h ha
    obtain ⟨k, v⟩ := e
    simp only [memWfFrom, Bool.and_eq_true, decide_eq_true_eq] at h
    have hk : k ≠ a := by omega
    simp only [memRead, hk, if_false]
    exact ih h.2 (by omega)

theorem memRead_memWrite_same (m : Mem) (a : Nat) (b : Byte) (h : memWf m = true) : memRead (memWrite m a b) a = b := by
  have key : ∀ lo, memWfFrom lo m = true → memRead (memWrite m a b) a = b := by
    clear h
    induction m with
    | nil =>
      intro lo _
      simp only [memWrite]
      split
      · next hb => rw [hb]; rfl
      · simp [memRead]
    | cons e r ih =>
      intro lo h
      obtain ⟨k, v⟩ := e
      simp only [memWfFrom, Bool.and_eq_true] at h
      simp only [memWrite]
      split
      · next hlt =>
        have hk : k ≠ a := by omega
        simp only [memRead, hk, if_false]
        exact ih _ h.2
      · split
        · next heq =>
          subst heq
          split
          · next hb => rw [hb]; exact memRead_above h.2 (Nat.le_refl _)
          · simp [memRead]
        · next hn hne =>
          split
          · next hb =>
            simp only [memRead, hne, if_false, hb]
            exact memRead_above h.2 (by omega)
          · simp [memRead]
  exact key none h

theorem memRead_memWrite_other (m : Mem) {a c : Nat} (b : Byte) (h : c ≠ a) : memRead (memWrite m a b) c = memRead m c := by
  induction m with
  | nil =>
    simp only [memWrite]
    split
    · rfl
    · simp [memRead, Ne.symm h]
  | cons e r ih =>
    obtain ⟨k, v⟩ := e
    simp only [memWrite]
    split
    · simp only [memRead, ih]
    · split
      · next heq =>
        subst heq
        split <;> simp [memRead, Ne.symm h]
      · split
        · rfl
        · simp [memRead, Ne.symm h]

/-- A write of consecutive octets leaves every other octet alone. -/
theorem memRead_memWriteN_other (bs : List Byte) : ∀ (m : Mem) {a c : Nat}, (c < a ∨ a + bs.length ≤ c) →
    memRead (memWriteN m a bs) c = memRead m c := by
  induction bs with
  | nil => intros; rfl
  | cons b r ih =>
    intro m a c h
    simp only [List.length_cons] at h
    simp only [memWriteN]
    rw [ih _ (by omega), memRead_memWrite_other _ _ (by omega)]

/-! ### The canonical form -/

theorem memWfFrom_weaken {m : Mem} {lo lo' : Nat} (h : memWfFrom (some lo) m = true) (hl : lo' ≤ lo) :
    memWfFrom (some lo') m = true := by
  cases m with
  | nil => rfl
  | cons e r =>
    obtain ⟨k, v⟩ := e
    simp only [memWfFrom, Bool.and_eq_true, decide_eq_true_eq] at h ⊢
    exact ⟨⟨by omega, h.1.2⟩, h.2⟩

theorem memWf_of_from {m : Mem} {lo : Option Nat} (h : memWfFrom lo m = true) : memWf m = true := by
  cases m with
  | nil => rfl
  | cons e r =>
    obtain ⟨k, v⟩ := e
    simp only [memWf, memWfFrom, Bool.and_eq_true, Bool.true_and] at h ⊢
    exact ⟨by simpa using h.1.2, h.2⟩

theorem memWrite_wfFrom (m : Mem) (a : Nat) (b : Byte) : ∀ lo : Option Nat,
    (∀ l, lo = some l → l < a) → memWfFrom lo m = true → memWfFrom lo (memWrite m a b) = true := by
  induction m with
  | nil =>
    intro lo hlo _
    simp only [memWrite]
    split
    · rfl
    · next hb =>
      cases lo with
      | none => simp only [memWfFrom, hb, ne_eq, not_false_eq_true, decide_true, Bool.and_self]
      | some l => simp only [memWfFrom, hb, hlo l rfl, ne_eq, not_false_eq_true, decide_true, Bool.and_self]
  | cons e r ih =>
    intro lo hlo h
    obtain ⟨k, v⟩ := e
    have h' := h
    simp only [memWfFrom, Bool.and_eq_true] at h
    simp only [memWrite]
    split
    · next hlt =>
      simp only [memWfFrom, Bool.and_eq_true]
      exact ⟨h.1, ih _ (by rintro l ⟨⟩; exact hlt) h.2⟩
    · split
      · next hn heq =>
        subst heq
        split
        · cases lo with
          | none => exact memWf_of_from h.2
          | some l => exact memWfFrom_weaken h.2 (Nat.le_of_lt (hlo l rfl))
        · next hb =>
          simp only [memWfFrom, Bool.and_eq_true]
          exact ⟨⟨h.1.1, by simpa using hb⟩, h.2⟩
      · next hn hne =>
        split
        · exact h'
        · next hb =>
          have hak : a < k := by omega
          cases lo with
          | none => simp only [memWfFrom, Bool.and_eq_true, decide_eq_true_eq] at h ⊢; exact ⟨⟨trivial, hb⟩, ⟨hak, h.1.2⟩, h.2⟩
          | some l =>
            simp only [memWfFrom, Bool.and_eq_true, decide_eq_true_eq] at h ⊢
            exact ⟨⟨hlo l rfl, hb⟩, ⟨hak, h.1.2⟩, h.2⟩

@[simp] theorem memWrite_wf {m : Mem} (a : Nat) (b : Byte) (h : memWf m = true) : memWf (memWrite m a b) = true :=
  memWrite_wfFrom m a b none (by intro l hl; cases hl) h

@[simp] theorem memWriteN_wf (bs : List Byte) : ∀ {m : Mem} (a : Nat), memWf m = true → memWf (memWriteN m a bs) = true := by
  induction bs with
  | nil => intro m a h; exact h
  | cons b r ih => intro m a h; exact ih _ (memWrite_wf a b h)

@[simp] theorem memWriteLanes_wf (bs : List (Option Byte)) :
    ∀ {m : Mem} (a : Nat), memWf m = true → memWf (memWriteLanes m a bs) = true := by
  induction bs with
  | nil => intro m a h; exact h
  | cons b r ih =>
    intro m a h
    cases b with
    | none => exact ih _ h
    | some b => exact ih _ (memWrite_wf a b h)

@[simp] theorem memPutWord_wf {m : Mem} (a : Nat) (v : W32) (h : memWf m = true) : memWf (memPutWord m a v) = true :=
  memWriteN_wf _ a h

theorem filter_wfFrom (p : Host.Cell → Bool) (m : Mem) : ∀ lo : Option Nat, memWfFrom lo m = true →
    memWfFrom lo (m.filter p) = true := by
  induction m with
  | nil => intro lo h; exact h
  | cons e r ih =>
    intro lo h
    obtain ⟨k, v⟩ := e
    simp only [memWfFrom, Bool.and_eq_true] at h
    by_cases hp : p (k, v) = true
    · simp only [List.filter_cons, hp, if_true, memWfFrom, Bool.and_eq_true]
      exact ⟨h.1, ih _ h.2⟩
    · simp only [List.filter_cons, hp]
      have := ih _ h.2
      cases lo with
      | none => exact memWf_of_from this
      | some l =>
        refine memWfFrom_weaken this ?_
        have := h.1.1
        simp only [decide_eq_true_eq] at this
        omega

@[simp] theorem memClear_wf {m : Mem} (a n : Nat) (h : memWf m = true) : memWf (memClear m a n) = true :=
  filter_wfFrom _ m none h

@[simp] theorem memWf_nil : memWf [] = true := rfl

end Sys2Proof.Machine
end

