-- ==== Sys2Proof/Laws/State.lean ====
section
/-!
SUPPORT. What each named update of the state leaves in each field, and how tables read after an update.
-/
namespace Sys2Proof

/-! ### Tables -/

theorem Vec.at_put_same {α : Type} {n : Nat} (v : Vec α n) (i : Fin n) (x : α) : Vec.at (Vec.put v i x) i = x := by
  simp [Vec.at, Vec.put]

theorem Vec.at_put_other {α : Type} {n : Nat} (v : Vec α n) {i j : Fin n} (x : α) (h : j ≠ i) :
    Vec.at (Vec.put v i x) j = Vec.at v j := by
  have : i.1 ≠ j.1 := fun e => h (Fin.ext e.symm)
  simp [Vec.at, Vec.put, this]

@[simp] theorem Vec.at_upd_same {α : Type} {n : Nat} (v : Vec α n) (i : Fin n) (f : α → α) :
    Vec.at (Vec.upd v i f) i = f (Vec.at v i) := Vec.at_put_same v i _

theorem Vec.at_upd_other {α : Type} {n : Nat} (v : Vec α n) {i j : Fin n} (f : α → α) (h : j ≠ i) :
    Vec.at (Vec.upd v i f) j = Vec.at v j := Vec.at_put_other v _ h

theorem Vec.at_upd {α : Type} {n : Nat} (v : Vec α n) (i j : Fin n) (f : α → α) :
    Vec.at (Vec.upd v i f) j = if j = i then f (Vec.at v i) else Vec.at v j := by
  split
  · next h => subst h; simp
  · next h => exact Vec.at_upd_other v f h

@[simp] theorem Vec.at_fill {α : Type} {n : Nat} (x : α) (i : Fin n) : Vec.at (Vec.fill n x) i = x := by
  simp [Vec.at, Vec.fill]

theorem Vec.atD_updN_same {α : Type} {n : Nat} (v : Vec α n) {i : Nat} (f : α → α) (d : α) (h : i < n) :
    Vec.atD (Vec.updN v i f) i d = f (Vec.atD v i d) := by
  simp [Vec.atD, Vec.updN, h]

theorem Vec.atD_updN_other {α : Type} {n : Nat} (v : Vec α n) {i j : Nat} (f : α → α) (d : α) (h : j ≠ i) :
    Vec.atD (Vec.updN v i f) j d = Vec.atD v j d := by
  unfold Vec.updN
  split
  · unfold Vec.atD
    rw [Vector.getElem?_set_ne]
    exact fun e => h e.symm
  · rfl

end Sys2Proof

namespace Sys2Proof.Machine
variable (s : State)

/-! ### updCl -/

@[simp] theorem State.updCl_pending (c : Fin 4) (f : Cluster → Cluster) : (s.updCl c f).pending = s.pending := rfl
@[simp] theorem State.updCl_free (c : Fin 4) (f : Cluster → Cluster) : (s.updCl c f).free = s.free := rfl
@[simp] theorem State.updCl_pwr (c : Fin 4) (f : Cluster → Cluster) : (s.updCl c f).pwr = s.pwr := rfl
@[simp] theorem State.updCl_hif (c : Fin 4) (f : Cluster → Cluster) : (s.updCl c f).hif = s.hif := rfl
@[simp] theorem State.updCl_mbx (c : Fin 4) (f : Cluster → Cluster) : (s.updCl c f).mbx = s.mbx := rfl
@[simp] theorem State.updCl_emb (c : Fin 4) (f : Cluster → Cluster) : (s.updCl c f).emb = s.emb := rfl
@[simp] theorem State.updCl_sup (c : Fin 4) (f : Cluster → Cluster) : (s.updCl c f).sup = s.sup := rfl
@[simp] theorem State.updCl_group (c : Fin 4) (f : Cluster → Cluster) : (s.updCl c f).group = s.group := rfl
@[simp] theorem State.updCl_cl (c : Fin 4) (f : Cluster → Cluster) : (s.updCl c f).cl = Vec.upd s.cl c f := rfl
@[simp] theorem State.updCl_eng (c : Fin 4) (f : Cluster → Cluster) : (s.updCl c f).eng = s.eng := rfl
@[simp] theorem State.updCl_hq (c : Fin 4) (f : Cluster → Cluster) : (s.updCl c f).hq = s.hq := rfl
@[simp] theorem State.updCl_port (c : Fin 4) (f : Cluster → Cluster) : (s.updCl c f).port = s.port := rfl
@[simp] theorem State.updCl_prp (c : Fin 4) (f : Cluster → Cluster) : (s.updCl c f).prp = s.prp := rfl
@[simp] theorem State.updCl_can (c : Fin 4) (f : Cluster → Cluster) : (s.updCl c f).can = s.can := rfl
@[simp] theorem State.updCl_pio (c : Fin 4) (f : Cluster → Cluster) : (s.updCl c f).pio = s.pio := rfl
@[simp] theorem State.updCl_gpIn (c : Fin 4) (f : Cluster → Cluster) : (s.updCl c f).gpIn = s.gpIn := rfl
@[simp] theorem State.updCl_gpAt (c : Fin 4) (f : Cluster → Cluster) : (s.updCl c f).gpAt = s.gpAt := rfl
@[simp] theorem State.updCl_fio (c : Fin 4) (f : Cluster → Cluster) : (s.updCl c f).fio = s.fio := rfl
@[simp] theorem State.updCl_tim (c : Fin 4) (f : Cluster → Cluster) : (s.updCl c f).tim = s.tim := rfl
@[simp] theorem State.updCl_pair (c : Fin 4) (f : Cluster → Cluster) : (s.updCl c f).pair = s.pair := rfl
@[simp] theorem State.updCl_selft (c : Fin 4) (f : Cluster → Cluster) : (s.updCl c f).selft = s.selft := rfl
@[simp] theorem State.updCl_shm (c : Fin 4) (f : Cluster → Cluster) : (s.updCl c f).shm = s.shm := rfl
@[simp] theorem State.updCl_shmBad (c : Fin 4) (f : Cluster → Cluster) : (s.updCl c f).shmBad = s.shmBad := rfl
@[simp] theorem State.updCl_modCtr (c : Fin 4) (f : Cluster → Cluster) : (s.updCl c f).modCtr = s.modCtr := rfl

/-! ### updEng -/

@[simp] theorem State.updEng_pending (e : Fin 16) (f : Engine → Engine) : (s.updEng e f).pending = s.pending := rfl
@[simp] theorem State.updEng_free (e : Fin 16) (f : Engine → Engine) : (s.updEng e f).free = s.free := rfl
@[simp] theorem State.updEng_pwr (e : Fin 16) (f : Engine → Engine) : (s.updEng e f).pwr = s.pwr := rfl
@[simp] theorem State.updEng_hif (e : Fin 16) (f : Engine → Engine) : (s.updEng e f).hif = s.hif := rfl
@[simp] theorem State.updEng_mbx (e : Fin 16) (f : Engine → Engine) : (s.updEng e f).mbx = s.mbx := rfl
@[simp] theorem State.updEng_emb (e : Fin 16) (f : Engine → Engine) : (s.updEng e f).emb = s.emb := rfl
@[simp] theorem State.updEng_sup (e : Fin 16) (f : Engine → Engine) : (s.updEng e f).sup = s.sup := rfl
@[simp] theorem State.updEng_group (e : Fin 16) (f : Engine → Engine) : (s.updEng e f).group = s.group := rfl
@[simp] theorem State.updEng_cl (e : Fin 16) (f : Engine → Engine) : (s.updEng e f).cl = s.cl := rfl
@[simp] theorem State.updEng_eng (e : Fin 16) (f : Engine → Engine) : (s.updEng e f).eng = Vec.upd s.eng e f := rfl
@[simp] theorem State.updEng_hq (e : Fin 16) (f : Engine → Engine) : (s.updEng e f).hq = s.hq := rfl
@[simp] theorem State.updEng_port (e : Fin 16) (f : Engine → Engine) : (s.updEng e f).port = s.port := rfl
@[simp] theorem State.updEng_prp (e : Fin 16) (f : Engine → Engine) : (s.updEng e f).prp = s.prp := rfl
@[simp] theorem State.updEng_can (e : Fin 16) (f : Engine → Engine) : (s.updEng e f).can = s.can := rfl
@[simp] theorem State.updEng_pio (e : Fin 16) (f : Engine → Engine) : (s.updEng e f).pio = s.pio := rfl
@[simp] theorem State.updEng_gpIn (e : Fin 16) (f : Engine → Engine) : (s.updEng e f).gpIn = s.gpIn := rfl
@[simp] theorem State.updEng_gpAt (e : Fin 16) (f : Engine → Engine) : (s.updEng e f).gpAt = s.gpAt := rfl
@[simp] theorem State.updEng_fio (e : Fin 16) (f : Engine → Engine) : (s.updEng e f).fio = s.fio := rfl
@[simp] theorem State.updEng_tim (e : Fin 16) (f : Engine → Engine) : (s.updEng e f).tim = s.tim := rfl
@[simp] theorem State.updEng_pair (e : Fin 16) (f : Engine → Engine) : (s.updEng e f).pair = s.pair := rfl
@[simp] theorem State.updEng_selft (e : Fin 16) (f : Engine → Engine) : (s.updEng e f).selft = s.selft := rfl
@[simp] theorem State.updEng_shm (e : Fin 16) (f : Engine → Engine) : (s.updEng e f).shm = s.shm := rfl
@[simp] theorem State.updEng_shmBad (e : Fin 16) (f : Engine → Engine) : (s.updEng e f).shmBad = s.shmBad := rfl
@[simp] theorem State.updEng_modCtr (e : Fin 16) (f : Engine → Engine) : (s.updEng e f).modCtr = s.modCtr := rfl

/-! ### updPort -/

@[simp] theorem State.updPort_pending (p : Fin 12) (f : Port → Port) : (s.updPort p f).pending = s.pending := rfl
@[simp] theorem State.updPort_free (p : Fin 12) (f : Port → Port) : (s.updPort p f).free = s.free := rfl
@[simp] theorem State.updPort_pwr (p : Fin 12) (f : Port → Port) : (s.updPort p f).pwr = s.pwr := rfl
@[simp] theorem State.updPort_hif (p : Fin 12) (f : Port → Port) : (s.updPort p f).hif = s.hif := rfl
@[simp] theorem State.updPort_mbx (p : Fin 12) (f : Port → Port) : (s.updPort p f).mbx = s.mbx := rfl
@[simp] theorem State.updPort_emb (p : Fin 12) (f : Port → Port) : (s.updPort p f).emb = s.emb := rfl
@[simp] theorem State.updPort_sup (p : Fin 12) (f : Port → Port) : (s.updPort p f).sup = s.sup := rfl
@[simp] theorem State.updPort_group (p : Fin 12) (f : Port → Port) : (s.updPort p f).group = s.group := rfl
@[simp] theorem State.updPort_cl (p : Fin 12) (f : Port → Port) : (s.updPort p f).cl = s.cl := rfl
@[simp] theorem State.updPort_eng (p : Fin 12) (f : Port → Port) : (s.updPort p f).eng = s.eng := rfl
@[simp] theorem State.updPort_hq (p : Fin 12) (f : Port → Port) : (s.updPort p f).hq = s.hq := rfl
@[simp] theorem State.updPort_port (p : Fin 12) (f : Port → Port) : (s.updPort p f).port = Vec.upd s.port p f := rfl
@[simp] theorem State.updPort_prp (p : Fin 12) (f : Port → Port) : (s.updPort p f).prp = s.prp := rfl
@[simp] theorem State.updPort_can (p : Fin 12) (f : Port → Port) : (s.updPort p f).can = s.can := rfl
@[simp] theorem State.updPort_pio (p : Fin 12) (f : Port → Port) : (s.updPort p f).pio = s.pio := rfl
@[simp] theorem State.updPort_gpIn (p : Fin 12) (f : Port → Port) : (s.updPort p f).gpIn = s.gpIn := rfl
@[simp] theorem State.updPort_gpAt (p : Fin 12) (f : Port → Port) : (s.updPort p f).gpAt = s.gpAt := rfl
@[simp] theorem State.updPort_fio (p : Fin 12) (f : Port → Port) : (s.updPort p f).fio = s.fio := rfl
@[simp] theorem State.updPort_tim (p : Fin 12) (f : Port → Port) : (s.updPort p f).tim = s.tim := rfl
@[simp] theorem State.updPort_pair (p : Fin 12) (f : Port → Port) : (s.updPort p f).pair = s.pair := rfl
@[simp] theorem State.updPort_selft (p : Fin 12) (f : Port → Port) : (s.updPort p f).selft = s.selft := rfl
@[simp] theorem State.updPort_shm (p : Fin 12) (f : Port → Port) : (s.updPort p f).shm = s.shm := rfl
@[simp] theorem State.updPort_shmBad (p : Fin 12) (f : Port → Port) : (s.updPort p f).shmBad = s.shmBad := rfl
@[simp] theorem State.updPort_modCtr (p : Fin 12) (f : Port → Port) : (s.updPort p f).modCtr = s.modCtr := rfl

/-! ### updCan -/

@[simp] theorem State.updCan_pending (n : Fin 4) (f : Can → Can) : (s.updCan n f).pending = s.pending := rfl
@[simp] theorem State.updCan_free (n : Fin 4) (f : Can → Can) : (s.updCan n f).free = s.free := rfl
@[simp] theorem State.updCan_pwr (n : Fin 4) (f : Can → Can) : (s.updCan n f).pwr = s.pwr := rfl
@[simp] theorem State.updCan_hif (n : Fin 4) (f : Can → Can) : (s.updCan n f).hif = s.hif := rfl
@[simp] theorem State.updCan_mbx (n : Fin 4) (f : Can → Can) : (s.updCan n f).mbx = s.mbx := rfl
@[simp] theorem State.updCan_emb (n : Fin 4) (f : Can → Can) : (s.updCan n f).emb = s.emb := rfl
@[simp] theorem State.updCan_sup (n : Fin 4) (f : Can → Can) : (s.updCan n f).sup = s.sup := rfl
@[simp] theorem State.updCan_group (n : Fin 4) (f : Can → Can) : (s.updCan n f).group = s.group := rfl
@[simp] theorem State.updCan_cl (n : Fin 4) (f : Can → Can) : (s.updCan n f).cl = s.cl := rfl
@[simp] theorem State.updCan_eng (n : Fin 4) (f : Can → Can) : (s.updCan n f).eng = s.eng := rfl
@[simp] theorem State.updCan_hq (n : Fin 4) (f : Can → Can) : (s.updCan n f).hq = s.hq := rfl
@[simp] theorem State.updCan_port (n : Fin 4) (f : Can → Can) : (s.updCan n f).port = s.port := rfl
@[simp] theorem State.updCan_prp (n : Fin 4) (f : Can → Can) : (s.updCan n f).prp = s.prp := rfl
@[simp] theorem State.updCan_can (n : Fin 4) (f : Can → Can) : (s.updCan n f).can = Vec.upd s.can n f := rfl
@[simp] theorem State.updCan_pio (n : Fin 4) (f : Can → Can) : (s.updCan n f).pio = s.pio := rfl
@[simp] theorem State.updCan_gpIn (n : Fin 4) (f : Can → Can) : (s.updCan n f).gpIn = s.gpIn := rfl
@[simp] theorem State.updCan_gpAt (n : Fin 4) (f : Can → Can) : (s.updCan n f).gpAt = s.gpAt := rfl
@[simp] theorem State.updCan_fio (n : Fin 4) (f : Can → Can) : (s.updCan n f).fio = s.fio := rfl
@[simp] theorem State.updCan_tim (n : Fin 4) (f : Can → Can) : (s.updCan n f).tim = s.tim := rfl
@[simp] theorem State.updCan_pair (n : Fin 4) (f : Can → Can) : (s.updCan n f).pair = s.pair := rfl
@[simp] theorem State.updCan_selft (n : Fin 4) (f : Can → Can) : (s.updCan n f).selft = s.selft := rfl
@[simp] theorem State.updCan_shm (n : Fin 4) (f : Can → Can) : (s.updCan n f).shm = s.shm := rfl
@[simp] theorem State.updCan_shmBad (n : Fin 4) (f : Can → Can) : (s.updCan n f).shmBad = s.shmBad := rfl
@[simp] theorem State.updCan_modCtr (n : Fin 4) (f : Can → Can) : (s.updCan n f).modCtr = s.modCtr := rfl

/-! ### updPio -/

@[simp] theorem State.updPio_pending (k : Fin 8) (f : Pio → Pio) : (s.updPio k f).pending = s.pending := rfl
@[simp] theorem State.updPio_free (k : Fin 8) (f : Pio → Pio) : (s.updPio k f).free = s.free := rfl
@[simp] theorem State.updPio_pwr (k : Fin 8) (f : Pio → Pio) : (s.updPio k f).pwr = s.pwr := rfl
@[simp] theorem State.updPio_hif (k : Fin 8) (f : Pio → Pio) : (s.updPio k f).hif = s.hif := rfl
@[simp] theorem State.updPio_mbx (k : Fin 8) (f : Pio → Pio) : (s.updPio k f).mbx = s.mbx := rfl
@[simp] theorem State.updPio_emb (k : Fin 8) (f : Pio → Pio) : (s.updPio k f).emb = s.emb := rfl
@[simp] theorem State.updPio_sup (k : Fin 8) (f : Pio → Pio) : (s.updPio k f).sup = s.sup := rfl
@[simp] theorem State.updPio_group (k : Fin 8) (f : Pio → Pio) : (s.updPio k f).group = s.group := rfl
@[simp] theorem State.updPio_cl (k : Fin 8) (f : Pio → Pio) : (s.updPio k f).cl = s.cl := rfl
@[simp] theorem State.updPio_eng (k : Fin 8) (f : Pio → Pio) : (s.updPio k f).eng = s.eng := rfl
@[simp] theorem State.updPio_hq (k : Fin 8) (f : Pio → Pio) : (s.updPio k f).hq = s.hq := rfl
@[simp] theorem State.updPio_port (k : Fin 8) (f : Pio → Pio) : (s.updPio k f).port = s.port := rfl
@[simp] theorem State.updPio_prp (k : Fin 8) (f : Pio → Pio) : (s.updPio k f).prp = s.prp := rfl
@[simp] theorem State.updPio_can (k : Fin 8) (f : Pio → Pio) : (s.updPio k f).can = s.can := rfl
@[simp] theorem State.updPio_pio (k : Fin 8) (f : Pio → Pio) : (s.updPio k f).pio = Vec.upd s.pio k f := rfl
@[simp] theorem State.updPio_gpIn (k : Fin 8) (f : Pio → Pio) : (s.updPio k f).gpIn = s.gpIn := rfl
@[simp] theorem State.updPio_gpAt (k : Fin 8) (f : Pio → Pio) : (s.updPio k f).gpAt = s.gpAt := rfl
@[simp] theorem State.updPio_fio (k : Fin 8) (f : Pio → Pio) : (s.updPio k f).fio = s.fio := rfl
@[simp] theorem State.updPio_tim (k : Fin 8) (f : Pio → Pio) : (s.updPio k f).tim = s.tim := rfl
@[simp] theorem State.updPio_pair (k : Fin 8) (f : Pio → Pio) : (s.updPio k f).pair = s.pair := rfl
@[simp] theorem State.updPio_selft (k : Fin 8) (f : Pio → Pio) : (s.updPio k f).selft = s.selft := rfl
@[simp] theorem State.updPio_shm (k : Fin 8) (f : Pio → Pio) : (s.updPio k f).shm = s.shm := rfl
@[simp] theorem State.updPio_shmBad (k : Fin 8) (f : Pio → Pio) : (s.updPio k f).shmBad = s.shmBad := rfl
@[simp] theorem State.updPio_modCtr (k : Fin 8) (f : Pio → Pio) : (s.updPio k f).modCtr = s.modCtr := rfl

/-! ### updHq -/

@[simp] theorem State.updHq_pending (h : Fin 256) (f : HwQ → HwQ) : (s.updHq h f).pending = s.pending := rfl
@[simp] theorem State.updHq_free (h : Fin 256) (f : HwQ → HwQ) : (s.updHq h f).free = s.free := rfl
@[simp] theorem State.updHq_pwr (h : Fin 256) (f : HwQ → HwQ) : (s.updHq h f).pwr = s.pwr := rfl
@[simp] theorem State.updHq_hif (h : Fin 256) (f : HwQ → HwQ) : (s.updHq h f).hif = s.hif := rfl
@[simp] theorem State.updHq_mbx (h : Fin 256) (f : HwQ → HwQ) : (s.updHq h f).mbx = s.mbx := rfl
@[simp] theorem State.updHq_emb (h : Fin 256) (f : HwQ → HwQ) : (s.updHq h f).emb = s.emb := rfl
@[simp] theorem State.updHq_sup (h : Fin 256) (f : HwQ → HwQ) : (s.updHq h f).sup = s.sup := rfl
@[simp] theorem State.updHq_group (h : Fin 256) (f : HwQ → HwQ) : (s.updHq h f).group = s.group := rfl
@[simp] theorem State.updHq_cl (h : Fin 256) (f : HwQ → HwQ) : (s.updHq h f).cl = s.cl := rfl
@[simp] theorem State.updHq_eng (h : Fin 256) (f : HwQ → HwQ) : (s.updHq h f).eng = s.eng := rfl
@[simp] theorem State.updHq_hq (h : Fin 256) (f : HwQ → HwQ) : (s.updHq h f).hq = Vec.upd s.hq h f := rfl
@[simp] theorem State.updHq_port (h : Fin 256) (f : HwQ → HwQ) : (s.updHq h f).port = s.port := rfl
@[simp] theorem State.updHq_prp (h : Fin 256) (f : HwQ → HwQ) : (s.updHq h f).prp = s.prp := rfl
@[simp] theorem State.updHq_can (h : Fin 256) (f : HwQ → HwQ) : (s.updHq h f).can = s.can := rfl
@[simp] theorem State.updHq_pio (h : Fin 256) (f : HwQ → HwQ) : (s.updHq h f).pio = s.pio := rfl
@[simp] theorem State.updHq_gpIn (h : Fin 256) (f : HwQ → HwQ) : (s.updHq h f).gpIn = s.gpIn := rfl
@[simp] theorem State.updHq_gpAt (h : Fin 256) (f : HwQ → HwQ) : (s.updHq h f).gpAt = s.gpAt := rfl
@[simp] theorem State.updHq_fio (h : Fin 256) (f : HwQ → HwQ) : (s.updHq h f).fio = s.fio := rfl
@[simp] theorem State.updHq_tim (h : Fin 256) (f : HwQ → HwQ) : (s.updHq h f).tim = s.tim := rfl
@[simp] theorem State.updHq_pair (h : Fin 256) (f : HwQ → HwQ) : (s.updHq h f).pair = s.pair := rfl
@[simp] theorem State.updHq_selft (h : Fin 256) (f : HwQ → HwQ) : (s.updHq h f).selft = s.selft := rfl
@[simp] theorem State.updHq_shm (h : Fin 256) (f : HwQ → HwQ) : (s.updHq h f).shm = s.shm := rfl
@[simp] theorem State.updHq_shmBad (h : Fin 256) (f : HwQ → HwQ) : (s.updHq h f).shmBad = s.shmBad := rfl
@[simp] theorem State.updHq_modCtr (h : Fin 256) (f : HwQ → HwQ) : (s.updHq h f).modCtr = s.modCtr := rfl

/-! ### updMbx -/

@[simp] theorem State.updMbx_pending (n : Fin 8) (f : Mbx → Mbx) : (s.updMbx n f).pending = s.pending := rfl
@[simp] theorem State.updMbx_free (n : Fin 8) (f : Mbx → Mbx) : (s.updMbx n f).free = s.free := rfl
@[simp] theorem State.updMbx_pwr (n : Fin 8) (f : Mbx → Mbx) : (s.updMbx n f).pwr = s.pwr := rfl
@[simp] theorem State.updMbx_hif (n : Fin 8) (f : Mbx → Mbx) : (s.updMbx n f).hif = s.hif := rfl
@[simp] theorem State.updMbx_mbx (n : Fin 8) (f : Mbx → Mbx) : (s.updMbx n f).mbx = Vec.upd s.mbx n f := rfl
@[simp] theorem State.updMbx_emb (n : Fin 8) (f : Mbx → Mbx) : (s.updMbx n f).emb = s.emb := rfl
@[simp] theorem State.updMbx_sup (n : Fin 8) (f : Mbx → Mbx) : (s.updMbx n f).sup = s.sup := rfl
@[simp] theorem State.updMbx_group (n : Fin 8) (f : Mbx → Mbx) : (s.updMbx n f).group = s.group := rfl
@[simp] theorem State.updMbx_cl (n : Fin 8) (f : Mbx → Mbx) : (s.updMbx n f).cl = s.cl := rfl
@[simp] theorem State.updMbx_eng (n : Fin 8) (f : Mbx → Mbx) : (s.updMbx n f).eng = s.eng := rfl
@[simp] theorem State.updMbx_hq (n : Fin 8) (f : Mbx → Mbx) : (s.updMbx n f).hq = s.hq := rfl
@[simp] theorem State.updMbx_port (n : Fin 8) (f : Mbx → Mbx) : (s.updMbx n f).port = s.port := rfl
@[simp] theorem State.updMbx_prp (n : Fin 8) (f : Mbx → Mbx) : (s.updMbx n f).prp = s.prp := rfl
@[simp] theorem State.updMbx_can (n : Fin 8) (f : Mbx → Mbx) : (s.updMbx n f).can = s.can := rfl
@[simp] theorem State.updMbx_pio (n : Fin 8) (f : Mbx → Mbx) : (s.updMbx n f).pio = s.pio := rfl
@[simp] theorem State.updMbx_gpIn (n : Fin 8) (f : Mbx → Mbx) : (s.updMbx n f).gpIn = s.gpIn := rfl
@[simp] theorem State.updMbx_gpAt (n : Fin 8) (f : Mbx → Mbx) : (s.updMbx n f).gpAt = s.gpAt := rfl
@[simp] theorem State.updMbx_fio (n : Fin 8) (f : Mbx → Mbx) : (s.updMbx n f).fio = s.fio := rfl
@[simp] theorem State.updMbx_tim (n : Fin 8) (f : Mbx → Mbx) : (s.updMbx n f).tim = s.tim := rfl
@[simp] theorem State.updMbx_pair (n : Fin 8) (f : Mbx → Mbx) : (s.updMbx n f).pair = s.pair := rfl
@[simp] theorem State.updMbx_selft (n : Fin 8) (f : Mbx → Mbx) : (s.updMbx n f).selft = s.selft := rfl
@[simp] theorem State.updMbx_shm (n : Fin 8) (f : Mbx → Mbx) : (s.updMbx n f).shm = s.shm := rfl
@[simp] theorem State.updMbx_shmBad (n : Fin 8) (f : Mbx → Mbx) : (s.updMbx n f).shmBad = s.shmBad := rfl
@[simp] theorem State.updMbx_modCtr (n : Fin 8) (f : Mbx → Mbx) : (s.updMbx n f).modCtr = s.modCtr := rfl

/-! ### updEmb -/

@[simp] theorem State.updEmb_pending (e : Fin 16) (f : Emb → Emb) : (s.updEmb e f).pending = s.pending := rfl
@[simp] theorem State.updEmb_free (e : Fin 16) (f : Emb → Emb) : (s.updEmb e f).free = s.free := rfl
@[simp] theorem State.updEmb_pwr (e : Fin 16) (f : Emb → Emb) : (s.updEmb e f).pwr = s.pwr := rfl
@[simp] theorem State.updEmb_hif (e : Fin 16) (f : Emb → Emb) : (s.updEmb e f).hif = s.hif := rfl
@[simp] theorem State.updEmb_mbx (e : Fin 16) (f : Emb → Emb) : (s.updEmb e f).mbx = s.mbx := rfl
@[simp] theorem State.updEmb_emb (e : Fin 16) (f : Emb → Emb) : (s.updEmb e f).emb = Vec.upd s.emb e f := rfl
@[simp] theorem State.updEmb_sup (e : Fin 16) (f : Emb → Emb) : (s.updEmb e f).sup = s.sup := rfl
@[simp] theorem State.updEmb_group (e : Fin 16) (f : Emb → Emb) : (s.updEmb e f).group = s.group := rfl
@[simp] theorem State.updEmb_cl (e : Fin 16) (f : Emb → Emb) : (s.updEmb e f).cl = s.cl := rfl
@[simp] theorem State.updEmb_eng (e : Fin 16) (f : Emb → Emb) : (s.updEmb e f).eng = s.eng := rfl
@[simp] theorem State.updEmb_hq (e : Fin 16) (f : Emb → Emb) : (s.updEmb e f).hq = s.hq := rfl
@[simp] theorem State.updEmb_port (e : Fin 16) (f : Emb → Emb) : (s.updEmb e f).port = s.port := rfl
@[simp] theorem State.updEmb_prp (e : Fin 16) (f : Emb → Emb) : (s.updEmb e f).prp = s.prp := rfl
@[simp] theorem State.updEmb_can (e : Fin 16) (f : Emb → Emb) : (s.updEmb e f).can = s.can := rfl
@[simp] theorem State.updEmb_pio (e : Fin 16) (f : Emb → Emb) : (s.updEmb e f).pio = s.pio := rfl
@[simp] theorem State.updEmb_gpIn (e : Fin 16) (f : Emb → Emb) : (s.updEmb e f).gpIn = s.gpIn := rfl
@[simp] theorem State.updEmb_gpAt (e : Fin 16) (f : Emb → Emb) : (s.updEmb e f).gpAt = s.gpAt := rfl
@[simp] theorem State.updEmb_fio (e : Fin 16) (f : Emb → Emb) : (s.updEmb e f).fio = s.fio := rfl
@[simp] theorem State.updEmb_tim (e : Fin 16) (f : Emb → Emb) : (s.updEmb e f).tim = s.tim := rfl
@[simp] theorem State.updEmb_pair (e : Fin 16) (f : Emb → Emb) : (s.updEmb e f).pair = s.pair := rfl
@[simp] theorem State.updEmb_selft (e : Fin 16) (f : Emb → Emb) : (s.updEmb e f).selft = s.selft := rfl
@[simp] theorem State.updEmb_shm (e : Fin 16) (f : Emb → Emb) : (s.updEmb e f).shm = s.shm := rfl
@[simp] theorem State.updEmb_shmBad (e : Fin 16) (f : Emb → Emb) : (s.updEmb e f).shmBad = s.shmBad := rfl
@[simp] theorem State.updEmb_modCtr (e : Fin 16) (f : Emb → Emb) : (s.updEmb e f).modCtr = s.modCtr := rfl

/-! ### updDi -/

@[simp] theorem State.updDi_pending (d : Fin 8) (f : Din → Din) : (s.updDi d f).pending = s.pending := rfl
@[simp] theorem State.updDi_free (d : Fin 8) (f : Din → Din) : (s.updDi d f).free = s.free := rfl
@[simp] theorem State.updDi_pwr (d : Fin 8) (f : Din → Din) : (s.updDi d f).pwr = s.pwr := rfl
@[simp] theorem State.updDi_hif (d : Fin 8) (f : Din → Din) : (s.updDi d f).hif = s.hif := rfl
@[simp] theorem State.updDi_mbx (d : Fin 8) (f : Din → Din) : (s.updDi d f).mbx = s.mbx := rfl
@[simp] theorem State.updDi_emb (d : Fin 8) (f : Din → Din) : (s.updDi d f).emb = s.emb := rfl
@[simp] theorem State.updDi_sup (d : Fin 8) (f : Din → Din) : (s.updDi d f).sup = s.sup := rfl
@[simp] theorem State.updDi_group (d : Fin 8) (f : Din → Din) : (s.updDi d f).group = s.group := rfl
@[simp] theorem State.updDi_cl (d : Fin 8) (f : Din → Din) : (s.updDi d f).cl = s.cl := rfl
@[simp] theorem State.updDi_eng (d : Fin 8) (f : Din → Din) : (s.updDi d f).eng = s.eng := rfl
@[simp] theorem State.updDi_hq (d : Fin 8) (f : Din → Din) : (s.updDi d f).hq = s.hq := rfl
@[simp] theorem State.updDi_port (d : Fin 8) (f : Din → Din) : (s.updDi d f).port = s.port := rfl
@[simp] theorem State.updDi_prp (d : Fin 8) (f : Din → Din) : (s.updDi d f).prp = s.prp := rfl
@[simp] theorem State.updDi_can (d : Fin 8) (f : Din → Din) : (s.updDi d f).can = s.can := rfl
@[simp] theorem State.updDi_pio (d : Fin 8) (f : Din → Din) : (s.updDi d f).pio = s.pio := rfl
@[simp] theorem State.updDi_gpIn (d : Fin 8) (f : Din → Din) : (s.updDi d f).gpIn = s.gpIn := rfl
@[simp] theorem State.updDi_gpAt (d : Fin 8) (f : Din → Din) : (s.updDi d f).gpAt = s.gpAt := rfl
@[simp] theorem State.updDi_fio (d : Fin 8) (f : Din → Din) : (s.updDi d f).fio = { s.fio with di := Vec.upd s.fio.di d f } := rfl
@[simp] theorem State.updDi_tim (d : Fin 8) (f : Din → Din) : (s.updDi d f).tim = s.tim := rfl
@[simp] theorem State.updDi_pair (d : Fin 8) (f : Din → Din) : (s.updDi d f).pair = s.pair := rfl
@[simp] theorem State.updDi_selft (d : Fin 8) (f : Din → Din) : (s.updDi d f).selft = s.selft := rfl
@[simp] theorem State.updDi_shm (d : Fin 8) (f : Din → Din) : (s.updDi d f).shm = s.shm := rfl
@[simp] theorem State.updDi_shmBad (d : Fin 8) (f : Din → Din) : (s.updDi d f).shmBad = s.shmBad := rfl
@[simp] theorem State.updDi_modCtr (d : Fin 8) (f : Din → Din) : (s.updDi d f).modCtr = s.modCtr := rfl

/-! ### updDo -/

@[simp] theorem State.updDo_pending (d : Fin 8) (f : Dout → Dout) : (s.updDo d f).pending = s.pending := rfl
@[simp] theorem State.updDo_free (d : Fin 8) (f : Dout → Dout) : (s.updDo d f).free = s.free := rfl
@[simp] theorem State.updDo_pwr (d : Fin 8) (f : Dout → Dout) : (s.updDo d f).pwr = s.pwr := rfl
@[simp] theorem State.updDo_hif (d : Fin 8) (f : Dout → Dout) : (s.updDo d f).hif = s.hif := rfl
@[simp] theorem State.updDo_mbx (d : Fin 8) (f : Dout → Dout) : (s.updDo d f).mbx = s.mbx := rfl
@[simp] theorem State.updDo_emb (d : Fin 8) (f : Dout → Dout) : (s.updDo d f).emb = s.emb := rfl
@[simp] theorem State.updDo_sup (d : Fin 8) (f : Dout → Dout) : (s.updDo d f).sup = s.sup := rfl
@[simp] theorem State.updDo_group (d : Fin 8) (f : Dout → Dout) : (s.updDo d f).group = s.group := rfl
@[simp] theorem State.updDo_cl (d : Fin 8) (f : Dout → Dout) : (s.updDo d f).cl = s.cl := rfl
@[simp] theorem State.updDo_eng (d : Fin 8) (f : Dout → Dout) : (s.updDo d f).eng = s.eng := rfl
@[simp] theorem State.updDo_hq (d : Fin 8) (f : Dout → Dout) : (s.updDo d f).hq = s.hq := rfl
@[simp] theorem State.updDo_port (d : Fin 8) (f : Dout → Dout) : (s.updDo d f).port = s.port := rfl
@[simp] theorem State.updDo_prp (d : Fin 8) (f : Dout → Dout) : (s.updDo d f).prp = s.prp := rfl
@[simp] theorem State.updDo_can (d : Fin 8) (f : Dout → Dout) : (s.updDo d f).can = s.can := rfl
@[simp] theorem State.updDo_pio (d : Fin 8) (f : Dout → Dout) : (s.updDo d f).pio = s.pio := rfl
@[simp] theorem State.updDo_gpIn (d : Fin 8) (f : Dout → Dout) : (s.updDo d f).gpIn = s.gpIn := rfl
@[simp] theorem State.updDo_gpAt (d : Fin 8) (f : Dout → Dout) : (s.updDo d f).gpAt = s.gpAt := rfl
@[simp] theorem State.updDo_fio (d : Fin 8) (f : Dout → Dout) : (s.updDo d f).fio = { s.fio with do_ := Vec.upd s.fio.do_ d f } := rfl
@[simp] theorem State.updDo_tim (d : Fin 8) (f : Dout → Dout) : (s.updDo d f).tim = s.tim := rfl
@[simp] theorem State.updDo_pair (d : Fin 8) (f : Dout → Dout) : (s.updDo d f).pair = s.pair := rfl
@[simp] theorem State.updDo_selft (d : Fin 8) (f : Dout → Dout) : (s.updDo d f).selft = s.selft := rfl
@[simp] theorem State.updDo_shm (d : Fin 8) (f : Dout → Dout) : (s.updDo d f).shm = s.shm := rfl
@[simp] theorem State.updDo_shmBad (d : Fin 8) (f : Dout → Dout) : (s.updDo d f).shmBad = s.shmBad := rfl
@[simp] theorem State.updDo_modCtr (d : Fin 8) (f : Dout → Dout) : (s.updDo d f).modCtr = s.modCtr := rfl

/-! ### updHif -/

@[simp] theorem State.updHif_pending (f : Hif → Hif) : (s.updHif f).pending = s.pending := rfl
@[simp] theorem State.updHif_free (f : Hif → Hif) : (s.updHif f).free = s.free := rfl
@[simp] theorem State.updHif_pwr (f : Hif → Hif) : (s.updHif f).pwr = s.pwr := rfl
@[simp] theorem State.updHif_hif (f : Hif → Hif) : (s.updHif f).hif = f s.hif := rfl
@[simp] theorem State.updHif_mbx (f : Hif → Hif) : (s.updHif f).mbx = s.mbx := rfl
@[simp] theorem State.updHif_emb (f : Hif → Hif) : (s.updHif f).emb = s.emb := rfl
@[simp] theorem State.updHif_sup (f : Hif → Hif) : (s.updHif f).sup = s.sup := rfl
@[simp] theorem State.updHif_group (f : Hif → Hif) : (s.updHif f).group = s.group := rfl
@[simp] theorem State.updHif_cl (f : Hif → Hif) : (s.updHif f).cl = s.cl := rfl
@[simp] theorem State.updHif_eng (f : Hif → Hif) : (s.updHif f).eng = s.eng := rfl
@[simp] theorem State.updHif_hq (f : Hif → Hif) : (s.updHif f).hq = s.hq := rfl
@[simp] theorem State.updHif_port (f : Hif → Hif) : (s.updHif f).port = s.port := rfl
@[simp] theorem State.updHif_prp (f : Hif → Hif) : (s.updHif f).prp = s.prp := rfl
@[simp] theorem State.updHif_can (f : Hif → Hif) : (s.updHif f).can = s.can := rfl
@[simp] theorem State.updHif_pio (f : Hif → Hif) : (s.updHif f).pio = s.pio := rfl
@[simp] theorem State.updHif_gpIn (f : Hif → Hif) : (s.updHif f).gpIn = s.gpIn := rfl
@[simp] theorem State.updHif_gpAt (f : Hif → Hif) : (s.updHif f).gpAt = s.gpAt := rfl
@[simp] theorem State.updHif_fio (f : Hif → Hif) : (s.updHif f).fio = s.fio := rfl
@[simp] theorem State.updHif_tim (f : Hif → Hif) : (s.updHif f).tim = s.tim := rfl
@[simp] theorem State.updHif_pair (f : Hif → Hif) : (s.updHif f).pair = s.pair := rfl
@[simp] theorem State.updHif_selft (f : Hif → Hif) : (s.updHif f).selft = s.selft := rfl
@[simp] theorem State.updHif_shm (f : Hif → Hif) : (s.updHif f).shm = s.shm := rfl
@[simp] theorem State.updHif_shmBad (f : Hif → Hif) : (s.updHif f).shmBad = s.shmBad := rfl
@[simp] theorem State.updHif_modCtr (f : Hif → Hif) : (s.updHif f).modCtr = s.modCtr := rfl

/-! ### updSup -/

@[simp] theorem State.updSup_pending (f : Sup → Sup) : (s.updSup f).pending = s.pending := rfl
@[simp] theorem State.updSup_free (f : Sup → Sup) : (s.updSup f).free = s.free := rfl
@[simp] theorem State.updSup_pwr (f : Sup → Sup) : (s.updSup f).pwr = s.pwr := rfl
@[simp] theorem State.updSup_hif (f : Sup → Sup) : (s.updSup f).hif = s.hif := rfl
@[simp] theorem State.updSup_mbx (f : Sup → Sup) : (s.updSup f).mbx = s.mbx := rfl
@[simp] theorem State.updSup_emb (f : Sup → Sup) : (s.updSup f).emb = s.emb := rfl
@[simp] theorem State.updSup_sup (f : Sup → Sup) : (s.updSup f).sup = f s.sup := rfl
@[simp] theorem State.updSup_group (f : Sup → Sup) : (s.updSup f).group = s.group := rfl
@[simp] theorem State.updSup_cl (f : Sup → Sup) : (s.updSup f).cl = s.cl := rfl
@[simp] theorem State.updSup_eng (f : Sup → Sup) : (s.updSup f).eng = s.eng := rfl
@[simp] theorem State.updSup_hq (f : Sup → Sup) : (s.updSup f).hq = s.hq := rfl
@[simp] theorem State.updSup_port (f : Sup → Sup) : (s.updSup f).port = s.port := rfl
@[simp] theorem State.updSup_prp (f : Sup → Sup) : (s.updSup f).prp = s.prp := rfl
@[simp] theorem State.updSup_can (f : Sup → Sup) : (s.updSup f).can = s.can := rfl
@[simp] theorem State.updSup_pio (f : Sup → Sup) : (s.updSup f).pio = s.pio := rfl
@[simp] theorem State.updSup_gpIn (f : Sup → Sup) : (s.updSup f).gpIn = s.gpIn := rfl
@[simp] theorem State.updSup_gpAt (f : Sup → Sup) : (s.updSup f).gpAt = s.gpAt := rfl
@[simp] theorem State.updSup_fio (f : Sup → Sup) : (s.updSup f).fio = s.fio := rfl
@[simp] theorem State.updSup_tim (f : Sup → Sup) : (s.updSup f).tim = s.tim := rfl
@[simp] theorem State.updSup_pair (f : Sup → Sup) : (s.updSup f).pair = s.pair := rfl
@[simp] theorem State.updSup_selft (f : Sup → Sup) : (s.updSup f).selft = s.selft := rfl
@[simp] theorem State.updSup_shm (f : Sup → Sup) : (s.updSup f).shm = s.shm := rfl
@[simp] theorem State.updSup_shmBad (f : Sup → Sup) : (s.updSup f).shmBad = s.shmBad := rfl
@[simp] theorem State.updSup_modCtr (f : Sup → Sup) : (s.updSup f).modCtr = s.modCtr := rfl

/-! ### updPwr -/

@[simp] theorem State.updPwr_pending (f : Power → Power) : (s.updPwr f).pending = s.pending := rfl
@[simp] theorem State.updPwr_free (f : Power → Power) : (s.updPwr f).free = s.free := rfl
@[simp] theorem State.updPwr_pwr (f : Power → Power) : (s.updPwr f).pwr = f s.pwr := rfl
@[simp] theorem State.updPwr_hif (f : Power → Power) : (s.updPwr f).hif = s.hif := rfl
@[simp] theorem State.updPwr_mbx (f : Power → Power) : (s.updPwr f).mbx = s.mbx := rfl
@[simp] theorem State.updPwr_emb (f : Power → Power) : (s.updPwr f).emb = s.emb := rfl
@[simp] theorem State.updPwr_sup (f : Power → Power) : (s.updPwr f).sup = s.sup := rfl
@[simp] theorem State.updPwr_group (f : Power → Power) : (s.updPwr f).group = s.group := rfl
@[simp] theorem State.updPwr_cl (f : Power → Power) : (s.updPwr f).cl = s.cl := rfl
@[simp] theorem State.updPwr_eng (f : Power → Power) : (s.updPwr f).eng = s.eng := rfl
@[simp] theorem State.updPwr_hq (f : Power → Power) : (s.updPwr f).hq = s.hq := rfl
@[simp] theorem State.updPwr_port (f : Power → Power) : (s.updPwr f).port = s.port := rfl
@[simp] theorem State.updPwr_prp (f : Power → Power) : (s.updPwr f).prp = s.prp := rfl
@[simp] theorem State.updPwr_can (f : Power → Power) : (s.updPwr f).can = s.can := rfl
@[simp] theorem State.updPwr_pio (f : Power → Power) : (s.updPwr f).pio = s.pio := rfl
@[simp] theorem State.updPwr_gpIn (f : Power → Power) : (s.updPwr f).gpIn = s.gpIn := rfl
@[simp] theorem State.updPwr_gpAt (f : Power → Power) : (s.updPwr f).gpAt = s.gpAt := rfl
@[simp] theorem State.updPwr_fio (f : Power → Power) : (s.updPwr f).fio = s.fio := rfl
@[simp] theorem State.updPwr_tim (f : Power → Power) : (s.updPwr f).tim = s.tim := rfl
@[simp] theorem State.updPwr_pair (f : Power → Power) : (s.updPwr f).pair = s.pair := rfl
@[simp] theorem State.updPwr_selft (f : Power → Power) : (s.updPwr f).selft = s.selft := rfl
@[simp] theorem State.updPwr_shm (f : Power → Power) : (s.updPwr f).shm = s.shm := rfl
@[simp] theorem State.updPwr_shmBad (f : Power → Power) : (s.updPwr f).shmBad = s.shmBad := rfl
@[simp] theorem State.updPwr_modCtr (f : Power → Power) : (s.updPwr f).modCtr = s.modCtr := rfl

/-! ### updTim -/

@[simp] theorem State.updTim_pending (f : Tim → Tim) : (s.updTim f).pending = s.pending := rfl
@[simp] theorem State.updTim_free (f : Tim → Tim) : (s.updTim f).free = s.free := rfl
@[simp] theorem State.updTim_pwr (f : Tim → Tim) : (s.updTim f).pwr = s.pwr := rfl
@[simp] theorem State.updTim_hif (f : Tim → Tim) : (s.updTim f).hif = s.hif := rfl
@[simp] theorem State.updTim_mbx (f : Tim → Tim) : (s.updTim f).mbx = s.mbx := rfl
@[simp] theorem State.updTim_emb (f : Tim → Tim) : (s.updTim f).emb = s.emb := rfl
@[simp] theorem State.updTim_sup (f : Tim → Tim) : (s.updTim f).sup = s.sup := rfl
@[simp] theorem State.updTim_group (f : Tim → Tim) : (s.updTim f).group = s.group := rfl
@[simp] theorem State.updTim_cl (f : Tim → Tim) : (s.updTim f).cl = s.cl := rfl
@[simp] theorem State.updTim_eng (f : Tim → Tim) : (s.updTim f).eng = s.eng := rfl
@[simp] theorem State.updTim_hq (f : Tim → Tim) : (s.updTim f).hq = s.hq := rfl
@[simp] theorem State.updTim_port (f : Tim → Tim) : (s.updTim f).port = s.port := rfl
@[simp] theorem State.updTim_prp (f : Tim → Tim) : (s.updTim f).prp = s.prp := rfl
@[simp] theorem State.updTim_can (f : Tim → Tim) : (s.updTim f).can = s.can := rfl
@[simp] theorem State.updTim_pio (f : Tim → Tim) : (s.updTim f).pio = s.pio := rfl
@[simp] theorem State.updTim_gpIn (f : Tim → Tim) : (s.updTim f).gpIn = s.gpIn := rfl
@[simp] theorem State.updTim_gpAt (f : Tim → Tim) : (s.updTim f).gpAt = s.gpAt := rfl
@[simp] theorem State.updTim_fio (f : Tim → Tim) : (s.updTim f).fio = s.fio := rfl
@[simp] theorem State.updTim_tim (f : Tim → Tim) : (s.updTim f).tim = f s.tim := rfl
@[simp] theorem State.updTim_pair (f : Tim → Tim) : (s.updTim f).pair = s.pair := rfl
@[simp] theorem State.updTim_selft (f : Tim → Tim) : (s.updTim f).selft = s.selft := rfl
@[simp] theorem State.updTim_shm (f : Tim → Tim) : (s.updTim f).shm = s.shm := rfl
@[simp] theorem State.updTim_shmBad (f : Tim → Tim) : (s.updTim f).shmBad = s.shmBad := rfl
@[simp] theorem State.updTim_modCtr (f : Tim → Tim) : (s.updTim f).modCtr = s.modCtr := rfl

/-! ### updPair -/

@[simp] theorem State.updPair_pending (f : Pair → Pair) : (s.updPair f).pending = s.pending := rfl
@[simp] theorem State.updPair_free (f : Pair → Pair) : (s.updPair f).free = s.free := rfl
@[simp] theorem State.updPair_pwr (f : Pair → Pair) : (s.updPair f).pwr = s.pwr := rfl
@[simp] theorem State.updPair_hif (f : Pair → Pair) : (s.updPair f).hif = s.hif := rfl
@[simp] theorem State.updPair_mbx (f : Pair → Pair) : (s.updPair f).mbx = s.mbx := rfl
@[simp] theorem State.updPair_emb (f : Pair → Pair) : (s.updPair f).emb = s.emb := rfl
@[simp] theorem State.updPair_sup (f : Pair → Pair) : (s.updPair f).sup = s.sup := rfl
@[simp] theorem State.updPair_group (f : Pair → Pair) : (s.updPair f).group = s.group := rfl
@[simp] theorem State.updPair_cl (f : Pair → Pair) : (s.updPair f).cl = s.cl := rfl
@[simp] theorem State.updPair_eng (f : Pair → Pair) : (s.updPair f).eng = s.eng := rfl
@[simp] theorem State.updPair_hq (f : Pair → Pair) : (s.updPair f).hq = s.hq := rfl
@[simp] theorem State.updPair_port (f : Pair → Pair) : (s.updPair f).port = s.port := rfl
@[simp] theorem State.updPair_prp (f : Pair → Pair) : (s.updPair f).prp = s.prp := rfl
@[simp] theorem State.updPair_can (f : Pair → Pair) : (s.updPair f).can = s.can := rfl
@[simp] theorem State.updPair_pio (f : Pair → Pair) : (s.updPair f).pio = s.pio := rfl
@[simp] theorem State.updPair_gpIn (f : Pair → Pair) : (s.updPair f).gpIn = s.gpIn := rfl
@[simp] theorem State.updPair_gpAt (f : Pair → Pair) : (s.updPair f).gpAt = s.gpAt := rfl
@[simp] theorem State.updPair_fio (f : Pair → Pair) : (s.updPair f).fio = s.fio := rfl
@[simp] theorem State.updPair_tim (f : Pair → Pair) : (s.updPair f).tim = s.tim := rfl
@[simp] theorem State.updPair_pair (f : Pair → Pair) : (s.updPair f).pair = f s.pair := rfl
@[simp] theorem State.updPair_selft (f : Pair → Pair) : (s.updPair f).selft = s.selft := rfl
@[simp] theorem State.updPair_shm (f : Pair → Pair) : (s.updPair f).shm = s.shm := rfl
@[simp] theorem State.updPair_shmBad (f : Pair → Pair) : (s.updPair f).shmBad = s.shmBad := rfl
@[simp] theorem State.updPair_modCtr (f : Pair → Pair) : (s.updPair f).modCtr = s.modCtr := rfl

/-! ### updDl -/

@[simp] theorem State.updDl_pending (c : Fin 4) (f : Dl → Dl) : (s.updDl c f).pending = s.pending := rfl
@[simp] theorem State.updDl_free (c : Fin 4) (f : Dl → Dl) : (s.updDl c f).free = s.free := rfl
@[simp] theorem State.updDl_pwr (c : Fin 4) (f : Dl → Dl) : (s.updDl c f).pwr = s.pwr := rfl
@[simp] theorem State.updDl_hif (c : Fin 4) (f : Dl → Dl) : (s.updDl c f).hif = s.hif := rfl
@[simp] theorem State.updDl_mbx (c : Fin 4) (f : Dl → Dl) : (s.updDl c f).mbx = s.mbx := rfl
@[simp] theorem State.updDl_emb (c : Fin 4) (f : Dl → Dl) : (s.updDl c f).emb = s.emb := rfl
@[simp] theorem State.updDl_sup (c : Fin 4) (f : Dl → Dl) : (s.updDl c f).sup = s.sup := rfl
@[simp] theorem State.updDl_group (c : Fin 4) (f : Dl → Dl) : (s.updDl c f).group = s.group := rfl
@[simp] theorem State.updDl_cl (c : Fin 4) (f : Dl → Dl) : (s.updDl c f).cl = Vec.upd s.cl c fun k => { k with dl := f k.dl } := rfl
@[simp] theorem State.updDl_eng (c : Fin 4) (f : Dl → Dl) : (s.updDl c f).eng = s.eng := rfl
@[simp] theorem State.updDl_hq (c : Fin 4) (f : Dl → Dl) : (s.updDl c f).hq = s.hq := rfl
@[simp] theorem State.updDl_port (c : Fin 4) (f : Dl → Dl) : (s.updDl c f).port = s.port := rfl
@[simp] theorem State.updDl_prp (c : Fin 4) (f : Dl → Dl) : (s.updDl c f).prp = s.prp := rfl
@[simp] theorem State.updDl_can (c : Fin 4) (f : Dl → Dl) : (s.updDl c f).can = s.can := rfl
@[simp] theorem State.updDl_pio (c : Fin 4) (f : Dl → Dl) : (s.updDl c f).pio = s.pio := rfl
@[simp] theorem State.updDl_gpIn (c : Fin 4) (f : Dl → Dl) : (s.updDl c f).gpIn = s.gpIn := rfl
@[simp] theorem State.updDl_gpAt (c : Fin 4) (f : Dl → Dl) : (s.updDl c f).gpAt = s.gpAt := rfl
@[simp] theorem State.updDl_fio (c : Fin 4) (f : Dl → Dl) : (s.updDl c f).fio = s.fio := rfl
@[simp] theorem State.updDl_tim (c : Fin 4) (f : Dl → Dl) : (s.updDl c f).tim = s.tim := rfl
@[simp] theorem State.updDl_pair (c : Fin 4) (f : Dl → Dl) : (s.updDl c f).pair = s.pair := rfl
@[simp] theorem State.updDl_selft (c : Fin 4) (f : Dl → Dl) : (s.updDl c f).selft = s.selft := rfl
@[simp] theorem State.updDl_shm (c : Fin 4) (f : Dl → Dl) : (s.updDl c f).shm = s.shm := rfl
@[simp] theorem State.updDl_shmBad (c : Fin 4) (f : Dl → Dl) : (s.updDl c f).shmBad = s.shmBad := rfl
@[simp] theorem State.updDl_modCtr (c : Fin 4) (f : Dl → Dl) : (s.updDl c f).modCtr = s.modCtr := rfl

/-! ### updPc -/

@[simp] theorem State.updPc_pending (c : Fin 4) (f : PairCl → PairCl) : (s.updPc c f).pending = s.pending := rfl
@[simp] theorem State.updPc_free (c : Fin 4) (f : PairCl → PairCl) : (s.updPc c f).free = s.free := rfl
@[simp] theorem State.updPc_pwr (c : Fin 4) (f : PairCl → PairCl) : (s.updPc c f).pwr = s.pwr := rfl
@[simp] theorem State.updPc_hif (c : Fin 4) (f : PairCl → PairCl) : (s.updPc c f).hif = s.hif := rfl
@[simp] theorem State.updPc_mbx (c : Fin 4) (f : PairCl → PairCl) : (s.updPc c f).mbx = s.mbx := rfl
@[simp] theorem State.updPc_emb (c : Fin 4) (f : PairCl → PairCl) : (s.updPc c f).emb = s.emb := rfl
@[simp] theorem State.updPc_sup (c : Fin 4) (f : PairCl → PairCl) : (s.updPc c f).sup = s.sup := rfl
@[simp] theorem State.updPc_group (c : Fin 4) (f : PairCl → PairCl) : (s.updPc c f).group = s.group := rfl
@[simp] theorem State.updPc_cl (c : Fin 4) (f : PairCl → PairCl) : (s.updPc c f).cl = Vec.upd s.cl c fun k => { k with pair := f k.pair } := rfl
@[simp] theorem State.updPc_eng (c : Fin 4) (f : PairCl → PairCl) : (s.updPc c f).eng = s.eng := rfl
@[simp] theorem State.updPc_hq (c : Fin 4) (f : PairCl → PairCl) : (s.updPc c f).hq = s.hq := rfl
@[simp] theorem State.updPc_port (c : Fin 4) (f : PairCl → PairCl) : (s.updPc c f).port = s.port := rfl
@[simp] theorem State.updPc_prp (c : Fin 4) (f : PairCl → PairCl) : (s.updPc c f).prp = s.prp := rfl
@[simp] theorem State.updPc_can (c : Fin 4) (f : PairCl → PairCl) : (s.updPc c f).can = s.can := rfl
@[simp] theorem State.updPc_pio (c : Fin 4) (f : PairCl → PairCl) : (s.updPc c f).pio = s.pio := rfl
@[simp] theorem State.updPc_gpIn (c : Fin 4) (f : PairCl → PairCl) : (s.updPc c f).gpIn = s.gpIn := rfl
@[simp] theorem State.updPc_gpAt (c : Fin 4) (f : PairCl → PairCl) : (s.updPc c f).gpAt = s.gpAt := rfl
@[simp] theorem State.updPc_fio (c : Fin 4) (f : PairCl → PairCl) : (s.updPc c f).fio = s.fio := rfl
@[simp] theorem State.updPc_tim (c : Fin 4) (f : PairCl → PairCl) : (s.updPc c f).tim = s.tim := rfl
@[simp] theorem State.updPc_pair (c : Fin 4) (f : PairCl → PairCl) : (s.updPc c f).pair = s.pair := rfl
@[simp] theorem State.updPc_selft (c : Fin 4) (f : PairCl → PairCl) : (s.updPc c f).selft = s.selft := rfl
@[simp] theorem State.updPc_shm (c : Fin 4) (f : PairCl → PairCl) : (s.updPc c f).shm = s.shm := rfl
@[simp] theorem State.updPc_shmBad (c : Fin 4) (f : PairCl → PairCl) : (s.updPc c f).shmBad = s.shmBad := rfl
@[simp] theorem State.updPc_modCtr (c : Fin 4) (f : PairCl → PairCl) : (s.updPc c f).modCtr = s.modCtr := rfl

/-! ### updPi -/

@[simp] theorem State.updPi_pending (c : Fin 4) (f : PiUnit → PiUnit) : (s.updPi c f).pending = s.pending := rfl
@[simp] theorem State.updPi_free (c : Fin 4) (f : PiUnit → PiUnit) : (s.updPi c f).free = s.free := rfl
@[simp] theorem State.updPi_pwr (c : Fin 4) (f : PiUnit → PiUnit) : (s.updPi c f).pwr = s.pwr := rfl
@[simp] theorem State.updPi_hif (c : Fin 4) (f : PiUnit → PiUnit) : (s.updPi c f).hif = s.hif := rfl
@[simp] theorem State.updPi_mbx (c : Fin 4) (f : PiUnit → PiUnit) : (s.updPi c f).mbx = s.mbx := rfl
@[simp] theorem State.updPi_emb (c : Fin 4) (f : PiUnit → PiUnit) : (s.updPi c f).emb = s.emb := rfl
@[simp] theorem State.updPi_sup (c : Fin 4) (f : PiUnit → PiUnit) : (s.updPi c f).sup = s.sup := rfl
@[simp] theorem State.updPi_group (c : Fin 4) (f : PiUnit → PiUnit) : (s.updPi c f).group = s.group := rfl
@[simp] theorem State.updPi_cl (c : Fin 4) (f : PiUnit → PiUnit) : (s.updPi c f).cl = Vec.upd s.cl c fun k => { k with pi := f k.pi } := rfl
@[simp] theorem State.updPi_eng (c : Fin 4) (f : PiUnit → PiUnit) : (s.updPi c f).eng = s.eng := rfl
@[simp] theorem State.updPi_hq (c : Fin 4) (f : PiUnit → PiUnit) : (s.updPi c f).hq = s.hq := rfl
@[simp] theorem State.updPi_port (c : Fin 4) (f : PiUnit → PiUnit) : (s.updPi c f).port = s.port := rfl
@[simp] theorem State.updPi_prp (c : Fin 4) (f : PiUnit → PiUnit) : (s.updPi c f).prp = s.prp := rfl
@[simp] theorem State.updPi_can (c : Fin 4) (f : PiUnit → PiUnit) : (s.updPi c f).can = s.can := rfl
@[simp] theorem State.updPi_pio (c : Fin 4) (f : PiUnit → PiUnit) : (s.updPi c f).pio = s.pio := rfl
@[simp] theorem State.updPi_gpIn (c : Fin 4) (f : PiUnit → PiUnit) : (s.updPi c f).gpIn = s.gpIn := rfl
@[simp] theorem State.updPi_gpAt (c : Fin 4) (f : PiUnit → PiUnit) : (s.updPi c f).gpAt = s.gpAt := rfl
@[simp] theorem State.updPi_fio (c : Fin 4) (f : PiUnit → PiUnit) : (s.updPi c f).fio = s.fio := rfl
@[simp] theorem State.updPi_tim (c : Fin 4) (f : PiUnit → PiUnit) : (s.updPi c f).tim = s.tim := rfl
@[simp] theorem State.updPi_pair (c : Fin 4) (f : PiUnit → PiUnit) : (s.updPi c f).pair = s.pair := rfl
@[simp] theorem State.updPi_selft (c : Fin 4) (f : PiUnit → PiUnit) : (s.updPi c f).selft = s.selft := rfl
@[simp] theorem State.updPi_shm (c : Fin 4) (f : PiUnit → PiUnit) : (s.updPi c f).shm = s.shm := rfl
@[simp] theorem State.updPi_shmBad (c : Fin 4) (f : PiUnit → PiUnit) : (s.updPi c f).shmBad = s.shmBad := rfl
@[simp] theorem State.updPi_modCtr (c : Fin 4) (f : PiUnit → PiUnit) : (s.updPi c f).modCtr = s.modCtr := rfl

end Sys2Proof.Machine
end

