-- ==== Sys2Proof/Laws/KeepsBase.lean ====
section
/-!
SUPPORT. What no command does: it neither touches the queue of waiting commands nor breaks the canonical form of the
shared memory. The relation, and how it passes through the ways definitions are put together.
-/
namespace Sys2Proof.Machine

/-- From `s` to `t` the queue stands, and a canonical shared memory stays canonical. -/
structure Keeps (s t : State) : Prop where
  pending : t.pending = s.pending
  shm : memWf s.shm = true → memWf t.shm = true

/-- The same of an outcome, where it is a next state. -/
@[irreducible] def OKeeps (s : State) : Host.Outcome State Fault Refusal → Prop
  | .next t => Keeps s t
  | .fault _ => True
  | .refused _ => True

/-- The same of a reply. -/
@[irreducible] def RKeeps (s : State) : Reply → Prop
  | .ok x => Keeps s x.2
  | .error _ => True

/-- The same of a state that may be absent. -/
@[irreducible] def SKeeps (s : State) : Option State → Prop
  | some t => Keeps s t
  | none => True

/-- The same of a value with a state that may be absent. -/
@[irreducible] def PKeeps {α : Type} (s : State) : Option (α × State) → Prop
  | some x => Keeps s x.2
  | none => True

/-- The same of an issue of a bundle. -/
@[irreducible] def IKeeps (s : State) : Issue → Prop
  | .done t => Keeps s t
  | .left o => OKeeps s o

variable {s0 : State}

theorem Keeps.refl (s : State) : Keeps s s := ⟨rfl, id⟩

theorem keeps_id {t : State} (h : Keeps s0 t) : Keeps s0 (id t) := h

theorem Keeps.trans {a b c : State} (h : Keeps a b) (g : Keeps b c) : Keeps a c :=
  ⟨g.pending.trans h.pending, fun w => g.shm (h.shm w)⟩

theorem keeps_mk {p f w hf mb em su gr cl eg hq po pr ca pi gp ga fi ti pa st m sb mc}
    (hp : p = s0.pending) (hm : memWf s0.shm = true → memWf m = true) :
    Keeps s0 (State.mk p f w hf mb em su gr cl eg hq po pr ca pi gp ga fi ti pa st m sb mc) := ⟨hp, hm⟩

theorem keeps_ite {c : Prop} [Decidable c] {a b : State} (ha : Keeps s0 a) (hb : Keeps s0 b) :
    Keeps s0 (if c then a else b) := by split <;> assumption

theorem keeps_foldl {α : Type} {f : State → α → State} {l : List α} {s : State}
    (hf : ∀ t x, Keeps s0 t → Keeps s0 (f t x)) (h : Keeps s0 s) : Keeps s0 (l.foldl f s) := by
  induction l generalizing s with
  | nil => exact h
  | cons x r ih => exact ih (hf s x h)

theorem keeps_snd {α : Type} {x : α × State} {a : α} {t : State} (e : x = (a, t)) (h : Keeps s0 x.2) : Keeps s0 t := by
  subst e; exact h

theorem keeps_fst {α : Type} {x : State × α} {a : α} {t : State} (e : x = (t, a)) (h : Keeps s0 x.1) : Keeps s0 t := by
  subst e; exact h

theorem keeps_thd {α β : Type} {x : α × β × State} {a : α} {b : β} {t : State} (e : x = (a, b, t)) (h : Keeps s0 x.2.2) :
    Keeps s0 t := by subst e; exact h

theorem keeps_next {o : Host.Outcome State Fault Refusal} {t : State} (e : o = .next t) (h : OKeeps s0 o) : Keeps s0 t := by
  subst e; unfold OKeeps at h; exact h

theorem keeps_ok {r : Reply} {x : Answer × State} (e : r = .ok x) (h : RKeeps s0 r) : Keeps s0 x.2 := by
  subst e; unfold RKeeps at h; exact h

theorem keeps_some {r : Option State} {t : State} (e : r = some t) (h : SKeeps s0 r) : Keeps s0 t := by
  subst e; unfold SKeeps at h; exact h

theorem okeeps_next {t : State} (h : Keeps s0 t) : OKeeps s0 (.next t) := by unfold OKeeps; exact h
theorem okeeps_fault {f : Fault} : OKeeps s0 (.fault f) := by unfold OKeeps; trivial
theorem okeeps_refused {f : Refusal} : OKeeps s0 (.refused f) := by unfold OKeeps; trivial
theorem okeeps_of_fault {o : Host.Outcome State Fault Refusal} {f : Fault} (e : o = .fault f) : OKeeps s0 o := by
  subst e; exact okeeps_fault

theorem okeeps_ite {c : Prop} [Decidable c] {a b : Host.Outcome State Fault Refusal} (ha : OKeeps s0 a) (hb : OKeeps s0 b) :
    OKeeps s0 (if c then a else b) := by split <;> assumption

theorem okeeps_andThen {o : Host.Outcome State Fault Refusal} {f : State → Host.Outcome State Fault Refusal}
    (h : OKeeps s0 o) (hf : ∀ t, Keeps s0 t → OKeeps s0 (f t)) : OKeeps s0 (andThen o f) := by
  cases o with
  | next t => exact hf t (keeps_next rfl h)
  | fault _ => exact okeeps_fault
  | refused _ => exact okeeps_refused

theorem rkeeps_ok {a : Answer} {t : State} (h : Keeps s0 t) : RKeeps s0 (.ok (a, t)) := by unfold RKeeps; exact h
theorem rkeeps_error {f : Fault} : RKeeps s0 (.error f) := by unfold RKeeps; trivial

theorem rkeeps_ite {c : Prop} [Decidable c] {a b : Reply} (ha : RKeeps s0 a) (hb : RKeeps s0 b) :
    RKeeps s0 (if c then a else b) := by split <;> assumption

theorem rkeeps_yes {t : State} (h : Keeps s0 t) : RKeeps s0 (yes t) := rkeeps_ok h
theorem rkeeps_yesData {t : State} {bs : List Byte} (h : Keeps s0 t) : RKeeps s0 (yesData t bs) := rkeeps_ok h
theorem rkeeps_no {t : State} {a b : Nat} (h : Keeps s0 t) : RKeeps s0 (no t a b) := rkeeps_ok h
theorem rkeeps_bad {m : Msg} : RKeeps s0 m.bad := rkeeps_error

theorem rkeeps_check {m : Msg} {n : Nat} {ok : Bool} {r : Reply} (h : RKeeps s0 r) : RKeeps s0 (m.check n ok r) := by
  unfold Msg.check; split
  · exact rkeeps_bad
  · exact h

theorem rkeeps_withSettings {m : Msg} {ok : Setting → Bool} {f : List Setting → Reply} (h : ∀ xs, RKeeps s0 (f xs)) :
    RKeeps s0 (m.withSettings ok f) := by
  unfold Msg.withSettings
  split
  · split
    · exact h _
    · exact rkeeps_bad
  · exact rkeeps_bad

theorem skeeps_some {t : State} (h : Keeps s0 t) : SKeeps s0 (some t) := by unfold SKeeps; exact h
theorem skeeps_none : SKeeps s0 none := by unfold SKeeps; trivial
theorem ikeeps_done {t : State} (h : Keeps s0 t) : IKeeps s0 (.done t) := by unfold IKeeps; exact h
theorem ikeeps_left {o : Host.Outcome State Fault Refusal} (h : OKeeps s0 o) : IKeeps s0 (.left o) := by unfold IKeeps; exact h
theorem okeeps_of_left {i : Issue} {o : Host.Outcome State Fault Refusal} (e : i = .left o) (h : IKeeps s0 i) : OKeeps s0 o := by
  subst e; unfold IKeeps at h; exact h
theorem keeps_of_done {i : Issue} {t : State} (e : i = .done t) (h : IKeeps s0 i) : Keeps s0 t := by
  subst e; unfold IKeeps at h; exact h

/-! ### Definitions with many local values -/

theorem keeps_foldlX {α : Type} {f : Passing → α → Passing} {l : List α} {x : Passing}
    (hf : ∀ (t : Passing) a, Keeps s0 t.s → Keeps s0 (f t a).s) (h : Keeps s0 x.s) : Keeps s0 (l.foldl f x).s := by
  induction l generalizing x with
  | nil => exact h
  | cons a r ih => exact ih (hf x a h)

theorem keeps_iteX {c : Prop} [Decidable c] {a b : Passing} (ha : Keeps s0 a.s) (hb : Keeps s0 b.s) :
    Keeps s0 (if c then a else b).s := by split <;> assumption

theorem okeeps_foldl {α : Type} {f : Host.Outcome State Fault Refusal → α → Host.Outcome State Fault Refusal} {l : List α}
    {o : Host.Outcome State Fault Refusal} (hf : ∀ t x, OKeeps s0 t → OKeeps s0 (f t x)) (h : OKeeps s0 o) :
    OKeeps s0 (l.foldl f o) := by
  induction l generalizing o with
  | nil => exact h
  | cons x r ih => exact ih (hf o x h)

theorem keeps_foldlP {α β : Type} {f : β × State → α → β × State} {l : List α} {x : β × State}
    (hf : ∀ t a, Keeps s0 t.2 → Keeps s0 (f t a).2) (h : Keeps s0 x.2) : Keeps s0 (l.foldl f x).2 := by
  induction l generalizing x with
  | nil => exact h
  | cons a r ih => exact ih (hf x a h)

theorem pkeeps_some {α : Type} {x : α × State} (h : Keeps s0 x.2) : PKeeps s0 (some x) := by unfold PKeeps; exact h
theorem pkeeps_none {α : Type} : PKeeps (α := α) s0 none := by unfold PKeeps; trivial
theorem keeps_psome {α : Type} {r : Option (α × State)} {x : α × State} (e : r = some x) (h : PKeeps s0 r) : Keeps s0 x.2 := by
  subst e; unfold PKeeps at h; exact h

theorem keeps_iteP {α : Type} {c : Prop} [Decidable c] {a b : α × State} (ha : Keeps s0 a.2) (hb : Keeps s0 b.2) :
    Keeps s0 (if c then a else b).2 := by split <;> assumption

end Sys2Proof.Machine
end

