-- ==== Sys2Proof/Laws/KeepsCore.lean ====
section
/-!
SUPPORT. The operations of memories, queues, counters, notifications and the log touch neither the queue nor the canonical form of the shared memory.
-/
set_option maxRecDepth 4000
namespace Sys2Proof.Machine

theorem State.updCl_keeps {s0 : State} (s : State) (c : Fin 4) (f : Cluster → Cluster) (h : Keeps s0 s) :
    Keeps s0 (State.updCl s c f) := by
  unfold State.updCl; try dsimp only
  repeat' first | (intro; try dsimp only) | (with_reducible first
    | assumption | exact keeps_mk (Keeps.pending (by assumption)) (Keeps.shm (by assumption))) | split

theorem State.updEng_keeps {s0 : State} (s : State) (e : Fin 16) (f : Engine → Engine) (h : Keeps s0 s) :
    Keeps s0 (State.updEng s e f) := by
  unfold State.updEng; try dsimp only
  repeat' first | (intro; try dsimp only) | (with_reducible first
    | assumption | exact keeps_mk (Keeps.pending (by assumption)) (Keeps.shm (by assumption))) | split

theorem State.updPort_keeps {s0 : State} (s : State) (p : Fin 12) (f : Port → Port) (h : Keeps s0 s) :
    Keeps s0 (State.updPort s p f) := by
  unfold State.updPort; try dsimp only
  repeat' first | (intro; try dsimp only) | (with_reducible first
    | assumption | exact keeps_mk (Keeps.pending (by assumption)) (Keeps.shm (by assumption))) | split

theorem State.updCan_keeps {s0 : State} (s : State) (n : Fin 4) (f : Can → Can) (h : Keeps s0 s) :
    Keeps s0 (State.updCan s n f) := by
  unfold State.updCan; try dsimp only
  repeat' first | (intro; try dsimp only) | (with_reducible first
    | assumption | exact keeps_mk (Keeps.pending (by assumption)) (Keeps.shm (by assumption))) | split

theorem State.updPio_keeps {s0 : State} (s : State) (k : Fin 8) (f : Pio → Pio) (h : Keeps s0 s) :
    Keeps s0 (State.updPio s k f) := by
  unfold State.updPio; try dsimp only
  repeat' first | (intro; try dsimp only) | (with_reducible first
    | assumption | exact keeps_mk (Keeps.pending (by assumption)) (Keeps.shm (by assumption))) | split

theorem State.updHq_keeps {s0 : State} (s : State) (h' : Fin 256) (f : HwQ → HwQ) (h : Keeps s0 s) :
    Keeps s0 (State.updHq s h' f) := by
  unfold State.updHq; try dsimp only
  repeat' first | (intro; try dsimp only) | (with_reducible first
    | assumption | exact keeps_mk (Keeps.pending (by assumption)) (Keeps.shm (by assumption))) | split

theorem State.updMbx_keeps {s0 : State} (s : State) (n : Fin 8) (f : Mbx → Mbx) (h : Keeps s0 s) :
    Keeps s0 (State.updMbx s n f) := by
  unfold State.updMbx; try dsimp only
  repeat' first | (intro; try dsimp only) | (with_reducible first
    | assumption | exact keeps_mk (Keeps.pending (by assumption)) (Keeps.shm (by assumption))) | split

theorem State.updEmb_keeps {s0 : State} (s : State) (e : Fin 16) (f : Emb → Emb) (h : Keeps s0 s) :
    Keeps s0 (State.updEmb s e f) := by
  unfold State.updEmb; try dsimp only
  repeat' first | (intro; try dsimp only) | (with_reducible first
    | assumption | exact keeps_mk (Keeps.pending (by assumption)) (Keeps.shm (by assumption))) | split

theorem State.updDi_keeps {s0 : State} (s : State) (d : Fin 8) (f : Din → Din) (h : Keeps s0 s) :
    Keeps s0 (State.updDi s d f) := by
  unfold State.updDi; try dsimp only
  repeat' first | (intro; try dsimp only) | (with_reducible first
    | assumption | exact keeps_mk (Keeps.pending (by assumption)) (Keeps.shm (by assumption))) | split

theorem State.updDo_keeps {s0 : State} (s : State) (d : Fin 8) (f : Dout → Dout) (h : Keeps s0 s) :
    Keeps s0 (State.updDo s d f) := by
  unfold State.updDo; try dsimp only
  repeat' first | (intro; try dsimp only) | (with_reducible first
    | assumption | exact keeps_mk (Keeps.pending (by assumption)) (Keeps.shm (by assumption))) | split

theorem State.updHif_keeps {s0 : State} (s : State) (f : Hif → Hif) (h : Keeps s0 s) :
    Keeps s0 (State.updHif s f) := by
  unfold State.updHif; try dsimp only
  repeat' first | (intro; try dsimp only) | (with_reducible first
    | assumption | exact keeps_mk (Keeps.pending (by assumption)) (Keeps.shm (by assumption))) | split

theorem State.updSup_keeps {s0 : State} (s : State) (f : Sup → Sup) (h : Keeps s0 s) :
    Keeps s0 (State.updSup s f) := by
  unfold State.updSup; try dsimp only
  repeat' first | (intro; try dsimp only) | (with_reducible first
    | assumption | exact keeps_mk (Keeps.pending (by assumption)) (Keeps.shm (by assumption))) | split

theorem State.updPwr_keeps {s0 : State} (s : State) (f : Power → Power) (h : Keeps s0 s) :
    Keeps s0 (State.updPwr s f) := by
  unfold State.updPwr; try dsimp only
  repeat' first | (intro; try dsimp only) | (with_reducible first
    | assumption | exact keeps_mk (Keeps.pending (by assumption)) (Keeps.shm (by assumption))) | split

theorem State.updTim_keeps {s0 : State} (s : State) (f : Tim → Tim) (h : Keeps s0 s) :
    Keeps s0 (State.updTim s f) := by
  unfold State.updTim; try dsimp only
  repeat' first | (intro; try dsimp only) | (with_reducible first
    | assumption | exact keeps_mk (Keeps.pending (by assumption)) (Keeps.shm (by assumption))) | split

theorem State.updPair_keeps {s0 : State} (s : State) (f : Pair → Pair) (h : Keeps s0 s) :
    Keeps s0 (State.updPair s f) := by
  unfold State.updPair; try dsimp only
  repeat' first | (intro; try dsimp only) | (with_reducible first
    | assumption | exact keeps_mk (Keeps.pending (by assumption)) (Keeps.shm (by assumption))) | split

theorem State.updDl_keeps {s0 : State} (s : State) (c : Fin 4) (f : Dl → Dl) (h : Keeps s0 s) :
    Keeps s0 (State.updDl s c f) := by
  unfold State.updDl; try dsimp only
  repeat' first | (intro; try dsimp only) | (with_reducible first
    | assumption | apply State.updCl_keeps
    | exact keeps_mk (Keeps.pending (by assumption)) (Keeps.shm (by assumption))) | split

theorem State.updPc_keeps {s0 : State} (s : State) (c : Fin 4) (f : PairCl → PairCl) (h : Keeps s0 s) :
    Keeps s0 (State.updPc s c f) := by
  unfold State.updPc; try dsimp only
  repeat' first | (intro; try dsimp only) | (with_reducible first
    | assumption | apply State.updCl_keeps
    | exact keeps_mk (Keeps.pending (by assumption)) (Keeps.shm (by assumption))) | split

theorem State.updPi_keeps {s0 : State} (s : State) (c : Fin 4) (f : PiUnit → PiUnit) (h : Keeps s0 s) :
    Keeps s0 (State.updPi s c f) := by
  unfold State.updPi; try dsimp only
  repeat' first | (intro; try dsimp only) | (with_reducible first
    | assumption | apply State.updCl_keeps
    | exact keeps_mk (Keeps.pending (by assumption)) (Keeps.shm (by assumption))) | split

theorem State.draw_keeps {s0 : State} (s : State) (h : Keeps s0 s) :
    Keeps s0 (State.draw s).2 := by
  unfold State.draw; try dsimp only
  repeat' first | (intro; try dsimp only) | (with_reducible first
    | assumption | exact keeps_mk (Keeps.pending (by assumption)) (Keeps.shm (by assumption))) | split

theorem State.signal_keeps {s0 : State} (s : State) (b : Nat) (status : Bool) (h : Keeps s0 s) :
    Keeps s0 (State.signal s b status) := by
  unfold State.signal; try dsimp only
  repeat' first | (intro; try dsimp only) | (with_reducible first
    | assumption | apply State.updHif_keeps
    | exact keeps_mk (Keeps.pending (by assumption)) (Keeps.shm (by assumption)) | apply keeps_ite
    | refine keeps_snd (by assumption) ?_ | refine keeps_thd (by assumption) ?_
    | refine keeps_fst (by assumption) ?_ | refine keeps_next (by assumption) ?_
    | refine keeps_ok (by assumption) ?_ | refine keeps_some (by assumption) ?_) | split

theorem State.intRise_keeps {s0 : State} (s : State) (old : Hif) (h : Keeps s0 s) :
    Keeps s0 (State.intRise s old) := by
  unfold State.intRise; try dsimp only
  repeat' first | (intro; try dsimp only) | (with_reducible first
    | assumption | apply State.signal_keeps | apply keeps_ite) | split

theorem State.ringS2H_keeps {s0 : State} (s : State) (b : Nat) (h : Keeps s0 s) :
    Keeps s0 (State.ringS2H s b) := by
  unfold State.ringS2H; try dsimp only
  repeat' first | (intro; try dsimp only) | (with_reducible first
    | assumption | apply State.updHif_keeps | apply State.updPwr_keeps | apply State.signal_keeps
    | apply State.intRise_keeps | exact keeps_mk (Keeps.pending (by assumption)) (Keeps.shm (by assumption))
    | apply keeps_ite) | split

theorem State.setStchg_keeps {s0 : State} (s : State) (h : Keeps s0 s) :
    Keeps s0 (State.setStchg s) := by
  unfold State.setStchg; try dsimp only
  repeat' first | (intro; try dsimp only) | (with_reducible first
    | assumption | apply State.updHif_keeps | apply State.intRise_keeps
    | exact keeps_mk (Keeps.pending (by assumption)) (Keeps.shm (by assumption))) | split

theorem State.postNext_keeps {s0 : State} (s : State) (n : Fin 8) (h : Keeps s0 s) :
    Keeps s0 (State.postNext s n) := by
  unfold State.postNext; try dsimp only
  repeat' first | (intro; try dsimp only) | (with_reducible first
    | assumption | apply State.updMbx_keeps | apply State.ringS2H_keeps
    | exact keeps_mk (Keeps.pending (by assumption)) (Keeps.shm (by assumption)) | apply keeps_ite
    | refine keeps_snd (by assumption) ?_ | refine keeps_thd (by assumption) ?_
    | refine keeps_fst (by assumption) ?_ | refine keeps_next (by assumption) ?_
    | refine keeps_ok (by assumption) ?_ | refine keeps_some (by assumption) ?_) | split

theorem State.send_keeps {s0 : State} (s : State) (n : Fin 8) (m : OutMsg) (h : Keeps s0 s) :
    Keeps s0 (State.send s n m) := by
  unfold State.send; try dsimp only
  repeat' first | (intro; try dsimp only) | (with_reducible first
    | assumption | apply State.updMbx_keeps | apply State.postNext_keeps) | split

theorem State.notifyChan_keeps {s0 : State} (s : State) (n : Fin 8) (m : OutMsg) (h : Keeps s0 s) :
    Keeps s0 (State.notifyChan s n m) := by
  unfold State.notifyChan; try dsimp only
  repeat' first | (intro; try dsimp only) | (with_reducible first
    | assumption | apply State.updMbx_keeps | apply State.send_keeps
    | exact keeps_mk (Keeps.pending (by assumption)) (Keeps.shm (by assumption)) | apply keeps_ite) | split

theorem State.akSend_keeps {s0 : State} (s : State) (l : Fin 2) (typ : Nat) (data : List Byte) (h : Keeps s0 s) :
    Keeps s0 (State.akSend s l typ data) := by
  unfold State.akSend; try dsimp only
  repeat' first | (intro; try dsimp only) | (with_reducible first
    | assumption | apply State.updPair_keeps
    | exact keeps_mk (Keeps.pending (by assumption)) (Keeps.shm (by assumption))) | split

theorem State.toMember_keeps {s0 : State} (s : State) (m : GroupMsg) (h : Keeps s0 s) :
    Keeps s0 (State.toMember s m) := by
  unfold State.toMember; try dsimp only
  repeat' first | (intro; try dsimp only) | (with_reducible first
    | assumption | apply State.akSend_keeps | refine keeps_snd (by assumption) ?_
    | refine keeps_thd (by assumption) ?_ | refine keeps_fst (by assumption) ?_
    | refine keeps_next (by assumption) ?_ | refine keeps_ok (by assumption) ?_
    | refine keeps_some (by assumption) ?_) | split

theorem State.reply_keeps {s0 : State} (s : State) (chan : Fin 9) (gen : W32) (r : OutMsg) (h : Keeps s0 s) :
    Keeps s0 (State.reply s chan gen r) := by
  unfold State.reply; try dsimp only
  repeat' first | (intro; try dsimp only) | (with_reducible first
    | assumption | apply State.send_keeps | apply State.toMember_keeps | apply keeps_ite) | split

theorem State.notifyFrom_keeps {s0 : State} (s : State) (pos : Fin 4) (code : Nat) (target : W16) (payload : List Byte) (h : Keeps s0 s) :
    Keeps s0 (State.notifyFrom s pos code target payload) := by
  unfold State.notifyFrom; try dsimp only
  repeat' first | (intro; try dsimp only) | (with_reducible first
    | assumption | apply State.notifyChan_keeps | apply keeps_foldl | apply keeps_ite
    | refine keeps_snd (by assumption) ?_ | refine keeps_thd (by assumption) ?_
    | refine keeps_fst (by assumption) ?_ | refine keeps_next (by assumption) ?_
    | refine keeps_ok (by assumption) ?_ | refine keeps_some (by assumption) ?_) | split

theorem State.notify_keeps {s0 : State} (s : State) (code : Nat) (target : W16) (payload : List Byte) (h : Keeps s0 s) :
    Keeps s0 (State.notify s code target payload) := by
  unfold State.notify; try dsimp only
  repeat' first | (intro; try dsimp only) | (with_reducible first
    | assumption | apply State.toMember_keeps | apply State.notifyFrom_keeps | apply keeps_foldl
    | apply keeps_ite) | split

theorem State.log_keeps {s0 : State} (s : State) (cls : Fin 4) (code : Nat) (obj : W16) (data : W32) (cleared : Bool) (h : Keeps s0 s) :
    Keeps s0 (State.log s cls code obj data cleared) := by
  unfold State.log; try dsimp only
  repeat' first | (intro; try dsimp only) | (with_reducible first
    | assumption | apply State.updSup_keeps | apply State.notify_keeps | apply keeps_ite) | split

theorem State.evp_keeps {s0 : State} (s : State) (e : Fin 16) (b : Nat) (h : Keeps s0 s) :
    Keeps s0 (State.evp s e b) := by
  unfold State.evp; try dsimp only
  repeat' first | (intro; try dsimp only) | (with_reducible first
    | assumption | apply State.updEng_keeps) | split

theorem State.evpCl_keeps {s0 : State} (s : State) (c : Fin 4) (b : Nat) (h : Keeps s0 s) :
    Keeps s0 (State.evpCl s c b) := by
  unfold State.evpCl; try dsimp only
  repeat' first | (intro; try dsimp only) | (with_reducible first
    | assumption | apply State.evp_keeps | apply keeps_foldl) | split

theorem State.supdb_keeps {s0 : State} (s : State) (c : Fin 4) (cause : Nat) (h : Keeps s0 s) :
    Keeps s0 (State.supdb s c cause) := by
  unfold State.supdb; try dsimp only
  repeat' first | (intro; try dsimp only) | (with_reducible first
    | assumption | apply State.updCl_keeps | apply State.evpCl_keeps
    | exact keeps_mk (Keeps.pending (by assumption)) (Keeps.shm (by assumption))) | split

theorem State.alarm_keeps {s0 : State} (s : State) (code : Nat) (obj : W16) (data : W32) (cleared : Bool) (h : Keeps s0 s) :
    Keeps s0 (State.alarm s code obj data cleared) := by
  unfold State.alarm; try dsimp only
  repeat' first | (intro; try dsimp only) | (with_reducible first
    | assumption | apply State.log_keeps | apply State.supdb_keeps | refine keeps_snd (by assumption) ?_
    | refine keeps_thd (by assumption) ?_ | refine keeps_fst (by assumption) ?_
    | refine keeps_next (by assumption) ?_ | refine keeps_ok (by assumption) ?_
    | refine keeps_some (by assumption) ?_) | split

theorem State.warn_keeps {s0 : State} (s : State) (code : Nat) (obj : W16) (data : W32) (cleared : Bool) (h : Keeps s0 s) :
    Keeps s0 (State.warn s code obj data cleared) := by
  unfold State.warn; try dsimp only
  repeat' first | (intro; try dsimp only) | (with_reducible first
    | assumption | apply State.log_keeps) | split

theorem State.notice_keeps {s0 : State} (s : State) (code : Nat) (obj : W16) (data : W32) (h : Keeps s0 s) :
    Keeps s0 (State.notice s code obj data) := by
  unfold State.notice; try dsimp only
  repeat' first | (intro; try dsimp only) | (with_reducible first
    | assumption | apply State.log_keeps) | split

theorem State.each_keeps {s0 : State} {n : Nat} (s : State) (f : State → Fin n → State) (h : Keeps s0 s) (hf : ∀ t0 t1, Keeps s0 t0 → Keeps s0 (f t0 t1)) :
    Keeps s0 (State.each s f) := by
  unfold State.each; try dsimp only
  repeat' first | (intro; try dsimp only) | (with_reducible first
    | assumption | apply hf | apply keeps_foldl) | split

theorem State.when_keeps {s0 : State} (s : State) (b : Bool) (f : State → State) (h : Keeps s0 s) (hf : ∀ t0, Keeps s0 t0 → Keeps s0 (f t0)) :
    Keeps s0 (State.when s b f) := by
  unfold State.when; try dsimp only
  repeat' first | (intro; try dsimp only) | (with_reducible first
    | assumption | apply hf | apply keeps_ite) | split

theorem State.withSome_keeps {s0 : State} {α : Type} (s : State) (o : Option α) (f : State → α → State) (h : Keeps s0 s) (hf : ∀ t0 t1, Keeps s0 t0 → Keeps s0 (f t0 t1)) :
    Keeps s0 (State.withSome s o f) := by
  unfold State.withSome; try dsimp only
  repeat' first | (intro; try dsimp only) | (with_reducible first
    | assumption | apply hf | refine keeps_snd (by assumption) ?_ | refine keeps_thd (by assumption) ?_
    | refine keeps_fst (by assumption) ?_ | refine keeps_next (by assumption) ?_
    | refine keeps_ok (by assumption) ?_ | refine keeps_some (by assumption) ?_) | split

theorem State.pinc_keeps {s0 : State} (s : State) (p : Fin 12) (i : Nat) (h : Keeps s0 s) :
    Keeps s0 (State.pinc s p i) := by
  unfold State.pinc; try dsimp only
  repeat' first | (intro; try dsimp only) | (with_reducible first
    | assumption | apply State.updPort_keeps
    | exact keeps_mk (Keeps.pending (by assumption)) (Keeps.shm (by assumption))) | split

theorem State.padd_keeps {s0 : State} (s : State) (p : Fin 12) (i k : Nat) (h : Keeps s0 s) :
    Keeps s0 (State.padd s p i k) := by
  unfold State.padd; try dsimp only
  repeat' first | (intro; try dsimp only) | (with_reducible first
    | assumption | apply State.updPort_keeps
    | exact keeps_mk (Keeps.pending (by assumption)) (Keeps.shm (by assumption))) | split

theorem State.cadd_keeps {s0 : State} (s : State) (c : Fin 4) (i k : Nat) (h : Keeps s0 s) :
    Keeps s0 (State.cadd s c i k) := by
  unfold State.cadd; try dsimp only
  repeat' first | (intro; try dsimp only) | (with_reducible first
    | assumption | apply State.updCl_keeps
    | exact keeps_mk (Keeps.pending (by assumption)) (Keeps.shm (by assumption))) | split

theorem State.madd_keeps {s0 : State} (s : State) (i k : Nat) (h : Keeps s0 s) :
    Keeps s0 (State.madd s i k) := by
  unfold State.madd; try dsimp only
  repeat' first | (intro; try dsimp only) | (with_reducible first
    | assumption | exact keeps_mk (Keeps.pending (by assumption)) (Keeps.shm (by assumption))) | split

theorem State.tinc_keeps {s0 : State} (s : State) (i : Nat) (h : Keeps s0 s) :
    Keeps s0 (State.tinc s i) := by
  unfold State.tinc; try dsimp only
  repeat' first | (intro; try dsimp only) | (with_reducible first
    | assumption | apply State.updTim_keeps
    | exact keeps_mk (Keeps.pending (by assumption)) (Keeps.shm (by assumption))) | split

theorem State.sendPause_keeps {s0 : State} (s : State) (p : Fin 12) (quanta : Nat) (h : Keeps s0 s) :
    Keeps s0 (State.sendPause s p quanta) := by
  unfold State.sendPause; try dsimp only
  repeat' first | (intro; try dsimp only) | (with_reducible first
    | assumption | apply State.updPort_keeps
    | exact keeps_mk (Keeps.pending (by assumption)) (Keeps.shm (by assumption))) | split

theorem State.pauseCheck_keeps {s0 : State} (s : State) (p : Fin 12) (h : Keeps s0 s) :
    Keeps s0 (State.pauseCheck s p) := by
  unfold State.pauseCheck; try dsimp only
  repeat' first | (intro; try dsimp only) | (with_reducible first
    | assumption | apply State.updPort_keeps | apply State.sendPause_keeps
    | exact keeps_mk (Keeps.pending (by assumption)) (Keeps.shm (by assumption)) | apply keeps_ite) | split

theorem State.fbqMoved_keeps {s0 : State} (s : State) (h' : Fin 256) (h : Keeps s0 s) :
    Keeps s0 (State.fbqMoved s h') := by
  unfold State.fbqMoved; try dsimp only
  repeat' first | (intro; try dsimp only) | (with_reducible first
    | assumption | apply State.each_keeps | apply State.pauseCheck_keeps | apply keeps_ite) | split

theorem State.qselEvents_keeps {s0 : State} (s : State) (h' : Fin 256) (h : Keeps s0 s) :
    Keeps s0 (State.qselEvents s h') := by
  unfold State.qselEvents; try dsimp only
  repeat' first | (intro; try dsimp only) | (with_reducible first
    | assumption | apply State.evpCl_keeps | apply keeps_foldl | apply keeps_ite
    | refine keeps_snd (by assumption) ?_ | refine keeps_thd (by assumption) ?_
    | refine keeps_fst (by assumption) ?_ | refine keeps_next (by assumption) ?_
    | refine keeps_ok (by assumption) ?_ | refine keeps_some (by assumption) ?_) | split

theorem State.lpiExit_keeps {s0 : State} (s : State) (h' : Fin 256) (h : Keeps s0 s) :
    Keeps s0 (State.lpiExit s h') := by
  unfold State.lpiExit; try dsimp only
  repeat' first | (intro; try dsimp only) | (with_reducible first
    | assumption | apply State.updPort_keeps
    | exact keeps_mk (Keeps.pending (by assumption)) (Keeps.shm (by assumption)) | apply keeps_ite) | split

theorem State.headMoved_keeps {s0 : State} (s : State) (h' : Fin 256) (h : Keeps s0 s) :
    Keeps s0 (State.headMoved s h') := by
  unfold State.headMoved; try dsimp only
  repeat' first | (intro; try dsimp only) | (with_reducible first
    | assumption | apply State.updPort_keeps
    | exact keeps_mk (Keeps.pending (by assumption)) (Keeps.shm (by assumption)) | apply keeps_ite) | split

theorem State.push_keeps {s0 : State} (s : State) (h' : Fin 256) (d : Desc) (h : Keeps s0 s) :
    Keeps s0 (State.push s h' d) := by
  unfold State.push; try dsimp only
  repeat' first | (intro; try dsimp only) | (with_reducible first
    | assumption | apply State.updHq_keeps | apply State.fbqMoved_keeps | apply State.qselEvents_keeps
    | apply State.lpiExit_keeps | apply State.headMoved_keeps
    | exact keeps_mk (Keeps.pending (by assumption)) (Keeps.shm (by assumption)) | apply keeps_ite) | split

theorem State.pop_keeps {s0 : State} (s : State) (h' : Fin 256) (h : Keeps s0 s) :
    Keeps s0 (State.pop s h').2 := by
  unfold State.pop; try dsimp only
  repeat' first | (intro; try dsimp only) | (with_reducible first
    | assumption | apply State.updHq_keeps | apply State.fbqMoved_keeps | apply State.headMoved_keeps
    | exact keeps_mk (Keeps.pending (by assumption)) (Keeps.shm (by assumption)) | apply keeps_ite
    | refine keeps_snd (by assumption) ?_ | refine keeps_thd (by assumption) ?_
    | refine keeps_fst (by assumption) ?_ | refine keeps_next (by assumption) ?_
    | refine keeps_ok (by assumption) ?_ | refine keeps_some (by assumption) ?_) | split

theorem State.returnTo_keeps {s0 : State} (s : State) (h' : Fin 256) (d : Desc) (h : Keeps s0 s) :
    Keeps s0 (State.returnTo s h' d) := by
  unfold State.returnTo; try dsimp only
  repeat' first | (intro; try dsimp only) | (with_reducible first
    | assumption | apply State.updHq_keeps | apply State.push_keeps
    | exact keeps_mk (Keeps.pending (by assumption)) (Keeps.shm (by assumption))
    | refine keeps_snd (by assumption) ?_ | refine keeps_thd (by assumption) ?_
    | refine keeps_fst (by assumption) ?_ | refine keeps_next (by assumption) ?_
    | refine keeps_ok (by assumption) ?_ | refine keeps_some (by assumption) ?_) | split

theorem State.returnDescs_keeps {s0 : State} (s : State) (p : Fin 12) (ds : List Desc) (result : Fin 6) (cskip : Bool) (stamp : W64) (h : Keeps s0 s) :
    Keeps s0 (State.returnDescs s p ds result cskip stamp) := by
  unfold State.returnDescs; try dsimp only
  repeat' first | (intro; try dsimp only) | (with_reducible first
    | assumption | apply State.pinc_keeps | apply State.returnTo_keeps | apply keeps_foldl | apply keeps_ite) | split

theorem State.completeTx_keeps {s0 : State} (s : State) (p : Fin 12) (ds : List Desc) (result : Fin 6) (cskip : Bool) (stamp : W64) (h : Keeps s0 s) :
    Keeps s0 (State.completeTx s p ds result cskip stamp) := by
  unfold State.completeTx; try dsimp only
  repeat' first | (intro; try dsimp only) | (with_reducible first
    | assumption | apply State.evpCl_keeps | apply State.pinc_keeps | apply State.returnDescs_keeps
    | apply keeps_ite | refine keeps_snd (by assumption) ?_ | refine keeps_thd (by assumption) ?_
    | refine keeps_fst (by assumption) ?_ | refine keeps_next (by assumption) ?_
    | refine keeps_ok (by assumption) ?_ | refine keeps_some (by assumption) ?_) | split

theorem State.flushPort_keeps {s0 : State} (s : State) (p : Fin 12) (h : Keeps s0 s) :
    Keeps s0 (State.flushPort s p) := by
  unfold State.flushPort; try dsimp only
  repeat' first | (intro; try dsimp only) | (with_reducible first
    | assumption | apply State.updPort_keeps | apply State.updHq_keeps | apply State.completeTx_keeps
    | exact keeps_mk (Keeps.pending (by assumption)) (Keeps.shm (by assumption)) | apply keeps_foldl) | split

theorem State.arrived_keeps {s0 : State} (s : State) (p : Fin 12) (h : Keeps s0 s) :
    Keeps s0 (State.arrived s p) := by
  unfold State.arrived; try dsimp only
  repeat' first | (intro; try dsimp only) | (with_reducible first
    | assumption | apply State.updPort_keeps
    | exact keeps_mk (Keeps.pending (by assumption)) (Keeps.shm (by assumption))) | split

theorem State.portDown_keeps {s0 : State} (s : State) (p : Fin 12) (h : Keeps s0 s) :
    Keeps s0 (State.portDown s p) := by
  unfold State.portDown; try dsimp only
  repeat' first | (intro; try dsimp only) | (with_reducible first
    | assumption | apply State.updPort_keeps | apply State.withSome_keeps | apply State.completeTx_keeps
    | exact keeps_mk (Keeps.pending (by assumption)) (Keeps.shm (by assumption))) | split

theorem State.setPort_keeps {s0 : State} (s : State) (p : Fin 12) (st : Fin 6) (reason : Nat) (h : Keeps s0 s) :
    Keeps s0 (State.setPort s p st reason) := by
  unfold State.setPort; try dsimp only
  repeat' first | (intro; try dsimp only) | (with_reducible first
    | assumption | apply State.updPort_keeps | apply State.notify_keeps | apply State.log_keeps
    | apply State.evpCl_keeps | apply State.flushPort_keeps | apply State.portDown_keeps
    | exact keeps_mk (Keeps.pending (by assumption)) (Keeps.shm (by assumption)) | apply keeps_ite
    | refine keeps_snd (by assumption) ?_ | refine keeps_thd (by assumption) ?_
    | refine keeps_fst (by assumption) ?_ | refine keeps_next (by assumption) ?_
    | refine keeps_ok (by assumption) ?_ | refine keeps_some (by assumption) ?_) | split

theorem State.portRestart_keeps {s0 : State} (s : State) (p : Fin 12) (h : Keeps s0 s) :
    Keeps s0 (State.portRestart s p) := by
  unfold State.portRestart; try dsimp only
  repeat' first | (intro; try dsimp only) | (with_reducible first
    | assumption | apply State.updPort_keeps | apply State.setPort_keeps
    | exact keeps_mk (Keeps.pending (by assumption)) (Keeps.shm (by assumption)) | apply keeps_ite) | split

theorem State.stopPorts_keeps {s0 : State} (s : State) (c : Fin 4) (h : Keeps s0 s) :
    Keeps s0 (State.stopPorts s c) := by
  unfold State.stopPorts; try dsimp only
  repeat' first | (intro; try dsimp only) | (with_reducible first
    | assumption | apply State.each_keeps | apply State.flushPort_keeps | apply State.setPort_keeps
    | apply keeps_ite) | split

theorem State.startPorts_keeps {s0 : State} (s : State) (c : Fin 4) (h : Keeps s0 s) :
    Keeps s0 (State.startPorts s c) := by
  unfold State.startPorts; try dsimp only
  repeat' first | (intro; try dsimp only) | (with_reducible first
    | assumption | apply State.each_keeps | apply State.setPort_keeps | apply keeps_ite) | split

theorem qselWrite_keeps {s0 : State} (e : Fin 16) (i : Fin 8) (v : W32) (s : State) (h : Keeps s0 s) :
    Keeps s0 (qselWrite e i v s) := by
  unfold qselWrite; try dsimp only
  repeat' first | (intro; try dsimp only) | (with_reducible first
    | assumption | apply State.updCl_keeps | apply State.evpCl_keeps
    | exact keeps_mk (Keeps.pending (by assumption)) (Keeps.shm (by assumption)) | apply keeps_ite) | split

theorem hqStatWrite_keeps {s0 : State} (h' : Fin 256) (v : W32) (s : State) (h : Keeps s0 s) :
    Keeps s0 (hqStatWrite h' v s) := by
  unfold hqStatWrite; try dsimp only
  repeat' first | (intro; try dsimp only) | (with_reducible first
    | assumption | apply State.updHq_keeps
    | exact keeps_mk (Keeps.pending (by assumption)) (Keeps.shm (by assumption)) | apply keeps_ite) | split

theorem State.setMem_keeps {s0 : State} (s : State) (r : MemRef) (m : Mem) (b : Borrow) (bad : List Nat) (h : Keeps s0 s)
    (hm : r = .shm → memWf s0.shm = true → memWf m = true) : Keeps s0 (State.setMem s r m b bad) := by
  unfold State.setMem
  cases r with
  | spad c => exact State.updCl_keeps _ _ _ h
  | shm => exact keeps_mk h.pending (hm rfl)

theorem State.memOf_wf {s0 s : State} {r : MemRef} (h : Keeps s0 s) (hr : r = .shm) (w : memWf s0.shm = true) :
    memWf (s.memOf r).1 = true := by
  subst hr; exact h.shm w

theorem bkWrite_wf {m : Mem} (b : Borrow) (a : Nat) (v : Byte) (h : memWf m = true) : memWf (bkWrite m b a v).1 = true := by
  unfold bkWrite
  split
  · split
    · exact memWrite_wf a v h
    · split
      · exact memWrite_wf a v h
      · exact h
  · exact memWrite_wf a v h

theorem bkWriteLanes_wf (bs : List (Option Byte)) :
    ∀ (x : Mem × Borrow) (a : Nat), memWf x.1 = true → memWf (bkWriteLanes x a bs).1 = true := by
  induction bs with
  | nil => intro x a h; exact h
  | cons v r ih =>
    intro x a h
    cases v with
    | none => exact ih x _ h
    | some v => exact ih _ _ (bkWrite_wf x.2 a v h)

theorem State.redirects_keeps {s0 : State} (s : State) (r : MemRef) (n : Nat) (h : Keeps s0 s) :
    Keeps s0 (State.redirects s r n) := by
  unfold State.redirects; try dsimp only
  repeat' first | (intro; try dsimp only) | (with_reducible first
    | assumption | apply State.cadd_keeps | apply State.madd_keeps | apply keeps_ite
    | refine keeps_snd (by assumption) ?_ | refine keeps_thd (by assumption) ?_
    | refine keeps_fst (by assumption) ?_ | refine keeps_next (by assumption) ?_
    | refine keeps_ok (by assumption) ?_ | refine keeps_some (by assumption) ?_) | split

theorem State.memUncorr_keeps {s0 : State} (s : State) (r : MemRef) (code word : Nat) (h : Keeps s0 s) :
    Keeps s0 (State.memUncorr s r code word) := by
  unfold State.memUncorr; try dsimp only
  repeat' first | (intro; try dsimp only) | (with_reducible first
    | assumption | apply State.updPair_keeps | apply State.alarm_keeps | apply State.cadd_keeps
    | apply State.madd_keeps | exact keeps_mk (Keeps.pending (by assumption)) (Keeps.shm (by assumption))
    | refine keeps_snd (by assumption) ?_ | refine keeps_thd (by assumption) ?_
    | refine keeps_fst (by assumption) ?_ | refine keeps_next (by assumption) ?_
    | refine keeps_ok (by assumption) ?_ | refine keeps_some (by assumption) ?_) | split

theorem State.engUncorr_keeps {s0 : State} (s : State) (e : Fin 16) (code mem word : Nat) (h : Keeps s0 s) :
    Keeps s0 (State.engUncorr s e code mem word) := by
  unfold State.engUncorr; try dsimp only
  repeat' first | (intro; try dsimp only) | (with_reducible first
    | assumption | apply State.updPair_keeps | apply State.alarm_keeps | apply State.cadd_keeps
    | exact keeps_mk (Keeps.pending (by assumption)) (Keeps.shm (by assumption))) | split

theorem State.engCorr_keeps {s0 : State} (s : State) (e : Fin 16) (code mem word : Nat) (h : Keeps s0 s) :
    Keeps s0 (State.engCorr s e code mem word) := by
  unfold State.engCorr; try dsimp only
  repeat' first | (intro; try dsimp only) | (with_reducible first
    | assumption | apply State.notice_keeps | apply State.cadd_keeps) | split

theorem State.sramUncorr_keeps {s0 : State} (s : State) (code word : Nat) (h : Keeps s0 s) :
    Keeps s0 (State.sramUncorr s code word) := by
  unfold State.sramUncorr; try dsimp only
  repeat' first | (intro; try dsimp only) | (with_reducible first
    | assumption | apply State.updPair_keeps | apply State.alarm_keeps
    | exact keeps_mk (Keeps.pending (by assumption)) (Keeps.shm (by assumption))) | split

theorem State.sramCorr_keeps {s0 : State} (s : State) (word : Nat) (h : Keeps s0 s) :
    Keeps s0 (State.sramCorr s word) := by
  unfold State.sramCorr; try dsimp only
  repeat' first | (intro; try dsimp only) | (with_reducible first
    | assumption | apply State.notice_keeps) | split

theorem State.memCorr_keeps {s0 : State} (s : State) (r : MemRef) (code word : Nat) (h : Keeps s0 s) :
    Keeps s0 (State.memCorr s r code word) := by
  unfold State.memCorr; try dsimp only
  repeat' first | (intro; try dsimp only) | (with_reducible first
    | assumption | apply State.notice_keeps | apply State.cadd_keeps | apply State.madd_keeps
    | refine keeps_snd (by assumption) ?_ | refine keeps_thd (by assumption) ?_
    | refine keeps_fst (by assumption) ?_ | refine keeps_next (by assumption) ?_
    | refine keeps_ok (by assumption) ?_ | refine keeps_some (by assumption) ?_) | split

theorem State.writeWord_keeps {s0 : State} (s : State) (r : MemRef) (code : Nat) (a : Nat) (bs : List (Option Byte)) (h : Keeps s0 s) :
    Keeps s0 (State.writeWord s r code a bs) := by
  unfold State.writeWord
  have hr : ∀ n, Keeps s0 (s.redirects r n) := fun n => State.redirects_keeps s r n h
  have hw : ∀ b : Borrow, r = .shm → memWf s0.shm = true → memWf (bkWriteLanes ((s.memOf r).1, b) a bs).1 = true :=
    fun b e w => bkWriteLanes_wf bs _ a (State.memOf_wf h e w)
  dsimp only
  split
  · exact State.setMem_keeps _ r _ _ _ (hr _) (hw _)
  · split
    · exact State.memUncorr_keeps _ r code _ (hr _)
    · exact State.setMem_keeps _ r _ _ _ (hr _) (hw _)

theorem State.wrLanes_keeps {s0 : State} (s : State) (r : MemRef) (code a : Nat) (bs : List (Option Byte)) (h : Keeps s0 s) :
    Keeps s0 (State.wrLanes s r code a bs) := by
  unfold State.wrLanes; try dsimp only
  repeat' first | (intro; try dsimp only) | (with_reducible first
    | assumption | apply State.writeWord_keeps | apply keeps_foldl | apply keeps_ite) | split

theorem State.wr_keeps {s0 : State} (s : State) (r : MemRef) (code a : Nat) (bs : List Byte) (h : Keeps s0 s) :
    Keeps s0 (State.wr s r code a bs) := by
  unfold State.wr; try dsimp only
  repeat' first | (intro; try dsimp only) | (with_reducible first
    | assumption | apply State.wrLanes_keeps) | split

theorem State.rd_keeps {s0 : State} (s : State) (r : MemRef) (code a n : Nat) (h : Keeps s0 s) :
    Keeps s0 (State.rd s r code a n).2 := by
  unfold State.rd; try dsimp only
  repeat' first | (intro; try dsimp only) | (with_reducible first
    | assumption | apply State.redirects_keeps | apply State.memUncorr_keeps | apply keeps_foldl
    | apply keeps_foldlP | apply keeps_ite | refine keeps_snd (by assumption) ?_
    | refine keeps_thd (by assumption) ?_ | refine keeps_fst (by assumption) ?_
    | refine keeps_next (by assumption) ?_ | refine keeps_ok (by assumption) ?_
    | refine keeps_some (by assumption) ?_) | split

theorem State.damage_keeps {s0 : State} (s : State) (r : MemRef) (w : Nat) (h : Keeps s0 s) :
    Keeps s0 (State.damage s r w) := by
  unfold State.damage
  exact State.setMem_keeps s r _ _ _ h fun e w => State.memOf_wf h e w

theorem State.dmaRead_keeps {s0 : State} (s : State) (c : Fin 4) (code addr n : Nat) (h : Keeps s0 s) :
    Keeps s0 (State.dmaRead s c code addr n).2 := by
  unfold State.dmaRead; try dsimp only
  repeat' first | (intro; try dsimp only) | (with_reducible first
    | assumption | apply State.rd_keeps | refine keeps_snd (by assumption) ?_
    | refine keeps_thd (by assumption) ?_ | refine keeps_fst (by assumption) ?_
    | refine keeps_next (by assumption) ?_ | refine keeps_ok (by assumption) ?_
    | refine keeps_some (by assumption) ?_) | split

theorem State.dmaWrite_keeps {s0 : State} (s : State) (c : Fin 4) (code addr : Nat) (bs : List Byte) (h : Keeps s0 s) :
    Keeps s0 (State.dmaWrite s c code addr bs) := by
  unfold State.dmaWrite; try dsimp only
  repeat' first | (intro; try dsimp only) | (with_reducible first
    | assumption | apply State.wr_keeps | refine keeps_snd (by assumption) ?_
    | refine keeps_thd (by assumption) ?_ | refine keeps_fst (by assumption) ?_
    | refine keeps_next (by assumption) ?_ | refine keeps_ok (by assumption) ?_
    | refine keeps_some (by assumption) ?_) | split

theorem State.memStarved_keeps {s0 : State} (s : State) (w : MemWhich) (code word : Nat) (h : Keeps s0 s) :
    Keeps s0 (State.memStarved s w code word) := by
  unfold State.memStarved; try dsimp only
  repeat' first | (intro; try dsimp only) | (with_reducible first
    | assumption | apply State.warn_keeps | refine keeps_snd (by assumption) ?_
    | refine keeps_thd (by assumption) ?_ | refine keeps_fst (by assumption) ?_
    | refine keeps_next (by assumption) ?_ | refine keeps_ok (by assumption) ?_
    | refine keeps_some (by assumption) ?_) | split

theorem State.clearSpad_keeps {s0 : State} (s : State) (c : Fin 4) (h : Keeps s0 s) :
    Keeps s0 (State.clearSpad s c) := by
  unfold State.clearSpad; try dsimp only
  repeat' first | (intro; try dsimp only) | (with_reducible first
    | assumption | apply State.updCl_keeps
    | exact keeps_mk (Keeps.pending (by assumption)) (Keeps.shm (by assumption)) | apply keeps_ite) | split

end Sys2Proof.Machine
end

