-- ==== Sys2Proof/Laws/KeepsNet.lean ====
section
/-!
SUPPORT. The operations of time, frames, Drumline and Tollgate touch neither the queue nor the canonical form of the shared memory.
-/
set_option maxRecDepth 4000
namespace Sys2Proof.Machine

theorem State.putTstat_keeps {s0 : State} (s : State) (h : Keeps s0 s) :
    Keeps s0 (State.putTstat s) := by
  unfold State.putTstat; try dsimp only
  repeat' first | (intro; try dsimp only) | (with_reducible first
    | assumption | apply State.updCl_keeps | apply State.supdb_keeps | apply State.each_keeps
    | exact keeps_mk (Keeps.pending (by assumption)) (Keeps.shm (by assumption)) | apply keeps_ite) | split

theorem State.freqWarn_keeps {s0 : State} (s : State) (h : Keeps s0 s) :
    Keeps s0 (State.freqWarn s) := by
  unfold State.freqWarn; try dsimp only
  repeat' first | (intro; try dsimp only) | (with_reducible first
    | assumption | apply State.updTim_keeps | apply State.warn_keeps
    | exact keeps_mk (Keeps.pending (by assumption)) (Keeps.shm (by assumption)) | apply keeps_ite) | split

theorem State.servoState_keeps {s0 : State} (s : State) (st : Fin 6) (h : Keeps s0 s) :
    Keeps s0 (State.servoState s st) := by
  unfold State.servoState; try dsimp only
  repeat' first | (intro; try dsimp only) | (with_reducible first
    | assumption | apply State.updTim_keeps | apply State.warn_keeps | apply State.putTstat_keeps
    | apply State.freqWarn_keeps | exact keeps_mk (Keeps.pending (by assumption)) (Keeps.shm (by assumption))
    | apply keeps_ite) | split

theorem State.enterHoldover_keeps {s0 : State} (s : State) (h : Keeps s0 s) :
    Keeps s0 (State.enterHoldover s) := by
  unfold State.enterHoldover; try dsimp only
  repeat' first | (intro; try dsimp only) | (with_reducible first
    | assumption | apply State.updTim_keeps | apply State.warn_keeps | apply State.servoState_keeps
    | exact keeps_mk (Keeps.pending (by assumption)) (Keeps.shm (by assumption)) | apply keeps_ite) | split

theorem State.renotify_keeps {s0 : State} (s : State) (code : Nat) (target : W16) (payload : List Byte) (h : Keeps s0 s) :
    Keeps s0 (State.renotify s code target payload) := by
  unfold State.renotify; try dsimp only
  repeat' first | (intro; try dsimp only) | (with_reducible first
    | assumption | apply State.notifyChan_keeps | apply State.each_keeps | apply keeps_ite) | split

theorem State.fireDue_keeps {s0 : State} (s : State) (h : Keeps s0 s) :
    Keeps s0 (State.fireDue s) := by
  unfold State.fireDue; try dsimp only
  repeat' first | (intro; try dsimp only) | (with_reducible first
    | assumption | apply State.updEng_keeps | apply State.evp_keeps | apply State.each_keeps
    | exact keeps_mk (Keeps.pending (by assumption)) (Keeps.shm (by assumption)) | apply keeps_ite) | split

theorem State.step__keeps {s0 : State} (s : State) (o : Rat) (h : Keeps s0 s) :
    Keeps s0 (State.step_ s o) := by
  unfold State.step_; try dsimp only
  repeat' first | (intro; try dsimp only) | (with_reducible first
    | assumption | apply State.updTim_keeps | apply State.servoState_keeps | apply State.fireDue_keeps
    | exact keeps_mk (Keeps.pending (by assumption)) (Keeps.shm (by assumption)) | apply keeps_ite) | split

theorem State.servoRuns_keeps {s0 : State} (s : State) (h : Keeps s0 s) :
    Keeps s0 (State.servoRuns s) := by
  unfold State.servoRuns; try dsimp only
  repeat' first | (intro; try dsimp only) | (with_reducible first
    | assumption | apply State.updTim_keeps | apply State.servoState_keeps
    | exact keeps_mk (Keeps.pending (by assumption)) (Keeps.shm (by assumption)) | apply keeps_ite) | split

theorem State.servoApply_keeps {s0 : State} (s : State) (o : Rat) (at_ : W32) (h : Keeps s0 s) :
    Keeps s0 (State.servoApply s o at_) := by
  unfold State.servoApply; try dsimp only
  repeat' first | (intro; try dsimp only) | (with_reducible first
    | assumption | apply State.updTim_keeps | apply State.putTstat_keeps | apply State.freqWarn_keeps
    | apply State.servoRuns_keeps | exact keeps_mk (Keeps.pending (by assumption)) (Keeps.shm (by assumption))
    | apply keeps_ite | refine keeps_snd (by assumption) ?_ | refine keeps_thd (by assumption) ?_
    | refine keeps_fst (by assumption) ?_ | refine keeps_next (by assumption) ?_
    | refine keeps_ok (by assumption) ?_ | refine keeps_some (by assumption) ?_) | split

theorem State.servoSample_keeps {s0 : State} (s : State) (x : Sample) (h : Keeps s0 s) :
    Keeps s0 (State.servoSample s x) := by
  unfold State.servoSample; try dsimp only
  repeat' first | (intro; try dsimp only) | (with_reducible first
    | assumption | apply State.updTim_keeps | apply State.notify_keeps | apply State.warn_keeps
    | apply State.servoState_keeps | apply State.renotify_keeps | apply State.step__keeps
    | apply State.servoApply_keeps | exact keeps_mk (Keeps.pending (by assumption)) (Keeps.shm (by assumption))
    | apply keeps_ite) | split

theorem State.sourceSample_keeps {s0 : State} (s : State) (x : Sample) (h : Keeps s0 s) :
    Keeps s0 (State.sourceSample s x) := by
  unfold State.sourceSample; try dsimp only
  repeat' first | (intro; try dsimp only) | (with_reducible first
    | assumption | apply State.updTim_keeps | apply State.servoSample_keeps | apply keeps_ite) | split

theorem State.postSample_keeps {s0 : State} (s : State) (c : Fin 4) (x : Sample) (h : Keeps s0 s) :
    Keeps s0 (State.postSample s c x) := by
  unfold State.postSample; try dsimp only
  repeat' first | (intro; try dsimp only) | (with_reducible first
    | assumption | apply State.updCl_keeps | apply State.tinc_keeps
    | exact keeps_mk (Keeps.pending (by assumption)) (Keeps.shm (by assumption)) | apply keeps_ite) | split

theorem State.takeSample_keeps {s0 : State} (s : State) (c : Fin 4) (h : Keeps s0 s) :
    Keeps s0 (State.takeSample s c) := by
  unfold State.takeSample; try dsimp only
  repeat' first | (intro; try dsimp only) | (with_reducible first
    | assumption | apply State.updCl_keeps | apply State.sourceSample_keeps
    | exact keeps_mk (Keeps.pending (by assumption)) (Keeps.shm (by assumption))
    | refine keeps_snd (by assumption) ?_ | refine keeps_thd (by assumption) ?_
    | refine keeps_fst (by assumption) ?_ | refine keeps_next (by assumption) ?_
    | refine keeps_ok (by assumption) ?_ | refine keeps_some (by assumption) ?_) | split

theorem State.dropSamples_keeps {s0 : State} (s : State) (h : Keeps s0 s) :
    Keeps s0 (State.dropSamples s) := by
  unfold State.dropSamples; try dsimp only
  repeat' first | (intro; try dsimp only) | (with_reducible first
    | assumption | apply State.updCl_keeps | apply State.each_keeps
    | exact keeps_mk (Keeps.pending (by assumption)) (Keeps.shm (by assumption))) | split

theorem State.sourceGone_keeps {s0 : State} (s : State) (c : Fin 4) (h : Keeps s0 s) :
    Keeps s0 (State.sourceGone s c) := by
  unfold State.sourceGone; try dsimp only
  repeat' first | (intro; try dsimp only) | (with_reducible first
    | assumption | apply State.updTim_keeps | apply State.enterHoldover_keeps | apply State.dropSamples_keeps
    | exact keeps_mk (Keeps.pending (by assumption)) (Keeps.shm (by assumption)) | apply keeps_ite) | split

theorem State.sourceBack_keeps {s0 : State} (s : State) (c : Fin 4) (h : Keeps s0 s) :
    Keeps s0 (State.sourceBack s c) := by
  unfold State.sourceBack; try dsimp only
  repeat' first | (intro; try dsimp only) | (with_reducible first
    | assumption | apply State.updTim_keeps
    | exact keeps_mk (Keeps.pending (by assumption)) (Keeps.shm (by assumption)) | apply keeps_ite) | split

theorem srcTimeout_keeps {s0 : State} (s : State) (h : Keeps s0 s) :
    Keeps s0 (srcTimeout s) := by
  unfold srcTimeout; try dsimp only
  repeat' first | (intro; try dsimp only) | (with_reducible first
    | assumption | apply State.enterHoldover_keeps | apply keeps_ite) | split

theorem State.slewOver_keeps {s0 : State} (s : State) (h : Keeps s0 s) :
    Keeps s0 (State.slewOver s) := by
  unfold State.slewOver; try dsimp only
  repeat' first | (intro; try dsimp only) | (with_reducible first
    | assumption | apply State.updTim_keeps | apply State.putTstat_keeps | apply State.servoState_keeps
    | exact keeps_mk (Keeps.pending (by assumption)) (Keeps.shm (by assumption)) | apply keeps_ite) | split

theorem slewEnd_keeps {s0 : State} (s : State) (h : Keeps s0 s) :
    Keeps s0 (slewEnd s) := by
  unfold slewEnd; try dsimp only
  repeat' first | (intro; try dsimp only) | (with_reducible first
    | assumption | apply State.slewOver_keeps | apply keeps_ite) | split

theorem stepHoldEnd_keeps {s0 : State} (s : State) (h : Keeps s0 s) :
    Keeps s0 (stepHoldEnd s) := by
  unfold stepHoldEnd; try dsimp only
  repeat' first | (intro; try dsimp only) | (with_reducible first
    | assumption | apply State.updTim_keeps
    | exact keeps_mk (Keeps.pending (by assumption)) (Keeps.shm (by assumption))) | split

theorem State.goFree_keeps {s0 : State} (s : State) (h : Keeps s0 s) :
    Keeps s0 (State.goFree s) := by
  unfold State.goFree; try dsimp only
  repeat' first | (intro; try dsimp only) | (with_reducible first
    | assumption | apply State.updTim_keeps | apply State.putTstat_keeps | apply State.servoState_keeps
    | exact keeps_mk (Keeps.pending (by assumption)) (Keeps.shm (by assumption)) | apply keeps_ite) | split

theorem State.sourceTurns_keeps {s0 : State} (s : State) (was : Bool) (h : Keeps s0 s) :
    Keeps s0 (State.sourceTurns s was) := by
  unfold State.sourceTurns; try dsimp only
  repeat' first | (intro; try dsimp only) | (with_reducible first
    | assumption | apply State.enterHoldover_keeps | apply State.goFree_keeps | apply keeps_ite) | split

theorem State.timeApplied_keeps {s0 : State} (s : State) (was : Tim) (initStep : Option Bool) (h : Keeps s0 s) :
    Keeps s0 (State.timeApplied s was initStep) := by
  unfold State.timeApplied; try dsimp only
  repeat' first | (intro; try dsimp only) | (with_reducible first
    | assumption | apply State.updTim_keeps | apply State.putTstat_keeps | apply State.enterHoldover_keeps
    | apply State.dropSamples_keeps | apply State.goFree_keeps
    | exact keeps_mk (Keeps.pending (by assumption)) (Keeps.shm (by assumption)) | apply keeps_ite) | split

theorem State.acceptJump_keeps {s0 : State} (s : State) (slew : Bool) (h : Keeps s0 s) :
    Keeps s0 (State.acceptJump s slew) := by
  unfold State.acceptJump; try dsimp only
  repeat' first | (intro; try dsimp only) | (with_reducible first
    | assumption | apply State.updTim_keeps | apply State.servoState_keeps | apply State.step__keeps
    | exact keeps_mk (Keeps.pending (by assumption)) (Keeps.shm (by assumption)) | apply keeps_ite) | split

theorem milestoneFire_keeps {s0 : State} (e : Fin 16) (arm : BitVec 2) (s : State) (h : Keeps s0 s) :
    Keeps s0 (milestoneFire e arm s) := by
  unfold milestoneFire; try dsimp only
  repeat' first | (intro; try dsimp only) | (with_reducible first
    | assumption | apply State.updEng_keeps | apply State.evp_keeps
    | exact keeps_mk (Keeps.pending (by assumption)) (Keeps.shm (by assumption)) | apply keeps_ite) | split

theorem tnsRead_keeps {s0 : State} (e : Fin 16) (s : State) (h : Keeps s0 s) :
    Keeps s0 (tnsRead e s) := by
  unfold tnsRead; try dsimp only
  repeat' first | (intro; try dsimp only) | (with_reducible first
    | assumption | apply State.updEng_keeps
    | exact keeps_mk (Keeps.pending (by assumption)) (Keeps.shm (by assumption))) | split

theorem syncinRead_keeps {s0 : State} (e : Fin 16) (s : State) (h : Keeps s0 s) :
    Keeps s0 (syncinRead e s) := by
  unfold syncinRead; try dsimp only
  repeat' first | (intro; try dsimp only) | (with_reducible first
    | assumption | apply State.updEng_keeps
    | exact keeps_mk (Keeps.pending (by assumption)) (Keeps.shm (by assumption))) | split

theorem syncInEdge_keeps {s0 : State} (rising : Bool) (ns : W64) (frac : W16) (s : State) (h : Keeps s0 s) :
    Keeps s0 (syncInEdge rising ns frac s) := by
  unfold syncInEdge; try dsimp only
  repeat' first | (intro; try dsimp only) | (with_reducible first
    | assumption | apply State.updTim_keeps | apply State.tinc_keeps | apply State.sourceSample_keeps
    | exact keeps_mk (Keeps.pending (by assumption)) (Keeps.shm (by assumption)) | apply keeps_ite) | split

theorem syncOutPulse_keeps {s0 : State} (i : Fin 2) (s : State) (h : Keeps s0 s) :
    Keeps s0 (syncOutPulse i s) := by
  unfold syncOutPulse; try dsimp only
  repeat' first | (intro; try dsimp only) | (with_reducible first
    | assumption | apply State.updTim_keeps
    | exact keeps_mk (Keeps.pending (by assumption)) (Keeps.shm (by assumption))
    | refine keeps_snd (by assumption) ?_ | refine keeps_thd (by assumption) ?_
    | refine keeps_fst (by assumption) ?_ | refine keeps_next (by assumption) ?_
    | refine keeps_ok (by assumption) ?_ | refine keeps_some (by assumption) ?_) | split

theorem State.beatPulses_keeps {s0 : State} (s : State) (c : Fin 4) (h : Keeps s0 s) :
    Keeps s0 (State.beatPulses s c) := by
  unfold State.beatPulses; try dsimp only
  repeat' first | (intro; try dsimp only) | (with_reducible first
    | assumption | apply State.updTim_keeps
    | exact keeps_mk (Keeps.pending (by assumption)) (Keeps.shm (by assumption)) | apply keeps_ite) | split

theorem State.timeTick_keeps {s0 : State} (s : State) (h : Keeps s0 s) :
    Keeps s0 (State.timeTick s) := by
  unfold State.timeTick; try dsimp only
  repeat' first | (intro; try dsimp only) | (with_reducible first
    | assumption | apply State.updTim_keeps | apply State.fireDue_keeps | apply State.slewOver_keeps
    | apply syncOutPulse_keeps | exact keeps_mk (Keeps.pending (by assumption)) (Keeps.shm (by assumption))
    | apply keeps_foldl | apply keeps_ite) | split

theorem State.emitCtrl_keeps {s0 : State} (s : State) (p : Fin 12) (bytes : List Byte) (fcs : Fcs) (h : Keeps s0 s) :
    Keeps s0 (State.emitCtrl s p bytes fcs) := by
  unfold State.emitCtrl; try dsimp only
  repeat' first | (intro; try dsimp only) | (with_reducible first
    | assumption | apply State.updPort_keeps
    | exact keeps_mk (Keeps.pending (by assumption)) (Keeps.shm (by assumption))) | split

theorem State.preempt_keeps {s0 : State} (s : State) (p : Fin 12) (stamp : W64) (hold : Bool) (h : Keeps s0 s) :
    Keeps s0 (State.preempt s p stamp hold) := by
  unfold State.preempt; try dsimp only
  repeat' first | (intro; try dsimp only) | (with_reducible first
    | assumption | apply State.updPort_keeps
    | exact keeps_mk (Keeps.pending (by assumption)) (Keeps.shm (by assumption)) | apply keeps_ite
    | refine keeps_snd (by assumption) ?_ | refine keeps_thd (by assumption) ?_
    | refine keeps_fst (by assumption) ?_ | refine keeps_next (by assumption) ?_
    | refine keeps_ok (by assumption) ?_ | refine keeps_some (by assumption) ?_) | split

theorem State.passOut_keeps {s0 : State} (s : State) (p : Fin 12) (w : WireFrame) (tx : W64) (h : Keeps s0 s) :
    Keeps s0 (State.passOut s p w tx) := by
  unfold State.passOut; try dsimp only
  repeat' first | (intro; try dsimp only) | (with_reducible first
    | assumption | apply State.updPort_keeps
    | exact keeps_mk (Keeps.pending (by assumption)) (Keeps.shm (by assumption)) | apply keeps_ite
    | refine keeps_snd (by assumption) ?_ | refine keeps_thd (by assumption) ?_
    | refine keeps_fst (by assumption) ?_ | refine keeps_next (by assumption) ?_
    | refine keeps_ok (by assumption) ?_ | refine keeps_some (by assumption) ?_) | split

theorem State.emit_keeps {s0 : State} (s : State) (p : Fin 12) (bytes : List Byte) (fcs : Fcs) (tx : W64) (h : Keeps s0 s) :
    Keeps s0 (State.emit s p bytes fcs tx) := by
  unfold State.emit; try dsimp only
  repeat' first | (intro; try dsimp only) | (with_reducible first
    | assumption | apply State.updPort_keeps | apply State.pinc_keeps | apply State.preempt_keeps
    | apply State.passOut_keeps | exact keeps_mk (Keeps.pending (by assumption)) (Keeps.shm (by assumption))
    | apply keeps_ite) | split

theorem State.lineFree_keeps {s0 : State} (s : State) (p : Fin 12) (h : Keeps s0 s) :
    Keeps s0 (State.lineFree s p) := by
  unfold State.lineFree; try dsimp only
  repeat' first | (intro; try dsimp only) | (with_reducible first
    | assumption | apply State.updPort_keeps | apply State.passOut_keeps
    | exact keeps_mk (Keeps.pending (by assumption)) (Keeps.shm (by assumption)) | apply keeps_foldl
    | apply keeps_ite) | split

theorem State.putRecord_keeps {s0 : State} (s : State) (c : Fin 4) (p : Fin 12) (id flags bad rxt : W32) (h : Keeps s0 s) :
    Keeps s0 (State.putRecord s c p id flags bad rxt) := by
  unfold State.putRecord; try dsimp only
  repeat' first | (intro; try dsimp only) | (with_reducible first
    | assumption | apply State.updPort_keeps | apply State.evpCl_keeps | apply State.wr_keeps
    | exact keeps_mk (Keeps.pending (by assumption)) (Keeps.shm (by assumption)) | apply keeps_id
    | apply keeps_ite) | split

theorem State.routeResult_keeps {s0 : State} (s : State) (c : Fin 4) (n : Fin 8) (result : Nat) (cycle : W64) (h : Keeps s0 s) :
    Keeps s0 (State.routeResult s c n result cycle) := by
  unfold State.routeResult; try dsimp only
  repeat' first | (intro; try dsimp only) | (with_reducible first
    | assumption | apply State.notify_keeps | apply State.supdb_keeps) | split

theorem State.routeDatagram_keeps {s0 : State} (s : State) (c : Fin 4) (op : Nat) (n : Fin 8) (sw : W16) (h : Keeps s0 s) :
    Keeps s0 (State.routeDatagram s c op n sw).2 := by
  unfold State.routeDatagram; try dsimp only
  repeat' first | (intro; try dsimp only) | (with_reducible first
    | assumption | apply State.updDl_keeps | apply State.routeResult_keeps
    | exact keeps_mk (Keeps.pending (by assumption)) (Keeps.shm (by assumption)) | apply keeps_ite
    | refine keeps_snd (by assumption) ?_ | refine keeps_thd (by assumption) ?_
    | refine keeps_fst (by assumption) ?_ | refine keeps_next (by assumption) ?_
    | refine keeps_ok (by assumption) ?_ | refine keeps_some (by assumption) ?_) | split

theorem State.firstCycle_keeps {s0 : State} (s : State) (c : Fin 4) (h : Keeps s0 s) :
    Keeps s0 (State.firstCycle s c) := by
  unfold State.firstCycle; try dsimp only
  repeat' first | (intro; try dsimp only) | (with_reducible first
    | assumption | apply State.updPort_keeps | apply State.each_keeps
    | exact keeps_mk (Keeps.pending (by assumption)) (Keeps.shm (by assumption)) | apply keeps_ite
    | refine keeps_snd (by assumption) ?_ | refine keeps_thd (by assumption) ?_
    | refine keeps_fst (by assumption) ?_ | refine keeps_next (by assumption) ?_
    | refine keeps_ok (by assumption) ?_ | refine keeps_some (by assumption) ?_) | split

theorem State.routeLate_keeps {s0 : State} (s : State) (c : Fin 4) (p : Fin 12) (route : Nat) (good : Bool) (h : Keeps s0 s) :
    Keeps s0 (State.routeLate s c p route good) := by
  unfold State.routeLate; try dsimp only
  repeat' first | (intro; try dsimp only) | (with_reducible first
    | assumption | apply State.updDl_keeps | apply State.pinc_keeps | apply State.routeResult_keeps
    | apply State.firstCycle_keeps | exact keeps_mk (Keeps.pending (by assumption)) (Keeps.shm (by assumption))
    | apply keeps_ite | refine keeps_snd (by assumption) ?_ | refine keeps_thd (by assumption) ?_
    | refine keeps_fst (by assumption) ?_ | refine keeps_next (by assumption) ?_
    | refine keeps_ok (by assumption) ?_ | refine keeps_some (by assumption) ?_) | split

theorem State.adoptRoute_keeps {s0 : State} (s : State) (c : Fin 4) (route : Nat) (good : Bool) (h : Keeps s0 s) :
    Keeps s0 (State.adoptRoute s c route good) := by
  unfold State.adoptRoute; try dsimp only
  repeat' first | (intro; try dsimp only) | (with_reducible first
    | assumption | apply State.updDl_keeps
    | exact keeps_mk (Keeps.pending (by assumption)) (Keeps.shm (by assumption)) | apply keeps_ite) | split

theorem State.noteUsable_keeps {s0 : State} (s : State) (c : Fin 4) (lag : Int) (h : Keeps s0 s) :
    Keeps s0 (State.noteUsable s c lag) := by
  unfold State.noteUsable; try dsimp only
  repeat' first | (intro; try dsimp only) | (with_reducible first
    | assumption | apply State.updDl_keeps
    | exact keeps_mk (Keeps.pending (by assumption)) (Keeps.shm (by assumption)) | apply keeps_ite) | split

theorem Passing.take_keeps {s0 : State} (x : Passing) (c : Fin 4) (p : Fin 12) (ms : List MapEntry) (d : DgHead)
    (half : Nat) (orIn : Bool) (h : Keeps s0 x.s) : Keeps s0 (x.take c p ms d half orIn).s := by
  unfold Passing.take
  refine keeps_foldlX (fun t m ht => ?_) h
  dsimp only
  split
  · exact State.wr_keeps _ _ _ _ _ ht
  · exact ht

theorem Passing.give_keeps {s0 : State} (x : Passing) (c : Fin 4) (p : Fin 12) (ms : List MapEntry) (d : DgHead)
    (half : Nat) (orOut : Bool) (h : Keeps s0 x.s) : Keeps s0 (x.give c p ms d half orOut).s := by
  unfold Passing.give
  refine keeps_foldlX (fun t m ht => ?_) h
  dsimp only
  split
  · exact State.rd_keeps _ _ _ _ _ ht
  · exact ht

theorem Passing.tally_keeps {s0 : State} (x : Passing) (d : DgHead) (w : Nat) (silent : Bool) (h : Keeps s0 x.s) :
    Keeps s0 (x.tally d w silent).s := by
  unfold Passing.tally
  split
  · exact h
  · exact h

theorem State.wayPost_keeps {s0 : State} (s : State) (c : Fin 4) (off : W64) (at_ : W32) (h : Keeps s0 s) :
    Keeps s0 (State.wayPost s c off at_) := by
  unfold State.wayPost; try dsimp only
  repeat' first | (intro; try dsimp only) | (with_reducible first
    | assumption | apply State.updCl_keeps | apply State.postSample_keeps
    | exact keeps_mk (Keeps.pending (by assumption)) (Keeps.shm (by assumption)) | apply keeps_ite) | split

theorem Passing.time_keeps {s0 : State} (x : Passing) (w : Pass) (d : DgHead) (h : Keeps s0 x.s) :
    Keeps s0 (x.time w d).s := by
  unfold Passing.time
  split
  · exact h
  · exact State.wayPost_keeps _ _ _ _ h

theorem Passing.act_keeps {s0 : State} (w : Pass) (x : Passing) (d : DgHead) (h : Keeps s0 x.s) :
    Keeps s0 (Passing.act w x d).s := by
  unfold Passing.act
  dsimp only
  repeat' first | (with_reducible first
    | assumption | apply Passing.tally_keeps | apply Passing.take_keeps | apply Passing.give_keeps
    | apply Passing.time_keeps | apply keeps_iteX) | split
  all_goals first
    | exact State.rd_keeps _ _ _ _ _ h
    | exact State.wr_keeps _ _ _ _ _ h
    | exact State.routeDatagram_keeps _ _ _ _ _ h
    | exact State.routeDatagram_keeps _ _ _ _ _ (State.updDl_keeps _ _ _ h)
    | exact h

theorem Passing.actHub_keeps {s0 : State} (w : Pass) (x : Passing) (d : DgHead) (h : Keeps s0 x.s) :
    Keeps s0 (Passing.actHub w x d).s := by
  unfold Passing.actHub
  split
  · exact Passing.act_keeps w x d h
  · exact h

theorem State.silenceCheck_keeps {s0 : State} (s : State) (c : Fin 4) (h : Keeps s0 s) :
    Keeps s0 (State.silenceCheck s c) := by
  unfold State.silenceCheck; try dsimp only
  repeat' first | (intro; try dsimp only) | (with_reducible first
    | assumption | apply State.updDl_keeps | apply State.warn_keeps | apply State.pinc_keeps
    | exact keeps_mk (Keeps.pending (by assumption)) (Keeps.shm (by assumption)) | apply keeps_ite
    | refine keeps_snd (by assumption) ?_ | refine keeps_thd (by assumption) ?_
    | refine keeps_fst (by assumption) ?_ | refine keeps_next (by assumption) ?_
    | refine keeps_ok (by assumption) ?_ | refine keeps_some (by assumption) ?_) | split

theorem State.silenceSample_keeps {s0 : State} (s : State) (c : Fin 4) (h : Keeps s0 s) :
    Keeps s0 (State.silenceSample s c) := by
  unfold State.silenceSample; try dsimp only
  repeat' first | (intro; try dsimp only) | (with_reducible first
    | assumption | apply State.updDl_keeps | apply State.warn_keeps | apply State.silenceCheck_keeps
    | exact keeps_mk (Keeps.pending (by assumption)) (Keeps.shm (by assumption)) | apply keeps_ite) | split

theorem State.dlState_keeps {s0 : State} (s : State) (c : Fin 4) (st : Fin 5) (h : Keeps s0 s) :
    Keeps s0 (State.dlState s c st) := by
  unfold State.dlState; try dsimp only
  repeat' first | (intro; try dsimp only) | (with_reducible first
    | assumption | apply State.updDl_keeps | apply keeps_ite) | split

theorem State.dlRun_keeps {s0 : State} (s : State) (c : Fin 4) (h : Keeps s0 s) :
    Keeps s0 (State.dlRun s c) := by
  unfold State.dlRun; try dsimp only
  repeat' first | (intro; try dsimp only) | (with_reducible first
    | assumption | apply State.updDl_keeps
    | exact keeps_mk (Keeps.pending (by assumption)) (Keeps.shm (by assumption)) | apply keeps_ite) | split

theorem State.dlServo_keeps {s0 : State} (s : State) (h : Keeps s0 s) :
    Keeps s0 (State.dlServo s) := by
  unfold State.dlServo; try dsimp only
  repeat' first | (intro; try dsimp only) | (with_reducible first
    | assumption | apply State.each_keeps | apply State.dlState_keeps | apply State.dlRun_keeps
    | apply keeps_ite) | split

theorem State.dlHeard_keeps {s0 : State} (s : State) (c : Fin 4) (good : Bool) (d : Int) (h : Keeps s0 s) :
    Keeps s0 (State.dlHeard s c good d) := by
  unfold State.dlHeard; try dsimp only
  repeat' first | (intro; try dsimp only) | (with_reducible first
    | assumption | apply State.updDl_keeps | apply State.dlState_keeps | apply State.dlRun_keeps
    | exact keeps_mk (Keeps.pending (by assumption)) (Keeps.shm (by assumption)) | apply keeps_ite) | split

theorem State.sendClaim_keeps {s0 : State} (s : State) (c : Fin 4) (master : Bool) (h : Keeps s0 s) :
    Keeps s0 (State.sendClaim s c master) := by
  unfold State.sendClaim; try dsimp only
  repeat' first | (intro; try dsimp only) | (with_reducible first
    | assumption | apply State.emitCtrl_keeps | apply keeps_foldl | apply keeps_ite
    | refine keeps_snd (by assumption) ?_ | refine keeps_thd (by assumption) ?_
    | refine keeps_fst (by assumption) ?_ | refine keeps_next (by assumption) ?_
    | refine keeps_ok (by assumption) ?_ | refine keeps_some (by assumption) ?_) | split

theorem State.enterClaim_keeps {s0 : State} (s : State) (c : Fin 4) (h : Keeps s0 s) :
    Keeps s0 (State.enterClaim s c) := by
  unfold State.enterClaim; try dsimp only
  repeat' first | (intro; try dsimp only) | (with_reducible first
    | assumption | apply State.updDl_keeps | apply State.sendClaim_keeps
    | exact keeps_mk (Keeps.pending (by assumption)) (Keeps.shm (by assumption))) | split

theorem State.enterMaster_keeps {s0 : State} (s : State) (c : Fin 4) (h : Keeps s0 s) :
    Keeps s0 (State.enterMaster s c) := by
  unfold State.enterMaster; try dsimp only
  repeat' first | (intro; try dsimp only) | (with_reducible first
    | assumption | apply State.updDl_keeps
    | exact keeps_mk (Keeps.pending (by assumption)) (Keeps.shm (by assumption))
    | refine keeps_snd (by assumption) ?_ | refine keeps_thd (by assumption) ?_
    | refine keeps_fst (by assumption) ?_ | refine keeps_next (by assumption) ?_
    | refine keeps_ok (by assumption) ?_ | refine keeps_some (by assumption) ?_) | split

theorem State.hearClaim_keeps {s0 : State} (s : State) (c : Fin 4) (bs : List Byte) (h : Keeps s0 s) :
    Keeps s0 (State.hearClaim s c bs) := by
  unfold State.hearClaim; try dsimp only
  repeat' first | (intro; try dsimp only) | (with_reducible first
    | assumption | apply State.updDl_keeps | apply State.warn_keeps | apply State.enterClaim_keeps
    | exact keeps_mk (Keeps.pending (by assumption)) (Keeps.shm (by assumption)) | apply keeps_ite) | split

theorem State.fcsCount_keeps {s0 : State} (s : State) (p : Fin 12) (f : Fcs) (h : Keeps s0 s) :
    Keeps s0 (State.fcsCount s p f) := by
  unfold State.fcsCount; try dsimp only
  repeat' first | (intro; try dsimp only) | (with_reducible first
    | assumption | apply State.pinc_keeps | refine keeps_snd (by assumption) ?_
    | refine keeps_thd (by assumption) ?_ | refine keeps_fst (by assumption) ?_
    | refine keeps_next (by assumption) ?_ | refine keeps_ok (by assumption) ?_
    | refine keeps_some (by assumption) ?_) | split

theorem State.countTurned_keeps {s0 : State} (s : State) (c : Fin 4) (p : Fin 12) (h : Keeps s0 s) :
    Keeps s0 (State.countTurned s c p) := by
  unfold State.countTurned; try dsimp only
  repeat' first | (intro; try dsimp only) | (with_reducible first
    | assumption | apply State.pinc_keeps | apply keeps_ite) | split

theorem State.forward_keeps {s0 : State} (s : State) (c : Fin 4) (p : Fin 12) (side : Side) (f : DrumIn) (turn : Bool) (h : Keeps s0 s) :
    Keeps s0 (State.forward s c p side f turn) := by
  unfold State.forward; try dsimp only
  repeat' first | (intro; try dsimp only) | (with_reducible first
    | assumption | apply State.emit_keeps | apply State.countTurned_keeps | apply keeps_ite
    | refine keeps_snd (by assumption) ?_ | refine keeps_thd (by assumption) ?_
    | refine keeps_fst (by assumption) ?_ | refine keeps_next (by assumption) ?_
    | refine keeps_ok (by assumption) ?_ | refine keeps_some (by assumption) ?_) | split

theorem State.claimAt_keeps {s0 : State} (s : State) (p : Fin 12) (f : DrumIn) (h : Keeps s0 s) :
    Keeps s0 (State.claimAt s p f) := by
  unfold State.claimAt; try dsimp only
  repeat' first | (intro; try dsimp only) | (with_reducible first
    | assumption | apply State.pinc_keeps | apply State.hearClaim_keeps | apply State.fcsCount_keeps
    | apply State.forward_keeps | apply keeps_ite | refine keeps_snd (by assumption) ?_
    | refine keeps_thd (by assumption) ?_ | refine keeps_fst (by assumption) ?_
    | refine keeps_next (by assumption) ?_ | refine keeps_ok (by assumption) ?_
    | refine keeps_some (by assumption) ?_) | split

theorem State.holdOrTurn_keeps {s0 : State} (s : State) (c : Fin 4) (p : Fin 12) (r : DlRole) (bs : List Byte) (fcs : Fcs) (tx : W64) (h : Keeps s0 s) :
    Keeps s0 (State.holdOrTurn s c p r bs fcs tx) := by
  unfold State.holdOrTurn; try dsimp only
  repeat' first | (intro; try dsimp only) | (with_reducible first
    | assumption | apply State.updPort_keeps | apply State.emit_keeps
    | exact keeps_mk (Keeps.pending (by assumption)) (Keeps.shm (by assumption)) | apply keeps_ite
    | refine keeps_snd (by assumption) ?_ | refine keeps_thd (by assumption) ?_
    | refine keeps_fst (by assumption) ?_ | refine keeps_next (by assumption) ?_
    | refine keeps_ok (by assumption) ?_ | refine keeps_some (by assumption) ?_) | split

theorem State.drumPass_keeps {s0 : State} (s : State) (c : Fin 4) (p : Fin 12) (r : DlRole) (side : Side) (f : DrumIn) (h : Keeps s0 s) :
    Keeps s0 (State.drumPass s c p r side f) := by
  unfold State.drumPass
  extract_lets bs fcsGood s1 turned
  split
  extract_lets good s2 s3 k run s4 k2 mm s5 foreign mute process lag late
  have h1 : Keeps s0 s1 := State.fcsCount_keeps _ _ _ h
  have h2 : Keeps s0 s2 := keeps_ite (State.pinc_keeps _ _ _ h1) h1
  have h3 : Keeps s0 s3 := State.routeLate_keeps _ _ _ _ _ h2
  have h4 : Keeps s0 s4 := State.adoptRoute_keeps _ _ _ _ h3
  have h5 : Keeps s0 s5 := keeps_ite (State.pinc_keeps _ _ _ h4) h4
  clear_value s5
  split
  extract_lets s6 s7 s8 w x fcs s9 s10 s11 s12 s13 s14
  have h6 : Keeps s0 s6 := State.updDl_keeps _ _ _ h5
  have h7 : Keeps s0 s7 := keeps_ite (State.updPort_keeps _ _ _ (State.pinc_keeps _ _ _ h6)) h6
  have h8 : Keeps s0 s8 := keeps_ite (State.pinc_keeps _ _ _ h7) h7
  have h9 : Keeps s0 s9 := keeps_iteX (keeps_foldlX (fun t a ht => Passing.act_keeps w t a ht) h8) h8
  clear_value s9 x
  have h10 : Keeps s0 s10 := keeps_ite h9 (by
    split
    · exact State.emit_keeps _ _ _ _ _ h9
    · exact keeps_ite (State.emit_keeps _ _ _ _ _ h9)
        (State.holdOrTurn_keeps _ _ _ _ _ _ _ (State.countTurned_keeps _ _ _ h9)))
  clear_value s10
  have h11 : Keeps s0 s11 := State.putRecord_keeps _ _ _ _ _ _ _ h10
  clear_value s11
  have h12 : Keeps s0 s12 := keeps_ite (State.noteUsable_keeps _ _ _ h11) h11
  have h13 : Keeps s0 s13 := State.updDl_keeps _ _ _ h12
  have h14 : Keeps s0 s14 := keeps_ite (State.updDl_keeps _ _ _ h13) h13
  clear_value s13 s14
  split
  · exact keeps_ite (State.updDl_keeps _ _ _ h14) h14
  · exact State.silenceCheck_keeps _ _ (State.dlHeard_keeps _ _ _ _ h13)

theorem Passing.home_keeps {s0 : State} (x : Passing) (c : Fin 4) (p : Fin 12) (takes : List MapEntry) (half : Nat) (second : Bool) (d : DgHead) (h : Keeps s0 x.s) :
    Keeps s0 (Passing.home x c p takes half second d).s := by
  unfold Passing.home; try dsimp only
  repeat' first | (intro; try dsimp only) | (with_reducible first
    | assumption | apply State.wr_keeps | apply Passing.take_keeps
    | exact keeps_mk (Keeps.pending (by assumption)) (Keeps.shm (by assumption)) | apply keeps_ite
    | refine keeps_snd (by assumption) ?_ | refine keeps_thd (by assumption) ?_
    | refine keeps_fst (by assumption) ?_ | refine keeps_next (by assumption) ?_
    | refine keeps_ok (by assumption) ?_ | refine keeps_some (by assumption) ?_) | split

theorem State.drumReturn_keeps {s0 : State} (s : State) (c : Fin 4) (p : Fin 12) (side : Side) (f : DrumIn) (h : Keeps s0 s) :
    Keeps s0 (State.drumReturn s c p side f) := by
  unfold State.drumReturn
  extract_lets bs s1 fr half
  split
  extract_lets good s2 k cyc second takes mm s2b count dgs2 x bads s3 s4 rt lateNs speed begun endNs round late s5 ring closed s6 s7 s8 mask
  have h1 : Keeps s0 s1 := State.fcsCount_keeps _ _ _ h
  have h2 : Keeps s0 s2 := keeps_ite (State.pinc_keeps _ _ _ h1) h1
  have h2b : Keeps s0 s2b := keeps_ite (State.pinc_keeps _ _ _ h2) h2
  have hx : Keeps s0 x.s := keeps_foldlX (fun t a ht => Passing.home_keeps _ _ _ _ _ _ _ ht) h2b
  have h3 : Keeps s0 s3 := State.padd_keeps _ _ _ _ hx
  have h4 : Keeps s0 s4 := keeps_ite h3 (State.warn_keeps _ _ _ _ _ h3)
  have h5 : Keeps s0 s5 := keeps_ite (State.warn_keeps _ _ _ _ _ (State.pinc_keeps _ _ _ h4)) h4
  have h6 : Keeps s0 s6 := keeps_ite (State.warn_keeps _ _ _ _ _ h5) h5
  have h7 : Keeps s0 s7 := keeps_ite (State.notice_keeps _ _ _ _ h6) h6
  exact State.putRecord_keeps _ _ _ _ _ _ _ (State.updDl_keeps _ _ _ h7)

theorem State.buildCycle_keeps {s0 : State} (s : State) (c : Fin 4) (h : Keeps s0 s) :
    Keeps s0 (State.buildCycle s c) := by
  unfold State.buildCycle; try dsimp only
  repeat' first | (intro; try dsimp only) | (with_reducible first
    | assumption | apply State.updPort_keeps | apply State.updDl_keeps
    | exact keeps_mk (Keeps.pending (by assumption)) (Keeps.shm (by assumption)) | apply keeps_ite
    | refine keeps_snd (by assumption) ?_ | refine keeps_thd (by assumption) ?_
    | refine keeps_fst (by assumption) ?_ | refine keeps_next (by assumption) ?_
    | refine keeps_ok (by assumption) ?_ | refine keeps_some (by assumption) ?_) | split

theorem State.noteOrig_keeps {s0 : State} (s : State) (c : Fin 4) (bs : List Byte) (h : Keeps s0 s) :
    Keeps s0 (State.noteOrig s c bs) := by
  unfold State.noteOrig; try dsimp only
  repeat' first | (intro; try dsimp only) | (with_reducible first
    | assumption | apply State.updPc_keeps | apply Passing.take_keeps
    | exact keeps_mk (Keeps.pending (by assumption)) (Keeps.shm (by assumption)) | apply keeps_ite) | split

theorem State.updBr_keeps {s0 : State} (s : State) (c : Fin 4) (b : Fin 8) (f : Branch → Branch) (h : Keeps s0 s) :
    Keeps s0 (State.updBr s c b f) := by
  unfold State.updBr; try dsimp only
  repeat' first | (intro; try dsimp only) | (with_reducible first
    | assumption | apply State.updDl_keeps
    | exact keeps_mk (Keeps.pending (by assumption)) (Keeps.shm (by assumption))) | split

theorem State.edgeCheck_keeps {s0 : State} (s : State) (c : Fin 4) (b : Fin 8) (h : Keeps s0 s) :
    Keeps s0 (State.edgeCheck s c b) := by
  unfold State.edgeCheck; try dsimp only
  repeat' first | (intro; try dsimp only) | (with_reducible first
    | assumption | apply State.warn_keeps | apply State.updBr_keeps
    | exact keeps_mk (Keeps.pending (by assumption)) (Keeps.shm (by assumption)) | apply keeps_ite
    | refine keeps_snd (by assumption) ?_ | refine keeps_thd (by assumption) ?_
    | refine keeps_fst (by assumption) ?_ | refine keeps_next (by assumption) ?_
    | refine keeps_ok (by assumption) ?_ | refine keeps_some (by assumption) ?_) | split

theorem State.guardSample_keeps {s0 : State} (s : State) (c : Fin 4) (b : Fin 8) (e : Int) (h : Keeps s0 s) :
    Keeps s0 (State.guardSample s c b e) := by
  unfold State.guardSample; try dsimp only
  repeat' first | (intro; try dsimp only) | (with_reducible first
    | assumption | apply State.updBr_keeps | apply State.edgeCheck_keeps
    | exact keeps_mk (Keeps.pending (by assumption)) (Keeps.shm (by assumption)) | apply keeps_ite) | split

theorem State.isolate_keeps {s0 : State} (s : State) (c : Fin 4) (b : Fin 8) (p : Fin 12) (h : Keeps s0 s) :
    Keeps s0 (State.isolate s c b p) := by
  unfold State.isolate; try dsimp only
  repeat' first | (intro; try dsimp only) | (with_reducible first
    | assumption | apply State.warn_keeps | apply State.pinc_keeps | apply State.updBr_keeps
    | exact keeps_mk (Keeps.pending (by assumption)) (Keeps.shm (by assumption))) | split

theorem State.violation_keeps {s0 : State} (s : State) (c : Fin 4) (b : Fin 8) (p : Fin 12) (ctr : Nat) (h : Keeps s0 s) :
    Keeps s0 (State.violation s c b p ctr) := by
  unfold State.violation; try dsimp only
  repeat' first | (intro; try dsimp only) | (with_reducible first
    | assumption | apply State.pinc_keeps | apply State.updBr_keeps | apply State.isolate_keeps
    | exact keeps_mk (Keeps.pending (by assumption)) (Keeps.shm (by assumption)) | apply keeps_ite) | split

theorem State.isolationEnd_keeps {s0 : State} (s : State) (c : Fin 4) (b : Fin 8) (h : Keeps s0 s) :
    Keeps s0 (State.isolationEnd s c b) := by
  unfold State.isolationEnd; try dsimp only
  repeat' first | (intro; try dsimp only) | (with_reducible first
    | assumption | apply State.alarm_keeps | apply State.updBr_keeps
    | exact keeps_mk (Keeps.pending (by assumption)) (Keeps.shm (by assumption)) | apply keeps_ite
    | refine keeps_snd (by assumption) ?_ | refine keeps_thd (by assumption) ?_
    | refine keeps_fst (by assumption) ?_ | refine keeps_next (by assumption) ?_
    | refine keeps_ok (by assumption) ?_ | refine keeps_some (by assumption) ?_) | split

theorem State.probationEnd_keeps {s0 : State} (s : State) (c : Fin 4) (b : Fin 8) (h : Keeps s0 s) :
    Keeps s0 (State.probationEnd s c b) := by
  unfold State.probationEnd; try dsimp only
  repeat' first | (intro; try dsimp only) | (with_reducible first
    | assumption | apply State.updBr_keeps
    | exact keeps_mk (Keeps.pending (by assumption)) (Keeps.shm (by assumption)) | apply keeps_ite) | split

theorem State.branchRefresh_keeps {s0 : State} (s : State) (c : Fin 4) (b : Fin 8) (h : Keeps s0 s) :
    Keeps s0 (State.branchRefresh s c b) := by
  unfold State.branchRefresh; try dsimp only
  repeat' first | (intro; try dsimp only) | (with_reducible first
    | assumption | apply State.updBr_keeps
    | exact keeps_mk (Keeps.pending (by assumption)) (Keeps.shm (by assumption)) | apply keeps_ite
    | refine keeps_snd (by assumption) ?_ | refine keeps_thd (by assumption) ?_
    | refine keeps_fst (by assumption) ?_ | refine keeps_next (by assumption) ?_
    | refine keeps_ok (by assumption) ?_ | refine keeps_some (by assumption) ?_) | split

theorem State.branchesRefresh_keeps {s0 : State} (s : State) (c : Fin 4) (h : Keeps s0 s) :
    Keeps s0 (State.branchesRefresh s c) := by
  unfold State.branchesRefresh; try dsimp only
  repeat' first | (intro; try dsimp only) | (with_reducible first
    | assumption | apply State.each_keeps | apply State.branchRefresh_keeps | apply keeps_ite) | split

theorem State.hubsRefresh_keeps {s0 : State} (s : State) (h : Keeps s0 s) :
    Keeps s0 (State.hubsRefresh s) := by
  unfold State.hubsRefresh; try dsimp only
  repeat' first | (intro; try dsimp only) | (with_reducible first
    | assumption | apply State.each_keeps | apply State.branchesRefresh_keeps) | split

theorem State.rearm_keeps {s0 : State} (s : State) (c : Fin 4) (mask : Nat) (h : Keeps s0 s) :
    Keeps s0 (State.rearm s c mask) := by
  unfold State.rearm; try dsimp only
  repeat' first | (intro; try dsimp only) | (with_reducible first
    | assumption | apply State.each_keeps | apply State.updBr_keeps
    | exact keeps_mk (Keeps.pending (by assumption)) (Keeps.shm (by assumption)) | apply keeps_ite) | split

theorem State.toBranches_keeps {s0 : State} (s : State) (c : Fin 4) (bs : List Byte) (dgs timed : List DgHead) (fcs : Fcs) (f : DrumIn) (h : Keeps s0 s) :
    Keeps s0 (State.toBranches s c bs dgs timed fcs f) := by
  unfold State.toBranches; try dsimp only
  repeat' first | (intro; try dsimp only) | (with_reducible first
    | assumption | apply State.emit_keeps | apply keeps_foldl | apply keeps_ite
    | refine keeps_snd (by assumption) ?_ | refine keeps_thd (by assumption) ?_
    | refine keeps_fst (by assumption) ?_ | refine keeps_next (by assumption) ?_
    | refine keeps_ok (by assumption) ?_ | refine keeps_some (by assumption) ?_) | split

theorem State.mergeWindows_keeps {s0 : State} (s : State) (c : Fin 4) (h : Keeps s0 s) :
    Keeps s0 (State.mergeWindows s c) := by
  unfold State.mergeWindows; try dsimp only
  repeat' first | (intro; try dsimp only) | (with_reducible first
    | assumption | apply State.updPort_keeps | apply State.each_keeps
    | exact keeps_mk (Keeps.pending (by assumption)) (Keeps.shm (by assumption)) | apply keeps_ite
    | refine keeps_snd (by assumption) ?_ | refine keeps_thd (by assumption) ?_
    | refine keeps_fst (by assumption) ?_ | refine keeps_next (by assumption) ?_
    | refine keeps_ok (by assumption) ?_ | refine keeps_some (by assumption) ?_) | split

theorem State.hubRecord_keeps {s0 : State} (s : State) (c : Fin 4) (p : Fin 12) (side : Side) (f : DrumIn) (good dup : Bool) (h : Keeps s0 s) :
    Keeps s0 (State.hubRecord s c p side f good dup) := by
  unfold State.hubRecord; try dsimp only
  repeat' first | (intro; try dsimp only) | (with_reducible first
    | assumption | apply State.putRecord_keeps | refine keeps_snd (by assumption) ?_
    | refine keeps_thd (by assumption) ?_ | refine keeps_fst (by assumption) ?_
    | refine keeps_next (by assumption) ?_ | refine keeps_ok (by assumption) ?_
    | refine keeps_some (by assumption) ?_) | split

theorem State.hubDown_keeps {s0 : State} (s : State) (c : Fin 4) (p : Fin 12) (side : Side) (f : DrumIn) (h : Keeps s0 s) :
    Keeps s0 (State.hubDown s c p side f) := by
  unfold State.hubDown
  extract_lets bs s1 key w
  split
  extract_lets good s2 k lag s3 s4 run mm s6 x s7 s8 s9 s10
  have h1 : Keeps s0 s1 := State.fcsCount_keeps _ _ _ h
  have h2 : Keeps s0 s2 := keeps_ite (State.pinc_keeps _ _ _ h1) h1
  have h3 : Keeps s0 s3 := State.updDl_keeps _ _ _ h2
  have h4 : Keeps s0 s4 := State.branchesRefresh_keeps _ _ (State.adoptRoute_keeps _ _ _ _ (State.routeLate_keeps _ _ _ _ _ h3))
  clear_value s4
  have h6 : Keeps s0 s6 := keeps_ite (State.pinc_keeps _ _ _ h4) h4
  have hx : Keeps s0 x.s := keeps_iteX h6 (keeps_foldlX (fun t a ht => Passing.actHub_keeps w t a ht) h6)
  clear_value x
  have h8 : Keeps s0 s8 := keeps_ite (State.mergeWindows_keeps _ _ (State.updDl_keeps _ _ _ hx)) hx
  clear_value s8
  have h9 : Keeps s0 s9 := State.toBranches_keeps _ _ _ _ _ _ _ h8
  clear_value s9
  have h10 : Keeps s0 s10 := keeps_ite (State.noteUsable_keeps _ _ _ h9) h9
  clear_value s10
  exact keeps_ite (State.hubRecord_keeps _ _ _ _ _ _ _ (State.updPort_keeps _ _ _ (State.pinc_keeps _ _ _ h2)))
    (State.dlHeard_keeps _ _ _ _ (State.hubRecord_keeps _ _ _ _ _ _ _ h10))

theorem State.hubClaim_keeps {s0 : State} (s : State) (c : Fin 4) (p : Fin 12) (side : Side) (f : DrumIn) (h : Keeps s0 s) :
    Keeps s0 (State.hubClaim s c p side f) := by
  unfold State.hubClaim; try dsimp only
  repeat' first | (intro; try dsimp only) | (with_reducible first
    | assumption | apply State.emit_keeps | apply State.fcsCount_keeps | apply State.updBr_keeps
    | apply State.violation_keeps | exact keeps_mk (Keeps.pending (by assumption)) (Keeps.shm (by assumption))
    | apply keeps_foldl | apply keeps_ite | refine keeps_snd (by assumption) ?_
    | refine keeps_thd (by assumption) ?_ | refine keeps_fst (by assumption) ?_
    | refine keeps_next (by assumption) ?_ | refine keeps_ok (by assumption) ?_
    | refine keeps_some (by assumption) ?_) | split

theorem State.cutAtOpen_keeps {s0 : State} (s : State) (c : Fin 4) (b : Fin 8) (p : Fin 12) (r : RouteBr) (a : BranchIn) (h : Keeps s0 s) :
    Keeps s0 (State.cutAtOpen s c b p r a) := by
  unfold State.cutAtOpen; try dsimp only
  repeat' first | (intro; try dsimp only) | (with_reducible first
    | assumption | apply State.violation_keeps | apply keeps_ite) | split

theorem State.branchJudged_keeps {s0 : State} (s : State) (c : Fin 4) (b : Fin 8) (p : Fin 12) (a : BranchIn) (h : Keeps s0 s) :
    Keeps s0 (State.branchJudged s c b p a).1 := by
  unfold State.branchJudged; try dsimp only
  repeat' first | (intro; try dsimp only) | (with_reducible first
    | assumption | apply State.pinc_keeps | apply State.fcsCount_keeps | apply State.updBr_keeps
    | apply State.guardSample_keeps | apply State.violation_keeps | apply State.cutAtOpen_keeps
    | exact keeps_mk (Keeps.pending (by assumption)) (Keeps.shm (by assumption)) | apply keeps_ite
    | refine keeps_snd (by assumption) ?_ | refine keeps_thd (by assumption) ?_
    | refine keeps_fst (by assumption) ?_ | refine keeps_next (by assumption) ?_
    | refine keeps_ok (by assumption) ?_ | refine keeps_some (by assumption) ?_) | split

theorem State.branchArrival_keeps {s0 : State} (s : State) (c : Fin 4) (b : Fin 8) (p : Fin 12) (a : BranchIn) (h : Keeps s0 s) :
    Keeps s0 (State.branchArrival s c b p a).1 := by
  unfold State.branchArrival; try dsimp only
  repeat' first | (intro; try dsimp only) | (with_reducible first
    | assumption | apply State.pinc_keeps | apply State.hubRecord_keeps | apply State.hubClaim_keeps
    | apply State.branchJudged_keeps | apply keeps_ite | refine keeps_snd (by assumption) ?_
    | refine keeps_thd (by assumption) ?_ | refine keeps_fst (by assumption) ?_
    | refine keeps_next (by assumption) ?_ | refine keeps_ok (by assumption) ?_
    | refine keeps_some (by assumption) ?_) | split

theorem State.slotClose_keeps {s0 : State} (s : State) (c : Fin 4) (b : Fin 8) (f : Fin 4) (arriving : Bool) (h : Keeps s0 s) :
    Keeps s0 (State.slotClose s c b f arriving) := by
  unfold State.slotClose; try dsimp only
  repeat' first | (intro; try dsimp only) | (with_reducible first
    | assumption | apply State.pinc_keeps | apply State.updBr_keeps | apply State.violation_keeps
    | exact keeps_mk (Keeps.pending (by assumption)) (Keeps.shm (by assumption)) | apply keeps_ite
    | refine keeps_snd (by assumption) ?_ | refine keeps_thd (by assumption) ?_
    | refine keeps_fst (by assumption) ?_ | refine keeps_next (by assumption) ?_
    | refine keeps_ok (by assumption) ?_ | refine keeps_some (by assumption) ?_) | split

theorem State.mergedFrame_keeps {s0 : State} (s : State) (c : Fin 4) (f : Fin 4) (h : Keeps s0 s) :
    Keeps s0 (State.mergedFrame s c f) := by
  unfold State.mergedFrame; try dsimp only
  repeat' first | (intro; try dsimp only) | (with_reducible first
    | assumption | apply State.emit_keeps | apply keeps_foldl | apply keeps_ite
    | refine keeps_snd (by assumption) ?_ | refine keeps_thd (by assumption) ?_
    | refine keeps_fst (by assumption) ?_ | refine keeps_next (by assumption) ?_
    | refine keeps_ok (by assumption) ?_ | refine keeps_some (by assumption) ?_) | split

theorem State.hubBeat_keeps {s0 : State} (s : State) (c : Fin 4) (h : Keeps s0 s) :
    Keeps s0 (State.hubBeat s c) := by
  unfold State.hubBeat; try dsimp only
  repeat' first | (intro; try dsimp only) | (with_reducible first
    | assumption | apply State.updDl_keeps | apply State.each_keeps | apply State.edgeCheck_keeps
    | apply State.branchesRefresh_keeps
    | exact keeps_mk (Keeps.pending (by assumption)) (Keeps.shm (by assumption)) | apply keeps_ite) | split

theorem State.symbolErrs_keeps {s0 : State} (s : State) (p : Fin 12) (n : Nat) (h : Keeps s0 s) :
    Keeps s0 (State.symbolErrs s p n) := by
  unfold State.symbolErrs; try dsimp only
  repeat' first | (intro; try dsimp only) | (with_reducible first
    | assumption | apply State.padd_keeps | apply keeps_ite) | split

theorem State.drumFrame_keeps {s0 : State} (s : State) (p : Fin 12) (f : DrumIn) (returning : Bool) (h : Keeps s0 s) :
    Keeps s0 (State.drumFrame s p f returning) := by
  unfold State.drumFrame; try dsimp only
  repeat' first | (intro; try dsimp only) | (with_reducible first
    | assumption | apply State.pinc_keeps | apply State.arrived_keeps | apply State.fcsCount_keeps
    | apply State.forward_keeps | apply State.claimAt_keeps | apply State.drumPass_keeps
    | apply State.drumReturn_keeps | apply State.noteOrig_keeps | apply State.toBranches_keeps
    | apply State.hubDown_keeps | apply State.hubClaim_keeps | apply State.branchArrival_keeps
    | apply State.symbolErrs_keeps | apply keeps_ite | refine keeps_snd (by assumption) ?_
    | refine keeps_thd (by assumption) ?_ | refine keeps_fst (by assumption) ?_
    | refine keeps_next (by assumption) ?_ | refine keeps_ok (by assumption) ?_
    | refine keeps_some (by assumption) ?_) | split

theorem State.takeBuffers_keeps {s0 : State} (f : Fin 256) : ∀ (n : Nat) (s : State) (bs : List Byte)
    (acc : List (Desc × List Byte)), Keeps s0 s → Keeps s0 (State.takeBuffers s f n bs acc).2.2 := by
  intro n
  induction n with
  | zero => intro s bs acc h; cases bs <;> exact h
  | succ n ih =>
    intro s bs acc h
    cases bs with
    | nil => exact h
    | cons x r =>
      unfold State.takeBuffers
      split
      · exact h
      · exact ih _ _ _ (State.pop_keeps s f h)

theorem State.deliver_keeps {s0 : State} (s : State) (c : Fin 4) (p : Fin 12) (m : RxMeta) (bs : List Byte) (stamp : W32) (tfrac : BitVec 2) (h : Keeps s0 s) :
    Keeps s0 (State.deliver s c p m bs stamp tfrac).1 := by
  unfold State.deliver; try dsimp only
  repeat' first | (intro; try dsimp only) | (with_reducible first
    | assumption | apply State.evpCl_keeps | apply State.pinc_keeps | apply State.padd_keeps
    | apply State.push_keeps | apply State.dmaWrite_keeps | apply State.takeBuffers_keeps | apply keeps_foldl
    | apply keeps_ite | refine keeps_snd (by assumption) ?_ | refine keeps_thd (by assumption) ?_
    | refine keeps_fst (by assumption) ?_ | refine keeps_next (by assumption) ?_
    | refine keeps_ok (by assumption) ?_ | refine keeps_some (by assumption) ?_) | split

theorem State.prpNote_keeps {s0 : State} (s : State) (e : Option (Fin 2 × PrpEntry)) (h : Keeps s0 s) :
    Keeps s0 (State.prpNote s e) := by
  unfold State.prpNote; try dsimp only
  repeat' first | (intro; try dsimp only) | (with_reducible first
    | assumption | exact keeps_mk (Keeps.pending (by assumption)) (Keeps.shm (by assumption))
    | refine keeps_snd (by assumption) ?_ | refine keeps_thd (by assumption) ?_
    | refine keeps_fst (by assumption) ?_ | refine keeps_next (by assumption) ?_
    | refine keeps_ok (by assumption) ?_ | refine keeps_some (by assumption) ?_) | split

theorem State.pauseOver_keeps {s0 : State} (s : State) (p : Fin 12) (h : Keeps s0 s) :
    Keeps s0 (State.pauseOver s p) := by
  unfold State.pauseOver; try dsimp only
  repeat' first | (intro; try dsimp only) | (with_reducible first
    | assumption | apply State.updPort_keeps | apply State.lineFree_keeps
    | exact keeps_mk (Keeps.pending (by assumption)) (Keeps.shm (by assumption))) | split

theorem State.pauseReceived_keeps {s0 : State} (s : State) (p : Fin 12) (bs : List Byte) (h : Keeps s0 s) :
    Keeps s0 (State.pauseReceived s p bs) := by
  unfold State.pauseReceived; try dsimp only
  repeat' first | (intro; try dsimp only) | (with_reducible first
    | assumption | apply State.updPort_keeps | apply State.pinc_keeps | apply State.pauseOver_keeps
    | exact keeps_mk (Keeps.pending (by assumption)) (Keeps.shm (by assumption)) | apply keeps_ite) | split

theorem State.rxAccept_keeps {s0 : State} (s : State) (c : Fin 4) (p : Fin 12) (bs : List Byte) (err : Bool) (code : Nat) (stamp : W32) (tfrac : BitVec 2) (h : Keeps s0 s) :
    Keeps s0 (State.rxAccept s c p bs err code stamp tfrac) := by
  unfold State.rxAccept; try dsimp only
  repeat' first | (intro; try dsimp only) | (with_reducible first
    | assumption | apply State.pinc_keeps | apply State.deliver_keeps | apply State.prpNote_keeps
    | apply keeps_ite | refine keeps_snd (by assumption) ?_ | refine keeps_thd (by assumption) ?_
    | refine keeps_fst (by assumption) ?_ | refine keeps_next (by assumption) ?_
    | refine keeps_ok (by assumption) ?_ | refine keeps_some (by assumption) ?_) | split

theorem State.rxWhole_keeps {s0 : State} (s : State) (c : Fin 4) (p : Fin 12) (bs : List Byte) (fcs : Fcs) (symErrs : Nat) (stamp : W32) (tfrac : BitVec 2) (h : Keeps s0 s) :
    Keeps s0 (State.rxWhole s c p bs fcs symErrs stamp tfrac) := by
  unfold State.rxWhole; try dsimp only
  repeat' first | (intro; try dsimp only) | (with_reducible first
    | assumption | apply State.pinc_keeps | apply Passing.take_keeps | apply State.pauseReceived_keeps
    | apply State.rxAccept_keeps | apply keeps_ite) | split

theorem State.dropReasm_keeps {s0 : State} (s : State) (p : Fin 12) (h : Keeps s0 s) :
    Keeps s0 (State.dropReasm s p) := by
  unfold State.dropReasm; try dsimp only
  repeat' first | (intro; try dsimp only) | (with_reducible first
    | assumption | apply State.updPort_keeps | apply State.pinc_keeps
    | exact keeps_mk (Keeps.pending (by assumption)) (Keeps.shm (by assumption))) | split

theorem State.rxJoin_keeps {s0 : State} (s : State) (c : Fin 4) (p : Fin 12) (r : Reasm) (tail : FragEnd) (fcs : Fcs) (h : Keeps s0 s) :
    Keeps s0 (State.rxJoin s c p r tail fcs) := by
  unfold State.rxJoin; try dsimp only
  repeat' first | (intro; try dsimp only) | (with_reducible first
    | assumption | apply State.updPort_keeps | apply State.rxWhole_keeps | apply State.dropReasm_keeps
    | exact keeps_mk (Keeps.pending (by assumption)) (Keeps.shm (by assumption))
    | refine keeps_snd (by assumption) ?_ | refine keeps_thd (by assumption) ?_
    | refine keeps_fst (by assumption) ?_ | refine keeps_next (by assumption) ?_
    | refine keeps_ok (by assumption) ?_ | refine keeps_some (by assumption) ?_) | split

theorem State.rxFrame_keeps {s0 : State} (s : State) (p : Fin 12) (f : RxFrame) (h : Keeps s0 s) :
    Keeps s0 (State.rxFrame s p f) := by
  unfold State.rxFrame; try dsimp only
  repeat' first | (intro; try dsimp only) | (with_reducible first
    | assumption | apply State.updPort_keeps | apply State.pinc_keeps | apply State.arrived_keeps
    | apply State.symbolErrs_keeps | apply State.rxWhole_keeps | apply State.dropReasm_keeps
    | apply State.rxJoin_keeps | exact keeps_mk (Keeps.pending (by assumption)) (Keeps.shm (by assumption))
    | apply keeps_ite | refine keeps_snd (by assumption) ?_ | refine keeps_thd (by assumption) ?_
    | refine keeps_fst (by assumption) ?_ | refine keeps_next (by assumption) ?_
    | refine keeps_ok (by assumption) ?_ | refine keeps_some (by assumption) ?_) | split

theorem State.gather_keeps {s0 : State} (c : Fin 4) (p : Fin 12) : ∀ (ds : List Desc) (s : State), Keeps s0 s →
    Keeps s0 (State.gather s c p ds).2 := by
  intro ds
  induction ds with
  | nil => intro s h; exact h
  | cons d r ih => intro s h; exact ih _ (State.dmaRead_keeps s c _ _ _ h)

theorem State.insertTime_keeps {s0 : State} (s : State) (p : Fin 12) (bs : List Byte) (d : Desc) (stamp : W64) (h : Keeps s0 s) :
    Keeps s0 (State.insertTime s p bs d stamp).2.2.2 := by
  unfold State.insertTime; try dsimp only
  repeat' first | (intro; try dsimp only) | (with_reducible first
    | assumption | apply State.pinc_keeps | apply keeps_ite | refine keeps_snd (by assumption) ?_
    | refine keeps_thd (by assumption) ?_ | refine keeps_fst (by assumption) ?_
    | refine keeps_next (by assumption) ?_ | refine keeps_ok (by assumption) ?_
    | refine keeps_some (by assumption) ?_) | split

theorem State.dress_keeps {s0 : State} (s : State) (p : Fin 12) (raw : List Byte) (d : Desc) (nofcs : Bool) (stamp : W64) (h : Keeps s0 s) :
    Keeps s0 (State.dress s p raw d nofcs stamp).2.2 := by
  unfold State.dress; try dsimp only
  repeat' first | (intro; try dsimp only) | (with_reducible first
    | assumption | apply Passing.take_keeps | apply State.insertTime_keeps | apply keeps_ite
    | refine keeps_snd (by assumption) ?_ | refine keeps_thd (by assumption) ?_
    | refine keeps_fst (by assumption) ?_ | refine keeps_next (by assumption) ?_
    | refine keeps_ok (by assumption) ?_ | refine keeps_some (by assumption) ?_) | split

theorem State.drumLeaves_keeps {s0 : State} (s : State) (c : Fin 4) (p : Fin 12) (bs : List Byte) (stamp : W64) (h : Keeps s0 s) :
    Keeps s0 (State.drumLeaves s c p bs stamp).2.2 := by
  unfold State.drumLeaves
  split
  extract_lets half dl gives x s1
  have hx : Keeps s0 x.s := by
    refine keeps_foldlX (fun t d ht => ?_) h
    extract_lets y given z
    have hy : Keeps s0 y.s := by
      show Keeps s0 (Passing.s (match (if (d.na && d.cmd = 2) = true then dl.naAt d else none) with | some a => _ | none => _))
      split
      · exact State.rd_keeps _ _ _ _ _ ht
      · exact keeps_iteX (Passing.give_keeps _ _ _ _ _ _ _ ht) ht
    have hz : Keeps s0 z.s := by
      show Keeps s0 (y.s.updPc c fun q => { q with digest := _, given := _ })
      exact State.updPc_keeps _ _ _ hy
    exact keeps_iteX hz hz
  show Keeps s0 s1
  exact State.updDl_keeps x.s _ _ hx

theorem State.dropHead_keeps {s0 : State} (s : State) (p : Fin 12) (cls n : Nat) (h : Keeps s0 s) :
    Keeps s0 (State.dropHead s p cls n) := by
  unfold State.dropHead; try dsimp only
  repeat' first | (intro; try dsimp only) | (with_reducible first
    | assumption | apply State.updHq_keeps | apply State.headMoved_keeps
    | exact keeps_mk (Keeps.pending (by assumption)) (Keeps.shm (by assumption))) | split

theorem State.clearHeads_keeps {s0 : State} (p : Fin 12) (cls : Nat) : ∀ (n : Nat) (s : State), Keeps s0 s →
    Keeps s0 (State.clearHeads p cls n s) := by
  intro n
  induction n with
  | zero => intro s h; exact h
  | succ n ih =>
    intro s h
    unfold State.clearHeads
    split
    · exact h
    · split
      · exact h
      · exact ih _ (State.completeTx_keeps _ _ _ _ _ _ (State.dropHead_keeps _ _ _ _ h))

theorem State.sendCopy_keeps {s0 : State} (s : State) (q : Fin 12) (w : WireFrame) (h : Keeps s0 s) :
    Keeps s0 (State.sendCopy s q w) := by
  unfold State.sendCopy; try dsimp only
  repeat' first | (intro; try dsimp only) | (with_reducible first
    | assumption | apply State.updPort_keeps
    | exact keeps_mk (Keeps.pending (by assumption)) (Keeps.shm (by assumption)) | apply keeps_ite) | split

theorem State.onLine_keeps {s0 : State} (s : State) (p : Fin 12) (t : TxRun) (fcs : Fcs) (h : Keeps s0 s) :
    Keeps s0 (State.onLine s p t fcs) := by
  unfold State.onLine; try dsimp only
  repeat' first | (intro; try dsimp only) | (with_reducible first
    | assumption | apply State.updPort_keeps
    | exact keeps_mk (Keeps.pending (by assumption)) (Keeps.shm (by assumption)) | apply keeps_ite) | split

theorem State.ownPassage_keeps {s0 : State} (s : State) (p : Fin 12) (bytes : List Byte) (stamp : W64) (h : Keeps s0 s) :
    Keeps s0 (State.ownPassage s p bytes stamp) := by
  unfold State.ownPassage; try dsimp only
  repeat' first | (intro; try dsimp only) | (with_reducible first
    | assumption | apply State.updPort_keeps | apply State.passOut_keeps
    | exact keeps_mk (Keeps.pending (by assumption)) (Keeps.shm (by assumption))) | split

theorem State.startLaunch_keeps {s0 : State} (s : State) (c : Fin 4) (p : Fin 12) (stamp : W64) (h : Keeps s0 s) :
    Keeps s0 (State.startLaunch s c p stamp) := by
  unfold State.startLaunch; try dsimp only
  repeat' first | (intro; try dsimp only) | (with_reducible first
    | assumption | apply State.updPort_keeps | apply State.drumLeaves_keeps | apply State.onLine_keeps
    | apply State.ownPassage_keeps | exact keeps_mk (Keeps.pending (by assumption)) (Keeps.shm (by assumption))
    | apply keeps_ite | refine keeps_snd (by assumption) ?_ | refine keeps_thd (by assumption) ?_
    | refine keeps_fst (by assumption) ?_ | refine keeps_next (by assumption) ?_
    | refine keeps_ok (by assumption) ?_ | refine keeps_some (by assumption) ?_) | split

theorem State.startFrame_keeps {s0 : State} (s : State) (c : Fin 4) (p : Fin 12) (cls : Nat) (ds : List Desc) (stamp : W64) (h : Keeps s0 s) :
    Keeps s0 (State.startFrame s c p cls ds stamp) := by
  unfold State.startFrame
  split
  · exact h
  extract_lets nofcs drum pre s1
  have h1 : Keeps s0 s1 := State.dropHead_keeps _ _ _ _ h
  clear_value s1 drum
  split
  next raw bad s2 e2 =>
  have h2 : Keeps s0 s2 := keeps_snd e2 (State.gather_keeps _ _ _ _ h1)
  split
  next bs skip bad2 s3 e3 =>
  have h3 : Keeps s0 s3 := by
    split at e3
    · cases e3; exact State.drumLeaves_keeps _ _ _ _ _ h2
    · cases e3; exact State.dress_keeps _ _ _ _ nofcs _ h2
  extract_lets fcs dup
  clear_value dup
  split
  next bsA s4 e4 =>
  have h4 : Keeps s0 s4 := by
    cases dup with
    | some kq => cases e4; exact State.sendCopy_keeps _ _ _ (keeps_mk h3.pending h3.shm)
    | none => cases e4; exact h3
  extract_lets s5 s6
  have h5 : Keeps s0 s5 := keeps_ite (State.pinc_keeps _ _ _ h4) h4
  have h6 : Keeps s0 s6 := keeps_ite (State.ownPassage_keeps _ _ _ _ h5) h5
  exact State.onLine_keeps _ _ _ _ h6

theorem State.retryFrame_keeps {s0 : State} (s : State) (p : Fin 12) (stamp : W64) (h : Keeps s0 s) :
    Keeps s0 (State.retryFrame s p stamp) := by
  unfold State.retryFrame; try dsimp only
  repeat' first | (intro; try dsimp only) | (with_reducible first
    | assumption | apply State.updPort_keeps | apply State.dress_keeps | apply State.onLine_keeps
    | exact keeps_mk (Keeps.pending (by assumption)) (Keeps.shm (by assumption)) | apply keeps_ite
    | refine keeps_snd (by assumption) ?_ | refine keeps_thd (by assumption) ?_
    | refine keeps_fst (by assumption) ?_ | refine keeps_next (by assumption) ?_
    | refine keeps_ok (by assumption) ?_ | refine keeps_some (by assumption) ?_) | split

theorem State.resumeFrame_keeps {s0 : State} (s : State) (p : Fin 12) (t : TxRun) (stamp : W64) (h : Keeps s0 s) :
    Keeps s0 (State.resumeFrame s p t stamp) := by
  unfold State.resumeFrame; try dsimp only
  repeat' first | (intro; try dsimp only) | (with_reducible first
    | assumption | apply State.updPort_keeps | apply State.onLine_keeps
    | exact keeps_mk (Keeps.pending (by assumption)) (Keeps.shm (by assumption)) | apply keeps_ite) | split

theorem State.launch_keeps {s0 : State} (s : State) (p : Fin 12) (q : Fin 8) (h : Keeps s0 s) :
    Keeps s0 (State.launch s p q) := by
  unfold State.launch; try dsimp only
  repeat' first | (intro; try dsimp only) | (with_reducible first
    | assumption | apply State.updPort_keeps
    | exact keeps_mk (Keeps.pending (by assumption)) (Keeps.shm (by assumption)) | apply keeps_ite
    | refine keeps_snd (by assumption) ?_ | refine keeps_thd (by assumption) ?_
    | refine keeps_fst (by assumption) ?_ | refine keeps_next (by assumption) ?_
    | refine keeps_ok (by assumption) ?_ | refine keeps_some (by assumption) ?_) | split

theorem State.tryResume_keeps {s0 : State} (s : State) (c : Fin 4) (p : Fin 12) (stamp : W64) (h : Keeps s0 s) :
    Keeps s0 (State.tryResume s c p stamp) := by
  unfold State.tryResume; try dsimp only
  repeat' first | (intro; try dsimp only) | (with_reducible first
    | assumption | apply State.resumeFrame_keeps | apply keeps_ite | refine keeps_snd (by assumption) ?_
    | refine keeps_thd (by assumption) ?_ | refine keeps_fst (by assumption) ?_
    | refine keeps_next (by assumption) ?_ | refine keeps_ok (by assumption) ?_
    | refine keeps_some (by assumption) ?_) | split

theorem State.selectTx_keeps {s0 : State} (s : State) (p : Fin 12) (stamp : W64) (h : Keeps s0 s) :
    Keeps s0 (State.selectTx s p stamp) := by
  unfold State.selectTx; try dsimp only
  repeat' first | (intro; try dsimp only) | (with_reducible first
    | assumption | apply State.preempt_keeps | apply State.clearHeads_keeps | apply State.startLaunch_keeps
    | apply State.startFrame_keeps | apply State.retryFrame_keeps | apply State.tryResume_keeps
    | apply keeps_foldl | apply keeps_ite | refine keeps_snd (by assumption) ?_
    | refine keeps_thd (by assumption) ?_ | refine keeps_fst (by assumption) ?_
    | refine keeps_next (by assumption) ?_ | refine keeps_ok (by assumption) ?_
    | refine keeps_some (by assumption) ?_) | split

theorem State.endFrame_keeps {s0 : State} (s : State) (p : Fin 12) (memErr : Bool) (h : Keeps s0 s) :
    Keeps s0 (State.endFrame s p memErr) := by
  unfold State.endFrame; try dsimp only
  repeat' first | (intro; try dsimp only) | (with_reducible first
    | assumption | apply State.updPort_keeps | apply State.pinc_keeps | apply State.padd_keeps
    | apply State.completeTx_keeps | exact keeps_mk (Keeps.pending (by assumption)) (Keeps.shm (by assumption))
    | apply keeps_ite | refine keeps_snd (by assumption) ?_ | refine keeps_thd (by assumption) ?_
    | refine keeps_fst (by assumption) ?_ | refine keeps_next (by assumption) ?_
    | refine keeps_ok (by assumption) ?_ | refine keeps_some (by assumption) ?_) | split

theorem State.txEnd_keeps {s0 : State} (s : State) (p : Fin 12) (memErr : Bool) (h : Keeps s0 s) :
    Keeps s0 (State.txEnd s p memErr) := by
  unfold State.txEnd; try dsimp only
  repeat' first | (intro; try dsimp only) | (with_reducible first
    | assumption | apply State.lineFree_keeps | apply State.endFrame_keeps | apply keeps_ite) | split

theorem State.txMemErr_keeps {s0 : State} (s : State) (p : Fin 12) (h : Keeps s0 s) :
    Keeps s0 (State.txMemErr s p) := by
  unfold State.txMemErr; try dsimp only
  repeat' first | (intro; try dsimp only) | (with_reducible first
    | assumption | apply State.memUncorr_keeps | apply State.damage_keeps | refine keeps_snd (by assumption) ?_
    | refine keeps_thd (by assumption) ?_ | refine keeps_fst (by assumption) ?_
    | refine keeps_next (by assumption) ?_ | refine keeps_ok (by assumption) ?_
    | refine keeps_some (by assumption) ?_) | split

theorem State.gateHold_keeps {s0 : State} (s : State) (p : Fin 12) (h : Keeps s0 s) :
    Keeps s0 (State.gateHold s p) := by
  unfold State.gateHold; try dsimp only
  repeat' first | (intro; try dsimp only) | (with_reducible first
    | assumption | apply State.updPort_keeps | apply State.preempt_keeps | apply State.lineFree_keeps
    | exact keeps_mk (Keeps.pending (by assumption)) (Keeps.shm (by assumption)) | apply keeps_ite) | split

theorem State.gateStep_keeps {s0 : State} (s : State) (p : Fin 12) (h : Keeps s0 s) :
    Keeps s0 (State.gateStep s p) := by
  unfold State.gateStep; try dsimp only
  repeat' first | (intro; try dsimp only) | (with_reducible first
    | assumption | apply State.updPort_keeps | apply State.gateHold_keeps
    | exact keeps_mk (Keeps.pending (by assumption)) (Keeps.shm (by assumption)) | apply keeps_ite
    | refine keeps_snd (by assumption) ?_ | refine keeps_thd (by assumption) ?_
    | refine keeps_fst (by assumption) ?_ | refine keeps_next (by assumption) ?_
    | refine keeps_ok (by assumption) ?_ | refine keeps_some (by assumption) ?_) | split

theorem State.gateBeat_keeps {s0 : State} (s : State) (c : Fin 4) (p : Fin 12) (h : Keeps s0 s) :
    Keeps s0 (State.gateBeat s c p) := by
  unfold State.gateBeat; try dsimp only
  repeat' first | (intro; try dsimp only) | (with_reducible first
    | assumption | apply State.updPort_keeps | apply State.padd_keeps | apply State.gateHold_keeps
    | exact keeps_mk (Keeps.pending (by assumption)) (Keeps.shm (by assumption)) | apply keeps_ite
    | refine keeps_snd (by assumption) ?_ | refine keeps_thd (by assumption) ?_
    | refine keeps_fst (by assumption) ?_ | refine keeps_next (by assumption) ?_
    | refine keeps_ok (by assumption) ?_ | refine keeps_some (by assumption) ?_) | split

theorem State.windowBeat_keeps {s0 : State} (s : State) (c : Fin 4) (switched : Bool) (h : Keeps s0 s) :
    Keeps s0 (State.windowBeat s c switched) := by
  unfold State.windowBeat; try dsimp only
  repeat' first | (intro; try dsimp only) | (with_reducible first
    | assumption | apply State.updPort_keeps | apply State.each_keeps | apply State.firstCycle_keeps
    | apply State.mergeWindows_keeps
    | exact keeps_mk (Keeps.pending (by assumption)) (Keeps.shm (by assumption)) | apply keeps_ite
    | refine keeps_snd (by assumption) ?_ | refine keeps_thd (by assumption) ?_
    | refine keeps_fst (by assumption) ?_ | refine keeps_next (by assumption) ?_
    | refine keeps_ok (by assumption) ?_ | refine keeps_some (by assumption) ?_) | split

theorem State.windowHold_keeps {s0 : State} (s : State) (p : Fin 12) (h : Keeps s0 s) :
    Keeps s0 (State.windowHold s p) := by
  unfold State.windowHold; try dsimp only
  repeat' first | (intro; try dsimp only) | (with_reducible first
    | assumption | apply State.preempt_keeps | apply State.lineFree_keeps | apply keeps_ite
    | refine keeps_snd (by assumption) ?_ | refine keeps_thd (by assumption) ?_
    | refine keeps_fst (by assumption) ?_ | refine keeps_next (by assumption) ?_
    | refine keeps_ok (by assumption) ?_ | refine keeps_some (by assumption) ?_) | split

end Sys2Proof.Machine
end

