-- ==== Sys2Proof/Laws/KeepsIo.lean ====
section
/-!
SUPPORT. The operations of CAN, PIO engines and field I/O touch neither the queue nor the canonical form of the shared memory.
-/
set_option maxRecDepth 4000
namespace Sys2Proof.Machine

theorem State.ninc_keeps {s0 : State} (s : State) (n : Fin 4) (i : Nat) (h : Keeps s0 s) :
    Keeps s0 (State.ninc s n i) := by
  unfold State.ninc; try dsimp only
  repeat' first | (intro; try dsimp only) | (with_reducible first
    | assumption | apply State.updCan_keeps
    | exact keeps_mk (Keeps.pending (by assumption)) (Keeps.shm (by assumption))) | split

theorem State.canState_keeps {s0 : State} (s : State) (n : Fin 4) (st : Fin 6) (h : Keeps s0 s) :
    Keeps s0 (State.canState s n st) := by
  unfold State.canState; try dsimp only
  repeat' first | (intro; try dsimp only) | (with_reducible first
    | assumption | apply State.updCan_keeps | apply State.notify_keeps | apply State.evpCl_keeps
    | apply State.warn_keeps | apply State.ninc_keeps
    | exact keeps_mk (Keeps.pending (by assumption)) (Keeps.shm (by assumption)) | apply keeps_ite
    | refine keeps_snd (by assumption) ?_ | refine keeps_thd (by assumption) ?_
    | refine keeps_fst (by assumption) ?_ | refine keeps_next (by assumption) ?_
    | refine keeps_ok (by assumption) ?_ | refine keeps_some (by assumption) ?_) | split

theorem State.canCounts_keeps {s0 : State} (s : State) (n : Fin 4) (tec rec : Nat) (h : Keeps s0 s) :
    Keeps s0 (State.canCounts s n tec rec) := by
  unfold State.canCounts; try dsimp only
  repeat' first | (intro; try dsimp only) | (with_reducible first
    | assumption | apply State.updCan_keeps | apply State.canState_keeps
    | exact keeps_mk (Keeps.pending (by assumption)) (Keeps.shm (by assumption)) | apply keeps_ite) | split

theorem State.canComplete_keeps {s0 : State} (s : State) (n : Fin 4) (d : Desc) (result attempts : Nat) (stamp : W32) (h : Keeps s0 s) :
    Keeps s0 (State.canComplete s n d result attempts stamp) := by
  unfold State.canComplete; try dsimp only
  repeat' first | (intro; try dsimp only) | (with_reducible first
    | assumption | apply State.updHq_keeps | apply State.evpCl_keeps | apply State.push_keeps
    | apply State.ninc_keeps | exact keeps_mk (Keeps.pending (by assumption)) (Keeps.shm (by assumption))
    | apply keeps_ite | refine keeps_snd (by assumption) ?_ | refine keeps_thd (by assumption) ?_
    | refine keeps_fst (by assumption) ?_ | refine keeps_next (by assumption) ?_
    | refine keeps_ok (by assumption) ?_ | refine keeps_some (by assumption) ?_) | split

theorem State.bufDone_keeps {s0 : State} (s : State) (n : Fin 4) (b : Fin 8) (result : Nat) (stamp : W32) (h : Keeps s0 s) :
    Keeps s0 (State.bufDone s n b result stamp) := by
  unfold State.bufDone; try dsimp only
  repeat' first | (intro; try dsimp only) | (with_reducible first
    | assumption | apply State.updCan_keeps | apply State.canComplete_keeps
    | exact keeps_mk (Keeps.pending (by assumption)) (Keeps.shm (by assumption)) | apply keeps_ite
    | refine keeps_snd (by assumption) ?_ | refine keeps_thd (by assumption) ?_
    | refine keeps_fst (by assumption) ?_ | refine keeps_next (by assumption) ?_
    | refine keeps_ok (by assumption) ?_ | refine keeps_some (by assumption) ?_) | split

theorem State.canFlush_keeps {s0 : State} (s : State) (n : Fin 4) (h : Keeps s0 s) :
    Keeps s0 (State.canFlush s n) := by
  unfold State.canFlush; try dsimp only
  repeat' first | (intro; try dsimp only) | (with_reducible first
    | assumption | apply State.updHq_keeps | apply State.each_keeps | apply State.canComplete_keeps
    | apply State.bufDone_keeps | exact keeps_mk (Keeps.pending (by assumption)) (Keeps.shm (by assumption))
    | apply keeps_foldl | apply keeps_ite) | split

theorem State.canIdle_keeps {s0 : State} (s : State) (n : Fin 4) (h : Keeps s0 s) :
    Keeps s0 (State.canIdle s n) := by
  unfold State.canIdle; try dsimp only
  repeat' first | (intro; try dsimp only) | (with_reducible first
    | assumption | apply State.updCan_keeps | apply State.canState_keeps | apply State.canFlush_keeps
    | exact keeps_mk (Keeps.pending (by assumption)) (Keeps.shm (by assumption)) | apply keeps_ite) | split

theorem State.canGo_keeps {s0 : State} (s : State) (n : Fin 4) (h : Keeps s0 s) :
    Keeps s0 (State.canGo s n) := by
  unfold State.canGo; try dsimp only
  repeat' first | (intro; try dsimp only) | (with_reducible first
    | assumption | apply State.updCan_keeps | apply State.canState_keeps
    | exact keeps_mk (Keeps.pending (by assumption)) (Keeps.shm (by assumption)) | apply keeps_ite
    | refine keeps_snd (by assumption) ?_ | refine keeps_thd (by assumption) ?_
    | refine keeps_fst (by assumption) ?_ | refine keeps_next (by assumption) ?_
    | refine keeps_ok (by assumption) ?_ | refine keeps_some (by assumption) ?_) | split

theorem State.stopCans_keeps {s0 : State} (s : State) (c : Fin 4) (h : Keeps s0 s) :
    Keeps s0 (State.stopCans s c) := by
  unfold State.stopCans; try dsimp only
  repeat' first | (intro; try dsimp only) | (with_reducible first
    | assumption | apply State.each_keeps | apply State.canIdle_keeps | apply keeps_ite) | split

theorem State.startCans_keeps {s0 : State} (s : State) (c : Fin 4) (h : Keeps s0 s) :
    Keeps s0 (State.startCans s c) := by
  unfold State.startCans; try dsimp only
  repeat' first | (intro; try dsimp only) | (with_reducible first
    | assumption | apply State.each_keeps | apply State.canGo_keeps | apply keeps_ite) | split

theorem State.canDeliver_keeps {s0 : State} (s : State) (n c : Fin 4) (f : CanFrame) (h : Keeps s0 s) :
    Keeps s0 (State.canDeliver s n c f) := by
  unfold State.canDeliver; try dsimp only
  repeat' first | (intro; try dsimp only) | (with_reducible first
    | assumption | apply State.updCan_keeps | apply State.evpCl_keeps | apply State.push_keeps
    | apply State.pop_keeps | apply State.dmaWrite_keeps | apply Passing.take_keeps | apply Passing.act_keeps
    | apply State.ninc_keeps | exact keeps_mk (Keeps.pending (by assumption)) (Keeps.shm (by assumption))
    | apply keeps_id | apply keeps_ite | refine keeps_snd (by assumption) ?_
    | refine keeps_thd (by assumption) ?_ | refine keeps_fst (by assumption) ?_
    | refine keeps_next (by assumption) ?_ | refine keeps_ok (by assumption) ?_
    | refine keeps_some (by assumption) ?_) | split

theorem State.canReceive_keeps {s0 : State} (s : State) (n : Fin 4) (f : CanFrame) (h : Keeps s0 s) :
    Keeps s0 (State.canReceive s n f) := by
  unfold State.canReceive; try dsimp only
  repeat' first | (intro; try dsimp only) | (with_reducible first
    | assumption | apply State.updCan_keeps | apply State.canCounts_keeps | apply State.canDeliver_keeps
    | exact keeps_mk (Keeps.pending (by assumption)) (Keeps.shm (by assumption)) | apply keeps_ite
    | refine keeps_snd (by assumption) ?_ | refine keeps_thd (by assumption) ?_
    | refine keeps_fst (by assumption) ?_ | refine keeps_next (by assumption) ?_
    | refine keeps_ok (by assumption) ?_ | refine keeps_some (by assumption) ?_) | split

theorem State.canLoad_keeps {s0 : State} (s : State) (n : Fin 4) (b : Fin 8) (memErr : Bool) (h : Keeps s0 s) :
    Keeps s0 (State.canLoad s n b memErr) := by
  unfold State.canLoad; try dsimp only
  repeat' first | (intro; try dsimp only) | (with_reducible first
    | assumption | apply State.updCan_keeps | apply State.pop_keeps | apply State.damage_keeps
    | apply State.dmaRead_keeps | apply Passing.take_keeps | apply State.canComplete_keeps
    | exact keeps_mk (Keeps.pending (by assumption)) (Keeps.shm (by assumption)) | apply keeps_ite
    | refine keeps_snd (by assumption) ?_ | refine keeps_thd (by assumption) ?_
    | refine keeps_fst (by assumption) ?_ | refine keeps_next (by assumption) ?_
    | refine keeps_ok (by assumption) ?_ | refine keeps_some (by assumption) ?_) | split

theorem State.canStart_keeps {s0 : State} (s : State) (n : Fin 4) (h : Keeps s0 s) :
    Keeps s0 (State.canStart s n) := by
  unfold State.canStart; try dsimp only
  repeat' first | (intro; try dsimp only) | (with_reducible first
    | assumption | apply State.updCan_keeps | apply State.ninc_keeps
    | exact keeps_mk (Keeps.pending (by assumption)) (Keeps.shm (by assumption)) | apply keeps_ite
    | refine keeps_snd (by assumption) ?_ | refine keeps_thd (by assumption) ?_
    | refine keeps_fst (by assumption) ?_ | refine keeps_next (by assumption) ?_
    | refine keeps_ok (by assumption) ?_ | refine keeps_some (by assumption) ?_) | split

theorem State.canUnsent_keeps {s0 : State} (s : State) (n : Fin 4) (h : Keeps s0 s) :
    Keeps s0 (State.canUnsent s n) := by
  unfold State.canUnsent; try dsimp only
  repeat' first | (intro; try dsimp only) | (with_reducible first
    | assumption | apply State.updCan_keeps | apply State.bufDone_keeps
    | exact keeps_mk (Keeps.pending (by assumption)) (Keeps.shm (by assumption)) | apply keeps_ite
    | refine keeps_snd (by assumption) ?_ | refine keeps_thd (by assumption) ?_
    | refine keeps_fst (by assumption) ?_ | refine keeps_next (by assumption) ?_
    | refine keeps_ok (by assumption) ?_ | refine keeps_some (by assumption) ?_) | split

theorem State.canArbLost_keeps {s0 : State} (s : State) (n : Fin 4) (h : Keeps s0 s) :
    Keeps s0 (State.canArbLost s n) := by
  unfold State.canArbLost; try dsimp only
  repeat' first | (intro; try dsimp only) | (with_reducible first
    | assumption | apply State.ninc_keeps | apply State.canUnsent_keeps | apply keeps_ite) | split

theorem State.canMeasure_keeps {s0 : State} (s : State) (n : Fin 4) (tdcv : Option (BitVec 7)) (h : Keeps s0 s) :
    Keeps s0 (State.canMeasure s n tdcv) := by
  unfold State.canMeasure; try dsimp only
  repeat' first | (intro; try dsimp only) | (with_reducible first
    | assumption | apply State.updCan_keeps | apply keeps_ite | refine keeps_snd (by assumption) ?_
    | refine keeps_thd (by assumption) ?_ | refine keeps_fst (by assumption) ?_
    | refine keeps_next (by assumption) ?_ | refine keeps_ok (by assumption) ?_
    | refine keeps_some (by assumption) ?_) | split

theorem State.canLoop_keeps {s0 : State} (s : State) (n : Fin 4) (t : TxBuf) (stamp : W32) (h : Keeps s0 s) :
    Keeps s0 (State.canLoop s n t stamp) := by
  unfold State.canLoop; try dsimp only
  repeat' first | (intro; try dsimp only) | (with_reducible first
    | assumption | apply State.canDeliver_keeps | apply keeps_ite | refine keeps_snd (by assumption) ?_
    | refine keeps_thd (by assumption) ?_ | refine keeps_fst (by assumption) ?_
    | refine keeps_next (by assumption) ?_ | refine keeps_ok (by assumption) ?_
    | refine keeps_some (by assumption) ?_) | split

theorem State.canSent_keeps {s0 : State} (s : State) (n : Fin 4) (stamp : W32) (tdcv : Option (BitVec 7)) (h : Keeps s0 s) :
    Keeps s0 (State.canSent s n stamp tdcv) := by
  unfold State.canSent; try dsimp only
  repeat' first | (intro; try dsimp only) | (with_reducible first
    | assumption | apply State.canCounts_keeps | apply State.bufDone_keeps | apply State.canMeasure_keeps
    | apply State.canLoop_keeps | refine keeps_snd (by assumption) ?_ | refine keeps_thd (by assumption) ?_
    | refine keeps_fst (by assumption) ?_ | refine keeps_next (by assumption) ?_
    | refine keeps_ok (by assumption) ?_ | refine keeps_some (by assumption) ?_) | split

theorem State.canAbortMask_keeps {s0 : State} (s : State) (n : Fin 4) (mask : BitVec 8) (h : Keeps s0 s) :
    Keeps s0 (State.canAbortMask s n mask) := by
  unfold State.canAbortMask; try dsimp only
  repeat' first | (intro; try dsimp only) | (with_reducible first
    | assumption | apply State.updCan_keeps | apply State.each_keeps | apply State.bufDone_keeps
    | exact keeps_mk (Keeps.pending (by assumption)) (Keeps.shm (by assumption)) | apply keeps_ite) | split

theorem State.canLateEnd_keeps {s0 : State} (s : State) (n : Fin 4) (b : Fin 8) (h : Keeps s0 s) :
    Keeps s0 (State.canLateEnd s n b) := by
  unfold State.canLateEnd; try dsimp only
  repeat' first | (intro; try dsimp only) | (with_reducible first
    | assumption | apply State.bufDone_keeps | apply keeps_ite | refine keeps_snd (by assumption) ?_
    | refine keeps_thd (by assumption) ?_ | refine keeps_fst (by assumption) ?_
    | refine keeps_next (by assumption) ?_ | refine keeps_ok (by assumption) ?_
    | refine keeps_some (by assumption) ?_) | split

theorem State.canClash_keeps {s0 : State} (s : State) (n : Fin 4) (h : Keeps s0 s) :
    Keeps s0 (State.canClash s n) := by
  unfold State.canClash; try dsimp only
  repeat' first | (intro; try dsimp only) | (with_reducible first
    | assumption | apply State.updCan_keeps | apply State.warn_keeps | apply State.ninc_keeps
    | exact keeps_mk (Keeps.pending (by assumption)) (Keeps.shm (by assumption)) | apply keeps_id
    | apply keeps_ite | refine keeps_snd (by assumption) ?_ | refine keeps_thd (by assumption) ?_
    | refine keeps_fst (by assumption) ?_ | refine keeps_next (by assumption) ?_
    | refine keeps_ok (by assumption) ?_ | refine keeps_some (by assumption) ?_) | split

theorem State.canErr_keeps {s0 : State} (s : State) (n : Fin 4) (e : CanErr) (h : Keeps s0 s) :
    Keeps s0 (State.canErr s n e) := by
  unfold State.canErr; try dsimp only
  repeat' first | (intro; try dsimp only) | (with_reducible first
    | assumption | apply State.updCan_keeps | apply State.alarm_keeps | apply State.ninc_keeps
    | apply State.canState_keeps | apply State.canCounts_keeps | apply State.bufDone_keeps
    | apply State.canUnsent_keeps | apply State.canMeasure_keeps | apply State.canClash_keeps
    | exact keeps_mk (Keeps.pending (by assumption)) (Keeps.shm (by assumption)) | apply keeps_ite
    | refine keeps_snd (by assumption) ?_ | refine keeps_thd (by assumption) ?_
    | refine keeps_fst (by assumption) ?_ | refine keeps_next (by assumption) ?_
    | refine keeps_ok (by assumption) ?_ | refine keeps_some (by assumption) ?_) | split

theorem State.canRecover_keeps {s0 : State} (s : State) (n : Fin 4) (h : Keeps s0 s) :
    Keeps s0 (State.canRecover s n) := by
  unfold State.canRecover; try dsimp only
  repeat' first | (intro; try dsimp only) | (with_reducible first
    | assumption | apply State.updCan_keeps | apply State.notice_keeps | apply State.canState_keeps
    | exact keeps_mk (Keeps.pending (by assumption)) (Keeps.shm (by assumption)) | apply keeps_ite) | split

theorem State.canIntegrated_keeps {s0 : State} (s : State) (n : Fin 4) (h : Keeps s0 s) :
    Keeps s0 (State.canIntegrated s n) := by
  unfold State.canIntegrated; try dsimp only
  repeat' first | (intro; try dsimp only) | (with_reducible first
    | assumption | apply State.updCan_keeps | apply State.canState_keeps
    | exact keeps_mk (Keeps.pending (by assumption)) (Keeps.shm (by assumption)) | apply keeps_ite) | split

theorem State.canException_keeps {s0 : State} (s : State) (n : Fin 4) (tx : Bool) (h : Keeps s0 s) :
    Keeps s0 (State.canException s n tx) := by
  unfold State.canException; try dsimp only
  repeat' first | (intro; try dsimp only) | (with_reducible first
    | assumption | apply State.updCan_keeps | apply State.ninc_keeps | apply State.canState_keeps
    | apply State.canUnsent_keeps | apply State.canErr_keeps
    | exact keeps_mk (Keeps.pending (by assumption)) (Keeps.shm (by assumption)) | apply keeps_ite) | split

theorem State.canTick_keeps {s0 : State} (s : State) (n : Fin 4) (h : Keeps s0 s) :
    Keeps s0 (State.canTick s n) := by
  unfold State.canTick; try dsimp only
  repeat' first | (intro; try dsimp only) | (with_reducible first
    | assumption | apply State.updCan_keeps | apply State.ninc_keeps
    | exact keeps_mk (Keeps.pending (by assumption)) (Keeps.shm (by assumption)) | apply keeps_ite) | split

theorem State.oadd_keeps {s0 : State} (s : State) (k : Fin 8) (i n : Nat) (h : Keeps s0 s) :
    Keeps s0 (State.oadd s k i n) := by
  unfold State.oadd; try dsimp only
  repeat' first | (intro; try dsimp only) | (with_reducible first
    | assumption | apply State.updPio_keeps
    | exact keeps_mk (Keeps.pending (by assumption)) (Keeps.shm (by assumption))) | split

theorem State.pioEvent_keeps {s0 : State} (s : State) (k : Fin 8) (b : Nat) (h : Keeps s0 s) :
    Keeps s0 (State.pioEvent s k b) := by
  unfold State.pioEvent; try dsimp only
  repeat' first | (intro; try dsimp only) | (with_reducible first
    | assumption | apply State.evpCl_keeps | refine keeps_snd (by assumption) ?_
    | refine keeps_thd (by assumption) ?_ | refine keeps_fst (by assumption) ?_
    | refine keeps_next (by assumption) ?_ | refine keeps_ok (by assumption) ?_
    | refine keeps_some (by assumption) ?_) | split

theorem State.pioState_keeps {s0 : State} (s : State) (k : Fin 8) (st : Fin 5) (stallc : BitVec 3) (h : Keeps s0 s) :
    Keeps s0 (State.pioState s k st stallc) := by
  unfold State.pioState; try dsimp only
  repeat' first | (intro; try dsimp only) | (with_reducible first
    | assumption | apply State.updPio_keeps | apply State.pioEvent_keeps
    | exact keeps_mk (Keeps.pending (by assumption)) (Keeps.shm (by assumption)) | apply keeps_ite) | split

theorem State.pioIdle_keeps {s0 : State} (s : State) (k : Fin 8) (h : Keeps s0 s) :
    Keeps s0 (State.pioIdle s k) := by
  unfold State.pioIdle; try dsimp only
  repeat' first | (intro; try dsimp only) | (with_reducible first
    | assumption | apply State.updPio_keeps | apply State.pioState_keeps
    | exact keeps_mk (Keeps.pending (by assumption)) (Keeps.shm (by assumption))) | split

theorem State.pioGo_keeps {s0 : State} (s : State) (k : Fin 8) (h : Keeps s0 s) :
    Keeps s0 (State.pioGo s k) := by
  unfold State.pioGo; try dsimp only
  repeat' first | (intro; try dsimp only) | (with_reducible first
    | assumption | apply State.updPio_keeps | apply State.pioState_keeps
    | exact keeps_mk (Keeps.pending (by assumption)) (Keeps.shm (by assumption)) | apply keeps_ite
    | refine keeps_snd (by assumption) ?_ | refine keeps_thd (by assumption) ?_
    | refine keeps_fst (by assumption) ?_ | refine keeps_next (by assumption) ?_
    | refine keeps_ok (by assumption) ?_ | refine keeps_some (by assumption) ?_) | split

theorem State.pioRestart_keeps {s0 : State} (s : State) (k : Fin 8) (h : Keeps s0 s) :
    Keeps s0 (State.pioRestart s k) := by
  unfold State.pioRestart; try dsimp only
  repeat' first | (intro; try dsimp only) | (with_reducible first
    | assumption | apply State.updPio_keeps | apply State.pioState_keeps
    | exact keeps_mk (Keeps.pending (by assumption)) (Keeps.shm (by assumption)) | apply keeps_ite) | split

theorem State.stopPios_keeps {s0 : State} (s : State) (c : Fin 4) (h : Keeps s0 s) :
    Keeps s0 (State.stopPios s c) := by
  unfold State.stopPios; try dsimp only
  repeat' first | (intro; try dsimp only) | (with_reducible first
    | assumption | apply State.each_keeps | apply State.pioIdle_keeps | apply keeps_ite) | split

theorem State.startPios_keeps {s0 : State} (s : State) (c : Fin 4) (h : Keeps s0 s) :
    Keeps s0 (State.startPios s c) := by
  unfold State.startPios; try dsimp only
  repeat' first | (intro; try dsimp only) | (with_reducible first
    | assumption | apply State.each_keeps | apply State.pioGo_keeps | apply keeps_ite) | split

theorem State.pioTxPopped_keeps {s0 : State} (s : State) (k : Fin 8) (h : Keeps s0 s) :
    Keeps s0 (State.pioTxPopped s k) := by
  unfold State.pioTxPopped; try dsimp only
  repeat' first | (intro; try dsimp only) | (with_reducible first
    | assumption | apply State.pioEvent_keeps | apply keeps_ite) | split

theorem State.pioPut_keeps {s0 : State} (s : State) (k : Fin 8) (w : W32) (h : Keeps s0 s) :
    Keeps s0 (State.pioPut s k w) := by
  unfold State.pioPut; try dsimp only
  repeat' first | (intro; try dsimp only) | (with_reducible first
    | assumption | apply State.updPio_keeps | apply State.pioEvent_keeps
    | exact keeps_mk (Keeps.pending (by assumption)) (Keeps.shm (by assumption)) | apply keeps_ite
    | refine keeps_snd (by assumption) ?_ | refine keeps_thd (by assumption) ?_
    | refine keeps_fst (by assumption) ?_ | refine keeps_next (by assumption) ?_
    | refine keeps_ok (by assumption) ?_ | refine keeps_some (by assumption) ?_) | split

theorem State.pioTxPush_keeps {s0 : State} (s : State) (k : Fin 8) (w : W32) (h : Keeps s0 s) :
    Keeps s0 (State.pioTxPush s k w) := by
  unfold State.pioTxPush; try dsimp only
  repeat' first | (intro; try dsimp only) | (with_reducible first
    | assumption | apply State.updPio_keeps | apply State.oadd_keeps
    | exact keeps_mk (Keeps.pending (by assumption)) (Keeps.shm (by assumption)) | apply keeps_ite) | split

theorem State.pioRxPop_keeps {s0 : State} (s : State) (k : Fin 8) (h : Keeps s0 s) :
    Keeps s0 (State.pioRxPop s k).2 := by
  unfold State.pioRxPop; try dsimp only
  repeat' first | (intro; try dsimp only) | (with_reducible first
    | assumption | apply State.updPio_keeps | apply State.oadd_keeps
    | exact keeps_mk (Keeps.pending (by assumption)) (Keeps.shm (by assumption))
    | refine keeps_snd (by assumption) ?_ | refine keeps_thd (by assumption) ?_
    | refine keeps_fst (by assumption) ?_ | refine keeps_next (by assumption) ?_
    | refine keeps_ok (by assumption) ?_ | refine keeps_some (by assumption) ?_) | split

theorem State.pioStoreFrame_keeps {s0 : State} (s : State) (k : Fin 8) (h : Keeps s0 s) :
    Keeps s0 (State.pioStoreFrame s k) := by
  unfold State.pioStoreFrame; try dsimp only
  repeat' first | (intro; try dsimp only) | (with_reducible first
    | assumption | apply State.updPio_keeps | apply State.pioPut_keeps
    | exact keeps_mk (Keeps.pending (by assumption)) (Keeps.shm (by assumption))) | split

theorem State.pioLoadWord_keeps {s0 : State} (s : State) (k : Fin 8) (h : Keeps s0 s) :
    Keeps s0 (State.pioLoadWord s k) := by
  unfold State.pioLoadWord; try dsimp only
  repeat' first | (intro; try dsimp only) | (with_reducible first
    | assumption | apply State.updPio_keeps | apply State.pioTxPopped_keeps
    | exact keeps_mk (Keeps.pending (by assumption)) (Keeps.shm (by assumption))
    | refine keeps_snd (by assumption) ?_ | refine keeps_thd (by assumption) ?_
    | refine keeps_fst (by assumption) ?_ | refine keeps_next (by assumption) ?_
    | refine keeps_ok (by assumption) ?_ | refine keeps_some (by assumption) ?_) | split

theorem State.pioBad_keeps {s0 : State} (s : State) (k : Fin 8) (pins : W32) (h : Keeps s0 s) :
    Keeps s0 (State.pioBad s k pins) := by
  unfold State.pioBad; try dsimp only
  repeat' first | (intro; try dsimp only) | (with_reducible first
    | assumption | apply State.updPio_keeps | apply State.warn_keeps | apply State.oadd_keeps
    | apply State.pioState_keeps) | split

/-- The same of a frame boundary. -/
def BKeeps (s : State) : Boundary → Prop
  | .done t => Keeps s t
  | .store => True
  | .load t => Keeps s t

theorem State.pioBoundary_keeps {s0 : State} (s : State) (k : Fin 8) (w : W32) (storing : Bool) (h : Keeps s0 s) :
    BKeeps s0 (s.pioBoundary k w storing) := by
  unfold State.pioBoundary
  dsimp only
  repeat' split
  all_goals first
    | trivial
    | exact h
    | exact State.pioLoadWord_keeps _ _ h
    | exact State.pioStoreFrame_keeps _ _ h
    | exact State.pioLoadWord_keeps _ _ (State.pioStoreFrame_keeps _ _ h)

theorem keeps_of_bdone {s0 : State} {b : Boundary} {t : State} (e : b = .done t) (h : BKeeps s0 b) : Keeps s0 t := by subst e; exact h
theorem keeps_of_bload {s0 : State} {b : Boundary} {t : State} (e : b = .load t) (h : BKeeps s0 b) : Keeps s0 t := by subst e; exact h

theorem State.xferBits_keeps {s0 : State} (k : Fin 8) (w : W32) (ticks : List W32) : ∀ (left i t0 : Nat) (s : State),
    Keeps s0 s → Keeps s0 (State.xferBits k w ticks left i t0 s) := by
  intro left
  induction left with
  | zero => intro i t0 s h; exact State.pioState_keeps _ _ _ _ (State.updPio_keeps _ _ _ h)
  | succ left ih =>
    intro i t0 s h
    unfold State.xferBits
    have h1 := State.updPio_keeps s k (fun x => x.xferBit w ticks t0) h
    dsimp only
    split
    · split
      · next e => exact ih _ _ _ (keeps_of_bdone e (State.pioBoundary_keeps _ _ _ _ h1))
      · exact State.pioState_keeps _ _ _ _ (State.updPio_keeps _ _ _ h1)
      · next e => exact State.pioState_keeps _ _ _ _ (State.updPio_keeps _ _ _ (keeps_of_bload e (State.pioBoundary_keeps _ _ _ _ h1)))
    · exact ih _ _ _ h1

theorem State.xferStart_keeps {s0 : State} (s : State) (k : Fin 8) (w : W32) (ticks : List W32) (h : Keeps s0 s) :
    Keeps s0 (State.xferStart s k w ticks) := by
  unfold State.xferStart; try dsimp only
  repeat' first | (intro; try dsimp only) | (with_reducible first
    | assumption | apply State.updPio_keeps | apply State.xferBits_keeps
    | exact keeps_mk (Keeps.pending (by assumption)) (Keeps.shm (by assumption)) | apply keeps_foldl
    | apply keeps_ite) | split

theorem State.pioWait_keeps {s0 : State} (k : Fin 8) (w : W32) (edge : Bool) : ∀ (l : List W32) (s : State), Keeps s0 s →
    Keeps s0 (State.pioWait k w edge l s) := by
  intro l
  induction l with
  | nil => intro s h; exact h
  | cons pins r ih =>
    intro s h
    unfold State.pioWait
    dsimp only
    split
    · exact State.pioState_keeps _ _ _ _ (State.updPio_keeps _ _ _ h)
    · exact ih _ (State.oadd_keeps _ _ _ _ (State.pioState_keeps _ _ _ _ (State.updPio_keeps _ _ _ h)))

theorem State.pioMove_keeps {s0 : State} (s : State) (k : Fin 8) (w : W32) (load : Bool) (h : Keeps s0 s) :
    Keeps s0 (State.pioMove s k w load) := by
  unfold State.pioMove; try dsimp only
  repeat' first | (intro; try dsimp only) | (with_reducible first
    | assumption | apply State.updPio_keeps | apply State.oadd_keeps | apply State.pioState_keeps
    | apply State.pioStoreFrame_keeps | apply State.pioLoadWord_keeps
    | exact keeps_mk (Keeps.pending (by assumption)) (Keeps.shm (by assumption)) | apply keeps_ite) | split

theorem State.pinsNow_keeps {s0 : State} (s : State) (ticks : List PinTick) (h : Keeps s0 s) :
    Keeps s0 (State.pinsNow s ticks) := by
  unfold State.pinsNow; try dsimp only
  repeat' first | (intro; try dsimp only) | (with_reducible first
    | assumption | exact keeps_mk (Keeps.pending (by assumption)) (Keeps.shm (by assumption))
    | refine keeps_snd (by assumption) ?_ | refine keeps_thd (by assumption) ?_
    | refine keeps_fst (by assumption) ?_ | refine keeps_next (by assumption) ?_
    | refine keeps_ok (by assumption) ?_ | refine keeps_some (by assumption) ?_) | split

theorem State.pinsRead_keeps {s0 : State} (s : State) (h : Keeps s0 s) :
    Keeps s0 (State.pinsRead s).2 := by
  unfold State.pinsRead; dsimp only
  have hd := State.draw_keeps s h
  split
  · exact h
  · exact keeps_mk hd.pending hd.shm

theorem State.pioExec_keeps {s0 : State} (s : State) (k : Fin 8) (w : W32) (raw : List PinTick) (h : Keeps s0 s) :
    Keeps s0 (State.pioExec s k w raw) := by
  unfold State.pioExec; try dsimp only
  repeat' first | (intro; try dsimp only) | (with_reducible first
    | assumption | apply State.updPio_keeps | apply State.pioEvent_keeps | apply State.xferStart_keeps
    | apply State.pioWait_keeps | apply State.pioMove_keeps | apply State.pinsNow_keeps
    | exact keeps_mk (Keeps.pending (by assumption)) (Keeps.shm (by assumption)) | apply keeps_ite
    | refine keeps_snd (by assumption) ?_ | refine keeps_thd (by assumption) ?_
    | refine keeps_fst (by assumption) ?_ | refine keeps_next (by assumption) ?_
    | refine keeps_ok (by assumption) ?_ | refine keeps_some (by assumption) ?_) | split

theorem pioInstr_keeps {s0 : State} (k : Fin 8) (w : W32) (ticks : List PinTick) (s : State) (h : Keeps s0 s) :
    OKeeps s0 (pioInstr k w ticks s) := by
  unfold pioInstr; try dsimp only
  repeat' first | (intro; try dsimp only) | (with_reducible first
    | assumption | apply State.pioBad_keeps | apply State.pinsNow_keeps | apply State.pioExec_keeps
    | apply okeeps_next | apply okeeps_fault | apply okeeps_ite | apply keeps_ite) | split

theorem State.pioStall_keeps {s0 : State} (s : State) (k : Fin 8) (raw : List PinTick) (h : Keeps s0 s) :
    Keeps s0 (State.pioStall s k raw) := by
  unfold State.pioStall
  have hg : Keeps s0 (s.pinsNow raw) := State.pinsNow_keeps s raw h
  have hi : ∀ (ticks : List W32) t, Keeps s0 t → Keeps s0 ((ticks.foldl (fun s p => s.updPio k (·.tick p)) t).oadd k 4 ticks.length) :=
    fun ticks t ht => State.oadd_keeps _ _ _ _ (keeps_foldl (fun u x hu => State.updPio_keeps u k _ hu) ht)
  dsimp only
  repeat' first | (with_reducible first
    | assumption | apply hi | apply State.pioMove_keeps | apply State.pioWait_keeps | apply State.xferBits_keeps
    | apply State.pioState_keeps
    | apply State.updPio_keeps) | split
  all_goals first
    | exact keeps_of_bdone (by assumption) (State.pioBoundary_keeps _ _ _ _ hg)
    | exact keeps_of_bload (by assumption) (State.pioBoundary_keeps _ _ _ _ hg)

theorem State.pctlWrite_keeps {s0 : State} (s : State) (k : Fin 8) (v : W32) (h : Keeps s0 s) :
    Keeps s0 (State.pctlWrite s k v) := by
  unfold State.pctlWrite; try dsimp only
  repeat' first | (intro; try dsimp only) | (with_reducible first
    | assumption | apply State.updPio_keeps | apply State.pioEvent_keeps | apply State.pioIdle_keeps
    | apply State.pioGo_keeps | apply State.pioRestart_keeps
    | exact keeps_mk (Keeps.pending (by assumption)) (Keeps.shm (by assumption)) | apply keeps_ite) | split

theorem State.pioStoreReg_keeps {s0 : State} (s : State) (k : Fin 8) (off : Nat) (v : W32) (h : Keeps s0 s) :
    SKeeps s0 (State.pioStoreReg s k off v) := by
  unfold State.pioStoreReg; try dsimp only
  repeat' first | (intro; try dsimp only) | (with_reducible first
    | assumption | apply State.updPio_keeps | apply State.pioTxPush_keeps | apply State.pctlWrite_keeps
    | exact keeps_mk (Keeps.pending (by assumption)) (Keeps.shm (by assumption)) | apply skeeps_some
    | apply skeeps_none | apply keeps_ite | refine keeps_snd (by assumption) ?_
    | refine keeps_thd (by assumption) ?_ | refine keeps_fst (by assumption) ?_
    | refine keeps_next (by assumption) ?_ | refine keeps_ok (by assumption) ?_
    | refine keeps_some (by assumption) ?_) | split

theorem State.pioLoadReg_keeps {s0 : State} (s : State) (k : Fin 8) (off : Nat) (h : Keeps s0 s) :
    PKeeps s0 (State.pioLoadReg s k off) := by
  unfold State.pioLoadReg
  dsimp only
  split
  all_goals first
    | exact pkeeps_some h
    | exact pkeeps_some (State.pinsRead_keeps s h)
    | (split
       · exact pkeeps_none
       · exact pkeeps_some (State.pioRxPop_keeps s k h))

theorem State.dinc_keeps {s0 : State} (s : State) (d : Fin 8) (i : Nat) (h : Keeps s0 s) :
    Keeps s0 (State.dinc s d i) := by
  unfold State.dinc; try dsimp only
  repeat' first | (intro; try dsimp only) | (with_reducible first
    | assumption | apply State.updDo_keeps
    | exact keeps_mk (Keeps.pending (by assumption)) (Keeps.shm (by assumption))) | split

theorem State.fioEvent_keeps {s0 : State} (s : State) (code : Nat) (obj : W16) (st : Nat) (ref rb cleared : Bool) (h : Keeps s0 s) :
    Keeps s0 (State.fioEvent s code obj st ref rb cleared) := by
  unfold State.fioEvent; try dsimp only
  repeat' first | (intro; try dsimp only) | (with_reducible first
    | assumption | apply State.notify_keeps | apply State.log_keeps | apply State.alarm_keeps | apply keeps_ite
    | refine keeps_snd (by assumption) ?_ | refine keeps_thd (by assumption) ?_
    | refine keeps_fst (by assumption) ?_ | refine keeps_next (by assumption) ?_
    | refine keeps_ok (by assumption) ?_ | refine keeps_some (by assumption) ?_) | split

theorem State.doRaise_keeps {s0 : State} (s : State) (d : Fin 8) (code : Nat) (slot : Nat) (h : Keeps s0 s) :
    Keeps s0 (State.doRaise s d code slot) := by
  unfold State.doRaise; try dsimp only
  repeat' first | (intro; try dsimp only) | (with_reducible first
    | assumption | apply State.updDo_keeps | apply State.dinc_keeps | apply State.fioEvent_keeps
    | exact keeps_mk (Keeps.pending (by assumption)) (Keeps.shm (by assumption)) | apply keeps_ite) | split

theorem State.doClear_keeps {s0 : State} (s : State) (d : Fin 8) (code : Nat) (h : Keeps s0 s) :
    Keeps s0 (State.doClear s d code) := by
  unfold State.doClear; try dsimp only
  repeat' first | (intro; try dsimp only) | (with_reducible first
    | assumption | apply State.updDo_keeps | apply State.fioEvent_keeps
    | exact keeps_mk (Keeps.pending (by assumption)) (Keeps.shm (by assumption)) | apply keeps_ite) | split

theorem State.doApply_keeps {s0 : State} (s : State) (d : Fin 8) (w : Bool) (h : Keeps s0 s) :
    Keeps s0 (State.doApply s d w) := by
  unfold State.doApply; try dsimp only
  repeat' first | (intro; try dsimp only) | (with_reducible first
    | assumption | apply State.updDo_keeps
    | exact keeps_mk (Keeps.pending (by assumption)) (Keeps.shm (by assumption)) | apply keeps_ite) | split

theorem State.docApply_keeps {s0 : State} (s : State) (c : Fin 4) (h : Keeps s0 s) :
    Keeps s0 (State.docApply s c) := by
  unfold State.docApply; try dsimp only
  repeat' first | (intro; try dsimp only) | (with_reducible first
    | assumption | apply State.each_keeps | apply State.doApply_keeps | apply keeps_ite) | split

theorem State.stopOutputs_keeps {s0 : State} (s1 : State) (c : Fin 4) (h : Keeps s0 s1) :
    Keeps s0 (State.stopOutputs s1 c) := by
  unfold State.stopOutputs; try dsimp only
  repeat' first | (intro; try dsimp only) | (with_reducible first
    | assumption | apply State.updDi_keeps | apply State.each_keeps | apply State.doApply_keeps
    | exact keeps_mk (Keeps.pending (by assumption)) (Keeps.shm (by assumption)) | apply keeps_ite) | split

theorem State.sharedOff_keeps {s0 : State} (s : State) (h : Keeps s0 s) :
    Keeps s0 (State.sharedOff s) := by
  unfold State.sharedOff; try dsimp only
  repeat' first | (intro; try dsimp only) | (with_reducible first
    | assumption | apply State.each_keeps | apply State.doApply_keeps | apply keeps_ite) | split

theorem State.doRearm_keeps {s0 : State} (s : State) (d : Fin 8) (h : Keeps s0 s) :
    Keeps s0 (State.doRearm s d) := by
  unfold State.doRearm; try dsimp only
  repeat' first | (intro; try dsimp only) | (with_reducible first
    | assumption | apply State.updDo_keeps
    | exact keeps_mk (Keeps.pending (by assumption)) (Keeps.shm (by assumption)) | apply keeps_ite) | split

theorem State.doLimit_keeps {s0 : State} (s : State) (d : Fin 8) (h : Keeps s0 s) :
    Keeps s0 (State.doLimit s d) := by
  unfold State.doLimit; try dsimp only
  repeat' first | (intro; try dsimp only) | (with_reducible first
    | assumption | apply State.updDo_keeps | apply keeps_ite) | split

theorem State.doUnlimit_keeps {s0 : State} (s : State) (d : Fin 8) (h : Keeps s0 s) :
    Keeps s0 (State.doUnlimit s d) := by
  unfold State.doUnlimit; try dsimp only
  repeat' first | (intro; try dsimp only) | (with_reducible first
    | assumption | apply State.updDo_keeps | apply keeps_ite) | split

theorem State.doTsd_keeps {s0 : State} (s : State) (d : Fin 8) (h : Keeps s0 s) :
    Keeps s0 (State.doTsd s d) := by
  unfold State.doTsd; try dsimp only
  repeat' first | (intro; try dsimp only) | (with_reducible first
    | assumption | apply State.updDo_keeps | apply State.dinc_keeps | apply State.doRaise_keeps
    | apply keeps_ite) | split

theorem State.doRetry_keeps {s0 : State} (s : State) (d : Fin 8) (h : Keeps s0 s) :
    Keeps s0 (State.doRetry s d) := by
  unfold State.doRetry; try dsimp only
  repeat' first | (intro; try dsimp only) | (with_reducible first
    | assumption | apply State.updDo_keeps | apply State.dinc_keeps
    | exact keeps_mk (Keeps.pending (by assumption)) (Keeps.shm (by assumption)) | apply keeps_ite) | split

theorem State.doOverload_keeps {s0 : State} (s : State) (d : Fin 8) (h : Keeps s0 s) :
    Keeps s0 (State.doOverload s d) := by
  unfold State.doOverload; try dsimp only
  repeat' first | (intro; try dsimp only) | (with_reducible first
    | assumption | apply State.doRaise_keeps | apply keeps_ite) | split

theorem State.doOverloadClear_keeps {s0 : State} (s : State) (d : Fin 8) (h : Keeps s0 s) :
    Keeps s0 (State.doOverloadClear s d) := by
  unfold State.doOverloadClear; try dsimp only
  repeat' first | (intro; try dsimp only) | (with_reducible first
    | assumption | apply State.updDo_keeps | apply State.doClear_keeps
    | exact keeps_mk (Keeps.pending (by assumption)) (Keeps.shm (by assumption)) | apply keeps_ite) | split

theorem State.fioLow_keeps {s0 : State} (s : State) (mv : W16) (h : Keeps s0 s) :
    Keeps s0 (State.fioLow s mv) := by
  unfold State.fioLow; try dsimp only
  repeat' first | (intro; try dsimp only) | (with_reducible first
    | assumption | apply State.madd_keeps | apply State.fioEvent_keeps
    | exact keeps_mk (Keeps.pending (by assumption)) (Keeps.shm (by assumption)) | apply keeps_ite) | split

theorem State.fioUvlo_keeps {s0 : State} (s : State) (mv : W16) (h : Keeps s0 s) :
    Keeps s0 (State.fioUvlo s mv) := by
  unfold State.fioUvlo; try dsimp only
  repeat' first | (intro; try dsimp only) | (with_reducible first
    | assumption | apply State.madd_keeps | apply State.fioEvent_keeps
    | exact keeps_mk (Keeps.pending (by assumption)) (Keeps.shm (by assumption)) | apply keeps_ite) | split

theorem State.fioUvloEnd_keeps {s0 : State} (s : State) (mv : W16) (h : Keeps s0 s) :
    Keeps s0 (State.fioUvloEnd s mv) := by
  unfold State.fioUvloEnd; try dsimp only
  repeat' first | (intro; try dsimp only) | (with_reducible first
    | assumption | apply State.fioEvent_keeps
    | exact keeps_mk (Keeps.pending (by assumption)) (Keeps.shm (by assumption)) | apply keeps_ite) | split

theorem State.fioLowEnd_keeps {s0 : State} (s : State) (mv : W16) (h : Keeps s0 s) :
    Keeps s0 (State.fioLowEnd s mv) := by
  unfold State.fioLowEnd; try dsimp only
  repeat' first | (intro; try dsimp only) | (with_reducible first
    | assumption | apply State.fioEvent_keeps
    | exact keeps_mk (Keeps.pending (by assumption)) (Keeps.shm (by assumption)) | apply keeps_ite) | split

theorem State.fioResume_keeps {s0 : State} (s : State) (h : Keeps s0 s) :
    Keeps s0 (State.fioResume s) := by
  unfold State.fioResume; try dsimp only
  repeat' first | (intro; try dsimp only) | (with_reducible first
    | assumption | exact keeps_mk (Keeps.pending (by assumption)) (Keeps.shm (by assumption)) | apply keeps_ite) | split

theorem State.fioHot_keeps {s0 : State} (s : State) (h : Keeps s0 s) :
    Keeps s0 (State.fioHot s) := by
  unfold State.fioHot; try dsimp only
  repeat' first | (intro; try dsimp only) | (with_reducible first
    | assumption | apply State.fioEvent_keeps
    | exact keeps_mk (Keeps.pending (by assumption)) (Keeps.shm (by assumption)) | apply keeps_ite) | split

theorem State.fioCool_keeps {s0 : State} (s : State) (h : Keeps s0 s) :
    Keeps s0 (State.fioCool s) := by
  unfold State.fioCool; try dsimp only
  repeat' first | (intro; try dsimp only) | (with_reducible first
    | assumption | apply State.fioEvent_keeps
    | exact keeps_mk (Keeps.pending (by assumption)) (Keeps.shm (by assumption)) | apply keeps_ite) | split

theorem State.fioSum_keeps {s0 : State} (s : State) (high : Bool) (h : Keeps s0 s) :
    Keeps s0 (State.fioSum s high) := by
  unfold State.fioSum; try dsimp only
  repeat' first | (intro; try dsimp only) | (with_reducible first
    | assumption | apply State.fioEvent_keeps
    | exact keeps_mk (Keeps.pending (by assumption)) (Keeps.shm (by assumption)) | apply keeps_ite) | split

theorem State.fioLost_keeps {s0 : State} (s : State) (ch : Fin 16) (h : Keeps s0 s) :
    Keeps s0 (State.fioLost s ch) := by
  unfold State.fioLost; try dsimp only
  repeat' first | (intro; try dsimp only) | (with_reducible first
    | assumption | apply State.updDi_keeps | apply State.updDo_keeps | apply State.fioEvent_keeps
    | apply State.doRaise_keeps | exact keeps_mk (Keeps.pending (by assumption)) (Keeps.shm (by assumption))
    | apply keeps_ite) | split

theorem State.fioKeepAlive_keeps {s0 : State} (s : State) (reach : BitVec 16) (h : Keeps s0 s) :
    Keeps s0 (State.fioKeepAlive s reach) := by
  unfold State.fioKeepAlive; try dsimp only
  repeat' first | (intro; try dsimp only) | (with_reducible first
    | assumption | apply State.updDi_keeps | apply State.each_keeps | apply State.fioEvent_keeps
    | apply State.doClear_keeps | exact keeps_mk (Keeps.pending (by assumption)) (Keeps.shm (by assumption))
    | apply keeps_ite) | split

theorem State.rbRaise_keeps {s0 : State} (s : State) (d : Fin 8) (ref : Bool) (h : Keeps s0 s) :
    Keeps s0 (State.rbRaise s d ref) := by
  unfold State.rbRaise; try dsimp only
  repeat' first | (intro; try dsimp only) | (with_reducible first
    | assumption | apply State.doRaise_keeps | apply keeps_ite) | split

theorem State.rbMismatch_keeps {s0 : State} (s : State) (d : Fin 8) (rb : Bool) (h : Keeps s0 s) :
    Keeps s0 (State.rbMismatch s d rb) := by
  unfold State.rbMismatch; try dsimp only
  repeat' first | (intro; try dsimp only) | (with_reducible first
    | assumption | apply State.updDo_keeps | apply State.rbRaise_keeps
    | exact keeps_mk (Keeps.pending (by assumption)) (Keeps.shm (by assumption)) | apply keeps_ite) | split

theorem State.rbReports_keeps {s0 : State} (s : State) (c : Fin 4) (counts : Bool) (h : Keeps s0 s) :
    Keeps s0 (State.rbReports s c counts) := by
  unfold State.rbReports; try dsimp only
  repeat' first | (intro; try dsimp only) | (with_reducible first
    | assumption | apply State.updDo_keeps | apply State.each_keeps | apply State.when_keeps
    | apply State.withSome_keeps | apply State.rbRaise_keeps
    | exact keeps_mk (Keeps.pending (by assumption)) (Keeps.shm (by assumption)) | apply keeps_ite) | split

theorem State.rbClear_keeps {s0 : State} (s : State) (d : Fin 8) (h : Keeps s0 s) :
    Keeps s0 (State.rbClear s d) := by
  unfold State.rbClear; try dsimp only
  repeat' first | (intro; try dsimp only) | (with_reducible first
    | assumption | apply State.updDo_keeps | apply State.doClear_keeps
    | exact keeps_mk (Keeps.pending (by assumption)) (Keeps.shm (by assumption)) | apply keeps_ite) | split

theorem State.rbOpen_keeps {s0 : State} (s : State) (d : Fin 8) (h : Keeps s0 s) :
    Keeps s0 (State.rbOpen s d) := by
  unfold State.rbOpen; try dsimp only
  repeat' first | (intro; try dsimp only) | (with_reducible first
    | assumption | apply State.doRaise_keeps | apply keeps_ite) | split

theorem State.thresholds_keeps {s0 : State} (s : State) (mv : W16) (h : Keeps s0 s) :
    Keeps s0 (State.thresholds s mv) := by
  unfold State.thresholds; try dsimp only
  repeat' first | (intro; try dsimp only) | (with_reducible first
    | assumption | exact keeps_mk (Keeps.pending (by assumption)) (Keeps.shm (by assumption))) | split

theorem State.diEdgeAt_keeps {s0 : State} (s : State) (d : Fin 8) (level : Bool) (stamp : W32) (h : Keeps s0 s) :
    Keeps s0 (State.diEdgeAt s d level stamp) := by
  unfold State.diEdgeAt; try dsimp only
  repeat' first | (intro; try dsimp only) | (with_reducible first
    | assumption | apply State.updDi_keeps | apply State.notice_keeps
    | exact keeps_mk (Keeps.pending (by assumption)) (Keeps.shm (by assumption)) | apply keeps_ite) | split

theorem State.diRead_keeps {s0 : State} (s : State) (e : Fin 16) (d : Fin 8) (h : Keeps s0 s) :
    Keeps s0 (State.diRead s e d).2 := by
  unfold State.diRead; try dsimp only
  repeat' first | (intro; try dsimp only) | (with_reducible first
    | assumption | apply State.updEng_keeps
    | exact keeps_mk (Keeps.pending (by assumption)) (Keeps.shm (by assumption)) | apply keeps_ite) | split

theorem State.fioRead_keeps {s0 : State} (s : State) (c : Fin 4) (levels : BitVec 8) (h : Keeps s0 s) :
    Keeps s0 (State.fioRead s c levels) := by
  unfold State.fioRead; try dsimp only
  repeat' first | (intro; try dsimp only) | (with_reducible first
    | assumption | apply State.updDo_keeps | apply State.each_keeps | apply keeps_ite) | split

theorem State.fioBeat_keeps {s0 : State} (s : State) (c : Fin 4) (terminals : FieldPins) (h : Keeps s0 s) :
    Keeps s0 (State.fioBeat s c terminals) := by
  unfold State.fioBeat; try dsimp only
  repeat' first | (intro; try dsimp only) | (with_reducible first
    | assumption | apply State.updCl_keeps | apply State.updDi_keeps | apply State.each_keeps
    | apply State.gateBeat_keeps | apply State.docApply_keeps | apply State.fioRead_keeps
    | exact keeps_mk (Keeps.pending (by assumption)) (Keeps.shm (by assumption)) | apply keeps_ite) | split

end Sys2Proof.Machine
end

