-- ==== Sys2Proof/Laws/KeepsSystem.lean ====
section
/-!
SUPPORT. The operations of jobs, clusters, pairing, diagnostics, power and the host interface touch neither the queue nor the canonical form of the shared memory.
-/
set_option maxRecDepth 4000
namespace Sys2Proof.Machine

theorem State.answer_keeps {s0 : State} (s : State) (cmd : Nat) (m : Msg) (a : Answer) (h : Keeps s0 s) :
    Keeps s0 (State.answer s cmd m a) := by
  unfold State.answer; try dsimp only
  repeat' first | (intro; try dsimp only) | (with_reducible first
    | assumption | apply State.reply_keeps | apply State.log_keeps) | split

theorem State.startJob_keeps {s0 : State} (s : State) (kind : JobKind) (m : Msg) (h : Keeps s0 s) :
    Keeps s0 (State.startJob s kind m).2 := by
  unfold State.startJob; try dsimp only
  repeat' first | (intro; try dsimp only) | (with_reducible first
    | assumption | apply State.updSup_keeps | apply State.log_keeps
    | exact keeps_mk (Keeps.pending (by assumption)) (Keeps.shm (by assumption)) | apply keeps_ite) | split

theorem State.jobDone_keeps {s0 : State} (s : State) (j : Job) (status : W16) (detail : Option W32) (payload : List Byte) (h : Keeps s0 s) :
    Keeps s0 (State.jobDone s j status detail payload) := by
  unfold State.jobDone; try dsimp only
  repeat' first | (intro; try dsimp only) | (with_reducible first
    | assumption | apply State.updSup_keeps | apply State.send_keeps | apply State.reply_keeps
    | apply State.notice_keeps | exact keeps_mk (Keeps.pending (by assumption)) (Keeps.shm (by assumption))
    | apply keeps_ite | refine keeps_snd (by assumption) ?_ | refine keeps_thd (by assumption) ?_
    | refine keeps_fst (by assumption) ?_ | refine keeps_next (by assumption) ?_
    | refine keeps_ok (by assumption) ?_ | refine keeps_some (by assumption) ?_) | split

theorem State.endJob_keeps {s0 : State} (s : State) (j : Job) (status : Nat) (detail : Option W32) (payload : List Byte) (h : Keeps s0 s) :
    Keeps s0 (State.endJob s j status detail payload) := by
  unfold State.endJob; try dsimp only
  repeat' first | (intro; try dsimp only) | (with_reducible first
    | assumption | apply State.updSup_keeps | apply State.jobDone_keeps
    | exact keeps_mk (Keeps.pending (by assumption)) (Keeps.shm (by assumption))) | split

theorem State.failJob_keeps {s0 : State} (s : State) (j : Job) (status reason : Nat) (h : Keeps s0 s) :
    Keeps s0 (State.failJob s j status reason) := by
  unfold State.failJob; try dsimp only
  repeat' first | (intro; try dsimp only) | (with_reducible first
    | assumption | apply State.updSup_keeps | apply State.endJob_keeps
    | exact keeps_mk (Keeps.pending (by assumption)) (Keeps.shm (by assumption))) | split

theorem State.endJobs_keeps {s0 : State} (s : State) (f : JobKind → Bool) (status : Nat) (h : Keeps s0 s) :
    Keeps s0 (State.endJobs s f status) := by
  unfold State.endJobs; try dsimp only
  repeat' first | (intro; try dsimp only) | (with_reducible first
    | assumption | apply State.endJob_keeps | apply keeps_foldl) | split

theorem State.pbWrite_keeps {s0 : State} (s : State) (c : Fin 4) (off : Nat) (v : W32) (h : Keeps s0 s) :
    Keeps s0 (State.pbWrite s c off v) := by
  unfold State.pbWrite; try dsimp only
  repeat' first | (intro; try dsimp only) | (with_reducible first
    | assumption | apply State.wr_keeps) | split

theorem State.pbRead_keeps {s0 : State} (s : State) (c : Fin 4) (off : Nat) (h : Keeps s0 s) :
    Keeps s0 (State.pbRead s c off).2 := by
  unfold State.pbRead; try dsimp only
  repeat' first | (intro; try dsimp only) | (with_reducible first
    | assumption | apply State.rd_keeps | refine keeps_snd (by assumption) ?_
    | refine keeps_thd (by assumption) ?_ | refine keeps_fst (by assumption) ?_
    | refine keeps_next (by assumption) ?_ | refine keeps_ok (by assumption) ?_
    | refine keeps_some (by assumption) ?_) | split

theorem State.pbInit_keeps {s0 : State} (s : State) (c : Fin 4) (h : Keeps s0 s) :
    Keeps s0 (State.pbInit s c) := by
  unfold State.pbInit; try dsimp only
  repeat' first | (intro; try dsimp only) | (with_reducible first
    | assumption | apply State.updPi_keeps | apply State.wr_keeps
    | exact keeps_mk (Keeps.pending (by assumption)) (Keeps.shm (by assumption))) | split

theorem State.pbStop_keeps {s0 : State} (s : State) (c : Fin 4) (h : Keeps s0 s) :
    Keeps s0 (State.pbStop s c) := by
  unfold State.pbStop; try dsimp only
  repeat' first | (intro; try dsimp only) | (with_reducible first
    | assumption | apply State.updPi_keeps | apply State.pbInit_keeps | apply keeps_ite) | split

theorem State.engines_keeps {s0 : State} (s : State) (c : Fin 4) (f : Fin 16 → Engine → Engine) (h : Keeps s0 s) :
    Keeps s0 (State.engines s c f) := by
  unfold State.engines; try dsimp only
  repeat' first | (intro; try dsimp only) | (with_reducible first
    | assumption | apply State.updEng_keeps | apply keeps_foldl) | split

theorem State.resetEngines_keeps {s0 : State} (s : State) (c : Fin 4) (h : Keeps s0 s) :
    Keeps s0 (State.resetEngines s c) := by
  unfold State.resetEngines; try dsimp only
  repeat' first | (intro; try dsimp only) | (with_reducible first
    | assumption | apply State.engines_keeps) | split

theorem State.releaseEngines_keeps {s0 : State} (s : State) (c : Fin 4) (h : Keeps s0 s) :
    Keeps s0 (State.releaseEngines s c) := by
  unfold State.releaseEngines; try dsimp only
  repeat' first | (intro; try dsimp only) | (with_reducible first
    | assumption | apply State.updEmb_keeps | apply State.evp_keeps | apply State.engines_keeps
    | apply State.resetEngines_keeps
    | exact keeps_mk (Keeps.pending (by assumption)) (Keeps.shm (by assumption)) | apply keeps_foldl
    | apply keeps_ite) | split

theorem State.dropHolds_keeps {s0 : State} (s : State) (c : Fin 4) (h : Keeps s0 s) :
    Keeps s0 (State.dropHolds s c) := by
  unfold State.dropHolds; try dsimp only
  repeat' first | (intro; try dsimp only) | (with_reducible first
    | assumption | apply State.updPort_keeps | apply State.each_keeps
    | exact keeps_mk (Keeps.pending (by assumption)) (Keeps.shm (by assumption)) | apply keeps_ite) | split

theorem State.stopPersonality_keeps {s0 : State} (s : State) (c : Fin 4) (h : Keeps s0 s) :
    Keeps s0 (State.stopPersonality s c) := by
  unfold State.stopPersonality; try dsimp only
  repeat' first | (intro; try dsimp only) | (with_reducible first
    | assumption | apply State.updCl_keeps | apply State.stopPorts_keeps | apply State.sourceGone_keeps
    | apply State.dlServo_keeps | apply State.hubsRefresh_keeps | apply State.stopCans_keeps
    | apply State.stopPios_keeps | apply State.stopOutputs_keeps | apply State.endJobs_keeps
    | apply State.pbStop_keeps | apply State.resetEngines_keeps | apply State.dropHolds_keeps
    | exact keeps_mk (Keeps.pending (by assumption)) (Keeps.shm (by assumption)) | apply keeps_ite) | split

theorem State.startPersonality_keeps {s0 : State} (s : State) (c : Fin 4) (h : Keeps s0 s) :
    Keeps s0 (State.startPersonality s c) := by
  unfold State.startPersonality; try dsimp only
  repeat' first | (intro; try dsimp only) | (with_reducible first
    | assumption | apply State.updCl_keeps | apply State.updDi_keeps | apply State.each_keeps
    | apply State.startPorts_keeps | apply State.sourceBack_keeps | apply State.edgeCheck_keeps
    | apply State.hubsRefresh_keeps | apply State.startCans_keeps | apply State.startPios_keeps
    | apply State.releaseEngines_keeps
    | exact keeps_mk (Keeps.pending (by assumption)) (Keeps.shm (by assumption)) | apply keeps_ite) | split

theorem State.healthWarns_keeps {s0 : State} (s : State) (h : Keeps s0 s) :
    Keeps s0 (State.healthWarns s) := by
  unfold State.healthWarns; try dsimp only
  repeat' first | (intro; try dsimp only) | (with_reducible first
    | assumption | apply State.updPair_keeps | apply State.warn_keeps
    | exact keeps_mk (Keeps.pending (by assumption)) (Keeps.shm (by assumption)) | apply keeps_foldl
    | apply keeps_ite) | split

theorem State.pairGo_keeps {s0 : State} (s : State) (st : Fin 6) (reason : Nat) (h : Keeps s0 s) :
    Keeps s0 (State.pairGo s st reason) := by
  unfold State.pairGo; try dsimp only
  repeat' first | (intro; try dsimp only) | (with_reducible first
    | assumption | apply State.updPair_keeps | apply State.updPc_keeps | apply State.setStchg_keeps
    | apply State.notify_keeps | apply State.supdb_keeps | apply State.when_keeps | apply State.madd_keeps
    | apply State.sourceTurns_keeps | apply State.sharedOff_keeps | apply State.healthWarns_keeps
    | exact keeps_mk (Keeps.pending (by assumption)) (Keeps.shm (by assumption)) | apply keeps_foldl
    | apply keeps_ite) | split

theorem State.backupControllers_keeps {s0 : State} (s : State) (standby : Bool) (h : Keeps s0 s) :
    Keeps s0 (State.backupControllers s standby) := by
  unfold State.backupControllers; try dsimp only
  repeat' first | (intro; try dsimp only) | (with_reducible first
    | assumption | apply State.updDl_keeps | apply keeps_foldl | apply keeps_ite) | split

theorem State.toSyncing_keeps {s0 : State} (s : State) (reason : Nat) (discard : Bool) (h : Keeps s0 s) :
    Keeps s0 (State.toSyncing s reason discard) := by
  unfold State.toSyncing; try dsimp only
  repeat' first | (intro; try dsimp only) | (with_reducible first
    | assumption | apply State.updPair_keeps | apply State.updPc_keeps | apply State.pairGo_keeps
    | apply State.backupControllers_keeps
    | exact keeps_mk (Keeps.pending (by assumption)) (Keeps.shm (by assumption)) | apply keeps_foldl
    | apply keeps_ite) | split

theorem State.pairCtl_keeps {s0 : State} (s : State) (op a : Nat) (cycle : W64) (h : Keeps s0 s) :
    Keeps s0 (State.pairCtl s op a cycle) := by
  unfold State.pairCtl; try dsimp only
  repeat' first | (intro; try dsimp only) | (with_reducible first
    | assumption | apply State.akSend_keeps | refine keeps_snd (by assumption) ?_
    | refine keeps_thd (by assumption) ?_ | refine keeps_fst (by assumption) ?_
    | refine keeps_next (by assumption) ?_ | refine keeps_ok (by assumption) ?_
    | refine keeps_some (by assumption) ?_) | split

theorem State.withdraw_keeps {s0 : State} (s : State) (h : Keeps s0 s) :
    Keeps s0 (State.withdraw s) := by
  unfold State.withdraw; try dsimp only
  repeat' first | (intro; try dsimp only) | (with_reducible first
    | assumption | apply State.updPc_keeps | apply State.akSend_keeps | apply State.alarm_keeps
    | apply State.each_keeps | apply State.sharedOff_keeps | apply State.stopPersonality_keeps
    | apply State.pairGo_keeps | apply keeps_foldl | apply keeps_ite) | split

theorem State.settle_keeps {s0 : State} (s : State) (h : Keeps s0 s) :
    Keeps s0 (State.settle s) := by
  unfold State.settle; try dsimp only
  repeat' first | (intro; try dsimp only) | (with_reducible first
    | assumption | apply State.withdraw_keeps | apply keeps_ite) | split

theorem State.toTakeover_keeps {s0 : State} (s : State) (reason : Nat) (h : Keeps s0 s) :
    Keeps s0 (State.toTakeover s reason) := by
  unfold State.toTakeover; try dsimp only
  repeat' first | (intro; try dsimp only) | (with_reducible first
    | assumption | apply State.updPc_keeps | apply State.pairGo_keeps
    | exact keeps_mk (Keeps.pending (by assumption)) (Keeps.shm (by assumption)) | apply keeps_foldl) | split

theorem State.tryOrphan_keeps {s0 : State} (s : State) (h : Keeps s0 s) :
    Keeps s0 (State.tryOrphan s) := by
  unfold State.tryOrphan; try dsimp only
  repeat' first | (intro; try dsimp only) | (with_reducible first
    | assumption | apply State.pairGo_keeps | apply keeps_ite) | split

theorem State.pairStopped_keeps {s0 : State} (s : State) (h : Keeps s0 s) :
    Keeps s0 (State.pairStopped s) := by
  unfold State.pairStopped; try dsimp only
  repeat' first | (intro; try dsimp only) | (with_reducible first
    | assumption | apply State.toSyncing_keeps | apply keeps_ite) | split

theorem State.contest_keeps {s0 : State} (s : State) (peerMs : Nat) (prefer atLink : Bool) (h : Keeps s0 s) :
    Keeps s0 (State.contest s peerMs prefer atLink) := by
  unfold State.contest; try dsimp only
  repeat' first | (intro; try dsimp only) | (with_reducible first
    | assumption | apply State.alarm_keeps | apply State.toSyncing_keeps | apply keeps_ite) | split

theorem State.linkGo_keeps {s0 : State} (s : State) (l : Fin 2) (st : Fin 3) (h : Keeps s0 s) :
    Keeps s0 (State.linkGo s l st) := by
  unfold State.linkGo; try dsimp only
  repeat' first | (intro; try dsimp only) | (with_reducible first
    | assumption | apply State.updPair_keeps | apply State.notify_keeps
    | exact keeps_mk (Keeps.pending (by assumption)) (Keeps.shm (by assumption)) | apply keeps_ite) | split

theorem State.linkCount_keeps {s0 : State} (s : State) (l : Fin 2) (i k : Nat) (h : Keeps s0 s) :
    Keeps s0 (State.linkCount s l i k) := by
  unfold State.linkCount; try dsimp only
  repeat' first | (intro; try dsimp only) | (with_reducible first
    | assumption | apply State.updPair_keeps
    | exact keeps_mk (Keeps.pending (by assumption)) (Keeps.shm (by assumption))) | split

theorem State.crcError_keeps {s0 : State} (s : State) (l : Fin 2) (h : Keeps s0 s) :
    Keeps s0 (State.crcError s l) := by
  unfold State.crcError; try dsimp only
  repeat' first | (intro; try dsimp only) | (with_reducible first
    | assumption | apply State.updPair_keeps | apply State.linkGo_keeps | apply State.linkCount_keeps
    | exact keeps_mk (Keeps.pending (by assumption)) (Keeps.shm (by assumption)) | apply keeps_ite) | split

theorem State.received_keeps {s0 : State} (s : State) (l : Fin 2) (crcOk : Bool) (f : State → State) (h : Keeps s0 s) (hf : ∀ t0, Keeps s0 t0 → Keeps s0 (f t0)) :
    Keeps s0 (State.received s l crcOk f) := by
  unfold State.received; try dsimp only
  repeat' first | (intro; try dsimp only) | (with_reducible first
    | assumption | apply hf | apply State.crcError_keeps | apply keeps_ite) | split

theorem State.receivedPair_keeps {s0 : State} (s : State) (l : Fin 2) (crcOk : Bool) (f : State → State) (h : Keeps s0 s) (hf : ∀ t0, Keeps s0 t0 → Keeps s0 (f t0)) :
    Keeps s0 (State.receivedPair s l crcOk f) := by
  unfold State.receivedPair; try dsimp only
  repeat' first | (intro; try dsimp only) | (with_reducible first
    | assumption | apply hf | apply State.received_keeps | apply keeps_ite) | split

theorem State.bulkArea_keeps {s0 : State} (s : State) (l : Fin 2) (kind : Nat) (c : Fin 4) (cycle : W64) (at_ len place_ : Nat) (h : Keeps s0 s) :
    Keeps s0 (State.bulkArea s l kind c cycle at_ len place_) := by
  unfold State.bulkArea; try dsimp only
  repeat' first | (intro; try dsimp only) | (with_reducible first
    | assumption | apply State.akSend_keeps | apply State.rd_keeps | apply keeps_foldl
    | refine keeps_snd (by assumption) ?_ | refine keeps_thd (by assumption) ?_
    | refine keeps_fst (by assumption) ?_ | refine keeps_next (by assumption) ?_
    | refine keeps_ok (by assumption) ?_ | refine keeps_some (by assumption) ?_) | split

theorem State.bulkObjects_keeps {s0 : State} (s : State) (l : Fin 2) (c : Fin 4) (h : Keeps s0 s) :
    Keeps s0 (State.bulkObjects s l c) := by
  unfold State.bulkObjects; try dsimp only
  repeat' first | (intro; try dsimp only) | (with_reducible first
    | assumption | apply State.akSend_keeps | apply keeps_foldl) | split

theorem State.bulkStart_keeps {s0 : State} (s : State) (h : Keeps s0 s) :
    Keeps s0 (State.bulkStart s) := by
  unfold State.bulkStart; try dsimp only
  repeat' first | (intro; try dsimp only) | (with_reducible first
    | assumption | apply State.updPair_keeps | apply State.bulkArea_keeps | apply State.bulkObjects_keeps
    | exact keeps_mk (Keeps.pending (by assumption)) (Keeps.shm (by assumption)) | apply keeps_foldl
    | apply keeps_ite | refine keeps_snd (by assumption) ?_ | refine keeps_thd (by assumption) ?_
    | refine keeps_fst (by assumption) ?_ | refine keeps_next (by assumption) ?_
    | refine keeps_ok (by assumption) ?_ | refine keeps_some (by assumption) ?_) | split

theorem State.beatOn_keeps {s0 : State} (s : State) (l : Fin 2) (mpos : Fin 4) (data : List Byte) (h : Keeps s0 s) :
    Keeps s0 (State.beatOn s l mpos data) := by
  unfold State.beatOn; try dsimp only
  repeat' first | (intro; try dsimp only) | (with_reducible first
    | assumption | apply State.akSend_keeps | apply keeps_ite) | split

theorem State.beat_keeps {s0 : State} (s : State) (l : Fin 2) (mpos : Fin 4) (state : Fin 6) (orphanMs count : Nat) (prefer : Bool) (h : Keeps s0 s) :
    Keeps s0 (State.beat s l mpos state orphanMs count prefer) := by
  unfold State.beat; try dsimp only
  repeat' first | (intro; try dsimp only) | (with_reducible first
    | assumption | apply State.updPair_keeps | apply State.updPc_keeps | apply State.pairGo_keeps
    | apply State.contest_keeps | apply State.linkCount_keeps | apply State.bulkStart_keeps
    | apply State.beatOn_keeps | exact keeps_mk (Keeps.pending (by assumption)) (Keeps.shm (by assumption))
    | apply keeps_foldl | apply keeps_ite | refine keeps_snd (by assumption) ?_
    | refine keeps_thd (by assumption) ?_ | refine keeps_fst (by assumption) ?_
    | refine keeps_next (by assumption) ?_ | refine keeps_ok (by assumption) ?_
    | refine keeps_some (by assumption) ?_) | split

theorem State.ident_keeps {s0 : State} (s : State) (l : Fin 2) (serial : W64) (certOk : Bool) (h : Keeps s0 s) :
    Keeps s0 (State.ident s l serial certOk) := by
  unfold State.ident; try dsimp only
  repeat' first | (intro; try dsimp only) | (with_reducible first
    | assumption | apply State.updPair_keeps | apply State.notify_keeps | apply State.alarm_keeps
    | apply State.bulkStart_keeps | exact keeps_mk (Keeps.pending (by assumption)) (Keeps.shm (by assumption))
    | apply keeps_ite) | split

theorem State.buildDone_keeps {s0 : State} (s : State) (c : Fin 4) (h : Keeps s0 s) :
    Keeps s0 (State.buildDone s c) := by
  unfold State.buildDone; try dsimp only
  repeat' first | (intro; try dsimp only) | (with_reducible first
    | assumption | apply State.akSend_keeps | apply State.rd_keeps | apply keeps_ite
    | refine keeps_snd (by assumption) ?_ | refine keeps_thd (by assumption) ?_
    | refine keeps_fst (by assumption) ?_ | refine keeps_next (by assumption) ?_
    | refine keeps_ok (by assumption) ?_ | refine keeps_some (by assumption) ?_) | split

theorem State.relayIn_keeps {s0 : State} (s : State) (l : Fin 2) (c : Fin 4) (data : List Byte) (h : Keeps s0 s) :
    Keeps s0 (State.relayIn s l c data) := by
  unfold State.relayIn; try dsimp only
  repeat' first | (intro; try dsimp only) | (with_reducible first
    | assumption | apply State.updPc_keeps | apply State.madd_keeps | apply State.wr_keeps
    | apply Passing.take_keeps | exact keeps_mk (Keeps.pending (by assumption)) (Keeps.shm (by assumption))
    | apply keeps_ite | refine keeps_snd (by assumption) ?_ | refine keeps_thd (by assumption) ?_
    | refine keeps_fst (by assumption) ?_ | refine keeps_next (by assumption) ?_
    | refine keeps_ok (by assumption) ?_ | refine keeps_some (by assumption) ?_) | split

theorem State.standbyTake_keeps {s0 : State} (s : State) (c : Fin 4) (h : Keeps s0 s) :
    Keeps s0 (State.standbyTake s c) := by
  unfold State.standbyTake; try dsimp only
  repeat' first | (intro; try dsimp only) | (with_reducible first
    | assumption | apply State.updPc_keeps | apply State.warn_keeps | apply State.toSyncing_keeps
    | exact keeps_mk (Keeps.pending (by assumption)) (Keeps.shm (by assumption)) | apply keeps_ite) | split

theorem State.copyStart_keeps {s0 : State} (s : State) (c : Fin 4) (old : W64) (h : Keeps s0 s) :
    Keeps s0 (State.copyStart s c old) := by
  unfold State.copyStart; try dsimp only
  repeat' first | (intro; try dsimp only) | (with_reducible first
    | assumption | apply State.updPc_keeps | apply State.akSend_keeps | apply State.madd_keeps
    | apply State.rd_keeps | exact keeps_mk (Keeps.pending (by assumption)) (Keeps.shm (by assumption))
    | apply keeps_foldl | apply keeps_ite | refine keeps_snd (by assumption) ?_
    | refine keeps_thd (by assumption) ?_ | refine keeps_fst (by assumption) ?_
    | refine keeps_next (by assumption) ?_ | refine keeps_ok (by assumption) ?_
    | refine keeps_some (by assumption) ?_) | split

theorem State.copyAgain_keeps {s0 : State} (s : State) (c : Fin 4) (i : Nat) (h : Keeps s0 s) :
    Keeps s0 (State.copyAgain s c i) := by
  unfold State.copyAgain; try dsimp only
  repeat' first | (intro; try dsimp only) | (with_reducible first
    | assumption | apply State.updPc_keeps | apply State.akSend_keeps | apply State.rd_keeps
    | exact keeps_mk (Keeps.pending (by assumption)) (Keeps.shm (by assumption)) | apply keeps_ite
    | refine keeps_snd (by assumption) ?_ | refine keeps_thd (by assumption) ?_
    | refine keeps_fst (by assumption) ?_ | refine keeps_next (by assumption) ?_
    | refine keeps_ok (by assumption) ?_ | refine keeps_some (by assumption) ?_) | split

theorem State.copyIn_keeps {s0 : State} (s : State) (l : Fin 2) (c : Fin 4) (cycle : W64) (block : Nat) (data : List Byte) (route : RouteCopy) (memErr : Bool) (h : Keeps s0 s) :
    Keeps s0 (State.copyIn s l c cycle block data route memErr) := by
  unfold State.copyIn; try dsimp only
  repeat' first | (intro; try dsimp only) | (with_reducible first
    | assumption | apply State.updDl_keeps | apply State.updPc_keeps | apply State.wr_keeps
    | apply Passing.take_keeps | exact keeps_mk (Keeps.pending (by assumption)) (Keeps.shm (by assumption))
    | apply keeps_ite) | split

theorem State.copyBad_keeps {s0 : State} (s : State) (l : Fin 2) (c : Fin 4) (cycle : W64) (block : Nat) (h : Keeps s0 s) :
    Keeps s0 (State.copyBad s l c cycle block) := by
  unfold State.copyBad; try dsimp only
  repeat' first | (intro; try dsimp only) | (with_reducible first
    | assumption | apply State.updPc_keeps | apply State.pairCtl_keeps | apply State.crcError_keeps
    | apply keeps_ite) | split

theorem State.copyEnd_keeps {s0 : State} (s : State) (c : Fin 4) (h : Keeps s0 s) :
    Keeps s0 (State.copyEnd s c) := by
  unfold State.copyEnd; try dsimp only
  repeat' first | (intro; try dsimp only) | (with_reducible first
    | assumption | apply State.updPc_keeps | apply State.madd_keeps
    | exact keeps_mk (Keeps.pending (by assumption)) (Keeps.shm (by assumption)) | apply keeps_ite) | split

theorem State.objectIn_keeps {s0 : State} (s : State) (i : Nat) (data : List Byte) (h : Keeps s0 s) :
    Keeps s0 (State.objectIn s i data) := by
  unfold State.objectIn; try dsimp only
  repeat' first | (intro; try dsimp only) | (with_reducible first
    | assumption | apply State.updDl_keeps | apply Passing.take_keeps
    | exact keeps_mk (Keeps.pending (by assumption)) (Keeps.shm (by assumption)) | apply keeps_ite) | split

theorem State.bulkIn_keeps {s0 : State} (s : State) (l : Fin 2) (b : BulkPlace) (data : List Byte) (h : Keeps s0 s) :
    Keeps s0 (State.bulkIn s l b data) := by
  unfold State.bulkIn; try dsimp only
  repeat' first | (intro; try dsimp only) | (with_reducible first
    | assumption | apply State.updPair_keeps | apply State.updPc_keeps | apply State.wr_keeps
    | apply Passing.take_keeps | apply State.objectIn_keeps
    | exact keeps_mk (Keeps.pending (by assumption)) (Keeps.shm (by assumption)) | apply keeps_ite
    | refine keeps_snd (by assumption) ?_ | refine keeps_thd (by assumption) ?_
    | refine keeps_fst (by assumption) ?_ | refine keeps_next (by assumption) ?_
    | refine keeps_ok (by assumption) ?_ | refine keeps_some (by assumption) ?_) | split

theorem State.sendReport_keeps {s0 : State} (s : State) (c : Fin 4) (old : W64) (h : Keeps s0 s) :
    Keeps s0 (State.sendReport s c old) := by
  unfold State.sendReport; try dsimp only
  repeat' first | (intro; try dsimp only) | (with_reducible first
    | assumption | apply State.updPair_keeps | apply State.updPc_keeps | apply State.akSend_keeps
    | exact keeps_mk (Keeps.pending (by assumption)) (Keeps.shm (by assumption))
    | refine keeps_snd (by assumption) ?_ | refine keeps_thd (by assumption) ?_
    | refine keeps_fst (by assumption) ?_ | refine keeps_next (by assumption) ?_
    | refine keeps_ok (by assumption) ?_ | refine keeps_some (by assumption) ?_) | split

theorem State.report_keeps {s0 : State} (s : State) (r : Report) (h : Keeps s0 s) :
    Keeps s0 (State.report s r) := by
  unfold State.report; try dsimp only
  repeat' first | (intro; try dsimp only) | (with_reducible first
    | assumption | apply State.updPair_keeps | apply State.updPc_keeps | apply State.warn_keeps
    | apply State.madd_keeps | apply State.rbReports_keeps
    | exact keeps_mk (Keeps.pending (by assumption)) (Keeps.shm (by assumption)) | apply keeps_ite) | split

theorem State.reportLate_keeps {s0 : State} (s : State) (c : Fin 4) (h : Keeps s0 s) :
    Keeps s0 (State.reportLate s c) := by
  unfold State.reportLate; try dsimp only
  repeat' first | (intro; try dsimp only) | (with_reducible first
    | assumption | apply State.updPc_keeps | apply State.madd_keeps | apply State.rbReports_keeps
    | exact keeps_mk (Keeps.pending (by assumption)) (Keeps.shm (by assumption)) | apply keeps_ite) | split

theorem State.quickResolve_keeps {s0 : State} (s : State) (h : Keeps s0 s) :
    Keeps s0 (State.quickResolve s) := by
  unfold State.quickResolve; try dsimp only
  repeat' first | (intro; try dsimp only) | (with_reducible first
    | assumption | apply State.updPair_keeps | apply State.updPc_keeps | apply State.alarm_keeps
    | apply State.pairGo_keeps | apply State.toSyncing_keeps | apply State.withdraw_keeps
    | apply State.toTakeover_keeps | exact keeps_mk (Keeps.pending (by assumption)) (Keeps.shm (by assumption))
    | apply keeps_foldl | apply keeps_ite | refine keeps_snd (by assumption) ?_
    | refine keeps_thd (by assumption) ?_ | refine keeps_fst (by assumption) ?_
    | refine keeps_next (by assumption) ?_ | refine keeps_ok (by assumption) ?_
    | refine keeps_some (by assumption) ?_) | split

theorem State.quickOwnDone_keeps {s0 : State} (s : State) (pass : Bool) (h : Keeps s0 s) :
    Keeps s0 (State.quickOwnDone s pass) := by
  unfold State.quickOwnDone; try dsimp only
  repeat' first | (intro; try dsimp only) | (with_reducible first
    | assumption | apply State.updPair_keeps | apply State.pairCtl_keeps | apply State.quickResolve_keeps
    | exact keeps_mk (Keeps.pending (by assumption)) (Keeps.shm (by assumption)) | apply keeps_ite) | split

theorem State.quickLate_keeps {s0 : State} (s : State) (h : Keeps s0 s) :
    Keeps s0 (State.quickLate s) := by
  unfold State.quickLate; try dsimp only
  repeat' first | (intro; try dsimp only) | (with_reducible first
    | assumption | apply State.updPair_keeps | apply State.quickResolve_keeps
    | exact keeps_mk (Keeps.pending (by assumption)) (Keeps.shm (by assumption)) | apply keeps_ite) | split

theorem State.presumeLost_keeps {s0 : State} (s : State) (h : Keeps s0 s) :
    Keeps s0 (State.presumeLost s) := by
  unfold State.presumeLost; try dsimp only
  repeat' first | (intro; try dsimp only) | (with_reducible first
    | assumption | apply State.updPair_keeps | apply State.updPc_keeps | apply State.pairGo_keeps
    | exact keeps_mk (Keeps.pending (by assumption)) (Keeps.shm (by assumption)) | apply keeps_foldl
    | apply keeps_ite) | split

theorem State.lossCheck_keeps {s0 : State} (s : State) (c : Fin 4) (h : Keeps s0 s) :
    Keeps s0 (State.lossCheck s c) := by
  unfold State.lossCheck; try dsimp only
  repeat' first | (intro; try dsimp only) | (with_reducible first
    | assumption | apply State.toSyncing_keeps | apply State.toTakeover_keeps | apply keeps_ite
    | refine keeps_snd (by assumption) ?_ | refine keeps_thd (by assumption) ?_
    | refine keeps_fst (by assumption) ?_ | refine keeps_next (by assumption) ?_
    | refine keeps_ok (by assumption) ?_ | refine keeps_some (by assumption) ?_) | split

theorem State.dropSwitch_keeps {s0 : State} (s : State) (h : Keeps s0 s) :
    Keeps s0 (State.dropSwitch s) := by
  unfold State.dropSwitch; try dsimp only
  repeat' first | (intro; try dsimp only) | (with_reducible first
    | assumption | apply State.updPair_keeps | apply State.updPc_keeps
    | exact keeps_mk (Keeps.pending (by assumption)) (Keeps.shm (by assumption)) | apply keeps_foldl) | split

theorem State.pairCtlIn_keeps {s0 : State} (s : State) (w : PairCtl) (h : Keeps s0 s) :
    Keeps s0 (State.pairCtlIn s w) := by
  unfold State.pairCtlIn; try dsimp only
  repeat' first | (intro; try dsimp only) | (with_reducible first
    | assumption | apply State.updPair_keeps | apply State.updPc_keeps | apply State.pairGo_keeps
    | apply State.toSyncing_keeps | apply State.pairCtl_keeps | apply State.withdraw_keeps
    | apply State.toTakeover_keeps | apply State.copyAgain_keeps | apply State.copyBad_keeps
    | apply State.quickResolve_keeps | apply State.dropSwitch_keeps
    | exact keeps_mk (Keeps.pending (by assumption)) (Keeps.shm (by assumption)) | apply keeps_ite
    | refine keeps_snd (by assumption) ?_ | refine keeps_thd (by assumption) ?_
    | refine keeps_fst (by assumption) ?_ | refine keeps_next (by assumption) ?_
    | refine keeps_ok (by assumption) ?_ | refine keeps_some (by assumption) ?_) | split

theorem State.masterNow_keeps {s0 : State} (s : State) (c : Fin 4) (h : Keeps s0 s) :
    Keeps s0 (State.masterNow s c) := by
  unfold State.masterNow; try dsimp only
  repeat' first | (intro; try dsimp only) | (with_reducible first
    | assumption | apply State.enterMaster_keeps | apply keeps_ite) | split

theorem State.takeoverBeat_keeps {s0 : State} (s : State) (c : Fin 4) (h : Keeps s0 s) :
    Keeps s0 (State.takeoverBeat s c) := by
  unfold State.takeoverBeat; try dsimp only
  repeat' first | (intro; try dsimp only) | (with_reducible first
    | assumption | apply State.updPc_keeps | apply State.warn_keeps | apply State.wr_keeps
    | apply State.rd_keeps | apply State.releaseEngines_keeps | apply State.pairGo_keeps
    | apply State.masterNow_keeps | exact keeps_mk (Keeps.pending (by assumption)) (Keeps.shm (by assumption))
    | apply keeps_foldl | apply keeps_ite | refine keeps_snd (by assumption) ?_
    | refine keeps_thd (by assumption) ?_ | refine keeps_fst (by assumption) ?_
    | refine keeps_next (by assumption) ?_ | refine keeps_ok (by assumption) ?_
    | refine keeps_some (by assumption) ?_) | split

theorem State.fallBackBeat_keeps {s0 : State} (s : State) (c : Fin 4) (was : Nat) (h : Keeps s0 s) :
    Keeps s0 (State.fallBackBeat s c was) := by
  unfold State.fallBackBeat; try dsimp only
  repeat' first | (intro; try dsimp only) | (with_reducible first
    | assumption | apply State.updPc_keeps | apply State.masterNow_keeps
    | exact keeps_mk (Keeps.pending (by assumption)) (Keeps.shm (by assumption)) | apply keeps_ite) | split

theorem State.switchBeat_keeps {s0 : State} (s : State) (c : Fin 4) (h : Keeps s0 s) :
    Keeps s0 (State.switchBeat s c) := by
  unfold State.switchBeat; try dsimp only
  repeat' first | (intro; try dsimp only) | (with_reducible first
    | assumption | apply State.updDl_keeps | apply State.updPc_keeps | apply State.pairGo_keeps
    | apply State.masterNow_keeps | exact keeps_mk (Keeps.pending (by assumption)) (Keeps.shm (by assumption))
    | apply keeps_ite) | split

theorem State.joinBeat_keeps {s0 : State} (s : State) (h : Keeps s0 s) :
    Keeps s0 (State.joinBeat s) := by
  unfold State.joinBeat; try dsimp only
  repeat' first | (intro; try dsimp only) | (with_reducible first
    | assumption | apply State.pairGo_keeps | apply State.backupControllers_keeps | apply keeps_ite) | split

theorem State.pairBeat_keeps {s0 : State} (s : State) (c : Fin 4) (old : W64) (h : Keeps s0 s) :
    Keeps s0 (State.pairBeat s c old) := by
  unfold State.pairBeat; try dsimp only
  repeat' first | (intro; try dsimp only) | (with_reducible first
    | assumption | apply State.updPc_keeps | apply State.healthWarns_keeps | apply State.toTakeover_keeps
    | apply State.copyStart_keeps | apply State.sendReport_keeps | apply State.takeoverBeat_keeps
    | apply State.fallBackBeat_keeps | apply State.switchBeat_keeps | apply State.joinBeat_keeps
    | exact keeps_mk (Keeps.pending (by assumption)) (Keeps.shm (by assumption)) | apply keeps_ite) | split

theorem State.cmdIn_keeps {s0 : State} (s : State) (src : Fin 4) (num : BitVec 30) (cmd : W16) (m : Msg) (h : Keeps s0 s) :
    Keeps s0 (State.cmdIn s src num cmd m) := by
  unfold State.cmdIn; try dsimp only
  repeat' first | (intro; try dsimp only) | (with_reducible first
    | assumption | apply State.toMember_keeps
    | exact keeps_mk (Keeps.pending (by assumption)) (Keeps.shm (by assumption)) | apply keeps_ite) | split

theorem State.remoteDone_keeps {s0 : State} (s : State) (g : GroupMsg) (h : Keeps s0 s) :
    Keeps s0 (State.remoteDone s g) := by
  unfold State.remoteDone; try dsimp only
  repeat' first | (intro; try dsimp only) | (with_reducible first
    | assumption | apply State.updSup_keeps | apply State.jobDone_keeps
    | exact keeps_mk (Keeps.pending (by assumption)) (Keeps.shm (by assumption)) | apply keeps_ite
    | refine keeps_snd (by assumption) ?_ | refine keeps_thd (by assumption) ?_
    | refine keeps_fst (by assumption) ?_ | refine keeps_next (by assumption) ?_
    | refine keeps_ok (by assumption) ?_ | refine keeps_some (by assumption) ?_) | split

theorem State.mirrorEnd_keeps {s0 : State} (s : State) (m : Mirror) (rest : List Mirror) (agreed : Bool) (h : Keeps s0 s) :
    Keeps s0 (State.mirrorEnd s m rest agreed) := by
  unfold State.mirrorEnd; try dsimp only
  repeat' first | (intro; try dsimp only) | (with_reducible first
    | assumption | apply State.updSup_keeps | apply State.reply_keeps | apply State.pairGo_keeps
    | exact keeps_mk (Keeps.pending (by assumption)) (Keeps.shm (by assumption)) | apply keeps_ite) | split

theorem State.memberAnswer_keeps {s0 : State} (s : State) (g : GroupMsg) (h : Keeps s0 s) :
    Keeps s0 (State.memberAnswer s g) := by
  unfold State.memberAnswer; try dsimp only
  repeat' first | (intro; try dsimp only) | (with_reducible first
    | assumption | apply State.updSup_keeps | apply State.toMember_keeps | apply State.reply_keeps
    | apply State.notifyFrom_keeps | apply State.remoteDone_keeps | apply State.mirrorEnd_keeps
    | exact keeps_mk (Keeps.pending (by assumption)) (Keeps.shm (by assumption)) | apply keeps_ite
    | refine keeps_snd (by assumption) ?_ | refine keeps_thd (by assumption) ?_
    | refine keeps_fst (by assumption) ?_ | refine keeps_next (by assumption) ?_
    | refine keeps_ok (by assumption) ?_ | refine keeps_some (by assumption) ?_) | split

theorem State.memberSilent_keeps {s0 : State} (s : State) (pos : Fin 4) (h : Keeps s0 s) :
    Keeps s0 (State.memberSilent s pos) := by
  unfold State.memberSilent; try dsimp only
  repeat' first | (intro; try dsimp only) | (with_reducible first
    | assumption | apply State.updSup_keeps | apply State.reply_keeps
    | exact keeps_mk (Keeps.pending (by assumption)) (Keeps.shm (by assumption))
    | refine keeps_snd (by assumption) ?_ | refine keeps_thd (by assumption) ?_
    | refine keeps_fst (by assumption) ?_ | refine keeps_next (by assumption) ?_
    | refine keeps_ok (by assumption) ?_ | refine keeps_some (by assumption) ?_) | split

theorem State.mirrorSilent_keeps {s0 : State} (s : State) (h : Keeps s0 s) :
    Keeps s0 (State.mirrorSilent s) := by
  unfold State.mirrorSilent; try dsimp only
  repeat' first | (intro; try dsimp only) | (with_reducible first
    | assumption | apply State.pairCtl_keeps | apply State.mirrorEnd_keeps | refine keeps_snd (by assumption) ?_
    | refine keeps_thd (by assumption) ?_ | refine keeps_fst (by assumption) ?_
    | refine keeps_next (by assumption) ?_ | refine keeps_ok (by assumption) ?_
    | refine keeps_some (by assumption) ?_) | split

theorem State.piRing_keeps {s0 : State} (s : State) (c : Fin 4) (h : Keeps s0 s) :
    Keeps s0 (State.piRing s c) := by
  unfold State.piRing; try dsimp only
  repeat' first | (intro; try dsimp only) | (with_reducible first
    | assumption | apply State.ringS2H_keeps | apply keeps_ite) | split

theorem State.piPublish_keeps {s0 : State} (s : State) (c : Fin 4) (h : Keeps s0 s) :
    Keeps s0 (State.piPublish s c) := by
  unfold State.piPublish; try dsimp only
  repeat' first | (intro; try dsimp only) | (with_reducible first
    | assumption | apply State.updPi_keeps | apply State.warn_keeps | apply State.pbWrite_keeps
    | apply State.pbRead_keeps | apply State.piRing_keeps
    | exact keeps_mk (Keeps.pending (by assumption)) (Keeps.shm (by assumption)) | apply keeps_ite
    | refine keeps_snd (by assumption) ?_ | refine keeps_thd (by assumption) ?_
    | refine keeps_fst (by assumption) ?_ | refine keeps_next (by assumption) ?_
    | refine keeps_ok (by assumption) ?_ | refine keeps_some (by assumption) ?_) | split

theorem State.piBeat_keeps {s0 : State} (s : State) (c : Fin 4) (h : Keeps s0 s) :
    Keeps s0 (State.piBeat s c) := by
  unfold State.piBeat; try dsimp only
  repeat' first | (intro; try dsimp only) | (with_reducible first
    | assumption | apply State.updPi_keeps | apply State.pbInit_keeps | apply State.piRing_keeps
    | apply State.piPublish_keeps | apply keeps_ite) | split

theorem State.piTake_keeps {s0 : State} (s : State) (c : Fin 4) (h : Keeps s0 s) :
    Keeps s0 (State.piTake s c) := by
  unfold State.piTake; try dsimp only
  repeat' first | (intro; try dsimp only) | (with_reducible first
    | assumption | apply State.updPi_keeps | apply State.pbWrite_keeps | apply State.pbRead_keeps
    | exact keeps_mk (Keeps.pending (by assumption)) (Keeps.shm (by assumption)) | apply keeps_ite
    | refine keeps_snd (by assumption) ?_ | refine keeps_thd (by assumption) ?_
    | refine keeps_fst (by assumption) ?_ | refine keeps_next (by assumption) ?_
    | refine keeps_ok (by assumption) ?_ | refine keeps_some (by assumption) ?_) | split

theorem State.piRung_keeps {s0 : State} (s : State) (c : Fin 4) (h : Keeps s0 s) :
    Keeps s0 (State.piRung s c) := by
  unfold State.piRung; try dsimp only
  repeat' first | (intro; try dsimp only) | (with_reducible first
    | assumption | apply State.updPi_keeps | apply State.warn_keeps
    | exact keeps_mk (Keeps.pending (by assumption)) (Keeps.shm (by assumption)) | apply keeps_ite) | split

theorem State.piStale_keeps {s0 : State} (s : State) (c : Fin 4) (h : Keeps s0 s) :
    Keeps s0 (State.piStale s c) := by
  unfold State.piStale; try dsimp only
  repeat' first | (intro; try dsimp only) | (with_reducible first
    | assumption | apply State.updPi_keeps | apply State.warn_keeps
    | exact keeps_mk (Keeps.pending (by assumption)) (Keeps.shm (by assumption)) | apply keeps_ite) | split

theorem State.piDone_keeps {s0 : State} (s : State) (c : Fin 4) (h : Keeps s0 s) :
    Keeps s0 (State.piDone s c) := by
  unfold State.piDone; try dsimp only
  repeat' first | (intro; try dsimp only) | (with_reducible first
    | assumption | apply State.updPi_keeps
    | exact keeps_mk (Keeps.pending (by assumption)) (Keeps.shm (by assumption)) | apply keeps_ite) | split

theorem State.onGroup_keeps {s0 : State} (s : State) (o : Option (Fin 4)) (f : CtrFun) (h : Keeps s0 s) :
    Keeps s0 (State.onGroup s o f) := by
  unfold State.onGroup; try dsimp only
  repeat' first | (intro; try dsimp only) | (with_reducible first
    | assumption | exact keeps_mk (Keeps.pending (by assumption)) (Keeps.shm (by assumption)) | apply keeps_ite) | split

theorem State.onModule_keeps {s0 : State} (s : State) (f : CtrFun) (h : Keeps s0 s) :
    Keeps s0 (State.onModule s f) := by
  unfold State.onModule; try dsimp only
  repeat' first | (intro; try dsimp only) | (with_reducible first
    | assumption | exact keeps_mk (Keeps.pending (by assumption)) (Keeps.shm (by assumption))) | split

theorem State.snapLatch_keeps {s0 : State} (s : State) (c : Fin 4) (h : Keeps s0 s) :
    Keeps s0 (State.snapLatch s c) := by
  have hg := State.onGroup_keeps s (some c) latchFun h
  unfold State.snapLatch; dsimp only
  exact State.updCl_keeps _ _ _ (keeps_mk hg.pending hg.shm)

theorem State.putStat_keeps {s0 : State} (s : State) (r : Rec) (cycle : W32) (h : Keeps s0 s) :
    Keeps s0 (State.putStat s r cycle) := by
  unfold State.putStat; try dsimp only
  repeat' first | (intro; try dsimp only) | (with_reducible first
    | assumption | apply State.updSup_keeps | apply State.wr_keeps
    | exact keeps_mk (Keeps.pending (by assumption)) (Keeps.shm (by assumption)) | apply keeps_ite) | split

theorem State.putStats_keeps {s0 : State} (s : State) (rs : List Rec) (cycle : W32) (h : Keeps s0 s) :
    Keeps s0 (State.putStats s rs cycle) := by
  unfold State.putStats; try dsimp only
  repeat' first | (intro; try dsimp only) | (with_reducible first
    | assumption | apply State.putStat_keeps | apply keeps_foldl) | split

theorem State.closeGroup_keeps {s0 : State} (s : State) (c : Fin 4) (h : Keeps s0 s) :
    Keeps s0 (State.closeGroup s c) := by
  unfold State.closeGroup; try dsimp only
  repeat' first | (intro; try dsimp only) | (with_reducible first
    | assumption | apply State.updCl_keeps | apply State.updCan_keeps | apply State.supdb_keeps
    | apply State.each_keeps | apply State.onGroup_keeps | apply State.putStats_keeps
    | exact keeps_mk (Keeps.pending (by assumption)) (Keeps.shm (by assumption)) | apply keeps_ite) | split

theorem State.latchIdleCans_keeps {s0 : State} (s : State) (c : Fin 4) (h : Keeps s0 s) :
    Keeps s0 (State.latchIdleCans s c) := by
  unfold State.latchIdleCans; try dsimp only
  repeat' first | (intro; try dsimp only) | (with_reducible first
    | assumption | exact keeps_mk (Keeps.pending (by assumption)) (Keeps.shm (by assumption)) | apply keeps_ite) | split

theorem State.statsPeriod_keeps {s0 : State} (s : State) (h : Keeps s0 s) :
    Keeps s0 (State.statsPeriod s) := by
  unfold State.statsPeriod; try dsimp only
  repeat' first | (intro; try dsimp only) | (with_reducible first
    | assumption | apply State.updCl_keeps | apply State.updCan_keeps | apply State.updSup_keeps
    | apply State.updTim_keeps | apply State.updDl_keeps | apply State.each_keeps | apply State.onGroup_keeps
    | apply State.onModule_keeps | apply State.putStats_keeps | apply State.latchIdleCans_keeps
    | exact keeps_mk (Keeps.pending (by assumption)) (Keeps.shm (by assumption)) | apply keeps_ite) | split

theorem State.memStarve_keeps {s0 : State} (s : State) (w : MemWhich) (code : BitVec 6) (word : BitVec 20) (h : Keeps s0 s) :
    Keeps s0 (State.memStarve s w code word) := by
  unfold State.memStarve; try dsimp only
  repeat' first | (intro; try dsimp only) | (with_reducible first
    | assumption | apply State.updCl_keeps | apply State.warn_keeps
    | exact keeps_mk (Keeps.pending (by assumption)) (Keeps.shm (by assumption))
    | refine keeps_snd (by assumption) ?_ | refine keeps_thd (by assumption) ?_
    | refine keeps_fst (by assumption) ?_ | refine keeps_next (by assumption) ?_
    | refine keeps_ok (by assumption) ?_ | refine keeps_some (by assumption) ?_) | split

theorem State.itemDone_keeps {s0 : State} (s : State) (item : Nat) (h : Keeps s0 s) :
    Keeps s0 (State.itemDone s item) := by
  unfold State.itemDone; try dsimp only
  repeat' first | (intro; try dsimp only) | (with_reducible first
    | assumption | exact keeps_mk (Keeps.pending (by assumption)) (Keeps.shm (by assumption)) | apply keeps_ite) | split

theorem State.testFault_keeps {s0 : State} (s : State) (h : Keeps s0 s) :
    Keeps s0 (State.testFault s) := by
  unfold State.testFault; try dsimp only
  repeat' first | (intro; try dsimp only) | (with_reducible first
    | assumption | exact keeps_mk (Keeps.pending (by assumption)) (Keeps.shm (by assumption))) | split

theorem State.blockFault_keeps {s0 : State} (s : State) (r : MemRef) (block : Nat) (h : Keeps s0 s) :
    Keeps s0 (State.blockFault s r block) := by
  unfold State.blockFault; try dsimp only
  repeat' first | (intro; try dsimp only) | (with_reducible first
    | assumption | apply State.alarm_keeps | refine keeps_snd (by assumption) ?_
    | refine keeps_thd (by assumption) ?_ | refine keeps_fst (by assumption) ?_
    | refine keeps_next (by assumption) ?_ | refine keeps_ok (by assumption) ?_
    | refine keeps_some (by assumption) ?_) | split

theorem State.memFault_keeps {s0 : State} (s : State) (r : MemRef) (block : Nat) (h : Keeps s0 s) :
    Keeps s0 (State.memFault s r block) := by
  unfold State.memFault
  split
  next m b bad e =>
  refine keeps_ite h ?_
  extract_lets m1
  refine State.blockFault_keeps _ _ _ (State.setMem_keeps _ _ _ _ _ h fun er w => ?_)
  have h1 := State.memOf_wf (r := r) h er w
  rw [e] at h1
  have h2 : memWf m1 = true := by
    show memWf (if _ then _ else _) = true
    split
    · exact memWriteN_wf _ _ h1
    · exact h1
  exact h2

theorem stepB {m : Mem} (b : Borrow) (n : Nat) (f : Bool) (h : memWf m = true) : memWf (b.step m n f).2.1 = true := by
  unfold Borrow.step
  split
  · exact h
  split
  · exact h
  split
  · exact h
  split
  · dsimp only
    apply memWriteN_wf
    exact h
  · exact h

theorem State.memTest_keeps {s0 : State} (s : State) (r : MemRef) (item blocks : Nat) (faulty : Bool) (corr : Option (BitVec 5))
    (h : Keeps s0 s) : Keeps s0 (State.memTest s r item blocks faulty corr) := by
  unfold State.memTest
  split
  next m b bad e =>
  extract_lets next
  split
  next b' m' done e2 =>
  have hm : r = .shm → memWf s0.shm = true → memWf m' = true := by
    intro er w
    have h1 := State.memOf_wf (r := r) h er w
    rw [e] at h1
    have h2 := stepB b next faulty h1
    rw [e2] at h2
    exact h2
  extract_lets s1 n s2 s3 s4
  have h1 : Keeps s0 s1 := State.setMem_keeps _ _ _ _ _ h hm
  have h2 : Keeps s0 s2 := by
    refine keeps_ite h1 ?_
    split
    · exact State.updCl_keeps _ _ _ h1
    · exact keeps_mk h1.pending h1.shm
  have h3 : Keeps s0 s3 := keeps_ite (State.withSome_keeps _ _ _ h2 fun t i ht => State.memCorr_keeps _ _ _ _ ht) h2
  have h4 : Keeps s0 s4 := keeps_ite (State.testFault_keeps _ (State.blockFault_keeps _ _ _ h3)) h3
  exact keeps_ite (State.itemDone_keeps _ _ h4) h4

theorem State.logicTest_keeps {s0 : State} (s : State) (obj : W16) (item : Nat) (pass : Bool) (h : Keeps s0 s) :
    Keeps s0 (State.logicTest s obj item pass) := by
  unfold State.logicTest; try dsimp only
  repeat' first | (intro; try dsimp only) | (with_reducible first
    | assumption | apply State.alarm_keeps | apply State.itemDone_keeps | apply State.testFault_keeps
    | apply keeps_ite) | split

theorem State.testSlice_keeps {s0 : State} (s : State) (w : SliceWork) (h : Keeps s0 s) :
    Keeps s0 (State.testSlice s w) := by
  unfold State.testSlice; try dsimp only
  repeat' first | (intro; try dsimp only) | (with_reducible first
    | assumption | apply State.updPort_keeps | apply State.withSome_keeps | apply State.sramUncorr_keeps
    | apply State.sramCorr_keeps | apply State.itemDone_keeps | apply State.memTest_keeps
    | apply State.logicTest_keeps | exact keeps_mk (Keeps.pending (by assumption)) (Keeps.shm (by assumption))
    | apply keeps_ite | refine keeps_snd (by assumption) ?_ | refine keeps_thd (by assumption) ?_
    | refine keeps_fst (by assumption) ?_ | refine keeps_next (by assumption) ?_
    | refine keeps_ok (by assumption) ?_ | refine keeps_some (by assumption) ?_) | split

theorem State.scrub_keeps {s0 : State} (s : State) (e : Fin 16) (dmem : Bool) (word : Nat) (uncorr : Bool) (h : Keeps s0 s) :
    Keeps s0 (State.scrub s e dmem word uncorr) := by
  unfold State.scrub; try dsimp only
  repeat' first | (intro; try dsimp only) | (with_reducible first
    | assumption | apply State.updEng_keeps | apply State.engUncorr_keeps | apply State.engCorr_keeps
    | exact keeps_mk (Keeps.pending (by assumption)) (Keeps.shm (by assumption)) | apply keeps_ite) | split

theorem State.freeLocks_keeps {s0 : State} (s : State) (f : Byte → Bool) (h : Keeps s0 s) :
    Keeps s0 (State.freeLocks s f) := by
  unfold State.freeLocks; try dsimp only
  repeat' first | (intro; try dsimp only) | (with_reducible first
    | assumption | exact keeps_mk (Keeps.pending (by assumption)) (Keeps.shm (by assumption)) | apply keeps_ite) | split

theorem State.hifReset_keeps {s0 : State} (s : State) (h : Keeps s0 s) :
    Keeps s0 (State.hifReset s) := by
  unfold State.hifReset; try dsimp only
  repeat' first | (intro; try dsimp only) | (with_reducible first
    | assumption | apply State.updHif_keeps | apply State.freeLocks_keeps
    | exact keeps_mk (Keeps.pending (by assumption)) (Keeps.shm (by assumption)) | apply keeps_id) | split

theorem State.domainLose_keeps {s0 : State} (s : State) (d : Fin 12) (h : Keeps s0 s) :
    Keeps s0 (State.domainLose s d) := by
  unfold State.domainLose
  split
  · exact keeps_mk h.pending fun _ => rfl
  all_goals first
    | exact keeps_mk h.pending h.shm
    | exact keeps_foldl (fun t l ht => State.linkGo_keeps _ _ _ ht) (keeps_mk h.pending h.shm)
    | exact State.hifReset_keeps s h
    | (split
       · exact keeps_foldl (fun t k ht => State.updEmb_keeps _ _ _ (State.updEng_keeps _ _ _ ht)) (State.updCl_keeps _ _ _ h)
       · exact h)

theorem State.domainDown_keeps {s0 : State} (s : State) (d : Fin 12) (h : Keeps s0 s) :
    Keeps s0 (State.domainDown s d) := by
  unfold State.domainDown; try dsimp only
  repeat' first | (intro; try dsimp only) | (with_reducible first
    | assumption | apply State.updPwr_keeps | apply State.sourceGone_keeps | apply State.domainLose_keeps
    | exact keeps_mk (Keeps.pending (by assumption)) (Keeps.shm (by assumption)) | apply keeps_ite) | split

theorem State.domainUp_keeps {s0 : State} (s : State) (d : Fin 12) (h : Keeps s0 s) :
    Keeps s0 (State.domainUp s d) := by
  unfold State.domainUp; try dsimp only
  repeat' first | (intro; try dsimp only) | (with_reducible first
    | assumption | apply State.updCl_keeps | apply State.updPwr_keeps | apply State.linkCount_keeps
    | exact keeps_mk (Keeps.pending (by assumption)) (Keeps.shm (by assumption)) | apply keeps_foldl
    | apply keeps_ite) | split

theorem State.domainNeed_keeps {s0 : State} (s : State) (d : Fin 12) (h : Keeps s0 s) :
    Keeps s0 (State.domainNeed s d) := by
  unfold State.domainNeed; try dsimp only
  repeat' first | (intro; try dsimp only) | (with_reducible first
    | assumption | apply State.domainUp_keeps | apply keeps_ite) | split

theorem State.servePower_keeps {s0 : State} (s : State) (h : Keeps s0 s) :
    Keeps s0 (State.servePower s) := by
  unfold State.servePower; try dsimp only
  repeat' first | (intro; try dsimp only) | (with_reducible first
    | assumption | apply State.updPwr_keeps | apply State.domainDown_keeps
    | exact keeps_mk (Keeps.pending (by assumption)) (Keeps.shm (by assumption)) | apply keeps_ite
    | refine keeps_snd (by assumption) ?_ | refine keeps_thd (by assumption) ?_
    | refine keeps_fst (by assumption) ?_ | refine keeps_next (by assumption) ?_
    | refine keeps_ok (by assumption) ?_ | refine keeps_some (by assumption) ?_) | split

theorem State.powerUpDone_keeps {s0 : State} (s : State) (d : Fin 12) (h : Keeps s0 s) :
    Keeps s0 (State.powerUpDone s d) := by
  unfold State.powerUpDone; try dsimp only
  repeat' first | (intro; try dsimp only) | (with_reducible first
    | assumption | apply State.domainNeed_keeps | apply keeps_ite) | split

theorem State.serveAll_keeps {s0 : State} (s : State) (h : Keeps s0 s) :
    Keeps s0 (State.serveAll s) := by
  unfold State.serveAll; try dsimp only
  repeat' first | (intro; try dsimp only) | (with_reducible first
    | assumption | apply State.updPwr_keeps | apply State.domainDown_keeps | apply State.domainNeed_keeps
    | apply State.powerUpDone_keeps | exact keeps_mk (Keeps.pending (by assumption)) (Keeps.shm (by assumption))
    | apply keeps_foldl | apply keeps_ite) | split

theorem State.inReset_keeps {s0 : State} (s : State) (pwr : Power) (h : Keeps s0 s) :
    Keeps s0 (State.inReset s pwr) := by
  exact ⟨h.pending, fun _ => rfl⟩

theorem State.loseSupply_keeps {s0 : State} (s : State) (efuse : Efuse) (vinOn : Bool) (h : Keeps s0 s) :
    Keeps s0 (State.loseSupply s efuse vinOn) := by
  unfold State.loseSupply; try dsimp only
  repeat' first | (intro; try dsimp only) | (with_reducible first
    | assumption | apply State.updPwr_keeps | apply State.inReset_keeps
    | exact keeps_mk (Keeps.pending (by assumption)) (Keeps.shm (by assumption)) | apply keeps_ite) | split

theorem State.supplyStart_keeps {s0 : State} (s : State) (h : Keeps s0 s) :
    Keeps s0 (State.supplyStart s) := by
  unfold State.supplyStart; try dsimp only
  repeat' first | (intro; try dsimp only) | (with_reducible first
    | assumption | apply State.inReset_keeps | apply keeps_ite) | split

theorem State.vinOn_keeps {s0 : State} (s : State) (h : Keeps s0 s) :
    Keeps s0 (State.vinOn s) := by
  unfold State.vinOn; try dsimp only
  repeat' first | (intro; try dsimp only) | (with_reducible first
    | assumption | apply State.updPwr_keeps | apply State.supplyStart_keeps
    | exact keeps_mk (Keeps.pending (by assumption)) (Keeps.shm (by assumption))) | split

theorem State.vinOff_keeps {s0 : State} (s : State) (h : Keeps s0 s) :
    Keeps s0 (State.vinOff s) := by
  unfold State.vinOff; try dsimp only
  repeat' first | (intro; try dsimp only) | (with_reducible first
    | assumption | apply State.loseSupply_keeps) | split

theorem State.vinOver_keeps {s0 : State} (s : State) (h : Keeps s0 s) :
    Keeps s0 (State.vinOver s) := by
  unfold State.vinOver; try dsimp only
  repeat' first | (intro; try dsimp only) | (with_reducible first
    | assumption | apply State.loseSupply_keeps | apply State.vinOn_keeps | apply keeps_ite) | split

theorem State.vinOverEnd_keeps {s0 : State} (s : State) (h : Keeps s0 s) :
    Keeps s0 (State.vinOverEnd s) := by
  unfold State.vinOverEnd; try dsimp only
  repeat' first | (intro; try dsimp only) | (with_reducible first
    | assumption | apply State.updPwr_keeps | apply State.supplyStart_keeps
    | exact keeps_mk (Keeps.pending (by assumption)) (Keeps.shm (by assumption)) | apply keeps_ite) | split

theorem State.efuseTrip_keeps {s0 : State} (s : State) (h : Keeps s0 s) :
    Keeps s0 (State.efuseTrip s) := by
  unfold State.efuseTrip; try dsimp only
  repeat' first | (intro; try dsimp only) | (with_reducible first
    | assumption | apply State.loseSupply_keeps | apply State.vinOn_keeps | apply keeps_ite) | split

theorem State.efuseRetry_keeps {s0 : State} (s : State) (h : Keeps s0 s) :
    Keeps s0 (State.efuseRetry s) := by
  unfold State.efuseRetry; try dsimp only
  repeat' first | (intro; try dsimp only) | (with_reducible first
    | assumption | apply State.updPwr_keeps | apply State.supplyStart_keeps
    | exact keeps_mk (Keeps.pending (by assumption)) (Keeps.shm (by assumption)) | apply keeps_ite) | split

theorem State.mateSettled_keeps {s0 : State} (s : State) (h : Keeps s0 s) :
    Keeps s0 (State.mateSettled s) := by
  unfold State.mateSettled; try dsimp only
  repeat' first | (intro; try dsimp only) | (with_reducible first
    | assumption | apply State.updPwr_keeps | apply State.supplyStart_keeps
    | exact keeps_mk (Keeps.pending (by assumption)) (Keeps.shm (by assumption)) | apply keeps_ite) | split

theorem State.mateBreak_keeps {s0 : State} (s : State) (h : Keeps s0 s) :
    Keeps s0 (State.mateBreak s) := by
  unfold State.mateBreak; try dsimp only
  repeat' first | (intro; try dsimp only) | (with_reducible first
    | assumption | apply State.loseSupply_keeps | apply State.vinOn_keeps) | split

theorem State.moduleReset_keeps {s0 : State} (s : State) (cause : Nat) (h : Keeps s0 s) :
    Keeps s0 (State.moduleReset s cause) := by
  unfold State.moduleReset; try dsimp only
  repeat' first | (intro; try dsimp only) | (with_reducible first
    | assumption | apply State.inReset_keeps) | split

theorem State.rstLow_keeps {s0 : State} (s : State) (h : Keeps s0 s) :
    Keeps s0 (State.rstLow s) := by
  unfold State.rstLow; try dsimp only
  repeat' first | (intro; try dsimp only) | (with_reducible first
    | assumption | apply State.updPwr_keeps | apply State.moduleReset_keeps
    | exact keeps_mk (Keeps.pending (by assumption)) (Keeps.shm (by assumption)) | apply keeps_ite) | split

theorem State.supWatchdog_keeps {s0 : State} (s : State) (h : Keeps s0 s) :
    Keeps s0 (State.supWatchdog s) := by
  unfold State.supWatchdog; try dsimp only
  repeat' first | (intro; try dsimp only) | (with_reducible first
    | assumption | apply State.moduleReset_keeps | apply keeps_ite) | split

theorem State.supLockstep_keeps {s0 : State} (s : State) (h : Keeps s0 s) :
    Keeps s0 (State.supLockstep s) := by
  unfold State.supLockstep; try dsimp only
  repeat' first | (intro; try dsimp only) | (with_reducible first
    | assumption | apply State.updPwr_keeps | apply State.moduleReset_keeps
    | exact keeps_mk (Keeps.pending (by assumption)) (Keeps.shm (by assumption)) | apply keeps_ite) | split

theorem State.startFault_keeps {s0 : State} (s : State) (code slot : Nat) (h : Keeps s0 s) :
    Keeps s0 (State.startFault s code slot) := by
  unfold State.startFault; try dsimp only
  repeat' first | (intro; try dsimp only) | (with_reducible first
    | assumption | apply State.updPwr_keeps | apply State.setStchg_keeps
    | exact keeps_mk (Keeps.pending (by assumption)) (Keeps.shm (by assumption))) | split

theorem State.takeTry_keeps {s0 : State} (s : State) (i : Fin 2) (auto : Bool) (h : Keeps s0 s) :
    Keeps s0 (State.takeTry s i auto) := by
  unfold State.takeTry; try dsimp only
  repeat' first | (intro; try dsimp only) | (with_reducible first
    | assumption | apply State.updPwr_keeps
    | exact keeps_mk (Keeps.pending (by assumption)) (Keeps.shm (by assumption)) | apply keeps_ite) | split

theorem State.startUp_keeps {s0 : State} (s : State) (i : Fin 2) (h : Keeps s0 s) :
    Keeps s0 (State.startUp s i) := by
  unfold State.startUp
  have hu := State.updPwr_keeps _ (fun p => { p with
      phase := .run, ready := true, fault := false, bootimg := decide (i = 1), domains := 0x443, heartbeat := 0, uptime := 0,
      rollback := s.rollbackNow, fwVer := Config.fwVersion (imgVersion (Vec.at s.pwr.slots i).sundom),
      supPubkey := imgPubkey (Vec.at s.pwr.slots i).sundom,
      minPers := BitVec.ofNat 32 (imgMinPers (Vec.at s.pwr.slots i).sundom), lockstepSeen := false
      slots := Vec.upd p.slots i fun x => { x with tries := 3, confirmed := true } })
    (State.draw_keeps _ (State.draw_keeps s h))
  dsimp only
  repeat' first | (with_reducible first
    | apply keeps_ite | apply State.alarm_keeps | apply State.setStchg_keeps) | split
  all_goals exact keeps_mk hu.pending hu.shm

theorem State.release_keeps {s0 : State} (s : State) (b : Boot) (h : Keeps s0 s) :
    Keeps s0 (State.release s b) := by
  unfold State.release; try dsimp only
  repeat' first | (intro; try dsimp only) | (with_reducible first
    | assumption | apply State.updPwr_keeps | apply State.inReset_keeps | apply State.rstLow_keeps
    | apply State.startFault_keeps | apply State.takeTry_keeps | apply State.startUp_keeps
    | exact keeps_mk (Keeps.pending (by assumption)) (Keeps.shm (by assumption)) | apply keeps_ite
    | refine keeps_snd (by assumption) ?_ | refine keeps_thd (by assumption) ?_
    | refine keeps_fst (by assumption) ?_ | refine keeps_next (by assumption) ?_
    | refine keeps_ok (by assumption) ?_ | refine keeps_some (by assumption) ?_) | split

theorem State.enterStandby_keeps {s0 : State} (s : State) (wake : W32) (h : Keeps s0 s) :
    Keeps s0 (State.enterStandby s wake) := by
  unfold State.enterStandby; try dsimp only
  repeat' first | (intro; try dsimp only) | (with_reducible first
    | assumption | apply State.updPwr_keeps | apply State.domainDown_keeps | apply State.serveAll_keeps
    | exact keeps_mk (Keeps.pending (by assumption)) (Keeps.shm (by assumption)) | apply keeps_foldl) | split

theorem State.enterHibernate_keeps {s0 : State} (s : State) (wake : W32) (h : Keeps s0 s) :
    Keeps s0 (State.enterHibernate s wake) := by
  unfold State.enterHibernate; try dsimp only
  repeat' first | (intro; try dsimp only) | (with_reducible first
    | assumption | apply State.inReset_keeps) | split

theorem State.wakeStandby_keeps {s0 : State} (s : State) (h : Keeps s0 s) :
    Keeps s0 (State.wakeStandby s) := by
  unfold State.wakeStandby; try dsimp only
  repeat' first | (intro; try dsimp only) | (with_reducible first
    | assumption | apply State.updPwr_keeps
    | exact keeps_mk (Keeps.pending (by assumption)) (Keeps.shm (by assumption))) | split

theorem State.wakeBy_keeps {s0 : State} (s : State) (bit : Nat) (h : Keeps s0 s) :
    Keeps s0 (State.wakeBy s bit) := by
  unfold State.wakeBy; try dsimp only
  repeat' first | (intro; try dsimp only) | (with_reducible first
    | assumption | apply State.inReset_keeps | apply State.wakeStandby_keeps | apply keeps_ite) | split

theorem State.rtcDue_keeps {s0 : State} (s : State) (h : Keeps s0 s) :
    Keeps s0 (State.rtcDue s) := by
  unfold State.rtcDue; try dsimp only
  repeat' first | (intro; try dsimp only) | (with_reducible first
    | assumption | apply State.wakeBy_keeps | apply keeps_ite) | split

theorem State.hostWake_keeps {s0 : State} (s : State) (h : Keeps s0 s) :
    Keeps s0 (State.hostWake s) := by
  unfold State.hostWake; try dsimp only
  repeat' first | (intro; try dsimp only) | (with_reducible first
    | assumption | apply State.wakeBy_keeps | apply keeps_ite) | split

theorem State.avsPeriod_keeps {s0 : State} (s : State) (c : Fin 4) (m : Nat) (h : Keeps s0 s) :
    Keeps s0 (State.avsPeriod s c m) := by
  unfold State.avsPeriod; try dsimp only
  repeat' first | (intro; try dsimp only) | (with_reducible first
    | assumption | apply State.updCl_keeps | apply State.settle_keeps
    | exact keeps_mk (Keeps.pending (by assumption)) (Keeps.shm (by assumption)) | apply keeps_ite) | split

theorem State.avsFast_keeps {s0 : State} (s : State) (c : Fin 4) (h : Keeps s0 s) :
    Keeps s0 (State.avsFast s c) := by
  unfold State.avsFast; try dsimp only
  repeat' first | (intro; try dsimp only) | (with_reducible first
    | assumption | apply State.updCl_keeps
    | exact keeps_mk (Keeps.pending (by assumption)) (Keeps.shm (by assumption)) | apply keeps_ite) | split

theorem State.rtcCorrect_keeps {s0 : State} (s : State) (correction : Int) (h : Keeps s0 s) :
    Keeps s0 (State.rtcCorrect s correction) := by
  unfold State.rtcCorrect; try dsimp only
  repeat' first | (intro; try dsimp only) | (with_reducible first
    | assumption | apply State.updPwr_keeps
    | exact keeps_mk (Keeps.pending (by assumption)) (Keeps.shm (by assumption)) | apply keeps_ite) | split

theorem State.heartbeat_keeps {s0 : State} (s : State) (h : Keeps s0 s) :
    Keeps s0 (State.heartbeat s) := by
  unfold State.heartbeat; try dsimp only
  repeat' first | (intro; try dsimp only) | (with_reducible first
    | assumption | apply State.updPwr_keeps | apply State.updPair_keeps
    | exact keeps_mk (Keeps.pending (by assumption)) (Keeps.shm (by assumption)) | apply keeps_ite) | split

theorem State.setLock_keeps {s0 : State} (s : State) (l : Fin 24) (b : Byte) (h : Keeps s0 s) :
    Keeps s0 (State.setLock s l b) := by
  unfold State.setLock; try dsimp only
  repeat' first | (intro; try dsimp only) | (with_reducible first
    | assumption | apply State.updMbx_keeps | apply State.updEmb_keeps
    | exact keeps_mk (Keeps.pending (by assumption)) (Keeps.shm (by assumption)) | apply keeps_ite) | split

theorem State.lockRead_keeps {s0 : State} (s : State) (m : Master) (l : Fin 24) (h : Keeps s0 s) :
    Keeps s0 (State.lockRead s m l).2 := by
  unfold State.lockRead; try dsimp only
  repeat' first | (intro; try dsimp only) | (with_reducible first
    | assumption | apply State.setLock_keeps | apply keeps_id | apply keeps_ite) | split

theorem State.lockWrite_keeps {s0 : State} (s : State) (m : Master) (l : Fin 24) (v : W32) (h : Keeps s0 s) :
    Keeps s0 (State.lockWrite s m l v) := by
  unfold State.lockWrite; try dsimp only
  repeat' first | (intro; try dsimp only) | (with_reducible first
    | assumption | apply State.setLock_keeps | apply keeps_id | apply keeps_ite) | split

theorem State.flushSignals_keeps {s0 : State} (s : State) (h : Keeps s0 s) :
    Keeps s0 (State.flushSignals s) := by
  unfold State.flushSignals; try dsimp only
  repeat' first | (intro; try dsimp only) | (with_reducible first
    | assumption | apply State.updHif_keeps | apply State.signal_keeps
    | exact keeps_mk (Keeps.pending (by assumption)) (Keeps.shm (by assumption)) | apply keeps_foldl
    | apply keeps_ite) | split

theorem State.hifStatWrite_keeps {s0 : State} (s : State) (v : W32) (h : Keeps s0 s) :
    Keeps s0 (State.hifStatWrite s v) := by
  unfold State.hifStatWrite; try dsimp only
  repeat' first | (intro; try dsimp only) | (with_reducible first
    | assumption | apply State.updHif_keeps
    | exact keeps_mk (Keeps.pending (by assumption)) (Keeps.shm (by assumption))) | split

theorem State.intStatusWrite_keeps {s0 : State} (s : State) (v : W32) (h : Keeps s0 s) :
    Keeps s0 (State.intStatusWrite s v) := by
  unfold State.intStatusWrite; try dsimp only
  repeat' first | (intro; try dsimp only) | (with_reducible first
    | assumption | apply State.updHif_keeps
    | exact keeps_mk (Keeps.pending (by assumption)) (Keeps.shm (by assumption)) | apply keeps_ite) | split

theorem State.intEnableWrite_keeps {s0 : State} (s : State) (v : W32) (h : Keeps s0 s) :
    Keeps s0 (State.intEnableWrite s v) := by
  unfold State.intEnableWrite; try dsimp only
  repeat' first | (intro; try dsimp only) | (with_reducible first
    | assumption | apply State.updHif_keeps | apply State.intRise_keeps
    | exact keeps_mk (Keeps.pending (by assumption)) (Keeps.shm (by assumption))) | split

theorem State.s2hClear_keeps {s0 : State} (s : State) (v : W32) (h : Keeps s0 s) :
    Keeps s0 (State.s2hClear s v) := by
  unfold State.s2hClear; try dsimp only
  repeat' first | (intro; try dsimp only) | (with_reducible first
    | assumption | apply State.updHif_keeps
    | exact keeps_mk (Keeps.pending (by assumption)) (Keeps.shm (by assumption))) | split

theorem State.s2hMaskWrite_keeps {s0 : State} (s : State) (v : W32) (h : Keeps s0 s) :
    Keeps s0 (State.s2hMaskWrite s v) := by
  unfold State.s2hMaskWrite; try dsimp only
  repeat' first | (intro; try dsimp only) | (with_reducible first
    | assumption | apply State.updHif_keeps | apply State.signal_keeps | apply State.intRise_keeps
    | exact keeps_mk (Keeps.pending (by assumption)) (Keeps.shm (by assumption)) | apply keeps_foldl
    | apply keeps_ite) | split

theorem State.mbPost_keeps {s0 : State} (s : State) (m : Master) (n : Fin 8) (h : Keeps s0 s) :
    OKeeps s0 (State.mbPost s m n) := by
  unfold State.mbPost; try dsimp only
  repeat' first | (intro; try dsimp only) | (with_reducible first
    | assumption | apply State.updMbx_keeps | apply State.ringS2H_keeps
    | exact keeps_mk (Keeps.pending (by assumption)) (Keeps.shm (by assumption)) | apply okeeps_next
    | apply okeeps_fault | apply okeeps_ite | apply keeps_ite) | split

theorem State.mbRelease_keeps {s0 : State} (s : State) (m : Master) (n : Fin 8) (h : Keeps s0 s) :
    OKeeps s0 (State.mbRelease s m n) := by
  unfold State.mbRelease; try dsimp only
  repeat' first | (intro; try dsimp only) | (with_reducible first
    | assumption | apply State.updMbx_keeps | apply State.postNext_keeps
    | exact keeps_mk (Keeps.pending (by assumption)) (Keeps.shm (by assumption)) | apply okeeps_next
    | apply okeeps_fault | apply okeeps_ite | apply keeps_ite) | split

theorem State.h2sBit_keeps {s0 : State} (s : State) (m : Master) (b : Nat) (h : Keeps s0 s) :
    OKeeps s0 (State.h2sBit s m b) := by
  unfold State.h2sBit; try dsimp only
  repeat' first | (intro; try dsimp only) | (with_reducible first
    | assumption | apply State.piRung_keeps | apply State.mbPost_keeps | apply State.mbRelease_keeps
    | apply okeeps_next | apply okeeps_fault | apply okeeps_ite | apply keeps_ite) | split

theorem State.h2sWrite_keeps {s0 : State} (s : State) (m : Master) (v : W32) (h : Keeps s0 s) :
    OKeeps s0 (State.h2sWrite s m v) := by
  unfold State.h2sWrite
  refine okeeps_foldl (fun t x ht => ?_) (okeeps_next (State.hostWake_keeps s h))
  exact okeeps_ite (okeeps_andThen ht fun u hu => State.h2sBit_keeps u m x hu) ht

theorem State.embPost_keeps {s0 : State} (s : State) (m : Master) (e : Fin 16) (h : Keeps s0 s) :
    OKeeps s0 (State.embPost s m e) := by
  unfold State.embPost; try dsimp only
  repeat' first | (intro; try dsimp only) | (with_reducible first
    | assumption | apply State.updEmb_keeps | apply State.evp_keeps
    | exact keeps_mk (Keeps.pending (by assumption)) (Keeps.shm (by assumption)) | apply okeeps_next
    | apply okeeps_fault | apply okeeps_ite | apply keeps_id | apply keeps_ite
    | refine keeps_snd (by assumption) ?_ | refine keeps_thd (by assumption) ?_
    | refine keeps_fst (by assumption) ?_ | refine keeps_next (by assumption) ?_
    | refine keeps_ok (by assumption) ?_ | refine keeps_some (by assumption) ?_
    | exact okeeps_of_fault (by assumption)) | split

theorem State.embOutRel_keeps {s0 : State} (s : State) (m : Master) (e : Fin 16) (h : Keeps s0 s) :
    Keeps s0 (State.embOutRel s m e) := by
  unfold State.embOutRel; try dsimp only
  repeat' first | (intro; try dsimp only) | (with_reducible first
    | assumption | apply State.updEmb_keeps | apply State.evp_keeps
    | exact keeps_mk (Keeps.pending (by assumption)) (Keeps.shm (by assumption)) | apply keeps_ite) | split

theorem State.embInRel_keeps {s0 : State} (s : State) (e : Fin 16) (h : Keeps s0 s) :
    Keeps s0 (State.embInRel s e) := by
  unfold State.embInRel; try dsimp only
  repeat' first | (intro; try dsimp only) | (with_reducible first
    | assumption | apply State.updEmb_keeps
    | exact keeps_mk (Keeps.pending (by assumption)) (Keeps.shm (by assumption))) | split

theorem State.embOutPost_keeps {s0 : State} (s : State) (e : Fin 16) (h : Keeps s0 s) :
    Keeps s0 (State.embOutPost s e) := by
  unfold State.embOutPost; try dsimp only
  repeat' first | (intro; try dsimp only) | (with_reducible first
    | assumption | apply State.updEmb_keeps
    | exact keeps_mk (Keeps.pending (by assumption)) (Keeps.shm (by assumption))) | split

theorem State.embCmd_keeps {s0 : State} (s : State) (m : Master) (e : Fin 16) (v : W32) (h : Keeps s0 s) :
    OKeeps s0 (State.embCmd s m e v) := by
  unfold State.embCmd; try dsimp only
  repeat' first | (intro; try dsimp only) | (with_reducible first
    | assumption | apply State.embPost_keeps | apply State.embOutRel_keeps | apply State.embInRel_keeps
    | apply State.embOutPost_keeps | apply okeeps_next | apply okeeps_fault | apply okeeps_ite
    | apply okeeps_andThen | apply keeps_ite) | split

theorem State.engDbRing_keeps {s0 : State} (s : State) (e : Fin 16) (h : Keeps s0 s) :
    Keeps s0 (State.engDbRing s e) := by
  unfold State.engDbRing; try dsimp only
  repeat' first | (intro; try dsimp only) | (with_reducible first
    | assumption | apply State.updEmb_keeps | apply State.updPwr_keeps | apply State.evp_keeps
    | apply State.hostWake_keeps | exact keeps_mk (Keeps.pending (by assumption)) (Keeps.shm (by assumption))
    | apply keeps_ite) | split

theorem State.engDbWrite_keeps {s0 : State} (s : State) (e : Fin 16) (v : W32) (h : Keeps s0 s) :
    OKeeps s0 (State.engDbWrite s e v) := by
  unfold State.engDbWrite; try dsimp only
  repeat' first | (intro; try dsimp only) | (with_reducible first
    | assumption | apply State.updEmb_keeps | apply State.hostWake_keeps | apply State.engDbRing_keeps
    | exact keeps_mk (Keeps.pending (by assumption)) (Keeps.shm (by assumption)) | apply okeeps_next
    | apply okeeps_fault | apply okeeps_ite | apply keeps_ite) | split

theorem State.engS2h_keeps {s0 : State} (s : State) (e : Fin 16) (v : W32) (h : Keeps s0 s) :
    Keeps s0 (State.engS2h s e v) := by
  unfold State.engS2h; try dsimp only
  repeat' first | (intro; try dsimp only) | (with_reducible first
    | assumption | apply State.ringS2H_keeps | apply keeps_foldl | apply keeps_ite) | split

theorem State.hifFlag_keeps {s0 : State} (s : State) (b : Nat) (h : Keeps s0 s) :
    Keeps s0 (State.hifFlag s b) := by
  unfold State.hifFlag; try dsimp only
  repeat' first | (intro; try dsimp only) | (with_reducible first
    | assumption | apply State.updHif_keeps | apply State.intRise_keeps
    | exact keeps_mk (Keeps.pending (by assumption)) (Keeps.shm (by assumption))) | split

theorem State.hostErr_keeps {s0 : State} (s : State) (b : Nat) (win wr : Bool) (addr : Nat) (h : Keeps s0 s) :
    Keeps s0 (State.hostErr s b win wr addr) := by
  unfold State.hostErr; try dsimp only
  repeat' first | (intro; try dsimp only) | (with_reducible first
    | assumption | apply State.updHif_keeps | apply State.wr_keeps | apply State.hifFlag_keeps
    | exact keeps_mk (Keeps.pending (by assumption)) (Keeps.shm (by assumption)) | apply keeps_ite) | split

theorem State.bar0Write_keeps {s0 : State} (s : State) (m : Master) (off : Nat) (v : W32) (h : Keeps s0 s) :
    OKeeps s0 (State.bar0Write s m off v) := by
  unfold State.bar0Write; try dsimp only
  repeat' first | (intro; try dsimp only) | (with_reducible first
    | assumption | apply State.updHif_keeps | apply State.hostWake_keeps | apply State.lockWrite_keeps
    | apply State.flushSignals_keeps | apply State.hifStatWrite_keeps | apply State.intStatusWrite_keeps
    | apply State.intEnableWrite_keeps | apply State.s2hClear_keeps | apply State.s2hMaskWrite_keeps
    | apply State.h2sWrite_keeps | apply State.embCmd_keeps | apply State.engDbWrite_keeps
    | exact keeps_mk (Keeps.pending (by assumption)) (Keeps.shm (by assumption)) | apply okeeps_next
    | apply okeeps_fault | apply okeeps_ite | apply keeps_ite) | split

theorem State.bufWrite_keeps {s0 : State} (s : State) (m : Master) (off : Nat) (b : Byte) (h : Keeps s0 s) :
    OKeeps s0 (State.bufWrite s m off b) := by
  unfold State.bufWrite
  split
  · extract_lets n x o
    clear_value o n
    exact okeeps_ite (okeeps_next h) (okeeps_ite okeeps_fault (okeeps_next (State.updMbx_keeps _ _ _ h)))
  · split
    · extract_lets n x o
      clear_value o n
      exact okeeps_ite (okeeps_next h) (okeeps_ite okeeps_fault (okeeps_next (State.updEmb_keeps _ _ _ h)))
    · exact okeeps_next h

theorem State.bar0Piece_keeps {s0 : State} (s : State) (m : Master) (off : Nat) (bs : List (Option Byte)) (h : Keeps s0 s) :
    OKeeps s0 (State.bar0Piece s m off bs) := by
  unfold State.bar0Piece
  split
  · exact okeeps_next (State.hostErr_keeps _ _ _ _ _ h)
  · refine okeeps_ite (okeeps_ite (State.bar0Write_keeps _ _ _ _ h) (okeeps_next h)) ?_
    refine okeeps_foldl (fun t x ht => ?_) (okeeps_next (keeps_ite (State.hostWake_keeps s h) h))
    split
    · exact okeeps_andThen ht fun u hu => State.bufWrite_keeps _ _ _ _ hu
    · exact ht

theorem State.bar0WriteRun_keeps {s0 : State} (s : State) (m : Master) (off : Nat) (bs : List (Option Byte)) (h : Keeps s0 s) :
    OKeeps s0 (State.bar0WriteRun s m off bs) := by
  unfold State.bar0WriteRun
  exact okeeps_foldl (fun t x ht => okeeps_andThen ht fun u hu => State.bar0Piece_keeps _ _ _ _ hu) (okeeps_next h)

theorem State.bar0Read_keeps {s0 : State} (s : State) (m : Master) (off : Nat) (h : Keeps s0 s) :
    Keeps s0 (State.bar0Read s m off).2 := by
  unfold State.bar0Read; try dsimp only
  repeat' first | (intro; try dsimp only) | (with_reducible first
    | assumption | apply State.lockRead_keeps | apply State.hostErr_keeps | apply keeps_ite
    | refine keeps_snd (by assumption) ?_ | refine keeps_thd (by assumption) ?_
    | refine keeps_fst (by assumption) ?_ | refine keeps_next (by assumption) ?_
    | refine keeps_ok (by assumption) ?_ | refine keeps_some (by assumption) ?_) | split

theorem State.bufReadRun_keeps {s0 : State} (s : State) (off n : Nat) (h : Keeps s0 s) :
    Keeps s0 (State.bufReadRun s off n).2 := by
  unfold State.bufReadRun; try dsimp only
  repeat' first | (intro; try dsimp only) | (with_reducible first
    | assumption | apply State.hostErr_keeps | refine keeps_snd (by assumption) ?_
    | refine keeps_thd (by assumption) ?_ | refine keeps_fst (by assumption) ?_
    | refine keeps_next (by assumption) ?_ | refine keeps_ok (by assumption) ?_
    | refine keeps_some (by assumption) ?_) | split

theorem State.bar0ReadRun_keeps {s0 : State} (s : State) (m : Master) (off n : Nat) (h : Keeps s0 s) :
    Keeps s0 (State.bar0ReadRun s m off n).2 := by
  unfold State.bar0ReadRun; try dsimp only
  repeat' first | (intro; try dsimp only) | (with_reducible first
    | assumption | apply State.bar0Read_keeps | apply State.bufReadRun_keeps | apply keeps_foldl
    | apply keeps_foldlP | apply keeps_ite | refine keeps_snd (by assumption) ?_
    | refine keeps_thd (by assumption) ?_ | refine keeps_fst (by assumption) ?_
    | refine keeps_next (by assumption) ?_ | refine keeps_ok (by assumption) ?_
    | refine keeps_some (by assumption) ?_) | split

theorem State.bar1Write_keeps {s0 : State} (s : State) (m : Master) (off : Nat) (bs : List (Option Byte)) (h : Keeps s0 s) :
    OKeeps s0 (State.bar1Write s m off bs) := by
  unfold State.bar1Write; try dsimp only
  repeat' first | (intro; try dsimp only) | (with_reducible first
    | assumption | apply State.wrLanes_keeps | apply Passing.take_keeps | apply State.settle_keeps
    | apply State.hostErr_keeps | apply okeeps_next | apply okeeps_fault | apply okeeps_ite
    | refine keeps_snd (by assumption) ?_ | refine keeps_thd (by assumption) ?_
    | refine keeps_fst (by assumption) ?_ | refine keeps_next (by assumption) ?_
    | refine keeps_ok (by assumption) ?_ | refine keeps_some (by assumption) ?_
    | exact okeeps_of_fault (by assumption)) | split

theorem State.bar1ReadRun_keeps {s0 : State} (s : State) (m : Master) (off n : Nat) (h : Keeps s0 s) :
    Keeps s0 (State.bar1ReadRun s m off n).2 := by
  unfold State.bar1ReadRun; try dsimp only
  repeat' first | (intro; try dsimp only) | (with_reducible first
    | assumption | apply State.rd_keeps | apply State.settle_keeps | apply State.hostErr_keeps
    | apply keeps_foldl | apply keeps_foldlP | apply keeps_ite | refine keeps_snd (by assumption) ?_
    | refine keeps_thd (by assumption) ?_ | refine keeps_fst (by assumption) ?_
    | refine keeps_next (by assumption) ?_ | refine keeps_ok (by assumption) ?_
    | refine keeps_some (by assumption) ?_) | split

theorem State.hostWrite_keeps {s0 : State} (s : State) (m : Master) (win : Bool) (off : Nat) (bs : List (Option Byte)) (h : Keeps s0 s) :
    OKeeps s0 (State.hostWrite s m win off bs) := by
  unfold State.hostWrite; try dsimp only
  repeat' first | (intro; try dsimp only) | (with_reducible first
    | assumption | apply State.bar0WriteRun_keeps | apply State.bar1Write_keeps | apply okeeps_next
    | apply okeeps_fault | apply okeeps_ite | apply keeps_ite) | split

theorem State.hostRead_keeps {s0 : State} (s : State) (m : Master) (win : Bool) (off n : Nat) (h : Keeps s0 s) :
    Keeps s0 (State.hostRead s m win off n).2 := by
  unfold State.hostRead; try dsimp only
  repeat' first | (intro; try dsimp only) | (with_reducible first
    | assumption | apply State.bar0ReadRun_keeps | apply State.bar1ReadRun_keeps | apply keeps_ite) | split

theorem State.parEnd_keeps {s0 : State} (s : State) (hd : Option W16) (bad : Bool) (h : Keeps s0 s) :
    Keeps s0 (State.parEnd s hd bad) := by
  unfold State.parEnd; try dsimp only
  repeat' first | (intro; try dsimp only) | (with_reducible first
    | assumption | apply State.updHif_keeps
    | exact keeps_mk (Keeps.pending (by assumption)) (Keeps.shm (by assumption))) | split

theorem State.parRead_keeps {s0 : State} (s : State) (win : Bool) (off : Nat) (high : Bool) (h : Keeps s0 s) :
    Keeps s0 (State.parRead s win off high) := by
  unfold State.parRead; try dsimp only
  repeat' first | (intro; try dsimp only) | (with_reducible first
    | assumption | apply State.updHif_keeps | apply State.hostErr_keeps | apply State.bar0Read_keeps
    | apply State.hostRead_keeps | apply State.parEnd_keeps
    | exact keeps_mk (Keeps.pending (by assumption)) (Keeps.shm (by assumption)) | apply keeps_ite
    | refine keeps_snd (by assumption) ?_ | refine keeps_thd (by assumption) ?_
    | refine keeps_fst (by assumption) ?_ | refine keeps_next (by assumption) ?_
    | refine keeps_ok (by assumption) ?_ | refine keeps_some (by assumption) ?_) | split

theorem State.parReg_keeps {s0 : State} (s : State) (o : Nat) (high : Bool) (lanes : BitVec 2) (v : W16) (h : Keeps s0 s) :
    OKeeps s0 (State.parReg s o high lanes v) := by
  unfold State.parReg; try dsimp only
  repeat' first | (intro; try dsimp only) | (with_reducible first
    | assumption | apply State.updHif_keeps | apply State.hifFlag_keeps | apply State.bar0Write_keeps
    | exact keeps_mk (Keeps.pending (by assumption)) (Keeps.shm (by assumption)) | apply okeeps_next
    | apply okeeps_fault | apply okeeps_ite | apply keeps_ite | refine keeps_snd (by assumption) ?_
    | refine keeps_thd (by assumption) ?_ | refine keeps_fst (by assumption) ?_
    | refine keeps_next (by assumption) ?_ | refine keeps_ok (by assumption) ?_
    | refine keeps_some (by assumption) ?_ | exact okeeps_of_fault (by assumption)) | split

theorem State.parWrite_keeps {s0 : State} (s : State) (win : Bool) (off : Nat) (high : Bool) (lanes : BitVec 2) (v : W16) (h : Keeps s0 s) :
    OKeeps s0 (State.parWrite s win off high lanes v) := by
  unfold State.parWrite; try dsimp only
  repeat' first | (intro; try dsimp only) | (with_reducible first
    | assumption | apply State.hostErr_keeps | apply State.hostWrite_keeps | apply State.parEnd_keeps
    | apply State.parReg_keeps | apply okeeps_next | apply okeeps_fault | apply okeeps_ite | apply keeps_ite
    | refine keeps_snd (by assumption) ?_ | refine keeps_thd (by assumption) ?_
    | refine keeps_fst (by assumption) ?_ | refine keeps_next (by assumption) ?_
    | refine keeps_ok (by assumption) ?_ | refine keeps_some (by assumption) ?_
    | exact okeeps_of_fault (by assumption)) | split

theorem State.spiAnswer_keeps {s0 : State} (s : State) (n : Nat) (data : Option (List W32)) (h : Keeps s0 s) :
    Keeps s0 (State.spiAnswer s n data) := by
  unfold State.spiAnswer; try dsimp only
  repeat' first | (intro; try dsimp only) | (with_reducible first
    | assumption | apply State.updHif_keeps
    | exact keeps_mk (Keeps.pending (by assumption)) (Keeps.shm (by assumption))) | split

theorem State.spiRead_keeps {s0 : State} (s : State) (win : Bool) (addr : BitVec 24) (count : BitVec 8) (h : Keeps s0 s) :
    OKeeps s0 (State.spiRead s win addr count) := by
  unfold State.spiRead
  refine okeeps_ite (okeeps_next h) ?_
  extract_lets n off r
  have hr : Keeps s0 r.2 := State.hostRead_keeps _ _ _ _ _ (State.updHif_keeps _ _ h)
  exact okeeps_ite okeeps_fault (okeeps_next (State.spiAnswer_keeps _ _ _ hr))

theorem State.spiWrite_keeps {s0 : State} (s : State) (win drained : Bool) (addr : BitVec 24) (words : List W32) (h : Keeps s0 s) :
    OKeeps s0 (State.spiWrite s win drained addr words) := by
  unfold State.spiWrite; try dsimp only
  repeat' first | (intro; try dsimp only) | (with_reducible first
    | assumption | apply State.updHif_keeps | apply State.hifFlag_keeps | apply State.hostWrite_keeps
    | exact keeps_mk (Keeps.pending (by assumption)) (Keeps.shm (by assumption)) | apply okeeps_next
    | apply okeeps_fault | apply okeeps_ite | apply okeeps_andThen | apply keeps_ite) | split

theorem State.spiStat_keeps {s0 : State} (s : State) (drained : Bool) (h : Keeps s0 s) :
    Keeps s0 (State.spiStat s drained) := by
  unfold State.spiStat; try dsimp only
  repeat' first | (intro; try dsimp only) | (with_reducible first
    | assumption | apply State.updHif_keeps
    | exact keeps_mk (Keeps.pending (by assumption)) (Keeps.shm (by assumption)) | apply keeps_ite) | split

theorem State.spiBad_keeps {s0 : State} (s : State) (b : Byte) (h : Keeps s0 s) :
    Keeps s0 (State.spiBad s b) := by
  unfold State.spiBad; try dsimp only
  repeat' first | (intro; try dsimp only) | (with_reducible first
    | assumption | apply State.hifFlag_keeps | apply keeps_ite) | split

theorem State.spiRise_keeps {s0 : State} (s : State) (w : SpiPhase) (h : Keeps s0 s) :
    Keeps s0 (State.spiRise s w) := by
  unfold State.spiRise; try dsimp only
  repeat' first | (intro; try dsimp only) | (with_reducible first
    | assumption | apply State.updHif_keeps | apply Passing.take_keeps
    | exact keeps_mk (Keeps.pending (by assumption)) (Keeps.shm (by assumption)) | apply keeps_ite
    | refine keeps_snd (by assumption) ?_ | refine keeps_thd (by assumption) ?_
    | refine keeps_fst (by assumption) ?_ | refine keeps_next (by assumption) ?_
    | refine keeps_ok (by assumption) ?_ | refine keeps_some (by assumption) ?_) | split

theorem State.perst_keeps {s0 : State} (s : State) (h : Keeps s0 s) :
    Keeps s0 (State.perst s) := by
  unfold State.perst; try dsimp only
  repeat' first | (intro; try dsimp only) | (with_reducible first
    | assumption | apply State.hifReset_keeps | apply keeps_ite) | split

theorem State.pcieUp_keeps {s0 : State} (s : State) (h : Keeps s0 s) :
    Keeps s0 (State.pcieUp s) := by
  unfold State.pcieUp; try dsimp only
  repeat' first | (intro; try dsimp only) | (with_reducible first
    | assumption | apply State.updHif_keeps | apply State.flushSignals_keeps
    | exact keeps_mk (Keeps.pending (by assumption)) (Keeps.shm (by assumption)) | apply keeps_ite) | split

theorem State.pcieConfig_keeps {s0 : State} (s : State) (rid : W16) (r : PcieReg) (v : W64) (h : Keeps s0 s) :
    Keeps s0 (State.pcieConfig s rid r v) := by
  unfold State.pcieConfig; try dsimp only
  repeat' first | (intro; try dsimp only) | (with_reducible first
    | assumption | apply State.updHif_keeps | apply State.flushSignals_keeps
    | exact keeps_mk (Keeps.pending (by assumption)) (Keeps.shm (by assumption)) | apply keeps_ite
    | refine keeps_snd (by assumption) ?_ | refine keeps_thd (by assumption) ?_
    | refine keeps_fst (by assumption) ?_ | refine keeps_next (by assumption) ?_
    | refine keeps_ok (by assumption) ?_ | refine keeps_some (by assumption) ?_) | split

theorem State.abandoned_keeps {s0 : State} (s : State) (write : Bool) (off : Nat) (h : Keeps s0 s) :
    Keeps s0 (State.abandoned s write off) := by
  unfold State.abandoned; try dsimp only
  repeat' first | (intro; try dsimp only) | (with_reducible first
    | assumption | apply State.updHif_keeps | apply State.hostErr_keeps | apply State.parEnd_keeps
    | apply State.spiAnswer_keeps | exact keeps_mk (Keeps.pending (by assumption)) (Keeps.shm (by assumption))
    | apply keeps_ite) | split

end Sys2Proof.Machine
end

