-- ==== Sys2Proof/Laws/KeepsEngine.lean ====
section
/-!
SUPPORT. The operations of the engines touch neither the queue nor the canonical form of the shared memory.
-/
set_option maxRecDepth 4000
namespace Sys2Proof.Machine

theorem State.clRegLoad_keeps {s0 : State} (s : State) (e : Fin 16) (o : Nat) (h : Keeps s0 s) :
    Keeps s0 (State.clRegLoad s e o).2 := by
  unfold State.clRegLoad
  extract_lets c k g d
  clear_value c k g d
  repeat' first | with_reducible apply keeps_iteP
  all_goals first
    | exact h
    | exact tnsRead_keeps _ _ h
    | exact syncinRead_keeps _ _ h
    | exact State.diRead_keeps _ _ _ h

theorem State.tsmpPost_keeps {s0 : State} (s : State) (c : Fin 4) (v : W32) (h : Keeps s0 s) :
    Keeps s0 (State.tsmpPost s c v) := by
  unfold State.tsmpPost; try dsimp only
  repeat' first | (intro; try dsimp only) | (with_reducible first
    | assumption | apply State.postSample_keeps | apply keeps_ite) | split

theorem State.stateDone_keeps {s0 : State} (s : State) (c : Fin 4) (h : Keeps s0 s) :
    Keeps s0 (State.stateDone s c) := by
  unfold State.stateDone; try dsimp only
  repeat' first | (intro; try dsimp only) | (with_reducible first
    | assumption | apply State.updPc_keeps
    | exact keeps_mk (Keeps.pending (by assumption)) (Keeps.shm (by assumption)) | apply keeps_ite) | split

theorem State.wdtWrite_keeps {s0 : State} (s : State) (e : Fin 16) (k : Nat) (v : W32) (h : Keeps s0 s) :
    OKeeps s0 (State.wdtWrite s e k v) := by
  unfold State.wdtWrite; try dsimp only
  repeat' first | (intro; try dsimp only) | (with_reducible first
    | assumption | apply State.updEng_keeps
    | exact keeps_mk (Keeps.pending (by assumption)) (Keeps.shm (by assumption)) | apply okeeps_next
    | apply okeeps_fault | apply okeeps_ite | apply keeps_ite) | split

theorem State.qselStore_keeps {s0 : State} (s : State) (e : Fin 16) (i : Fin 8) (v : W32) (h : Keeps s0 s) :
    OKeeps s0 (State.qselStore s e i v) := by
  unfold State.qselStore; try dsimp only
  repeat' first | (intro; try dsimp only) | (with_reducible first
    | assumption | apply qselWrite_keeps | apply okeeps_next | apply okeeps_fault | apply okeeps_ite
    | apply keeps_ite) | split

theorem State.clRegStore_keeps {s0 : State} (s : State) (e : Fin 16) (o : Nat) (v : W32) (h : Keeps s0 s) :
    OKeeps s0 (State.clRegStore s e o v) := by
  unfold State.clRegStore; try dsimp only
  repeat' first | (intro; try dsimp only) | (with_reducible first
    | assumption | apply State.updCl_keeps | apply State.supdb_keeps | apply State.buildDone_keeps
    | apply State.piDone_keeps | apply State.tsmpPost_keeps | apply State.stateDone_keeps
    | apply State.wdtWrite_keeps | apply State.qselStore_keeps
    | exact keeps_mk (Keeps.pending (by assumption)) (Keeps.shm (by assumption)) | apply okeeps_next
    | apply okeeps_fault | apply okeeps_ite | apply keeps_ite) | split

theorem State.portStore_keeps {s0 : State} (s : State) (p : Fin 12) (o : Nat) (v : W32) (h : Keeps s0 s) :
    SKeeps s0 (State.portStore s p o v) := by
  unfold State.portStore; try dsimp only
  repeat' first | (intro; try dsimp only) | (with_reducible first
    | assumption | apply State.updPort_keeps | apply State.updDl_keeps
    | exact keeps_mk (Keeps.pending (by assumption)) (Keeps.shm (by assumption)) | apply skeeps_some
    | apply skeeps_none | apply keeps_ite | refine keeps_snd (by assumption) ?_
    | refine keeps_thd (by assumption) ?_ | refine keeps_fst (by assumption) ?_
    | refine keeps_next (by assumption) ?_ | refine keeps_ok (by assumption) ?_
    | refine keeps_some (by assumption) ?_) | split

theorem State.hqPop_keeps {s0 : State} (s : State) (e : Fin 16) (h' : Fin 256) (h : Keeps s0 s) :
    Keeps s0 (State.hqPop s e h').2 := by
  unfold State.hqPop; try dsimp only
  repeat' first | (intro; try dsimp only) | (with_reducible first
    | assumption | apply State.updEng_keeps | apply State.pop_keeps
    | exact keeps_mk (Keeps.pending (by assumption)) (Keeps.shm (by assumption))
    | refine keeps_snd (by assumption) ?_ | refine keeps_thd (by assumption) ?_
    | refine keeps_fst (by assumption) ?_ | refine keeps_next (by assumption) ?_
    | refine keeps_ok (by assumption) ?_ | refine keeps_some (by assumption) ?_) | split

theorem State.engPush_keeps {s0 : State} (s : State) (e : Fin 16) (h' : Fin 256) (d : Desc) (h : Keeps s0 s) :
    OKeeps s0 (State.engPush s e h' d) := by
  unfold State.engPush; try dsimp only
  repeat' first | (intro; try dsimp only) | (with_reducible first
    | assumption | apply State.push_keeps | apply okeeps_next | apply okeeps_fault | apply okeeps_ite
    | apply keeps_ite) | split

theorem State.popped_keeps {s0 : State} (s : State) (h' : Fin 256) (t : State) (h : Keeps s0 s) (h1 : Keeps s0 t) :
    OKeeps s0 (State.popped s h' t) := by
  unfold State.popped; try dsimp only
  repeat' first | (intro; try dsimp only) | (with_reducible first
    | assumption | apply okeeps_next | apply okeeps_fault | apply okeeps_ite | apply keeps_ite) | split

theorem State.loaded_keeps {s0 : State} (s : State) (a : Nat) (t : State) (h : Keeps s0 s) (h1 : Keeps s0 t) :
    OKeeps s0 (State.loaded s a t) := by
  unfold State.loaded; try dsimp only
  repeat' first | (intro; try dsimp only) | (with_reducible first
    | assumption | apply State.popped_keeps | apply okeeps_next | apply okeeps_fault | apply okeeps_ite
    | apply keeps_ite) | split

theorem State.tookFrom_keeps {s0 : State} (s t : State) (h : Keeps s0 s) (h1 : Keeps s0 t) :
    OKeeps s0 (State.tookFrom s t) := by
  unfold State.tookFrom; try dsimp only
  repeat' first | (intro; try dsimp only) | (with_reducible first
    | assumption | apply okeeps_next | apply okeeps_fault | apply okeeps_ite
    | refine keeps_snd (by assumption) ?_ | refine keeps_thd (by assumption) ?_
    | refine keeps_fst (by assumption) ?_ | refine keeps_next (by assumption) ?_
    | refine keeps_ok (by assumption) ?_ | refine keeps_some (by assumption) ?_
    | exact okeeps_of_fault (by assumption)) | split

theorem State.hqPush3_keeps {s0 : State} (s : State) (e : Fin 16) (h' : Fin 256) (v : W32) (h : Keeps s0 s) :
    OKeeps s0 (State.hqPush3 s e h' v) := by
  unfold State.hqPush3; try dsimp only
  repeat' first | (intro; try dsimp only) | (with_reducible first
    | assumption | apply State.engPush_keeps | apply okeeps_next | apply okeeps_fault | apply okeeps_ite) | split

theorem State.winLoad_keeps {s0 : State} (s : State) (e : Fin 16) (a2 : Win) (h : Keeps s0 s) :
    Keeps s0 (State.winLoad s e a2).2 := by
  unfold State.winLoad
  split
  · repeat' split
    all_goals first
      | exact State.hqPop_keeps _ _ _ h
      | exact h
  · exact h
  · exact h
  · next k o =>
    have hp := State.pioLoadReg_keeps s k o h
    cases hx : s.pioLoadReg k o with
    | none => exact h
    | some x => exact keeps_psome hx hp

theorem State.winStore_keeps {s0 : State} (s : State) (e : Fin 16) (v : W32) (x0 : Win) (h : Keeps s0 s) :
    OKeeps s0 (State.winStore s e v x0) := by
  unfold State.winStore; try dsimp only
  repeat' first | (intro; try dsimp only) | (with_reducible first
    | assumption | apply State.updEng_keeps | apply hqStatWrite_keeps | apply State.canAbortMask_keeps
    | apply State.pioStoreReg_keeps | apply State.portStore_keeps | apply State.hqPush3_keeps
    | exact keeps_mk (Keeps.pending (by assumption)) (Keeps.shm (by assumption)) | apply okeeps_next
    | apply okeeps_fault | apply okeeps_ite | apply keeps_ite | refine keeps_snd (by assumption) ?_
    | refine keeps_thd (by assumption) ?_ | refine keeps_fst (by assumption) ?_
    | refine keeps_next (by assumption) ?_ | refine keeps_ok (by assumption) ?_
    | refine keeps_some (by assumption) ?_ | exact okeeps_of_fault (by assumption)) | split

theorem State.boxLoad_keeps {s0 : State} (s : State) (e : Fin 16) (n : Nat) (x0 : Box) (h : Keeps s0 s) :
    Keeps s0 (State.boxLoad s e n x0).2 := by
  unfold State.boxLoad; try dsimp only
  repeat' first | (intro; try dsimp only) | (with_reducible first
    | assumption | apply State.lockRead_keeps | refine keeps_snd (by assumption) ?_
    | refine keeps_thd (by assumption) ?_ | refine keeps_fst (by assumption) ?_
    | refine keeps_next (by assumption) ?_ | refine keeps_ok (by assumption) ?_
    | refine keeps_some (by assumption) ?_) | split

theorem State.boxPut_keeps {s0 : State} (s : State) (e : Fin 16) (bs : List Byte) (x0 : Box) (h : Keeps s0 s) :
    OKeeps s0 (State.boxPut s e bs x0) := by
  unfold State.boxPut; try dsimp only
  repeat' first | (intro; try dsimp only) | (with_reducible first
    | assumption | apply State.updEmb_keeps | apply State.lockWrite_keeps | apply State.embCmd_keeps
    | apply State.engS2h_keeps | exact keeps_mk (Keeps.pending (by assumption)) (Keeps.shm (by assumption))
    | apply okeeps_next | apply okeeps_fault | apply okeeps_ite | apply keeps_ite) | split

theorem State.busLoad_keeps {s0 : State} (s : State) (e : Fin 16) (a : Nat) (n : Nat) (h : Keeps s0 s) :
    Keeps s0 (State.busLoad s e a n).2 := by
  unfold State.busLoad
  extract_lets g priv word
  have hp : ∀ m bad i o, Keeps s0 (priv m bad i o).2 := fun m bad i o =>
    keeps_foldl (fun t w ht => State.engUncorr_keeps _ _ _ _ _ ht) h
  have hw : ∀ x : W32 × State, Keeps s0 x.2 → Keeps s0 (word x).2 := fun x hx => hx
  clear_value priv word
  split
  · exact hp _ _ _ _
  split
  · exact hp _ _ _ _
  split
  · exact State.rd_keeps _ _ _ _ _ h
  split
  · exact State.rd_keeps _ _ _ _ _ h
  split
  · split
    · exact hw _ (State.winLoad_keeps _ _ _ h)
    · exact h
  split
  · exact hw _ (State.clRegLoad_keeps _ _ _ h)
  split
  · exact State.boxLoad_keeps _ _ _ _ h
  · exact h

theorem State.dmemStore_keeps {s0 : State} (s : State) (e : Fin 16) (o : Nat) (bs : List Byte) (h : Keeps s0 s) :
    Keeps s0 (State.dmemStore s e o bs) := by
  unfold State.dmemStore; try dsimp only
  repeat' first | (intro; try dsimp only) | (with_reducible first
    | assumption | apply State.updEng_keeps | apply State.engUncorr_keeps
    | exact keeps_mk (Keeps.pending (by assumption)) (Keeps.shm (by assumption)) | apply keeps_foldl
    | apply keeps_ite) | split

theorem State.busStore_keeps {s0 : State} (s : State) (e : Fin 16) (a : Nat) (bs : List Byte) (h : Keeps s0 s) :
    OKeeps s0 (State.busStore s e a bs) := by
  unfold State.busStore
  refine okeeps_ite (okeeps_next h) (okeeps_ite (okeeps_next (State.dmemStore_keeps _ _ _ _ h))
    (okeeps_ite (okeeps_next (State.wr_keeps _ _ _ _ _ h)) (okeeps_ite (okeeps_next (State.wr_keeps _ _ _ _ _ h)) ?_)))
  extract_lets v
  refine okeeps_ite ?_ (okeeps_ite (State.clRegStore_keeps _ _ _ _ h) ?_)
  · cases winAt a with
    | some w => exact State.winStore_keeps _ _ _ _ h
    | none => exact okeeps_next h
  · cases boxAt (clOf e) a with
    | some b => exact State.boxPut_keeps _ _ _ _ h
    | none => exact okeeps_next h

theorem State.copWrite_keeps {s0 : State} (s : State) (e : Fin 16) (a : Nat) (bs : List Byte) (h : Keeps s0 s) :
    Keeps s0 (State.copWrite s e a bs) := by
  unfold State.copWrite; try dsimp only
  repeat' first | (intro; try dsimp only) | (with_reducible first
    | assumption | apply State.dmaWrite_keeps) | split

theorem State.copFinish_keeps {s0 : State} (s : State) (e : Fin 16) (x : Cop) (h : Keeps s0 s) :
    Keeps s0 (State.copFinish s e x).2 := by
  unfold State.copFinish; try dsimp only
  repeat' first | (intro; try dsimp only) | (with_reducible first
    | assumption | apply State.updEng_keeps | apply State.dmaRead_keeps | apply State.copWrite_keeps
    | exact keeps_mk (Keeps.pending (by assumption)) (Keeps.shm (by assumption)) | apply keeps_foldl
    | apply keeps_foldlP | apply keeps_ite | refine keeps_snd (by assumption) ?_
    | refine keeps_thd (by assumption) ?_ | refine keeps_fst (by assumption) ?_
    | refine keeps_next (by assumption) ?_ | refine keeps_ok (by assumption) ?_
    | refine keeps_some (by assumption) ?_) | split

theorem State.engineFatal_keeps {s0 : State} (s : State) (e : Fin 16) (code : Nat) (data : W32) (h : Keeps s0 s) :
    Keeps s0 (State.engineFatal s e code data) := by
  unfold State.engineFatal; try dsimp only
  repeat' first | (intro; try dsimp only) | (with_reducible first
    | assumption | apply State.alarm_keeps | apply State.stopPersonality_keeps | apply State.settle_keeps
    | apply State.pairStopped_keeps) | split

theorem State.takeTrap_keeps {s0 : State} (s : State) (e : Fin 16) (t : Trap) (pc resume : W32) (h : Keeps s0 s) :
    Keeps s0 (State.takeTrap s e t pc resume) := by
  unfold State.takeTrap; try dsimp only
  repeat' first | (intro; try dsimp only) | (with_reducible first
    | assumption | apply State.updEng_keeps | apply State.engineFatal_keeps | apply keeps_ite) | split

theorem State.watchdog_keeps {s0 : State} (s : State) (e : Fin 16) (h : Keeps s0 s) :
    Keeps s0 (State.watchdog s e) := by
  unfold State.watchdog; try dsimp only
  repeat' first | (intro; try dsimp only) | (with_reducible first
    | assumption | apply State.updEng_keeps | apply State.updPair_keeps | apply State.settle_keeps
    | apply State.engineFatal_keeps | apply State.takeTrap_keeps
    | exact keeps_mk (Keeps.pending (by assumption)) (Keeps.shm (by assumption)) | apply keeps_ite) | split

theorem State.wdtTick_keeps {s0 : State} (s : State) (e : Fin 16) (h : Keeps s0 s) :
    Keeps s0 (State.wdtTick s e) := by
  unfold State.wdtTick; try dsimp only
  repeat' first | (intro; try dsimp only) | (with_reducible first
    | assumption | apply State.updEng_keeps | apply State.watchdog_keeps
    | exact keeps_mk (Keeps.pending (by assumption)) (Keeps.shm (by assumption)) | apply keeps_ite) | split

theorem State.sev_keeps {s0 : State} (s : State) (e : Fin 16) (mask : Nat) (h : Keeps s0 s) :
    Keeps s0 (State.sev s e mask) := by
  unfold State.sev; try dsimp only
  repeat' first | (intro; try dsimp only) | (with_reducible first
    | assumption | apply State.evp_keeps | apply State.cadd_keeps | apply keeps_foldl | apply keeps_ite) | split

theorem State.slotA_keeps {s0 : State} (s : State) (e : Fin 16) (old : Engine) (op : Nat) (o : BitVec 23) (h : Keeps s0 s) :
    OKeeps s0 (State.slotA s e old op o) := by
  unfold State.slotA; try dsimp only
  repeat' first | (intro; try dsimp only) | (with_reducible first
    | assumption | apply State.updEng_keeps | apply State.loaded_keeps | apply State.busLoad_keeps
    | apply State.busStore_keeps | exact keeps_mk (Keeps.pending (by assumption)) (Keeps.shm (by assumption))
    | apply okeeps_next | apply okeeps_fault | apply okeeps_ite | apply okeeps_andThen | apply keeps_ite
    | refine keeps_snd (by assumption) ?_ | refine keeps_thd (by assumption) ?_
    | refine keeps_fst (by assumption) ?_ | refine keeps_next (by assumption) ?_
    | refine keeps_ok (by assumption) ?_ | refine keeps_some (by assumption) ?_
    | exact okeeps_of_fault (by assumption)) | split

theorem State.slotQ_keeps {s0 : State} (s : State) (e : Fin 16) (old : Engine) (op : Nat) (o : BitVec 23) (h : Keeps s0 s) :
    OKeeps s0 (State.slotQ s e old op o) := by
  unfold State.slotQ; try dsimp only
  repeat' first | (intro; try dsimp only) | (with_reducible first
    | assumption | apply State.updEng_keeps | apply State.pop_keeps | apply State.engPush_keeps
    | apply State.popped_keeps | apply okeeps_next | apply okeeps_fault | apply okeeps_ite | apply keeps_ite
    | refine keeps_snd (by assumption) ?_ | refine keeps_thd (by assumption) ?_
    | refine keeps_fst (by assumption) ?_ | refine keeps_next (by assumption) ?_
    | refine keeps_ok (by assumption) ?_ | refine keeps_some (by assumption) ?_
    | exact okeeps_of_fault (by assumption)) | split

theorem State.slotC_keeps {s0 : State} (s : State) (e : Fin 16) (old : Engine) (y : Syl) (next : W32) (rep : Bool) (h : Keeps s0 s) :
    OKeeps s0 (State.slotC s e old y next rep) := by
  unfold State.slotC; try dsimp only
  repeat' first | (intro; try dsimp only) | (with_reducible first
    | assumption | apply State.updEng_keeps | apply State.evp_keeps | apply State.sev_keeps
    | exact keeps_mk (Keeps.pending (by assumption)) (Keeps.shm (by assumption)) | apply okeeps_next
    | apply okeeps_fault | apply okeeps_ite | apply keeps_ite | refine keeps_snd (by assumption) ?_
    | refine keeps_thd (by assumption) ?_ | refine keeps_fst (by assumption) ?_
    | refine keeps_next (by assumption) ?_ | refine keeps_ok (by assumption) ?_
    | refine keeps_some (by assumption) ?_ | exact okeeps_of_fault (by assumption)) | split

theorem State.copComplete_keeps {s0 : State} (s : State) (e : Fin 16) (rcnt : Nat) (h : Keeps s0 s) :
    Keeps s0 (State.copComplete s e rcnt).2 := by
  unfold State.copComplete; try dsimp only
  repeat' first | (intro; try dsimp only) | (with_reducible first
    | assumption | apply State.copFinish_keeps | apply State.takeTrap_keeps
    | refine keeps_snd (by assumption) ?_ | refine keeps_thd (by assumption) ?_
    | refine keeps_fst (by assumption) ?_ | refine keeps_next (by assumption) ?_
    | refine keeps_ok (by assumption) ?_ | refine keeps_some (by assumption) ?_) | split

theorem State.slots_keeps {s0 : State} (e : Fin 16) (old : Engine) (next : W32) (rep xop : Bool) :
    ∀ (ys : List Syl) (s : State), Keeps s0 s → OKeeps s0 (State.slots s e old next rep xop ys) := by
  intro ys
  induction ys with
  | nil => intro s h; exact okeeps_next h
  | cons y r ih =>
    intro s h
    unfold State.slots
    extract_lets o
    have ho : OKeeps s0 o := by
      show OKeeps s0 (match Syl.unit y with
        | 0 => s.slotA e old (Syl.op y) (Syl.ops y)
        | 1 => .next (s.updEng e fun g => g.slotD old (Syl.op y) (Syl.ops y))
        | 2 => s.slotQ e old (Syl.op y) (Syl.ops y)
        | _ => if xop then .next s else s.slotC e old y next rep)
      split
      · exact State.slotA_keeps _ _ _ _ _ h
      · exact okeeps_next (State.updEng_keeps _ _ _ h)
      · exact State.slotQ_keeps _ _ _ _ _ h
      · exact okeeps_ite (okeeps_next h) (State.slotC_keeps _ _ _ _ _ _ h)
    clear_value o
    cases o with
    | next t => exact ih t (keeps_next rfl ho)
    | fault _ => exact okeeps_fault
    | refused _ => exact okeeps_refused

theorem State.issueOnce_keeps {s0 : State} (s1 : State) (e : Fin 16) (ys : List Syl) (next : W32) (left : Nat) (first : Bool) (h : Keeps s0 s1) :
    IKeeps s0 (State.issueOnce s1 e ys next left first) := by
  unfold State.issueOnce; try dsimp only
  repeat' first | (intro; try dsimp only) | (with_reducible first
    | assumption | apply State.updEng_keeps | apply State.engUncorr_keeps | apply Passing.take_keeps
    | apply State.takeTrap_keeps | apply State.copComplete_keeps | apply State.slots_keeps
    | exact keeps_mk (Keeps.pending (by assumption)) (Keeps.shm (by assumption)) | apply okeeps_next
    | apply okeeps_fault | apply okeeps_ite | apply okeeps_andThen | apply ikeeps_done | apply ikeeps_left
    | apply keeps_ite | refine keeps_snd (by assumption) ?_ | refine keeps_thd (by assumption) ?_
    | refine keeps_fst (by assumption) ?_ | refine keeps_next (by assumption) ?_
    | refine keeps_ok (by assumption) ?_ | refine keeps_some (by assumption) ?_
    | exact okeeps_of_fault (by assumption)) | split

theorem State.fetchCheck_keeps {s0 : State} (s : State) (e : Fin 16) (h : Keeps s0 s) :
    Keeps s0 (State.fetchCheck s e) := by
  unfold State.fetchCheck; try dsimp only
  repeat' first | (intro; try dsimp only) | (with_reducible first
    | assumption | apply State.takeTrap_keeps | apply keeps_ite) | split

theorem State.skipBundle_keeps {s0 : State} (s : State) (e : Fin 16) (h : Keeps s0 s) :
    Keeps s0 (State.skipBundle s e) := by
  unfold State.skipBundle; try dsimp only
  repeat' first | (intro; try dsimp only) | (with_reducible first
    | assumption | apply State.updEng_keeps | apply State.engUncorr_keeps | apply State.takeTrap_keeps
    | exact keeps_mk (Keeps.pending (by assumption)) (Keeps.shm (by assumption)) | apply keeps_ite
    | refine keeps_snd (by assumption) ?_ | refine keeps_thd (by assumption) ?_
    | refine keeps_fst (by assumption) ?_ | refine keeps_next (by assumption) ?_
    | refine keeps_ok (by assumption) ?_ | refine keeps_some (by assumption) ?_) | split

theorem State.issueSingle_keeps {s0 : State} (s : State) (e : Fin 16) (ys : List Syl) (next : W32) (h : Keeps s0 s) :
    OKeeps s0 (State.issueSingle s e ys next) := by
  unfold State.issueSingle
  extract_lets g
  split
  · next e1 => exact okeeps_of_left e1 (State.issueOnce_keeps _ _ _ _ _ _ h)
  · next t e1 =>
    have ht := keeps_of_done e1 (State.issueOnce_keeps _ _ _ _ _ _ h)
    extract_lets t1
    have h1 : Keeps s0 t1 := State.updEng_keeps _ _ _ ht
    refine okeeps_next ?_
    exact State.fetchCheck_keeps _ _ (keeps_ite (State.skipBundle_keeps _ _ h1) h1)

theorem State.issueRepeat_keeps {s0 : State} (e : Fin 16) (ys : List Syl) (next : W32) : ∀ (n : Nat) (first : Bool) (s : State),
    Keeps s0 s → OKeeps s0 (State.issueRepeat e ys next n first s) := by
  intro n
  induction n with
  | zero => intro first s h; exact okeeps_next (State.fetchCheck_keeps _ _ (State.updEng_keeps _ _ _ h))
  | succ n ih =>
    intro first s h
    unfold State.issueRepeat
    split
    · next e1 => exact ih _ _ (keeps_of_done e1 (State.issueOnce_keeps _ _ _ _ _ _ h))
    · next e1 => exact okeeps_of_left e1 (State.issueOnce_keeps _ _ _ _ _ _ h)

theorem State.fetchBad_keeps {s0 : State} (s : State) (e : Fin 16) (a : Nat) (h : Keeps s0 s) :
    Keeps s0 (State.fetchBad s e a) := by
  unfold State.fetchBad; try dsimp only
  repeat' first | (intro; try dsimp only) | (with_reducible first
    | assumption | apply State.engUncorr_keeps | apply State.takeTrap_keeps) | split

theorem State.issue_keeps {s0 : State} (s1 : State) (e : Fin 16) (ys : List Syl) (stopped : Bool) (h : Keeps s0 s1) :
    OKeeps s0 (State.issue s1 e ys stopped) := by
  unfold State.issue; try dsimp only
  repeat' first | (intro; try dsimp only) | (with_reducible first
    | assumption | apply State.updEng_keeps | apply State.takeTrap_keeps | apply State.issueSingle_keeps
    | apply State.issueRepeat_keeps | apply State.fetchBad_keeps
    | exact keeps_mk (Keeps.pending (by assumption)) (Keeps.shm (by assumption)) | apply okeeps_next
    | apply okeeps_fault | apply okeeps_ite | apply keeps_ite | refine keeps_snd (by assumption) ?_
    | refine keeps_thd (by assumption) ?_ | refine keeps_fst (by assumption) ?_
    | refine keeps_next (by assumption) ?_ | refine keeps_ok (by assumption) ?_
    | refine keeps_some (by assumption) ?_ | exact okeeps_of_fault (by assumption)) | split

theorem syllable_keeps {s0 : State} (unit : BitVec 2) (op : BitVec 6) (e : Fin 16) (stop : Bool) (ops : BitVec 23) (s : State) (h : Keeps s0 s) :
    OKeeps s0 (syllable unit op e stop ops s) := by
  unfold syllable; try dsimp only
  repeat' first | (intro; try dsimp only) | (with_reducible first
    | assumption | apply State.updEng_keeps | apply State.settle_keeps | apply State.fetchCheck_keeps
    | apply State.fetchBad_keeps | apply State.issue_keeps
    | exact keeps_mk (Keeps.pending (by assumption)) (Keeps.shm (by assumption)) | apply okeeps_next
    | apply okeeps_fault | apply okeeps_ite | apply okeeps_andThen | apply keeps_ite
    | refine keeps_snd (by assumption) ?_ | refine keeps_thd (by assumption) ?_
    | refine keeps_fst (by assumption) ?_ | refine keeps_next (by assumption) ?_
    | refine keeps_ok (by assumption) ?_ | refine keeps_some (by assumption) ?_
    | exact okeeps_of_fault (by assumption)) | split

theorem State.discloseBad_keeps {s0 : State} (s : State) (e : Fin 16) (a : Nat) (h : Keeps s0 s) :
    Keeps s0 (State.discloseBad s e a) := by
  unfold State.discloseBad; try dsimp only
  repeat' first | (intro; try dsimp only) | (with_reducible first
    | assumption | apply State.updEng_keeps | apply State.memUncorr_keeps | apply State.engUncorr_keeps
    | apply State.damage_keeps | exact keeps_mk (Keeps.pending (by assumption)) (Keeps.shm (by assumption))
    | apply keeps_ite | refine keeps_snd (by assumption) ?_ | refine keeps_thd (by assumption) ?_
    | refine keeps_fst (by assumption) ?_ | refine keeps_next (by assumption) ?_
    | refine keeps_ok (by assumption) ?_ | refine keeps_some (by assumption) ?_) | split

theorem State.loadFailed_keeps {s0 : State} (s : State) (e : Fin 16) (pc resume addr : W32) (after : Nat) (h : Keeps s0 s) :
    Keeps s0 (State.loadFailed s e pc resume addr after) := by
  unfold State.loadFailed; try dsimp only
  repeat' first | (intro; try dsimp only) | (with_reducible first
    | assumption | apply State.updEng_keeps | apply State.settle_keeps | apply State.takeTrap_keeps
    | apply State.discloseBad_keeps | apply keeps_foldl | apply keeps_ite | refine keeps_snd (by assumption) ?_
    | refine keeps_thd (by assumption) ?_ | refine keeps_fst (by assumption) ?_
    | refine keeps_next (by assumption) ?_ | refine keeps_ok (by assumption) ?_
    | refine keeps_some (by assumption) ?_) | split

theorem State.copEnd_keeps {s0 : State} (s : State) (e : Fin 16) (h : Keeps s0 s) :
    Keeps s0 (State.copEnd s e) := by
  unfold State.copEnd; try dsimp only
  repeat' first | (intro; try dsimp only) | (with_reducible first
    | assumption | apply State.settle_keeps | apply State.copComplete_keeps) | split

theorem State.engineStore_keeps {s0 : State} (s : State) (e : Fin 16) (a : W32) (v : W32) (h : Keeps s0 s) :
    OKeeps s0 (State.engineStore s e a v) := by
  unfold State.engineStore; try dsimp only
  repeat' first | (intro; try dsimp only) | (with_reducible first
    | assumption | apply State.settle_keeps | apply State.busStore_keeps | apply State.takeTrap_keeps
    | apply okeeps_next | apply okeeps_fault | apply okeeps_ite | apply okeeps_andThen | apply keeps_ite
    | refine keeps_snd (by assumption) ?_ | refine keeps_thd (by assumption) ?_
    | refine keeps_fst (by assumption) ?_ | refine keeps_next (by assumption) ?_
    | refine keeps_ok (by assumption) ?_ | refine keeps_some (by assumption) ?_
    | exact okeeps_of_fault (by assumption)) | split

theorem State.engineTouch_keeps {s0 : State} (s : State) (e : Fin 16) (a : W32) (h : Keeps s0 s) :
    OKeeps s0 (State.engineTouch s e a) := by
  unfold State.engineTouch; try dsimp only
  repeat' first | (intro; try dsimp only) | (with_reducible first
    | assumption | apply State.settle_keeps | apply State.loaded_keeps | apply State.busLoad_keeps
    | apply State.takeTrap_keeps | apply okeeps_next | apply okeeps_fault | apply okeeps_ite | apply keeps_ite
    | refine keeps_snd (by assumption) ?_ | refine keeps_thd (by assumption) ?_
    | refine keeps_fst (by assumption) ?_ | refine keeps_next (by assumption) ?_
    | refine keeps_ok (by assumption) ?_ | refine keeps_some (by assumption) ?_
    | exact okeeps_of_fault (by assumption)) | split

end Sys2Proof.Machine
end

