-- ==== Sys2Proof/Laws/KeepsCommands.lean ====
section
/-!
SUPPORT. The operations of the Sundom commands, the ports and the drumbeat touch neither the queue nor the canonical form of the shared memory.
-/
set_option maxRecDepth 4000
namespace Sys2Proof.Machine

theorem State.takeMsg_keeps {s0 : State} (s : State) (n : Fin 9) (h : Keeps s0 s) :
    Keeps s0 (State.takeMsg s n) := by
  unfold State.takeMsg
  dsimp only
  split
  · exact State.updMbx_keeps _ _ _ (State.updSup_keeps _ _ h)
  · exact keeps_mk h.pending h.shm

theorem State.request_keeps {s0 : State} (s : State) (pos : Fin 4) (code : Nat) (m : Msg) (h : Keeps s0 s) :
    Keeps s0 (State.request s pos code m) := by
  unfold State.request; try dsimp only
  repeat' first | (intro; try dsimp only) | (with_reducible first
    | assumption | apply State.updSup_keeps | apply State.toMember_keeps
    | exact keeps_mk (Keeps.pending (by assumption)) (Keeps.shm (by assumption))) | split

theorem State.forwardCmd_keeps {s0 : State} (s : State) (code : Nat) (m : Msg) (h : Keeps s0 s) :
    Keeps s0 (State.forwardCmd s code m) := by
  unfold State.forwardCmd; try dsimp only
  repeat' first | (intro; try dsimp only) | (with_reducible first
    | assumption | apply State.updSup_keeps | apply State.answer_keeps | apply State.request_keeps
    | exact keeps_mk (Keeps.pending (by assumption)) (Keeps.shm (by assumption)) | apply keeps_ite) | split

theorem State.mirrorOut_keeps {s0 : State} (s : State) (code : Nat) (m : Msg) (a : Answer) (h : Keeps s0 s) :
    Keeps s0 (State.mirrorOut s code m a) := by
  unfold State.mirrorOut; try dsimp only
  repeat' first | (intro; try dsimp only) | (with_reducible first
    | assumption | apply State.updSup_keeps | apply State.request_keeps
    | exact keeps_mk (Keeps.pending (by assumption)) (Keeps.shm (by assumption))) | split

theorem State.conclude_keeps {s0 : State} (s : State) (r : CmdRow) (m : Msg) (after : State → State) (a : Answer) (s1 : State) (h : Keeps s0 s) (h1 : Keeps s0 s1) (hafter : ∀ t0, Keeps s0 t0 → Keeps s0 (after t0)) :
    Keeps s0 (State.conclude s r m after a s1) := by
  unfold State.conclude; try dsimp only
  repeat' first | (intro; try dsimp only) | (with_reducible first
    | assumption | apply hafter | apply State.answer_keeps | apply State.toSyncing_keeps
    | apply State.mirrorOut_keeps | apply keeps_ite) | split

theorem State.executeCmd_keeps {s0 : State} (s : State) (r : CmdRow) (m : Msg) (after : State → State) (run : State → Reply) (h : Keeps s0 s) (hafter : ∀ t0, Keeps s0 t0 → Keeps s0 (after t0)) (hrun : ∀ t0, Keeps s0 t0 → RKeeps s0 (run t0)) :
    OKeeps s0 (State.executeCmd s r m after run) := by
  unfold State.executeCmd; try dsimp only
  repeat' first | (intro; try dsimp only) | (with_reducible first
    | assumption | apply hafter | apply hrun | apply State.settle_keeps | apply State.conclude_keeps
    | apply okeeps_next | apply okeeps_fault | apply okeeps_ite | apply keeps_ite
    | refine keeps_snd (by assumption) ?_ | refine keeps_thd (by assumption) ?_
    | refine keeps_fst (by assumption) ?_ | refine keeps_next (by assumption) ?_
    | refine keeps_ok (by assumption) ?_ | refine keeps_some (by assumption) ?_
    | exact okeeps_of_fault (by assumption)) | split

theorem State.commandThen_keeps {s0 : State} (s : State) (r : CmdRow) (m : Msg) (after : State → State) (run : State → Reply) (h : Keeps s0 s) (hafter : ∀ t0, Keeps s0 t0 → Keeps s0 (after t0)) (hrun : ∀ t0, Keeps s0 t0 → RKeeps s0 (run t0)) :
    OKeeps s0 (State.commandThen s r m after run) := by
  unfold State.commandThen; try dsimp only
  repeat' first | (intro; try dsimp only) | (with_reducible first
    | assumption | apply hafter | apply hrun | apply State.answer_keeps | apply State.takeMsg_keeps
    | apply State.forwardCmd_keeps | apply State.executeCmd_keeps | apply okeeps_next | apply okeeps_fault
    | apply okeeps_ite | apply keeps_ite) | split

theorem State.command_keeps {s0 : State} (s : State) (r : CmdRow) (m : Msg) (run : State → Reply) (h : Keeps s0 s) (hrun : ∀ t0, Keeps s0 t0 → RKeeps s0 (run t0)) :
    OKeeps s0 (State.command s r m run) := by
  exact State.commandThen_keeps s r m id run h (fun _ ht => ht) hrun

theorem yes_keeps {s0 : State} (s : State) (h : Keeps s0 s) :
    RKeeps s0 (yes s) := by
  unfold yes; try dsimp only
  repeat' first | (intro; try dsimp only) | (with_reducible first
    | assumption | apply rkeeps_ok | apply rkeeps_yes | apply rkeeps_yesData | apply rkeeps_no
    | apply rkeeps_bad | apply rkeeps_error | apply rkeeps_check | apply rkeeps_withSettings | apply rkeeps_ite) | split

theorem yesData_keeps {s0 : State} (s : State) (bs : List Byte) (h : Keeps s0 s) :
    RKeeps s0 (yesData s bs) := by
  unfold yesData; try dsimp only
  repeat' first | (intro; try dsimp only) | (with_reducible first
    | assumption | apply rkeeps_ok | apply rkeeps_yes | apply rkeeps_yesData | apply rkeeps_no
    | apply rkeeps_bad | apply rkeeps_error | apply rkeeps_check | apply rkeeps_withSettings | apply rkeeps_ite) | split

theorem no_keeps {s0 : State} (s : State) (status detail : Nat) (h : Keeps s0 s) :
    RKeeps s0 (no s status detail) := by
  unfold no; try dsimp only
  repeat' first | (intro; try dsimp only) | (with_reducible first
    | assumption | apply rkeeps_ok | apply rkeeps_yes | apply rkeeps_yesData | apply rkeeps_no
    | apply rkeeps_bad | apply rkeeps_error | apply rkeeps_check | apply rkeeps_withSettings | apply rkeeps_ite) | split

theorem State.accept_keeps {s0 : State} (s : State) (m : Msg) (kind : JobKind) (f : State → State) (h : Keeps s0 s) (hf : ∀ t0, Keeps s0 t0 → Keeps s0 (f t0)) :
    RKeeps s0 (State.accept s m kind f) := by
  unfold State.accept; try dsimp only
  repeat' first | (intro; try dsimp only) | (with_reducible first
    | assumption | apply hf | apply State.startJob_keeps | apply no_keeps | apply rkeeps_ok | apply rkeeps_yes
    | apply rkeeps_yesData | apply rkeeps_no | apply rkeeps_bad | apply rkeeps_error | apply rkeeps_check
    | apply rkeeps_withSettings | apply rkeeps_ite | apply keeps_ite | refine keeps_snd (by assumption) ?_
    | refine keeps_thd (by assumption) ?_ | refine keeps_fst (by assumption) ?_
    | refine keeps_next (by assumption) ?_ | refine keeps_ok (by assumption) ?_
    | refine keeps_some (by assumption) ?_) | split

theorem State.applyAll_keeps {s0 : State} (s : State) (f : State → Setting → State) (xs : List Setting) (h : Keeps s0 s) (hf : ∀ t0 t1, Keeps s0 t0 → Keeps s0 (f t0 t1)) :
    Keeps s0 (State.applyAll s f xs) := by
  unfold State.applyAll; try dsimp only
  repeat' first | (intro; try dsimp only) | (with_reducible first
    | assumption | apply hf | apply keeps_foldl) | split

theorem State.configRing_keeps {s0 : State} (s : State) (o : Option (Fin 4)) (h : Keeps s0 s) :
    Keeps s0 (State.configRing s o) := by
  unfold State.configRing; try dsimp only
  repeat' first | (intro; try dsimp only) | (with_reducible first
    | assumption | apply State.supdb_keeps | refine keeps_snd (by assumption) ?_
    | refine keeps_thd (by assumption) ?_ | refine keeps_fst (by assumption) ?_
    | refine keeps_next (by assumption) ?_ | refine keeps_ok (by assumption) ?_
    | refine keeps_some (by assumption) ?_) | split

theorem State.openSession_keeps {s0 : State} (s : State) (m : Msg) (h : Keeps s0 s) :
    RKeeps s0 (State.openSession s m) := by
  unfold State.openSession; try dsimp only
  repeat' first | (intro; try dsimp only) | (with_reducible first
    | assumption | apply State.updMbx_keeps | apply State.updSup_keeps | apply no_keeps
    | exact keeps_mk (Keeps.pending (by assumption)) (Keeps.shm (by assumption)) | apply rkeeps_ok
    | apply rkeeps_yes | apply rkeeps_yesData | apply rkeeps_no | apply rkeeps_bad | apply rkeeps_error
    | apply rkeeps_check | apply rkeeps_withSettings | apply rkeeps_ite | apply pkeeps_some | apply pkeeps_none
    | refine keeps_snd (by assumption) ?_ | refine keeps_thd (by assumption) ?_
    | refine keeps_fst (by assumption) ?_ | refine keeps_next (by assumption) ?_
    | refine keeps_ok (by assumption) ?_ | refine keeps_some (by assumption) ?_) | split

theorem State.closeSession_keeps {s0 : State} (s : State) (m : Msg) (h : Keeps s0 s) :
    RKeeps s0 (State.closeSession s m) := by
  unfold State.closeSession; try dsimp only
  repeat' first | (intro; try dsimp only) | (with_reducible first
    | assumption | apply State.updMbx_keeps | apply yes_keeps | apply no_keeps
    | exact keeps_mk (Keeps.pending (by assumption)) (Keeps.shm (by assumption)) | apply rkeeps_ok
    | apply rkeeps_yes | apply rkeeps_yesData | apply rkeeps_no | apply rkeeps_bad | apply rkeeps_error
    | apply rkeeps_check | apply rkeeps_withSettings | apply rkeeps_ite | apply pkeeps_some | apply pkeeps_none
    | refine keeps_snd (by assumption) ?_ | refine keeps_thd (by assumption) ?_
    | refine keeps_fst (by assumption) ?_ | refine keeps_next (by assumption) ?_
    | refine keeps_ok (by assumption) ?_ | refine keeps_some (by assumption) ?_) | split

theorem State.setRun_keeps {s0 : State} (s : State) (mask : Nat) (h : Keeps s0 s) :
    RKeeps s0 (State.setRun s mask) := by
  unfold State.setRun; try dsimp only
  repeat' first | (intro; try dsimp only) | (with_reducible first
    | assumption | apply State.each_keeps | apply State.domainDown_keeps | apply State.domainUp_keeps
    | apply State.serveAll_keeps | apply State.wakeStandby_keeps | apply yes_keeps | apply no_keeps
    | apply rkeeps_ok | apply rkeeps_yes | apply rkeeps_yesData | apply rkeeps_no | apply rkeeps_bad
    | apply rkeeps_error | apply rkeeps_check | apply rkeeps_withSettings | apply rkeeps_ite | apply pkeeps_some
    | apply pkeeps_none | apply keeps_ite | refine keeps_snd (by assumption) ?_
    | refine keeps_thd (by assumption) ?_ | refine keeps_fst (by assumption) ?_
    | refine keeps_next (by assumption) ?_ | refine keeps_ok (by assumption) ?_
    | refine keeps_some (by assumption) ?_) | split

theorem State.setPower_keeps {s0 : State} (s : State) (m : Msg) (h : Keeps s0 s) :
    RKeeps s0 (State.setPower s m) := by
  unfold State.setPower; try dsimp only
  repeat' first | (intro; try dsimp only) | (with_reducible first
    | assumption | apply yes_keeps | apply State.setRun_keeps | apply rkeeps_ok | apply rkeeps_yes
    | apply rkeeps_yesData | apply rkeeps_no | apply rkeeps_bad | apply rkeeps_error | apply rkeeps_check
    | apply rkeeps_withSettings | apply rkeeps_ite | apply pkeeps_some | apply pkeeps_none | apply keeps_ite
    | refine keeps_snd (by assumption) ?_ | refine keeps_thd (by assumption) ?_
    | refine keeps_fst (by assumption) ?_ | refine keeps_next (by assumption) ?_
    | refine keeps_ok (by assumption) ?_ | refine keeps_some (by assumption) ?_) | split

theorem State.powerAfter_keeps {s0 : State} (m : Msg) (s : State) (h : Keeps s0 s) :
    Keeps s0 (State.powerAfter m s) := by
  unfold State.powerAfter; try dsimp only
  repeat' first | (intro; try dsimp only) | (with_reducible first
    | assumption | apply State.updPwr_keeps | apply State.enterStandby_keeps | apply State.enterHibernate_keeps
    | exact keeps_mk (Keeps.pending (by assumption)) (Keeps.shm (by assumption)) | apply keeps_ite) | split

theorem State.loading_keeps {s0 : State} (s : State) (c : Fin 4) (p : List Byte) (h : Keeps s0 s) :
    Keeps s0 (State.loading s c p) := by
  unfold State.loading; try dsimp only
  repeat' first | (intro; try dsimp only) | (with_reducible first
    | assumption | apply State.updCl_keeps
    | exact keeps_mk (Keeps.pending (by assumption)) (Keeps.shm (by assumption)) | apply keeps_id) | split

theorem State.loadCheck_keeps {s0 : State} (s : State) (m : Msg) (p job : List Byte) (custom : Bool) (image : Option (Answer × State)) (h : Keeps s0 s) (himage : PKeeps s0 image) :
    RKeeps s0 (State.loadCheck s m p job custom image) := by
  unfold State.loadCheck; try dsimp only
  repeat' first | (intro; try dsimp only) | (with_reducible first
    | assumption | exact keeps_psome rfl (by assumption) | apply no_keeps | apply State.accept_keeps
    | apply State.loading_keeps | apply rkeeps_ok | apply rkeeps_yes | apply rkeeps_yesData | apply rkeeps_no
    | apply rkeeps_bad | apply rkeeps_error | apply rkeeps_check | apply rkeeps_withSettings | apply rkeeps_ite
    | apply pkeeps_some | apply pkeeps_none | apply keeps_ite | refine keeps_snd (by assumption) ?_
    | refine keeps_thd (by assumption) ?_ | refine keeps_fst (by assumption) ?_
    | refine keeps_next (by assumption) ?_ | refine keeps_ok (by assumption) ?_
    | refine keeps_some (by assumption) ?_) | split

theorem State.load_keeps {s0 : State} (s : State) (m : Msg) (h : Keeps s0 s) :
    RKeeps s0 (State.load s m) := by
  unfold State.load; try dsimp only
  repeat' first | (intro; try dsimp only) | (with_reducible first
    | assumption | apply State.loadCheck_keeps | apply rkeeps_ok | apply rkeeps_yes | apply rkeeps_yesData
    | apply rkeeps_no | apply rkeeps_bad | apply rkeeps_error | apply rkeeps_check | apply rkeeps_withSettings
    | apply rkeeps_ite | apply pkeeps_some | apply pkeeps_none | apply keeps_ite) | split

theorem State.customCheck_keeps {s0 : State} (s : State) (m : Msg) (base len : Nat) (h : Keeps s0 s) :
    PKeeps s0 (State.customCheck s m base len) := by
  unfold State.customCheck; try dsimp only
  repeat' first | (intro; try dsimp only) | (with_reducible first
    | assumption | apply State.rd_keeps | apply pkeeps_some | apply pkeeps_none | apply keeps_ite
    | refine keeps_snd (by assumption) ?_ | refine keeps_thd (by assumption) ?_
    | refine keeps_fst (by assumption) ?_ | refine keeps_next (by assumption) ?_
    | refine keeps_ok (by assumption) ?_ | refine keeps_some (by assumption) ?_) | split

theorem State.loadCustom_keeps {s0 : State} (s : State) (m : Msg) (h : Keeps s0 s) :
    RKeeps s0 (State.loadCustom s m) := by
  unfold State.loadCustom; try dsimp only
  repeat' first | (intro; try dsimp only) | (with_reducible first
    | assumption | apply Passing.take_keeps | apply State.loadCheck_keeps | apply State.customCheck_keeps
    | apply rkeeps_ok | apply rkeeps_yes | apply rkeeps_yesData | apply rkeeps_no | apply rkeeps_bad
    | apply rkeeps_error | apply rkeeps_check | apply rkeeps_withSettings | apply rkeeps_ite | apply pkeeps_some
    | apply pkeeps_none) | split

theorem State.latchUnits_keeps {s0 : State} (s : State) (c : Fin 4) (h : Keeps s0 s) :
    Keeps s0 (State.latchUnits s c) := by
  exact keeps_mk h.pending h.shm

theorem State.setQueues_keeps {s0 : State} (s : State) (c : Fin 4) (p : List Byte) (h : Keeps s0 s) :
    Keeps s0 (State.setQueues s c p) := by
  unfold State.setQueues; try dsimp only
  repeat' first | (intro; try dsimp only) | (with_reducible first
    | assumption | apply State.updHq_keeps | apply keeps_foldl | apply keeps_ite) | split

theorem State.joinUnits_keeps {s0 : State} (s : State) (c : Fin 4) (p : List Byte) (h : Keeps s0 s) :
    Keeps s0 (State.joinUnits s c p) := by
  unfold State.joinUnits; try dsimp only
  repeat' first | (intro; try dsimp only) | (with_reducible first
    | assumption | apply State.updCl_keeps | apply State.updPort_keeps | apply State.updCan_keeps
    | apply State.updPio_keeps | apply State.updDi_keeps | apply State.updDo_keeps | apply State.each_keeps
    | apply State.setPort_keeps | apply State.canState_keeps | apply State.pioState_keeps
    | apply State.latchUnits_keeps | apply State.setQueues_keeps
    | exact keeps_mk (Keeps.pending (by assumption)) (Keeps.shm (by assumption)) | apply keeps_ite) | split

theorem State.resetOutput_keeps {s0 : State} (s : State) (d : Fin 8) (h : Keeps s0 s) :
    Keeps s0 (State.resetOutput s d) := by
  unfold State.resetOutput; try dsimp only
  repeat' first | (intro; try dsimp only) | (with_reducible first
    | assumption | apply State.updDo_keeps | apply State.doClear_keeps | apply State.settle_keeps
    | exact keeps_mk (Keeps.pending (by assumption)) (Keeps.shm (by assumption)) | apply keeps_foldl) | split

theorem State.freeOutput_keeps {s0 : State} (s : State) (d : Fin 8) (h : Keeps s0 s) :
    Keeps s0 (State.freeOutput s d) := by
  unfold State.freeOutput; try dsimp only
  repeat' first | (intro; try dsimp only) | (with_reducible first
    | assumption | apply State.updDo_keeps | apply State.resetOutput_keeps
    | exact keeps_mk (Keeps.pending (by assumption)) (Keeps.shm (by assumption))) | split

theorem State.clearPrp_keeps {s0 : State} (s : State) (p : Fin 12) (h : Keeps s0 s) :
    Keeps s0 (State.clearPrp s p) := by
  unfold State.clearPrp; try dsimp only
  repeat' first | (intro; try dsimp only) | (with_reducible first
    | assumption | exact keeps_mk (Keeps.pending (by assumption)) (Keeps.shm (by assumption)) | apply keeps_ite) | split

theorem State.freeUnits_keeps {s0 : State} (s : State) (c : Fin 4) (h : Keeps s0 s) :
    Keeps s0 (State.freeUnits s c) := by
  unfold State.freeUnits; try dsimp only
  repeat' first | (intro; try dsimp only) | (with_reducible first
    | assumption | apply State.updPort_keeps | apply State.updCan_keeps | apply State.updPio_keeps
    | apply State.updHq_keeps | apply State.updDi_keeps | apply State.each_keeps | apply State.setPort_keeps
    | apply State.canState_keeps | apply State.canIdle_keeps | apply State.pioState_keeps
    | apply State.endJobs_keeps | apply State.latchUnits_keeps | apply State.freeOutput_keeps
    | apply State.clearPrp_keeps | apply keeps_ite) | split

theorem State.emptyCluster_keeps {s0 : State} (s : State) (c : Fin 4) (h : Keeps s0 s) :
    Keeps s0 (State.emptyCluster s c) := by
  unfold State.emptyCluster; try dsimp only
  repeat' first | (intro; try dsimp only) | (with_reducible first
    | assumption | apply State.updCl_keeps | apply State.resetEngines_keeps) | split

theorem State.unloadCluster_keeps {s0 : State} (s : State) (c : Fin 4) (h : Keeps s0 s) :
    Keeps s0 (State.unloadCluster s c) := by
  unfold State.unloadCluster; try dsimp only
  repeat' first | (intro; try dsimp only) | (with_reducible first
    | assumption | apply State.hubsRefresh_keeps | apply State.freeUnits_keeps | apply State.emptyCluster_keeps) | split

theorem State.writeImage_keeps {s0 : State} (s : State) (c : Fin 4) (img : List Byte) (h : Keeps s0 s) :
    Keeps s0 (State.writeImage s c img) := by
  unfold State.writeImage; try dsimp only
  repeat' first | (intro; try dsimp only) | (with_reducible first
    | assumption | apply State.updCl_keeps | apply State.clearSpad_keeps | apply State.engines_keeps
    | exact keeps_mk (Keeps.pending (by assumption)) (Keeps.shm (by assumption))) | split

theorem State.jobImage_keeps {s0 : State} (s : State) (custom : Bool) (p : List Byte) (h : Keeps s0 s) :
    Keeps s0 (State.jobImage s custom p).2 := by
  unfold State.jobImage; try dsimp only
  repeat' first | (intro; try dsimp only) | (with_reducible first
    | assumption | apply State.rd_keeps | apply keeps_ite) | split

theorem State.powerFor_keeps {s0 : State} (s : State) (c : Fin 4) (h : Keeps s0 s) :
    Keeps s0 (State.powerFor s c) := by
  unfold State.powerFor; try dsimp only
  repeat' first | (intro; try dsimp only) | (with_reducible first
    | assumption | apply State.domainUp_keeps | apply State.domainNeed_keeps | apply keeps_foldl) | split

theorem State.loadEnd_keeps {s0 : State} (s : State) (c : Fin 4) (h : Keeps s0 s) :
    Keeps s0 (State.loadEnd s c) := by
  unfold State.loadEnd; try dsimp only
  repeat' first | (intro; try dsimp only) | (with_reducible first
    | assumption | apply State.endJob_keeps | apply State.failJob_keeps | apply State.domainNeed_keeps
    | apply State.load_keeps | apply State.joinUnits_keeps | apply State.emptyCluster_keeps
    | apply State.writeImage_keeps | apply State.jobImage_keeps | apply State.powerFor_keeps | apply keeps_ite
    | refine keeps_snd (by assumption) ?_ | refine keeps_thd (by assumption) ?_
    | refine keeps_fst (by assumption) ?_ | refine keeps_next (by assumption) ?_
    | refine keeps_ok (by assumption) ?_ | refine keeps_some (by assumption) ?_) | split

theorem State.defaultUnits_keeps {s0 : State} (s : State) (c : Fin 4) (h : Keeps s0 s) :
    Keeps s0 (State.defaultUnits s c) := by
  unfold State.defaultUnits; try dsimp only
  repeat' first | (intro; try dsimp only) | (with_reducible first
    | assumption | apply State.updPort_keeps | apply State.updCan_keeps | apply State.updPio_keeps
    | apply State.updDi_keeps | apply State.updDo_keeps | apply State.each_keeps
    | exact keeps_mk (Keeps.pending (by assumption)) (Keeps.shm (by assumption)) | apply keeps_ite) | split

theorem State.clusterResetEnd_keeps {s0 : State} (s : State) (c : Fin 4) (copyDamaged : Bool) (h : Keeps s0 s) :
    Keeps s0 (State.clusterResetEnd s c copyDamaged) := by
  unfold State.clusterResetEnd; try dsimp only
  repeat' first | (intro; try dsimp only) | (with_reducible first
    | assumption | apply State.updCl_keeps | apply State.draw_keeps | apply State.sramUncorr_keeps
    | apply State.endJob_keeps | apply State.failJob_keeps | apply State.unloadCluster_keeps
    | apply State.writeImage_keeps | apply State.defaultUnits_keeps
    | exact keeps_mk (Keeps.pending (by assumption)) (Keeps.shm (by assumption)) | apply keeps_id
    | apply keeps_ite | refine keeps_snd (by assumption) ?_ | refine keeps_thd (by assumption) ?_
    | refine keeps_fst (by assumption) ?_ | refine keeps_next (by assumption) ?_
    | refine keeps_ok (by assumption) ?_ | refine keeps_some (by assumption) ?_) | split

theorem State.start_keeps {s0 : State} (s : State) (m : Msg) (h : Keeps s0 s) :
    RKeeps s0 (State.start s m) := by
  unfold State.start; try dsimp only
  repeat' first | (intro; try dsimp only) | (with_reducible first
    | assumption | apply State.startPersonality_keeps | apply State.tryOrphan_keeps | apply yes_keeps
    | apply no_keeps | apply State.powerFor_keeps | apply rkeeps_ok | apply rkeeps_yes | apply rkeeps_yesData
    | apply rkeeps_no | apply rkeeps_bad | apply rkeeps_error | apply rkeeps_check | apply rkeeps_withSettings
    | apply rkeeps_ite | apply pkeeps_some | apply pkeeps_none | apply keeps_ite
    | refine keeps_snd (by assumption) ?_ | refine keeps_thd (by assumption) ?_
    | refine keeps_fst (by assumption) ?_ | refine keeps_next (by assumption) ?_
    | refine keeps_ok (by assumption) ?_ | refine keeps_some (by assumption) ?_) | split

theorem State.stopCmd_keeps {s0 : State} (s : State) (m : Msg) (h : Keeps s0 s) :
    RKeeps s0 (State.stopCmd s m) := by
  unfold State.stopCmd; try dsimp only
  repeat' first | (intro; try dsimp only) | (with_reducible first
    | assumption | apply State.stopPersonality_keeps | apply State.pairStopped_keeps | apply yes_keeps
    | apply no_keeps | apply rkeeps_ok | apply rkeeps_yes | apply rkeeps_yesData | apply rkeeps_no
    | apply rkeeps_bad | apply rkeeps_error | apply rkeeps_check | apply rkeeps_withSettings | apply rkeeps_ite
    | apply keeps_ite) | split

theorem State.unloadCmd_keeps {s0 : State} (s : State) (m : Msg) (h : Keeps s0 s) :
    RKeeps s0 (State.unloadCmd s m) := by
  unfold State.unloadCmd; try dsimp only
  repeat' first | (intro; try dsimp only) | (with_reducible first
    | assumption | apply State.sourceGone_keeps | apply yes_keeps | apply no_keeps
    | apply State.unloadCluster_keeps | apply rkeeps_ok | apply rkeeps_yes | apply rkeeps_yesData
    | apply rkeeps_no | apply rkeeps_bad | apply rkeeps_error | apply rkeeps_check | apply rkeeps_withSettings
    | apply rkeeps_ite | apply keeps_ite) | split

theorem State.cycleConfig_keeps {s0 : State} (s : State) (m : Msg) (h : Keeps s0 s) :
    RKeeps s0 (State.cycleConfig s m) := by
  unfold State.cycleConfig; try dsimp only
  repeat' first | (intro; try dsimp only) | (with_reducible first
    | assumption | apply State.updCl_keeps | apply yes_keeps | apply no_keeps
    | exact keeps_mk (Keeps.pending (by assumption)) (Keeps.shm (by assumption)) | apply rkeeps_ok
    | apply rkeeps_yes | apply rkeeps_yesData | apply rkeeps_no | apply rkeeps_bad | apply rkeeps_error
    | apply rkeeps_check | apply rkeeps_withSettings | apply rkeeps_ite | apply keeps_ite) | split

theorem State.resetPort_keeps {s0 : State} (s : State) (p : Fin 12) (h : Keeps s0 s) :
    Keeps s0 (State.resetPort s p) := by
  unfold State.resetPort; try dsimp only
  repeat' first | (intro; try dsimp only) | (with_reducible first
    | assumption | apply State.flushPort_keeps | apply State.setPort_keeps | apply keeps_ite) | split

theorem State.resetPi_keeps {s0 : State} (s : State) (c : Fin 4) (h : Keeps s0 s) :
    Keeps s0 (State.resetPi s c) := by
  unfold State.resetPi; try dsimp only
  repeat' first | (intro; try dsimp only) | (with_reducible first
    | assumption | apply State.updPi_keeps | apply State.pbInit_keeps
    | exact keeps_mk (Keeps.pending (by assumption)) (Keeps.shm (by assumption)) | apply keeps_ite) | split

theorem State.resetTime_keeps {s0 : State} (s : State) (h : Keeps s0 s) :
    Keeps s0 (State.resetTime s) := by
  unfold State.resetTime; try dsimp only
  repeat' first | (intro; try dsimp only) | (with_reducible first
    | assumption | apply State.updTim_keeps | apply State.putTstat_keeps | apply State.enterHoldover_keeps
    | exact keeps_mk (Keeps.pending (by assumption)) (Keeps.shm (by assumption)) | apply keeps_ite) | split

theorem State.resetJobs_keeps {s0 : State} (s : State) (t : W16) (h : Keeps s0 s) :
    Keeps s0 (State.resetJobs s t) := by
  unfold State.resetJobs; try dsimp only
  repeat' first | (intro; try dsimp only) | (with_reducible first
    | assumption | apply State.endJob_keeps | apply State.load_keeps | apply keeps_foldl
    | refine keeps_snd (by assumption) ?_ | refine keeps_thd (by assumption) ?_
    | refine keeps_fst (by assumption) ?_ | refine keeps_next (by assumption) ?_
    | refine keeps_ok (by assumption) ?_ | refine keeps_some (by assumption) ?_) | split

theorem State.resetCan_keeps {s0 : State} (s : State) (n : Fin 4) (h : Keeps s0 s) :
    Keeps s0 (State.resetCan s n) := by
  unfold State.resetCan; try dsimp only
  repeat' first | (intro; try dsimp only) | (with_reducible first
    | assumption | apply State.canFlush_keeps | apply State.canIdle_keeps | apply State.canGo_keeps
    | apply keeps_ite) | split

theorem State.resetObj_keeps {s0 : State} (s : State) (cls i : Nat) (h : Keeps s0 s) :
    Keeps s0 (State.resetObj s cls i) := by
  unfold State.resetObj; try dsimp only
  repeat' first | (intro; try dsimp only) | (with_reducible first
    | assumption | apply State.updPio_keeps | apply State.updHq_keeps | apply State.updMbx_keeps
    | apply State.updEmb_keeps | apply State.updDi_keeps | apply State.fbqMoved_keeps
    | apply State.pioIdle_keeps | apply State.pioGo_keeps | apply State.linkGo_keeps
    | apply State.resetOutput_keeps | apply State.resetPort_keeps | apply State.resetPi_keeps
    | apply State.resetTime_keeps | apply State.resetCan_keeps
    | exact keeps_mk (Keeps.pending (by assumption)) (Keeps.shm (by assumption)) | apply keeps_ite
    | refine keeps_snd (by assumption) ?_ | refine keeps_thd (by assumption) ?_
    | refine keeps_fst (by assumption) ?_ | refine keeps_next (by assumption) ?_
    | refine keeps_ok (by assumption) ?_ | refine keeps_some (by assumption) ?_) | split

theorem State.resetCmd_keeps {s0 : State} (s : State) (m : Msg) (h : Keeps s0 s) :
    RKeeps s0 (State.resetCmd s m) := by
  unfold State.resetCmd; try dsimp only
  repeat' first | (intro; try dsimp only) | (with_reducible first
    | assumption | apply State.updCl_keeps | apply State.hubsRefresh_keeps | apply State.stopPersonality_keeps
    | apply State.pairStopped_keeps | apply yes_keeps | apply no_keeps | apply State.accept_keeps
    | apply State.loading_keeps | apply State.resetJobs_keeps | apply State.resetObj_keeps
    | exact keeps_mk (Keeps.pending (by assumption)) (Keeps.shm (by assumption)) | apply rkeeps_ok
    | apply rkeeps_yes | apply rkeeps_yesData | apply rkeeps_no | apply rkeeps_bad | apply rkeeps_error
    | apply rkeeps_check | apply rkeeps_withSettings | apply rkeeps_ite | apply pkeeps_some | apply pkeeps_none
    | apply keeps_id | apply keeps_ite | refine keeps_snd (by assumption) ?_
    | refine keeps_thd (by assumption) ?_ | refine keeps_fst (by assumption) ?_
    | refine keeps_next (by assumption) ?_ | refine keeps_ok (by assumption) ?_
    | refine keeps_some (by assumption) ?_) | split

theorem State.resetAfter_keeps {s0 : State} (m : Msg) (s : State) (h : Keeps s0 s) :
    Keeps s0 (State.resetAfter m s) := by
  unfold State.resetAfter; try dsimp only
  repeat' first | (intro; try dsimp only) | (with_reducible first
    | assumption | apply State.moduleReset_keeps | apply keeps_ite) | split

theorem State.loopTick_keeps {s0 : State} (s : State) (p : Fin 12) (h : Keeps s0 s) :
    Keeps s0 (State.loopTick s p) := by
  unfold State.loopTick; try dsimp only
  repeat' first | (intro; try dsimp only) | (with_reducible first
    | assumption | apply State.updPort_keeps
    | exact keeps_mk (Keeps.pending (by assumption)) (Keeps.shm (by assumption)) | apply keeps_ite) | split

theorem State.portUp_keeps {s0 : State} (s : State) (p : Fin 12) (r : LinkRes) (reason : Nat) (h : Keeps s0 s) :
    Keeps s0 (State.portUp s p r reason) := by
  unfold State.portUp; try dsimp only
  repeat' first | (intro; try dsimp only) | (with_reducible first
    | assumption | apply State.updPort_keeps | apply State.pauseCheck_keeps | apply State.setPort_keeps
    | apply State.hubsRefresh_keeps | exact keeps_mk (Keeps.pending (by assumption)) (Keeps.shm (by assumption))
    | apply keeps_ite) | split

theorem State.portLinkUp_keeps {s0 : State} (s : State) (p : Fin 12) (r : LinkRes) (h : Keeps s0 s) :
    Keeps s0 (State.portLinkUp s p r) := by
  unfold State.portLinkUp; try dsimp only
  repeat' first | (intro; try dsimp only) | (with_reducible first
    | assumption | apply State.portUp_keeps | apply keeps_ite) | split

theorem State.portLost_keeps {s0 : State} (s : State) (p : Fin 12) (reason : Nat) (h : Keeps s0 s) :
    Keeps s0 (State.portLost s p reason) := by
  unfold State.portLost; try dsimp only
  repeat' first | (intro; try dsimp only) | (with_reducible first
    | assumption | apply State.setPort_keeps | apply State.hubsRefresh_keeps) | split

theorem State.portLinkLoss_keeps {s0 : State} (s : State) (p : Fin 12) (reason : Nat) (h : Keeps s0 s) :
    Keeps s0 (State.portLinkLoss s p reason) := by
  unfold State.portLinkLoss; try dsimp only
  repeat' first | (intro; try dsimp only) | (with_reducible first
    | assumption | apply State.portLost_keeps | apply keeps_ite) | split

theorem State.trainingRetry_keeps {s0 : State} (s : State) (p : Fin 12) (noCommon : Bool) (h : Keeps s0 s) :
    Keeps s0 (State.trainingRetry s p noCommon) := by
  unfold State.trainingRetry; try dsimp only
  repeat' first | (intro; try dsimp only) | (with_reducible first
    | assumption | apply State.updPort_keeps | apply State.pinc_keeps
    | exact keeps_mk (Keeps.pending (by assumption)) (Keeps.shm (by assumption)) | apply keeps_ite
    | refine keeps_snd (by assumption) ?_ | refine keeps_thd (by assumption) ?_
    | refine keeps_fst (by assumption) ?_ | refine keeps_next (by assumption) ?_
    | refine keeps_ok (by assumption) ?_ | refine keeps_some (by assumption) ?_) | split

theorem State.snrLow_keeps {s0 : State} (s : State) (p : Fin 12) (pair : Fin 4) (margin : W16) (h : Keeps s0 s) :
    Keeps s0 (State.snrLow s p pair margin) := by
  unfold State.snrLow; try dsimp only
  repeat' first | (intro; try dsimp only) | (with_reducible first
    | assumption | apply State.updPort_keeps | apply State.warn_keeps
    | exact keeps_mk (Keeps.pending (by assumption)) (Keeps.shm (by assumption)) | apply keeps_ite) | split

theorem State.impulse_keeps {s0 : State} (s : State) (p : Fin 12) (h : Keeps s0 s) :
    Keeps s0 (State.impulse s p) := by
  unfold State.impulse; try dsimp only
  repeat' first | (intro; try dsimp only) | (with_reducible first
    | assumption | apply State.updPort_keeps
    | exact keeps_mk (Keeps.pending (by assumption)) (Keeps.shm (by assumption)) | apply keeps_ite) | split

theorem State.phyFault_keeps {s0 : State} (s : State) (p : Fin 12) (h : Keeps s0 s) :
    Keeps s0 (State.phyFault s p) := by
  unfold State.phyFault; try dsimp only
  repeat' first | (intro; try dsimp only) | (with_reducible first
    | assumption | apply State.alarm_keeps | apply State.setPort_keeps | apply State.hubsRefresh_keeps
    | apply State.failJob_keeps | apply keeps_foldl | apply keeps_ite) | split

theorem State.plcaClash_keeps {s0 : State} (s : State) (p : Fin 12) (h : Keeps s0 s) :
    Keeps s0 (State.plcaClash s p) := by
  unfold State.plcaClash; try dsimp only
  repeat' first | (intro; try dsimp only) | (with_reducible first
    | assumption | apply State.warn_keeps | apply State.pinc_keeps) | split

theorem State.plcaBeacon_keeps {s0 : State} (s : State) (p : Fin 12) (energy : Bool) (h : Keeps s0 s) :
    Keeps s0 (State.plcaBeacon s p energy) := by
  unfold State.plcaBeacon; try dsimp only
  repeat' first | (intro; try dsimp only) | (with_reducible first
    | assumption | apply State.updPort_keeps | apply State.plcaClash_keeps | apply keeps_ite) | split

theorem State.opportunityEnd_keeps {s0 : State} (s : State) (p : Fin 12) (h : Keeps s0 s) :
    Keeps s0 (State.opportunityEnd s p) := by
  unfold State.opportunityEnd; try dsimp only
  repeat' first | (intro; try dsimp only) | (with_reducible first
    | assumption | apply State.updPort_keeps
    | exact keeps_mk (Keeps.pending (by assumption)) (Keeps.shm (by assumption)) | apply keeps_ite) | split

theorem State.beaconIn_keeps {s0 : State} (s : State) (p : Fin 12) (h : Keeps s0 s) :
    Keeps s0 (State.beaconIn s p) := by
  unfold State.beaconIn; try dsimp only
  repeat' first | (intro; try dsimp only) | (with_reducible first
    | assumption | apply State.updPort_keeps | apply State.portUp_keeps | apply State.plcaClash_keeps
    | apply keeps_ite) | split

theorem State.beaconLost_keeps {s0 : State} (s : State) (p : Fin 12) (h : Keeps s0 s) :
    Keeps s0 (State.beaconLost s p) := by
  unfold State.beaconLost; try dsimp only
  repeat' first | (intro; try dsimp only) | (with_reducible first
    | assumption | apply State.portLost_keeps | apply keeps_ite) | split

theorem State.plcaCollision_keeps {s0 : State} (s : State) (p : Fin 12) (h : Keeps s0 s) :
    Keeps s0 (State.plcaCollision s p) := by
  unfold State.plcaCollision; try dsimp only
  repeat' first | (intro; try dsimp only) | (with_reducible first
    | assumption | apply State.updPort_keeps | apply State.warn_keeps | apply State.pinc_keeps
    | apply State.completeTx_keeps | exact keeps_mk (Keeps.pending (by assumption)) (Keeps.shm (by assumption))
    | apply keeps_ite | refine keeps_snd (by assumption) ?_ | refine keeps_thd (by assumption) ?_
    | refine keeps_fst (by assumption) ?_ | refine keeps_next (by assumption) ?_
    | refine keeps_ok (by assumption) ?_ | refine keeps_some (by assumption) ?_) | split

theorem State.lpiEnter_keeps {s0 : State} (s : State) (p : Fin 12) (h : Keeps s0 s) :
    Keeps s0 (State.lpiEnter s p) := by
  unfold State.lpiEnter; try dsimp only
  repeat' first | (intro; try dsimp only) | (with_reducible first
    | assumption | apply State.updPort_keeps
    | exact keeps_mk (Keeps.pending (by assumption)) (Keeps.shm (by assumption)) | apply keeps_ite) | split

theorem State.lpiWake_keeps {s0 : State} (s : State) (p : Fin 12) (h : Keeps s0 s) :
    Keeps s0 (State.lpiWake s p) := by
  unfold State.lpiWake; try dsimp only
  repeat' first | (intro; try dsimp only) | (with_reducible first
    | assumption | apply State.updPort_keeps
    | exact keeps_mk (Keeps.pending (by assumption)) (Keeps.shm (by assumption))) | split

theorem State.partnerLpi_keeps {s0 : State} (s : State) (p : Fin 12) (line : PartnerLine) (h : Keeps s0 s) :
    Keeps s0 (State.partnerLpi s p line) := by
  unfold State.partnerLpi; try dsimp only
  repeat' first | (intro; try dsimp only) | (with_reducible first
    | assumption | apply State.updPort_keeps
    | exact keeps_mk (Keeps.pending (by assumption)) (Keeps.shm (by assumption)) | apply keeps_ite
    | refine keeps_snd (by assumption) ?_ | refine keeps_thd (by assumption) ?_
    | refine keeps_fst (by assumption) ?_ | refine keeps_next (by assumption) ?_
    | refine keeps_ok (by assumption) ?_ | refine keeps_some (by assumption) ?_) | split

theorem State.pauseEnd_keeps {s0 : State} (s : State) (p : Fin 12) (h : Keeps s0 s) :
    Keeps s0 (State.pauseEnd s p) := by
  unfold State.pauseEnd; try dsimp only
  repeat' first | (intro; try dsimp only) | (with_reducible first
    | assumption | apply State.pauseOver_keeps) | split

theorem State.pauseTick_keeps {s0 : State} (s : State) (p : Fin 12) (h : Keeps s0 s) :
    Keeps s0 (State.pauseTick s p) := by
  unfold State.pauseTick; try dsimp only
  repeat' first | (intro; try dsimp only) | (with_reducible first
    | assumption | apply State.updPort_keeps | apply State.pauseOver_keeps
    | exact keeps_mk (Keeps.pending (by assumption)) (Keeps.shm (by assumption)) | apply keeps_ite) | split

theorem State.pauseAgain_keeps {s0 : State} (s : State) (p : Fin 12) (h : Keeps s0 s) :
    Keeps s0 (State.pauseAgain s p) := by
  unfold State.pauseAgain; try dsimp only
  repeat' first | (intro; try dsimp only) | (with_reducible first
    | assumption | apply State.sendPause_keeps | apply keeps_ite) | split

theorem State.prpAge_keeps {s0 : State} (s : State) (k : Fin 2) (src : BitVec 48) (h : Keeps s0 s) :
    Keeps s0 (State.prpAge s k src) := by
  unfold State.prpAge; try dsimp only
  repeat' first | (intro; try dsimp only) | (with_reducible first
    | assumption | exact keeps_mk (Keeps.pending (by assumption)) (Keeps.shm (by assumption))) | split

theorem State.verify_keeps {s0 : State} (s : State) (p : Fin 12) (ev : VerifyEv) (h : Keeps s0 s) :
    Keeps s0 (State.verify s p ev) := by
  unfold State.verify; try dsimp only
  repeat' first | (intro; try dsimp only) | (with_reducible first
    | assumption | apply State.updPort_keeps | apply State.warn_keeps
    | exact keeps_mk (Keeps.pending (by assumption)) (Keeps.shm (by assumption)) | apply keeps_ite
    | refine keeps_snd (by assumption) ?_ | refine keeps_thd (by assumption) ?_
    | refine keeps_fst (by assumption) ?_ | refine keeps_next (by assumption) ?_
    | refine keeps_ok (by assumption) ?_ | refine keeps_some (by assumption) ?_) | split

theorem State.calStarved_keeps {s0 : State} (s : State) (p : Fin 12) (h : Keeps s0 s) :
    Keeps s0 (State.calStarved s p) := by
  unfold State.calStarved; try dsimp only
  repeat' first | (intro; try dsimp only) | (with_reducible first
    | assumption | apply State.warn_keeps | apply keeps_ite) | split

theorem State.cableEnd_keeps {s0 : State} (s : State) (p : Fin 12) (results : List (Byte × W16)) (h : Keeps s0 s) :
    Keeps s0 (State.cableEnd s p results) := by
  unfold State.cableEnd; try dsimp only
  repeat' first | (intro; try dsimp only) | (with_reducible first
    | assumption | apply State.setPort_keeps | apply State.endJob_keeps | apply keeps_ite
    | refine keeps_snd (by assumption) ?_ | refine keeps_thd (by assumption) ?_
    | refine keeps_fst (by assumption) ?_ | refine keeps_next (by assumption) ?_
    | refine keeps_ok (by assumption) ?_ | refine keeps_some (by assumption) ?_) | split

theorem State.portApply_keeps {s0 : State} (s : State) (p : Fin 12) (xs : List Setting) (h : Keeps s0 s) :
    Keeps s0 (State.portApply s p xs) := by
  unfold State.portApply; try dsimp only
  repeat' first | (intro; try dsimp only) | (with_reducible first
    | assumption | apply State.updPort_keeps | apply State.pauseCheck_keeps | apply State.setPort_keeps
    | apply State.portRestart_keeps | apply State.hubsRefresh_keeps | apply State.configRing_keeps
    | apply keeps_foldl | apply keeps_ite) | split

theorem State.portConfig_keeps {s0 : State} (s : State) (m : Msg) (h : Keeps s0 s) :
    RKeeps s0 (State.portConfig s m) := by
  unfold State.portConfig; try dsimp only
  repeat' first | (intro; try dsimp only) | (with_reducible first
    | assumption | apply yes_keeps | apply no_keeps | apply State.portApply_keeps | apply rkeeps_ok
    | apply rkeeps_yes | apply rkeeps_yesData | apply rkeeps_no | apply rkeeps_bad | apply rkeeps_error
    | apply rkeeps_check | apply rkeeps_withSettings | apply rkeeps_ite | apply pkeeps_some | apply pkeeps_none
    | apply keeps_id | apply keeps_ite | refine keeps_snd (by assumption) ?_
    | refine keeps_thd (by assumption) ?_ | refine keeps_fst (by assumption) ?_
    | refine keeps_next (by assumption) ?_ | refine keeps_ok (by assumption) ?_
    | refine keeps_some (by assumption) ?_) | split

theorem State.portStatus_keeps {s0 : State} (s : State) (m : Msg) (h : Keeps s0 s) :
    RKeeps s0 (State.portStatus s m) := by
  unfold State.portStatus; try dsimp only
  repeat' first | (intro; try dsimp only) | (with_reducible first
    | assumption | apply yesData_keeps | apply rkeeps_ok | apply rkeeps_yes | apply rkeeps_yesData
    | apply rkeeps_no | apply rkeeps_bad | apply rkeeps_error | apply rkeeps_check | apply rkeeps_withSettings
    | apply rkeeps_ite | apply keeps_ite | refine keeps_snd (by assumption) ?_
    | refine keeps_thd (by assumption) ?_ | refine keeps_fst (by assumption) ?_
    | refine keeps_next (by assumption) ?_ | refine keeps_ok (by assumption) ?_
    | refine keeps_some (by assumption) ?_) | split

theorem State.cableTest_keeps {s0 : State} (s : State) (m : Msg) (h : Keeps s0 s) :
    RKeeps s0 (State.cableTest s m) := by
  unfold State.cableTest; try dsimp only
  repeat' first | (intro; try dsimp only) | (with_reducible first
    | assumption | apply State.setPort_keeps | apply yesData_keeps | apply no_keeps | apply State.accept_keeps
    | apply rkeeps_ok | apply rkeeps_yes | apply rkeeps_yesData | apply rkeeps_no | apply rkeeps_bad
    | apply rkeeps_error | apply rkeeps_check | apply rkeeps_withSettings | apply rkeeps_ite | apply keeps_ite
    | refine keeps_snd (by assumption) ?_ | refine keeps_thd (by assumption) ?_
    | refine keeps_fst (by assumption) ?_ | refine keeps_next (by assumption) ?_
    | refine keeps_ok (by assumption) ?_ | refine keeps_some (by assumption) ?_) | split

theorem State.queueMap_keeps {s0 : State} (s : State) (m : Msg) (h : Keeps s0 s) :
    RKeeps s0 (State.queueMap s m) := by
  unfold State.queueMap; try dsimp only
  repeat' first | (intro; try dsimp only) | (with_reducible first
    | assumption | apply State.updPort_keeps | apply yes_keeps | apply no_keeps | apply State.configRing_keeps
    | exact keeps_mk (Keeps.pending (by assumption)) (Keeps.shm (by assumption)) | apply rkeeps_ok
    | apply rkeeps_yes | apply rkeeps_yesData | apply rkeeps_no | apply rkeeps_bad | apply rkeeps_error
    | apply rkeeps_check | apply rkeeps_withSettings | apply rkeeps_ite | apply keeps_ite) | split

theorem State.gateList_keeps {s0 : State} (s : State) (m : Msg) (h : Keeps s0 s) :
    RKeeps s0 (State.gateList s m) := by
  unfold State.gateList; try dsimp only
  repeat' first | (intro; try dsimp only) | (with_reducible first
    | assumption | apply State.updPort_keeps | apply Passing.take_keeps | apply yes_keeps | apply no_keeps
    | apply State.configRing_keeps | exact keeps_mk (Keeps.pending (by assumption)) (Keeps.shm (by assumption))
    | apply rkeeps_ok | apply rkeeps_yes | apply rkeeps_yesData | apply rkeeps_no | apply rkeeps_bad
    | apply rkeeps_error | apply rkeeps_check | apply rkeeps_withSettings | apply rkeeps_ite | apply pkeeps_some
    | apply pkeeps_none | apply keeps_ite) | split

theorem State.preemptConfig_keeps {s0 : State} (s : State) (m : Msg) (h : Keeps s0 s) :
    RKeeps s0 (State.preemptConfig s m) := by
  unfold State.preemptConfig; try dsimp only
  repeat' first | (intro; try dsimp only) | (with_reducible first
    | assumption | apply State.updPort_keeps | apply yes_keeps | apply no_keeps | apply State.configRing_keeps
    | exact keeps_mk (Keeps.pending (by assumption)) (Keeps.shm (by assumption)) | apply keeps_foldl
    | apply rkeeps_ok | apply rkeeps_yes | apply rkeeps_yesData | apply rkeeps_no | apply rkeeps_bad
    | apply rkeeps_error | apply rkeeps_check | apply rkeeps_withSettings | apply rkeeps_ite | apply keeps_ite) | split

theorem State.piDefine_keeps {s0 : State} (s : State) (m : Msg) (h : Keeps s0 s) :
    RKeeps s0 (State.piDefine s m) := by
  unfold State.piDefine; try dsimp only
  repeat' first | (intro; try dsimp only) | (with_reducible first
    | assumption | apply State.updPi_keeps | apply State.pbInit_keeps | apply State.watchdog_keeps
    | apply yesData_keeps | apply no_keeps | apply rkeeps_ok | apply rkeeps_yes | apply rkeeps_yesData
    | apply rkeeps_no | apply rkeeps_bad | apply rkeeps_error | apply rkeeps_check | apply rkeeps_withSettings
    | apply rkeeps_ite | apply keeps_ite) | split

theorem State.piMap_keeps {s0 : State} (s : State) (m : Msg) (h : Keeps s0 s) :
    RKeeps s0 (State.piMap s m) := by
  unfold State.piMap; try dsimp only
  repeat' first | (intro; try dsimp only) | (with_reducible first
    | assumption | apply State.updCl_keeps | apply yes_keeps | apply no_keeps
    | exact keeps_mk (Keeps.pending (by assumption)) (Keeps.shm (by assumption)) | apply rkeeps_ok
    | apply rkeeps_yes | apply rkeeps_yesData | apply rkeeps_no | apply rkeeps_bad | apply rkeeps_error
    | apply rkeeps_check | apply rkeeps_withSettings | apply rkeeps_ite | apply keeps_ite) | split

theorem State.piCommit_keeps {s0 : State} (s : State) (m : Msg) (h : Keeps s0 s) :
    RKeeps s0 (State.piCommit s m) := by
  unfold State.piCommit; try dsimp only
  repeat' first | (intro; try dsimp only) | (with_reducible first
    | assumption | apply State.updPi_keeps | apply State.supdb_keeps | apply no_keeps
    | exact keeps_mk (Keeps.pending (by assumption)) (Keeps.shm (by assumption)) | apply rkeeps_ok
    | apply rkeeps_yes | apply rkeeps_yesData | apply rkeeps_no | apply rkeeps_bad | apply rkeeps_error
    | apply rkeeps_check | apply rkeeps_withSettings | apply rkeeps_ite | apply keeps_ite) | split

theorem State.servoMoved_keeps {s0 : State} (s : State) (fresh : Bool) (h : Keeps s0 s) :
    Keeps s0 (State.servoMoved s fresh) := by
  unfold State.servoMoved; try dsimp only
  repeat' first | (intro; try dsimp only) | (with_reducible first
    | assumption | apply State.each_keeps | apply State.silenceCheck_keeps | apply State.silenceSample_keeps
    | apply State.dlServo_keeps | apply keeps_ite) | split

theorem State.timeConfig_keeps {s0 : State} (s : State) (m : Msg) (h : Keeps s0 s) :
    RKeeps s0 (State.timeConfig s m) := by
  unfold State.timeConfig; try dsimp only
  repeat' first | (intro; try dsimp only) | (with_reducible first
    | assumption | apply State.updTim_keeps | apply State.timeApplied_keeps | apply yes_keeps
    | apply State.servoMoved_keeps | exact keeps_mk (Keeps.pending (by assumption)) (Keeps.shm (by assumption))
    | apply keeps_foldl | apply rkeeps_ok | apply rkeeps_yes | apply rkeeps_yesData | apply rkeeps_no
    | apply rkeeps_bad | apply rkeeps_error | apply rkeeps_check | apply rkeeps_withSettings | apply rkeeps_ite) | split

theorem State.timeGet_keeps {s0 : State} (s : State) (x_ : Msg) (h : Keeps s0 s) :
    RKeeps s0 (State.timeGet s x_) := by
  unfold State.timeGet; try dsimp only
  repeat' first | (intro; try dsimp only) | (with_reducible first
    | assumption | apply yesData_keeps | apply rkeeps_ok | apply rkeeps_yes | apply rkeeps_yesData
    | apply rkeeps_no | apply rkeeps_bad | apply rkeeps_error | apply rkeeps_check | apply rkeeps_withSettings
    | apply rkeeps_ite) | split

theorem State.timeAccept_keeps {s0 : State} (s : State) (m : Msg) (h : Keeps s0 s) :
    RKeeps s0 (State.timeAccept s m) := by
  unfold State.timeAccept; try dsimp only
  repeat' first | (intro; try dsimp only) | (with_reducible first
    | assumption | apply State.acceptJump_keeps | apply yesData_keeps | apply no_keeps
    | apply State.servoMoved_keeps | apply rkeeps_ok | apply rkeeps_yes | apply rkeeps_yesData | apply rkeeps_no
    | apply rkeeps_bad | apply rkeeps_error | apply rkeeps_check | apply rkeeps_withSettings | apply rkeeps_ite
    | apply keeps_ite) | split

theorem State.syncPinConfig_keeps {s0 : State} (s : State) (m : Msg) (h : Keeps s0 s) :
    RKeeps s0 (State.syncPinConfig s m) := by
  unfold State.syncPinConfig; try dsimp only
  repeat' first | (intro; try dsimp only) | (with_reducible first
    | assumption | apply State.updTim_keeps | apply State.tinc_keeps | apply Passing.time_keeps
    | apply State.domainUp_keeps | apply yes_keeps
    | exact keeps_mk (Keeps.pending (by assumption)) (Keeps.shm (by assumption)) | apply rkeeps_ok
    | apply rkeeps_yes | apply rkeeps_yesData | apply rkeeps_no | apply rkeeps_bad | apply rkeeps_error
    | apply rkeeps_check | apply rkeeps_withSettings | apply rkeeps_ite | apply keeps_ite) | split

theorem State.ringBases_keeps {s0 : State} (s : State) (c : Fin 4) (h : Keeps s0 s) :
    Keeps s0 (State.ringBases s c) := by
  unfold State.ringBases; try dsimp only
  repeat' first | (intro; try dsimp only) | (with_reducible first
    | assumption | apply State.updPort_keeps
    | exact keeps_mk (Keeps.pending (by assumption)) (Keeps.shm (by assumption)) | apply keeps_foldl
    | apply keeps_ite | refine keeps_snd (by assumption) ?_ | refine keeps_thd (by assumption) ?_
    | refine keeps_fst (by assumption) ?_ | refine keeps_next (by assumption) ?_
    | refine keeps_ok (by assumption) ?_ | refine keeps_some (by assumption) ?_) | split

theorem State.dlConfig_keeps {s0 : State} (s : State) (m : Msg) (h : Keeps s0 s) :
    RKeeps s0 (State.dlConfig s m) := by
  unfold State.dlConfig; try dsimp only
  repeat' first | (intro; try dsimp only) | (with_reducible first
    | assumption | apply State.updCl_keeps | apply State.updDl_keeps | apply yes_keeps | apply no_keeps
    | apply State.ringBases_keeps | exact keeps_mk (Keeps.pending (by assumption)) (Keeps.shm (by assumption))
    | apply keeps_foldl | apply rkeeps_ok | apply rkeeps_yes | apply rkeeps_yesData | apply rkeeps_no
    | apply rkeeps_bad | apply rkeeps_error | apply rkeeps_check | apply rkeeps_withSettings | apply rkeeps_ite
    | apply pkeeps_some | apply pkeeps_none | apply keeps_ite | refine keeps_snd (by assumption) ?_
    | refine keeps_thd (by assumption) ?_ | refine keeps_fst (by assumption) ?_
    | refine keeps_next (by assumption) ?_ | refine keeps_ok (by assumption) ?_
    | refine keeps_some (by assumption) ?_) | split

theorem State.routeLoad_keeps {s0 : State} (s : State) (m : Msg) (h : Keeps s0 s) :
    RKeeps s0 (State.routeLoad s m) := by
  unfold State.routeLoad; try dsimp only
  repeat' first | (intro; try dsimp only) | (with_reducible first
    | assumption | apply State.updDl_keeps | apply State.supdb_keeps | apply yes_keeps | apply no_keeps
    | exact keeps_mk (Keeps.pending (by assumption)) (Keeps.shm (by assumption)) | apply rkeeps_ok
    | apply rkeeps_yes | apply rkeeps_yesData | apply rkeeps_no | apply rkeeps_bad | apply rkeeps_error
    | apply rkeeps_check | apply rkeeps_withSettings | apply rkeeps_ite | apply pkeeps_some | apply pkeeps_none
    | apply keeps_ite | refine keeps_snd (by assumption) ?_ | refine keeps_thd (by assumption) ?_
    | refine keeps_fst (by assumption) ?_ | refine keeps_next (by assumption) ?_
    | refine keeps_ok (by assumption) ?_ | refine keeps_some (by assumption) ?_) | split

theorem State.routeSwitch_keeps {s0 : State} (s : State) (m : Msg) (h : Keeps s0 s) :
    RKeeps s0 (State.routeSwitch s m) := by
  unfold State.routeSwitch; try dsimp only
  repeat' first | (intro; try dsimp only) | (with_reducible first
    | assumption | apply State.updDl_keeps | apply no_keeps | apply State.accept_keeps
    | exact keeps_mk (Keeps.pending (by assumption)) (Keeps.shm (by assumption)) | apply rkeeps_ok
    | apply rkeeps_yes | apply rkeeps_yesData | apply rkeeps_no | apply rkeeps_bad | apply rkeeps_error
    | apply rkeeps_check | apply rkeeps_withSettings | apply rkeeps_ite | apply pkeeps_some | apply pkeeps_none
    | apply keeps_ite) | split

theorem State.routeSwitchEnd_keeps {s0 : State} (s : State) (c : Fin 4) (h : Keeps s0 s) :
    Keeps s0 (State.routeSwitchEnd s c) := by
  unfold State.routeSwitchEnd; try dsimp only
  repeat' first | (intro; try dsimp only) | (with_reducible first
    | assumption | apply State.updDl_keeps | apply State.endJob_keeps
    | exact keeps_mk (Keeps.pending (by assumption)) (Keeps.shm (by assumption)) | apply keeps_ite
    | refine keeps_snd (by assumption) ?_ | refine keeps_thd (by assumption) ?_
    | refine keeps_fst (by assumption) ?_ | refine keeps_next (by assumption) ?_
    | refine keeps_ok (by assumption) ?_ | refine keeps_some (by assumption) ?_) | split

theorem State.dlTopology_keeps {s0 : State} (s : State) (m : Msg) (h : Keeps s0 s) :
    RKeeps s0 (State.dlTopology s m) := by
  unfold State.dlTopology; try dsimp only
  repeat' first | (intro; try dsimp only) | (with_reducible first
    | assumption | apply yesData_keeps | apply no_keeps | apply rkeeps_ok | apply rkeeps_yes
    | apply rkeeps_yesData | apply rkeeps_no | apply rkeeps_bad | apply rkeeps_error | apply rkeeps_check
    | apply rkeeps_withSettings | apply rkeeps_ite | apply keeps_ite) | split

theorem State.tollgatePut_keeps {s0 : State} (s : State) (c : Fin 4) (x : Setting) (h : Keeps s0 s) :
    Keeps s0 (State.tollgatePut s c x) := by
  unfold State.tollgatePut; try dsimp only
  repeat' first | (intro; try dsimp only) | (with_reducible first
    | assumption | apply State.updDl_keeps | apply State.rearm_keeps
    | exact keeps_mk (Keeps.pending (by assumption)) (Keeps.shm (by assumption)) | apply keeps_ite) | split

theorem State.tollgateConfig_keeps {s0 : State} (s : State) (m : Msg) (h : Keeps s0 s) :
    RKeeps s0 (State.tollgateConfig s m) := by
  unfold State.tollgateConfig; try dsimp only
  repeat' first | (intro; try dsimp only) | (with_reducible first
    | assumption | apply State.branchesRefresh_keeps | apply yes_keeps | apply no_keeps
    | apply State.ringBases_keeps | apply State.tollgatePut_keeps | apply keeps_foldl | apply rkeeps_ok
    | apply rkeeps_yes | apply rkeeps_yesData | apply rkeeps_no | apply rkeeps_bad | apply rkeeps_error
    | apply rkeeps_check | apply rkeeps_withSettings | apply rkeeps_ite | apply keeps_ite) | split

theorem State.pairConfig_keeps {s0 : State} (s : State) (m : Msg) (h : Keeps s0 s) :
    RKeeps s0 (State.pairConfig s m) := by
  unfold State.pairConfig; try dsimp only
  repeat' first | (intro; try dsimp only) | (with_reducible first
    | assumption | apply State.updPair_keeps | apply State.updPc_keeps | apply State.supdb_keeps
    | apply State.pairGo_keeps | apply State.domainUp_keeps | apply yes_keeps | apply no_keeps
    | apply keeps_foldl | apply rkeeps_ok | apply rkeeps_yes | apply rkeeps_yesData | apply rkeeps_no
    | apply rkeeps_bad | apply rkeeps_error | apply rkeeps_check | apply rkeeps_withSettings | apply rkeeps_ite
    | apply pkeeps_some | apply pkeeps_none | apply keeps_id | apply keeps_ite
    | refine keeps_snd (by assumption) ?_ | refine keeps_thd (by assumption) ?_
    | refine keeps_fst (by assumption) ?_ | refine keeps_next (by assumption) ?_
    | refine keeps_ok (by assumption) ?_ | refine keeps_some (by assumption) ?_) | split

theorem State.pairApprove_keeps {s0 : State} (s : State) (m : Msg) (h : Keeps s0 s) :
    RKeeps s0 (State.pairApprove s m) := by
  unfold State.pairApprove; try dsimp only
  repeat' first | (intro; try dsimp only) | (with_reducible first
    | assumption | apply State.updPair_keeps | apply State.bulkStart_keeps | apply yes_keeps | apply no_keeps
    | exact keeps_mk (Keeps.pending (by assumption)) (Keeps.shm (by assumption)) | apply rkeeps_ok
    | apply rkeeps_yes | apply rkeeps_yesData | apply rkeeps_no | apply rkeeps_bad | apply rkeeps_error
    | apply rkeeps_check | apply rkeeps_withSettings | apply rkeeps_ite | apply pkeeps_some | apply pkeeps_none
    | apply keeps_ite) | split

theorem State.pairStatus_keeps {s0 : State} (s : State) (x_ : Msg) (h : Keeps s0 s) :
    RKeeps s0 (State.pairStatus s x_) := by
  unfold State.pairStatus; try dsimp only
  repeat' first | (intro; try dsimp only) | (with_reducible first
    | assumption | apply yesData_keeps | apply rkeeps_ok | apply rkeeps_yes | apply rkeeps_yesData
    | apply rkeeps_no | apply rkeeps_bad | apply rkeeps_error | apply rkeeps_check | apply rkeeps_withSettings
    | apply rkeeps_ite) | split

theorem State.pairSwitch_keeps {s0 : State} (s : State) (m : Msg) (h : Keeps s0 s) :
    RKeeps s0 (State.pairSwitch s m) := by
  unfold State.pairSwitch; try dsimp only
  repeat' first | (intro; try dsimp only) | (with_reducible first
    | assumption | apply State.updPair_keeps | apply State.updPc_keeps | apply State.pairCtl_keeps
    | apply no_keeps | apply State.accept_keeps
    | exact keeps_mk (Keeps.pending (by assumption)) (Keeps.shm (by assumption)) | apply keeps_foldl
    | apply rkeeps_ok | apply rkeeps_yes | apply rkeeps_yesData | apply rkeeps_no | apply rkeeps_bad
    | apply rkeeps_error | apply rkeeps_check | apply rkeeps_withSettings | apply rkeeps_ite | apply pkeeps_some
    | apply pkeeps_none | apply keeps_ite) | split

theorem State.pairSwitchEnd_keeps {s0 : State} (s : State) (h : Keeps s0 s) :
    Keeps s0 (State.pairSwitchEnd s) := by
  unfold State.pairSwitchEnd; try dsimp only
  repeat' first | (intro; try dsimp only) | (with_reducible first
    | assumption | apply State.endJob_keeps | apply keeps_ite | refine keeps_snd (by assumption) ?_
    | refine keeps_thd (by assumption) ?_ | refine keeps_fst (by assumption) ?_
    | refine keeps_next (by assumption) ?_ | refine keeps_ok (by assumption) ?_
    | refine keeps_some (by assumption) ?_) | split

theorem State.groupConfig_keeps {s0 : State} (s : State) (m : Msg) (h : Keeps s0 s) :
    RKeeps s0 (State.groupConfig s m) := by
  unfold State.groupConfig; try dsimp only
  repeat' first | (intro; try dsimp only) | (with_reducible first
    | assumption | apply State.updPair_keeps | apply State.linkGo_keeps | apply State.domainUp_keeps
    | apply yes_keeps | apply no_keeps
    | exact keeps_mk (Keeps.pending (by assumption)) (Keeps.shm (by assumption)) | apply rkeeps_ok
    | apply rkeeps_yes | apply rkeeps_yesData | apply rkeeps_no | apply rkeeps_bad | apply rkeeps_error
    | apply rkeeps_check | apply rkeeps_withSettings | apply rkeeps_ite | apply keeps_ite) | split

theorem State.canConfig_keeps {s0 : State} (s : State) (m : Msg) (h : Keeps s0 s) :
    RKeeps s0 (State.canConfig s m) := by
  unfold State.canConfig; try dsimp only
  repeat' first | (intro; try dsimp only) | (with_reducible first
    | assumption | apply State.updCan_keeps | apply State.canIdle_keeps | apply State.canGo_keeps
    | apply yes_keeps | apply no_keeps | apply State.configRing_keeps
    | exact keeps_mk (Keeps.pending (by assumption)) (Keeps.shm (by assumption)) | apply keeps_foldl
    | apply rkeeps_ok | apply rkeeps_yes | apply rkeeps_yesData | apply rkeeps_no | apply rkeeps_bad
    | apply rkeeps_error | apply rkeeps_check | apply rkeeps_withSettings | apply rkeeps_ite | apply keeps_ite) | split

theorem State.canStatus_keeps {s0 : State} (s : State) (m : Msg) (h : Keeps s0 s) :
    RKeeps s0 (State.canStatus s m) := by
  unfold State.canStatus; try dsimp only
  repeat' first | (intro; try dsimp only) | (with_reducible first
    | assumption | apply yesData_keeps | apply rkeeps_ok | apply rkeeps_yes | apply rkeeps_yesData
    | apply rkeeps_no | apply rkeeps_bad | apply rkeeps_error | apply rkeeps_check | apply rkeeps_withSettings
    | apply rkeeps_ite) | split

theorem State.canFilter_keeps {s0 : State} (s : State) (m : Msg) (h : Keeps s0 s) :
    RKeeps s0 (State.canFilter s m) := by
  unfold State.canFilter; try dsimp only
  repeat' first | (intro; try dsimp only) | (with_reducible first
    | assumption | apply State.updCan_keeps | apply yes_keeps | apply no_keeps | apply State.configRing_keeps
    | apply rkeeps_ok | apply rkeeps_yes | apply rkeeps_yesData | apply rkeeps_no | apply rkeeps_bad
    | apply rkeeps_error | apply rkeeps_check | apply rkeeps_withSettings | apply rkeeps_ite | apply keeps_ite) | split

theorem State.canAbort_keeps {s0 : State} (s : State) (m : Msg) (h : Keeps s0 s) :
    RKeeps s0 (State.canAbort s m) := by
  unfold State.canAbort; try dsimp only
  repeat' first | (intro; try dsimp only) | (with_reducible first
    | assumption | apply State.canAbortMask_keeps | apply yesData_keeps | apply no_keeps | apply rkeeps_ok
    | apply rkeeps_yes | apply rkeeps_yesData | apply rkeeps_no | apply rkeeps_bad | apply rkeeps_error
    | apply rkeeps_check | apply rkeeps_withSettings | apply rkeeps_ite | apply keeps_ite) | split

theorem State.pioConfig_keeps {s0 : State} (s : State) (m : Msg) (h : Keeps s0 s) :
    RKeeps s0 (State.pioConfig s m) := by
  unfold State.pioConfig; try dsimp only
  repeat' first | (intro; try dsimp only) | (with_reducible first
    | assumption | apply State.updPio_keeps | apply yes_keeps | apply no_keeps | apply State.configRing_keeps
    | apply State.start_keeps | apply rkeeps_ok | apply rkeeps_yes | apply rkeeps_yesData | apply rkeeps_no
    | apply rkeeps_bad | apply rkeeps_error | apply rkeeps_check | apply rkeeps_withSettings | apply rkeeps_ite
    | apply keeps_ite) | split

theorem State.pioProgram_keeps {s0 : State} (s : State) (m : Msg) (h : Keeps s0 s) :
    RKeeps s0 (State.pioProgram s m) := by
  unfold State.pioProgram; try dsimp only
  repeat' first | (intro; try dsimp only) | (with_reducible first
    | assumption | apply State.updPio_keeps | apply yes_keeps | apply rkeeps_ok | apply rkeeps_yes
    | apply rkeeps_yesData | apply rkeeps_no | apply rkeeps_bad | apply rkeeps_error | apply rkeeps_check
    | apply rkeeps_withSettings | apply rkeeps_ite) | split

theorem State.pioStatus_keeps {s0 : State} (s : State) (m : Msg) (h : Keeps s0 s) :
    RKeeps s0 (State.pioStatus s m) := by
  unfold State.pioStatus; try dsimp only
  repeat' first | (intro; try dsimp only) | (with_reducible first
    | assumption | apply yesData_keeps | apply rkeeps_ok | apply rkeeps_yes | apply rkeeps_yesData
    | apply rkeeps_no | apply rkeeps_bad | apply rkeeps_error | apply rkeeps_check | apply rkeeps_withSettings
    | apply rkeeps_ite) | split

theorem State.fioConfig_keeps {s0 : State} (s : State) (m : Msg) (h : Keeps s0 s) :
    RKeeps s0 (State.fioConfig s m) := by
  unfold State.fioConfig; try dsimp only
  repeat' first | (intro; try dsimp only) | (with_reducible first
    | assumption | apply yes_keeps | exact keeps_mk (Keeps.pending (by assumption)) (Keeps.shm (by assumption))
    | apply keeps_foldl | apply rkeeps_ok | apply rkeeps_yes | apply rkeeps_yesData | apply rkeeps_no
    | apply rkeeps_bad | apply rkeeps_error | apply rkeeps_check | apply rkeeps_withSettings | apply rkeeps_ite
    | apply keeps_ite) | split

theorem State.fioRing_keeps {s0 : State} (s : State) (cls : Nat) (action : Nat) (xs : List Setting) (h : Keeps s0 s) :
    Keeps s0 (State.fioRing s cls action xs) := by
  unfold State.fioRing; try dsimp only
  repeat' first | (intro; try dsimp only) | (with_reducible first
    | assumption | apply State.each_keeps | apply State.configRing_keeps | apply keeps_ite) | split

theorem State.thresholdsNow_keeps {s0 : State} (s : State) (h : Keeps s0 s) :
    Keeps s0 (State.thresholdsNow s) := by
  unfold State.thresholdsNow; try dsimp only
  repeat' first | (intro; try dsimp only) | (with_reducible first
    | assumption | apply State.thresholds_keeps) | split

theorem State.diAct_keeps {s0 : State} (s : State) (x : Setting) (h : Keeps s0 s) :
    Keeps s0 (State.diAct s x) := by
  unfold State.diAct; try dsimp only
  repeat' first | (intro; try dsimp only) | (with_reducible first
    | assumption | apply State.updDi_keeps | apply State.draw_keeps | apply State.diEdgeAt_keeps
    | apply State.thresholdsNow_keeps
    | exact keeps_mk (Keeps.pending (by assumption)) (Keeps.shm (by assumption)) | apply keeps_ite
    | refine keeps_snd (by assumption) ?_ | refine keeps_thd (by assumption) ?_
    | refine keeps_fst (by assumption) ?_ | refine keeps_next (by assumption) ?_
    | refine keeps_ok (by assumption) ?_ | refine keeps_some (by assumption) ?_) | split

theorem State.withChannels_keeps {s0 : State} (s : State) (m : Msg) (cls : Nat) (ok : List Setting → Setting → Bool) (f : List Setting → Reply) (h : Keeps s0 s) (hf : ∀ t0, RKeeps s0 (f t0)) :
    RKeeps s0 (State.withChannels s m cls ok f) := by
  unfold State.withChannels; try dsimp only
  repeat' first | (intro; try dsimp only) | (with_reducible first
    | assumption | apply hf | apply rkeeps_ok | apply rkeeps_yes | apply rkeeps_yesData | apply rkeeps_no
    | apply rkeeps_bad | apply rkeeps_error | apply rkeeps_check | apply rkeeps_withSettings | apply rkeeps_ite
    | apply pkeeps_some | apply pkeeps_none | refine keeps_snd (by assumption) ?_
    | refine keeps_thd (by assumption) ?_ | refine keeps_fst (by assumption) ?_
    | refine keeps_next (by assumption) ?_ | refine keeps_ok (by assumption) ?_
    | refine keeps_some (by assumption) ?_) | split

theorem State.diConfig_keeps {s0 : State} (s : State) (m : Msg) (h : Keeps s0 s) :
    RKeeps s0 (State.diConfig s m) := by
  unfold State.diConfig; try dsimp only
  repeat' first | (intro; try dsimp only) | (with_reducible first
    | assumption | apply yes_keeps | apply no_keeps | apply State.fioRing_keeps | apply State.diAct_keeps
    | apply State.withChannels_keeps
    | exact keeps_mk (Keeps.pending (by assumption)) (Keeps.shm (by assumption)) | apply keeps_foldl
    | apply rkeeps_ok | apply rkeeps_yes | apply rkeeps_yesData | apply rkeeps_no | apply rkeeps_bad
    | apply rkeeps_error | apply rkeeps_check | apply rkeeps_withSettings | apply rkeeps_ite | apply pkeeps_some
    | apply pkeeps_none | apply keeps_ite | refine keeps_snd (by assumption) ?_
    | refine keeps_thd (by assumption) ?_ | refine keeps_fst (by assumption) ?_
    | refine keeps_next (by assumption) ?_ | refine keeps_ok (by assumption) ?_
    | refine keeps_some (by assumption) ?_) | split

theorem State.doConfig_keeps {s0 : State} (s : State) (m : Msg) (h : Keeps s0 s) :
    RKeeps s0 (State.doConfig s m) := by
  unfold State.doConfig; try dsimp only
  repeat' first | (intro; try dsimp only) | (with_reducible first
    | assumption | apply State.updDo_keeps | apply State.doRearm_keeps | apply yes_keeps
    | apply State.fioRing_keeps | apply State.withChannels_keeps
    | exact keeps_mk (Keeps.pending (by assumption)) (Keeps.shm (by assumption)) | apply keeps_foldl
    | apply rkeeps_ok | apply rkeeps_yes | apply rkeeps_yesData | apply rkeeps_no | apply rkeeps_bad
    | apply rkeeps_error | apply rkeeps_check | apply rkeeps_withSettings | apply rkeeps_ite | apply keeps_ite) | split

theorem State.doSet_keeps {s0 : State} (s : State) (m : Msg) (h : Keeps s0 s) :
    RKeeps s0 (State.doSet s m) := by
  unfold State.doSet; try dsimp only
  repeat' first | (intro; try dsimp only) | (with_reducible first
    | assumption | apply State.each_keeps | apply State.doApply_keeps | apply yes_keeps | apply no_keeps
    | apply rkeeps_ok | apply rkeeps_yes | apply rkeeps_yesData | apply rkeeps_no | apply rkeeps_bad
    | apply rkeeps_error | apply rkeeps_check | apply rkeeps_withSettings | apply rkeeps_ite | apply pkeeps_some
    | apply pkeeps_none | apply keeps_ite | refine keeps_snd (by assumption) ?_
    | refine keeps_thd (by assumption) ?_ | refine keeps_fst (by assumption) ?_
    | refine keeps_next (by assumption) ?_ | refine keeps_ok (by assumption) ?_
    | refine keeps_some (by assumption) ?_) | split

theorem State.fioStatus_keeps {s0 : State} (s1 : State) (currents : Vec W16 8) (terminals : FieldPins) (h : Keeps s0 s1) :
    RKeeps s0 (State.fioStatus s1 currents terminals) := by
  unfold State.fioStatus; try dsimp only
  repeat' first | (intro; try dsimp only) | (with_reducible first
    | assumption | apply State.updDo_keeps | apply State.each_keeps | apply yesData_keeps
    | exact keeps_mk (Keeps.pending (by assumption)) (Keeps.shm (by assumption)) | apply rkeeps_ok
    | apply rkeeps_yes | apply rkeeps_yesData | apply rkeeps_no | apply rkeeps_bad | apply rkeeps_error
    | apply rkeeps_check | apply rkeeps_withSettings | apply rkeeps_ite) | split

theorem State.statsConfig_keeps {s0 : State} (s : State) (m : Msg) (h : Keeps s0 s) :
    RKeeps s0 (State.statsConfig s m) := by
  unfold State.statsConfig; try dsimp only
  repeat' first | (intro; try dsimp only) | (with_reducible first
    | assumption | apply State.updSup_keeps | apply yes_keeps
    | exact keeps_mk (Keeps.pending (by assumption)) (Keeps.shm (by assumption)) | apply rkeeps_ok
    | apply rkeeps_yes | apply rkeeps_yesData | apply rkeeps_no | apply rkeeps_bad | apply rkeeps_error
    | apply rkeeps_check | apply rkeeps_withSettings | apply rkeeps_ite) | split

theorem State.logConfig_keeps {s0 : State} (s : State) (m : Msg) (h : Keeps s0 s) :
    RKeeps s0 (State.logConfig s m) := by
  unfold State.logConfig; try dsimp only
  repeat' first | (intro; try dsimp only) | (with_reducible first
    | assumption | apply State.updSup_keeps | apply State.notify_keeps | apply yes_keeps
    | exact keeps_mk (Keeps.pending (by assumption)) (Keeps.shm (by assumption)) | apply rkeeps_ok
    | apply rkeeps_yes | apply rkeeps_yesData | apply rkeeps_no | apply rkeeps_bad | apply rkeeps_error
    | apply rkeeps_check | apply rkeeps_withSettings | apply rkeeps_ite) | split

theorem State.logRead_keeps {s0 : State} (s : State) (m : Msg) (h : Keeps s0 s) :
    RKeeps s0 (State.logRead s m) := by
  unfold State.logRead; try dsimp only
  repeat' first | (intro; try dsimp only) | (with_reducible first
    | assumption | apply State.updSup_keeps | apply yesData_keeps | apply rkeeps_ok | apply rkeeps_yes
    | apply rkeeps_yesData | apply rkeeps_no | apply rkeeps_bad | apply rkeeps_error | apply rkeeps_check
    | apply rkeeps_withSettings | apply rkeeps_ite | apply pkeeps_some | apply pkeeps_none
    | refine keeps_snd (by assumption) ?_ | refine keeps_thd (by assumption) ?_
    | refine keeps_fst (by assumption) ?_ | refine keeps_next (by assumption) ?_
    | refine keeps_ok (by assumption) ?_ | refine keeps_some (by assumption) ?_) | split

theorem State.selftestCmd_keeps {s0 : State} (s : State) (m : Msg) (h : Keeps s0 s) :
    RKeeps s0 (State.selftestCmd s m) := by
  exact rkeeps_check (State.accept_keeps s m _ id h fun _ ht => ht)

theorem State.selftestNone_keeps {s0 : State} (s : State) (m : Msg) (h : Keeps s0 s) :
    Keeps s0 (State.selftestNone s m) := by
  unfold State.selftestNone; try dsimp only
  repeat' first | (intro; try dsimp only) | (with_reducible first
    | assumption | apply State.endJob_keeps | apply keeps_ite | refine keeps_snd (by assumption) ?_
    | refine keeps_thd (by assumption) ?_ | refine keeps_fst (by assumption) ?_
    | refine keeps_next (by assumption) ?_ | refine keeps_ok (by assumption) ?_
    | refine keeps_some (by assumption) ?_) | split

theorem State.jobFault_keeps {s0 : State} (s : State) (item addr : Nat) (h : Keeps s0 s) :
    Keeps s0 (State.jobFault s item addr) := by
  unfold State.jobFault; try dsimp only
  repeat' first | (intro; try dsimp only) | (with_reducible first
    | assumption | apply State.alarm_keeps | apply State.sramUncorr_keeps | apply State.testFault_keeps
    | apply State.memFault_keeps | refine keeps_snd (by assumption) ?_ | refine keeps_thd (by assumption) ?_
    | refine keeps_fst (by assumption) ?_ | refine keeps_next (by assumption) ?_
    | refine keeps_ok (by assumption) ?_ | refine keeps_some (by assumption) ?_) | split

theorem State.selftestEnd_keeps {s0 : State} (s : State) (num : W32) (fail : Bool) (item : W16) (addr slices : W32) (h : Keeps s0 s) :
    Keeps s0 (State.selftestEnd s num fail item addr slices) := by
  unfold State.selftestEnd; try dsimp only
  repeat' first | (intro; try dsimp only) | (with_reducible first
    | assumption | apply State.endJob_keeps | apply State.itemDone_keeps | apply State.calStarved_keeps
    | apply State.jobFault_keeps | apply keeps_foldl | apply keeps_ite | refine keeps_snd (by assumption) ?_
    | refine keeps_thd (by assumption) ?_ | refine keeps_fst (by assumption) ?_
    | refine keeps_next (by assumption) ?_ | refine keeps_ok (by assumption) ?_
    | refine keeps_some (by assumption) ?_) | split

theorem State.healthGet_keeps {s0 : State} (s : State) (x : Measured) (h : Keeps s0 s) :
    RKeeps s0 (State.healthGet s x) := by
  unfold State.healthGet; try dsimp only
  repeat' first | (intro; try dsimp only) | (with_reducible first
    | assumption | apply yesData_keeps | apply rkeeps_ok | apply rkeeps_yes | apply rkeeps_yesData
    | apply rkeeps_no | apply rkeeps_bad | apply rkeeps_error | apply rkeeps_check | apply rkeeps_withSettings
    | apply rkeeps_ite | apply keeps_ite) | split

theorem State.pairPeriodic_keeps {s0 : State} (s : State) (h : Keeps s0 s) :
    Keeps s0 (State.pairPeriodic s) := by
  unfold State.pairPeriodic; try dsimp only
  repeat' first | (intro; try dsimp only) | (with_reducible first
    | assumption | apply State.notify_keeps | apply State.healthWarns_keeps | apply keeps_ite) | split

theorem State.notifyPost_keeps {s0 : State} (s : State) (n : Fin 8) (h : Keeps s0 s) :
    Keeps s0 (State.notifyPost s n) := by
  unfold State.notifyPost; try dsimp only
  repeat' first | (intro; try dsimp only) | (with_reducible first
    | assumption | apply State.updMbx_keeps | apply State.postNext_keeps
    | exact keeps_mk (Keeps.pending (by assumption)) (Keeps.shm (by assumption)) | apply keeps_ite) | split

theorem State.attestCmd_keeps {s0 : State} (s : State) (m : Msg) (h : Keeps s0 s) :
    RKeeps s0 (State.attestCmd s m) := by
  exact rkeeps_check (State.accept_keeps s m _ id h fun _ ht => ht)

theorem State.attestEnd_keeps {s0 : State} (s : State) (h : Keeps s0 s) :
    Keeps s0 (State.attestEnd s) := by
  unfold State.attestEnd; try dsimp only
  repeat' first | (intro; try dsimp only) | (with_reducible first
    | assumption | apply State.endJob_keeps
    | exact keeps_mk (Keeps.pending (by assumption)) (Keeps.shm (by assumption))
    | refine keeps_snd (by assumption) ?_ | refine keeps_thd (by assumption) ?_
    | refine keeps_fst (by assumption) ?_ | refine keeps_next (by assumption) ?_
    | refine keeps_ok (by assumption) ?_ | refine keeps_some (by assumption) ?_) | split

theorem State.proposalBeat_keeps {s0 : State} (s : State) (c : Fin 4) (h : Keeps s0 s) :
    Keeps s0 (State.proposalBeat s c).1 := by
  unfold State.proposalBeat; try dsimp only
  repeat' first | (intro; try dsimp only) | (with_reducible first
    | assumption | apply State.updDl_keeps | apply State.routeResult_keeps
    | exact keeps_mk (Keeps.pending (by assumption)) (Keeps.shm (by assumption)) | apply keeps_ite
    | refine keeps_snd (by assumption) ?_ | refine keeps_thd (by assumption) ?_
    | refine keeps_fst (by assumption) ?_ | refine keeps_next (by assumption) ?_
    | refine keeps_ok (by assumption) ?_ | refine keeps_some (by assumption) ?_) | split

theorem State.relayRoute_keeps {s0 : State} (s : State) (c : Fin 4) (h : Keeps s0 s) :
    Keeps s0 (State.relayRoute s c).1 := by
  unfold State.relayRoute; try dsimp only
  repeat' first | (intro; try dsimp only) | (with_reducible first
    | assumption | apply State.updDl_keeps
    | exact keeps_mk (Keeps.pending (by assumption)) (Keeps.shm (by assumption)) | apply keeps_ite) | split

theorem State.switchRunBeat_keeps {s0 : State} (s : State) (c : Fin 4) (h : Keeps s0 s) :
    Keeps s0 (State.switchRunBeat s c).1 := by
  unfold State.switchRunBeat; try dsimp only
  repeat' first | (intro; try dsimp only) | (with_reducible first
    | assumption | apply State.updDl_keeps | apply State.warn_keeps | apply State.routeResult_keeps
    | exact keeps_mk (Keeps.pending (by assumption)) (Keeps.shm (by assumption)) | apply keeps_ite
    | refine keeps_snd (by assumption) ?_ | refine keeps_thd (by assumption) ?_
    | refine keeps_fst (by assumption) ?_ | refine keeps_next (by assumption) ?_
    | refine keeps_ok (by assumption) ?_ | refine keeps_some (by assumption) ?_) | split

theorem State.routeBeat_keeps {s0 : State} (s : State) (c : Fin 4) (h : Keeps s0 s) :
    Keeps s0 (State.routeBeat s c).1 := by
  unfold State.routeBeat; try dsimp only
  repeat' first | (intro; try dsimp only) | (with_reducible first
    | assumption | apply State.proposalBeat_keeps | apply State.relayRoute_keeps
    | apply State.switchRunBeat_keeps | refine keeps_snd (by assumption) ?_
    | refine keeps_thd (by assumption) ?_ | refine keeps_fst (by assumption) ?_
    | refine keeps_next (by assumption) ?_ | refine keeps_ok (by assumption) ?_
    | refine keeps_some (by assumption) ?_) | split

theorem State.controllerBeat_keeps {s0 : State} (s : State) (c : Fin 4) (h : Keeps s0 s) :
    Keeps s0 (State.controllerBeat s c) := by
  unfold State.controllerBeat; try dsimp only
  repeat' first | (intro; try dsimp only) | (with_reducible first
    | assumption | apply State.updDl_keeps | apply State.warn_keeps | apply State.sendClaim_keeps
    | exact keeps_mk (Keeps.pending (by assumption)) (Keeps.shm (by assumption)) | apply keeps_ite
    | refine keeps_snd (by assumption) ?_ | refine keeps_thd (by assumption) ?_
    | refine keeps_fst (by assumption) ?_ | refine keeps_next (by assumption) ?_
    | refine keeps_ok (by assumption) ?_ | refine keeps_some (by assumption) ?_) | split

theorem State.applyTakes_keeps {s0 : State} (s : State) (c : Fin 4) (h : Keeps s0 s) :
    Keeps s0 (State.applyTakes s c) := by
  unfold State.applyTakes; try dsimp only
  repeat' first | (intro; try dsimp only) | (with_reducible first
    | assumption | apply State.updDl_keeps
    | exact keeps_mk (Keeps.pending (by assumption)) (Keeps.shm (by assumption)) | apply keeps_ite
    | refine keeps_snd (by assumption) ?_ | refine keeps_thd (by assumption) ?_
    | refine keeps_fst (by assumption) ?_ | refine keeps_next (by assumption) ?_
    | refine keeps_ok (by assumption) ?_ | refine keeps_some (by assumption) ?_) | split

theorem State.sampleInputs_keeps {s0 : State} (s : State) (c : Fin 4) (inputs : List (List Byte)) (h : Keeps s0 s) :
    Keeps s0 (State.sampleInputs s c inputs) := by
  unfold State.sampleInputs; try dsimp only
  repeat' first | (intro; try dsimp only) | (with_reducible first
    | assumption | apply State.wr_keeps | apply Passing.take_keeps | apply Passing.give_keeps
    | apply keeps_foldl | apply keeps_ite) | split

theorem State.inputStatus_keeps {s0 : State} (s : State) (c : Fin 4) (old : W64) (h : Keeps s0 s) :
    Keeps s0 (State.inputStatus s c old) := by
  unfold State.inputStatus; try dsimp only
  repeat' first | (intro; try dsimp only) | (with_reducible first
    | assumption | apply State.updPi_keeps | apply State.wr_keeps | apply Passing.take_keeps
    | exact keeps_mk (Keeps.pending (by assumption)) (Keeps.shm (by assumption))
    | refine keeps_snd (by assumption) ?_ | refine keeps_thd (by assumption) ?_
    | refine keeps_fst (by assumption) ?_ | refine keeps_next (by assumption) ?_
    | refine keeps_ok (by assumption) ?_ | refine keeps_some (by assumption) ?_) | split

theorem State.outputCopy_keeps {s0 : State} (s : State) (c : Fin 4) (h : Keeps s0 s) :
    Keeps s0 (State.outputCopy s c) := by
  unfold State.outputCopy; dsimp only
  have hf : ∀ (l : List MapEntry) (y : State × List Byte), Keeps s0 y.1 → Keeps s0 (l.foldl (fun x m =>
      (x.1.wr (MemRef.spad c) (engCode (engOf c 0)) (m.half (BitVec.toNat (s.cl.at c).cycle % 2)) (x.2.take m.len), x.2.drop m.len)) y).1 := by
    intro l
    induction l with
    | nil => exact fun y hy => hy
    | cons m r ih => exact fun y hy => ih _ (State.wr_keeps _ _ _ _ _ hy)
  split
  · exact h
  · exact hf _ (s, _) h

theorem State.nodeBeat_keeps {s0 : State} (s : State) (c : Fin 4) (old : W64) (inputs : List (List Byte)) (h : Keeps s0 s) :
    Keeps s0 (State.nodeBeat s c old inputs) := by
  unfold State.nodeBeat; try dsimp only
  repeat' first | (intro; try dsimp only) | (with_reducible first
    | assumption | apply State.controllerBeat_keeps | apply State.applyTakes_keeps
    | apply State.sampleInputs_keeps | apply State.inputStatus_keeps | apply State.outputCopy_keeps
    | refine keeps_snd (by assumption) ?_ | refine keeps_thd (by assumption) ?_
    | refine keeps_fst (by assumption) ?_ | refine keeps_next (by assumption) ?_
    | refine keeps_ok (by assumption) ?_ | refine keeps_some (by assumption) ?_) | split

theorem State.beatActions_keeps {s0 : State} (s : State) (c : Fin 4) (old : W64) (inputs : List (List Byte)) (terminals : FieldPins) (h : Keeps s0 s) :
    Keeps s0 (State.beatActions s c old inputs terminals) := by
  unfold State.beatActions; try dsimp only
  repeat' first | (intro; try dsimp only) | (with_reducible first
    | assumption | apply State.updDl_keeps | apply State.evpCl_keeps | apply State.each_keeps
    | apply State.buildCycle_keeps | apply State.hubBeat_keeps | apply State.gateBeat_keeps
    | apply State.windowBeat_keeps | apply State.fioBeat_keeps | apply State.pairBeat_keeps
    | apply State.piBeat_keeps | apply State.snapLatch_keeps | apply State.closeGroup_keeps
    | apply State.routeBeat_keeps | apply State.nodeBeat_keeps
    | exact keeps_mk (Keeps.pending (by assumption)) (Keeps.shm (by assumption))
    | refine keeps_snd (by assumption) ?_ | refine keeps_thd (by assumption) ?_
    | refine keeps_fst (by assumption) ?_ | refine keeps_next (by assumption) ?_
    | refine keeps_ok (by assumption) ?_ | refine keeps_some (by assumption) ?_) | split

theorem State.drumbeat_keeps {s0 : State} (s : State) (c : Fin 4) (merged : Bool) (inputs : List (List Byte)) (terminals : FieldPins) (h : Keeps s0 s) :
    Keeps s0 (State.drumbeat s c merged inputs terminals) := by
  unfold State.drumbeat; try dsimp only
  repeat' first | (intro; try dsimp only) | (with_reducible first
    | assumption | apply State.updCl_keeps | apply State.cadd_keeps | apply State.beatPulses_keeps
    | apply State.settle_keeps | apply State.beatActions_keeps
    | exact keeps_mk (Keeps.pending (by assumption)) (Keeps.shm (by assumption)) | apply keeps_ite) | split

theorem State.listenOut_keeps {s0 : State} (s : State) (c : Fin 4) (h : Keeps s0 s) :
    Keeps s0 (State.listenOut s c) := by
  unfold State.listenOut; try dsimp only
  repeat' first | (intro; try dsimp only) | (with_reducible first
    | assumption | apply State.updDl_keeps | apply State.enterClaim_keeps
    | exact keeps_mk (Keeps.pending (by assumption)) (Keeps.shm (by assumption)) | apply keeps_ite) | split

theorem State.elected_keeps {s0 : State} (s : State) (c : Fin 4) (h : Keeps s0 s) :
    Keeps s0 (State.elected s c) := by
  unfold State.elected; try dsimp only
  repeat' first | (intro; try dsimp only) | (with_reducible first
    | assumption | apply State.notice_keeps | apply State.enterMaster_keeps | apply State.buildCycle_keeps
    | apply keeps_ite) | split

theorem State.masterClaim_keeps {s0 : State} (s : State) (c : Fin 4) (h : Keeps s0 s) :
    Keeps s0 (State.masterClaim s c) := by
  unfold State.masterClaim; try dsimp only
  repeat' first | (intro; try dsimp only) | (with_reducible first
    | assumption | apply State.sendClaim_keeps | apply keeps_ite) | split

theorem State.masterLost_keeps {s0 : State} (s : State) (c : Fin 4) (h : Keeps s0 s) :
    Keeps s0 (State.masterLost s c) := by
  unfold State.masterLost; try dsimp only
  repeat' first | (intro; try dsimp only) | (with_reducible first
    | assumption | apply State.updDl_keeps | apply State.warn_keeps
    | exact keeps_mk (Keeps.pending (by assumption)) (Keeps.shm (by assumption)) | apply keeps_ite) | split

theorem State.dlWatchdog_keeps {s0 : State} (s : State) (c : Fin 4) (h : Keeps s0 s) :
    Keeps s0 (State.dlWatchdog s c) := by
  unfold State.dlWatchdog; try dsimp only
  repeat' first | (intro; try dsimp only) | (with_reducible first
    | assumption | apply State.alarm_keeps | apply State.dlState_keeps | apply keeps_ite) | split

theorem State.cycleMismatch_keeps {s0 : State} (s : State) (c : Fin 4) (h : Keeps s0 s) :
    Keeps s0 (State.cycleMismatch s c) := by
  unfold State.cycleMismatch; try dsimp only
  repeat' first | (intro; try dsimp only) | (with_reducible first
    | assumption | apply State.warn_keeps | apply keeps_ite) | split

theorem State.probeSend_keeps {s0 : State} (s : State) (p : Fin 12) (t1 : W64) (h : Keeps s0 s) :
    Keeps s0 (State.probeSend s p t1) := by
  unfold State.probeSend; try dsimp only
  repeat' first | (intro; try dsimp only) | (with_reducible first
    | assumption | apply State.updPort_keeps | apply State.emitCtrl_keeps
    | exact keeps_mk (Keeps.pending (by assumption)) (Keeps.shm (by assumption))
    | refine keeps_snd (by assumption) ?_ | refine keeps_thd (by assumption) ?_
    | refine keeps_fst (by assumption) ?_ | refine keeps_next (by assumption) ?_
    | refine keeps_ok (by assumption) ?_ | refine keeps_some (by assumption) ?_) | split

theorem State.probeAnswer_keeps {s0 : State} (s : State) (p : Fin 12) (t2 t3 : W64) (h : Keeps s0 s) :
    Keeps s0 (State.probeAnswer s p t2 t3) := by
  unfold State.probeAnswer; try dsimp only
  repeat' first | (intro; try dsimp only) | (with_reducible first
    | assumption | apply State.emitCtrl_keeps | refine keeps_snd (by assumption) ?_
    | refine keeps_thd (by assumption) ?_ | refine keeps_fst (by assumption) ?_
    | refine keeps_next (by assumption) ?_ | refine keeps_ok (by assumption) ?_
    | refine keeps_some (by assumption) ?_) | split

theorem State.probeResult_keeps {s0 : State} (s : State) (p : Fin 12) (t2 t3 t4 : W64) (h : Keeps s0 s) :
    Keeps s0 (State.probeResult s p t2 t3 t4) := by
  unfold State.probeResult; try dsimp only
  repeat' first | (intro; try dsimp only) | (with_reducible first
    | assumption | apply State.updPort_keeps
    | exact keeps_mk (Keeps.pending (by assumption)) (Keeps.shm (by assumption))
    | refine keeps_snd (by assumption) ?_ | refine keeps_thd (by assumption) ?_
    | refine keeps_fst (by assumption) ?_ | refine keeps_next (by assumption) ?_
    | refine keeps_ok (by assumption) ?_ | refine keeps_some (by assumption) ?_) | split

theorem State.returnRelease_keeps {s0 : State} (s : State) (c f : Fin 4) (late : Bool) (h : Keeps s0 s) :
    Keeps s0 (State.returnRelease s c f late) := by
  unfold State.returnRelease; try dsimp only
  repeat' first | (intro; try dsimp only) | (with_reducible first
    | assumption | apply State.updPort_keeps | apply State.each_keeps | apply State.pinc_keeps
    | apply State.emit_keeps | exact keeps_mk (Keeps.pending (by assumption)) (Keeps.shm (by assumption))
    | apply keeps_foldl | apply keeps_ite) | split

theorem State.checkMismatch_keeps {s0 : State} (s : State) (c : Fin 4) (pair : Fin 2) (supplied : BitVec 12) (h : Keeps s0 s) :
    Keeps s0 (State.checkMismatch s c pair supplied) := by
  unfold State.checkMismatch; try dsimp only
  repeat' first | (intro; try dsimp only) | (with_reducible first
    | assumption | apply State.updPair_keeps | apply State.each_keeps | apply State.endFrame_keeps
    | apply State.freeLocks_keeps | apply State.engineFatal_keeps
    | exact keeps_mk (Keeps.pending (by assumption)) (Keeps.shm (by assumption)) | apply keeps_id
    | apply keeps_ite) | split

theorem State.linkUp_keeps {s0 : State} (s : State) (l : Fin 2) (i : PeerInfo) (h : Keeps s0 s) :
    Keeps s0 (State.linkUp s l i) := by
  unfold State.linkUp; try dsimp only
  repeat' first | (intro; try dsimp only) | (with_reducible first
    | assumption | apply State.updPair_keeps | apply State.akSend_keeps | apply State.alarm_keeps
    | apply Passing.take_keeps | apply State.contest_keeps | apply State.linkGo_keeps
    | apply State.bulkStart_keeps | exact keeps_mk (Keeps.pending (by assumption)) (Keeps.shm (by assumption))
    | apply keeps_ite) | split

theorem State.akSignal_keeps {s0 : State} (s : State) (l : Fin 2) (h : Keeps s0 s) :
    Keeps s0 (State.akSignal s l) := by
  unfold State.akSignal; try dsimp only
  repeat' first | (intro; try dsimp only) | (with_reducible first
    | assumption | apply State.linkGo_keeps | apply keeps_ite) | split

theorem State.akDown_keeps {s0 : State} (s : State) (l : Fin 2) (h : Keeps s0 s) :
    Keeps s0 (State.akDown s l) := by
  unfold State.akDown; try dsimp only
  repeat' first | (intro; try dsimp only) | (with_reducible first
    | assumption | apply State.linkGo_keeps) | split

theorem State.beatSend_keeps {s0 : State} (s : State) (l : Fin 2) (h : Keeps s0 s) :
    Keeps s0 (State.beatSend s l) := by
  unfold State.beatSend; try dsimp only
  repeat' first | (intro; try dsimp only) | (with_reducible first
    | assumption | apply State.updPair_keeps | apply State.akSend_keeps
    | exact keeps_mk (Keeps.pending (by assumption)) (Keeps.shm (by assumption)) | apply keeps_ite) | split

theorem State.akTimeSend_keeps {s0 : State} (s : State) (l : Fin 2) (h : Keeps s0 s) :
    Keeps s0 (State.akTimeSend s l) := by
  unfold State.akTimeSend; try dsimp only
  repeat' first | (intro; try dsimp only) | (with_reducible first
    | assumption | apply State.akSend_keeps | apply keeps_ite) | split

theorem State.akTime_keeps {s0 : State} (s : State) (l : Fin 2) (off : W64) (at_ : W32) (master : Option (Fin 4)) (h : Keeps s0 s) :
    Keeps s0 (State.akTime s l off at_ master) := by
  unfold State.akTime; try dsimp only
  repeat' first | (intro; try dsimp only) | (with_reducible first
    | assumption | apply State.updPair_keeps | apply State.servoSample_keeps | apply State.servoMoved_keeps
    | exact keeps_mk (Keeps.pending (by assumption)) (Keeps.shm (by assumption)) | apply keeps_ite) | split

theorem State.bulkSynced_keeps {s0 : State} (s : State) (h : Keeps s0 s) :
    Keeps s0 (State.bulkSynced s) := by
  unfold State.bulkSynced; try dsimp only
  repeat' first | (intro; try dsimp only) | (with_reducible first
    | assumption | apply State.updPair_keeps
    | exact keeps_mk (Keeps.pending (by assumption)) (Keeps.shm (by assumption)) | apply keeps_ite) | split

theorem done_keeps {s0 : State} (s : State) (h : Keeps s0 s) :
    OKeeps s0 (done s) := by
  unfold done; try dsimp only
  repeat' first | (intro; try dsimp only) | (with_reducible first
    | assumption | apply State.settle_keeps | apply okeeps_next | apply okeeps_fault | apply okeeps_ite) | split

theorem State.portsTick_keeps {s0 : State} (s : State) (h : Keeps s0 s) :
    Keeps s0 (State.portsTick s) := by
  unfold State.portsTick; try dsimp only
  repeat' first | (intro; try dsimp only) | (with_reducible first
    | assumption | apply State.each_keeps | apply State.windowHold_keeps | apply State.loopTick_keeps
    | apply State.pauseTick_keeps) | split

theorem State.cansTick_keeps {s0 : State} (s : State) (h : Keeps s0 s) :
    Keeps s0 (State.cansTick s) := by
  unfold State.cansTick; try dsimp only
  repeat' first | (intro; try dsimp only) | (with_reducible first
    | assumption | apply State.each_keeps | apply State.canTick_keeps) | split

theorem State.piosTick_keeps {s0 : State} (s : State) (h : Keeps s0 s) :
    Keeps s0 (State.piosTick s) := by
  unfold State.piosTick; try dsimp only
  repeat' first | (intro; try dsimp only) | (with_reducible first
    | assumption | apply State.updPio_keeps | apply State.each_keeps | apply keeps_ite) | split

theorem State.enginesTick_keeps {s0 : State} (s : State) (h : Keeps s0 s) :
    Keeps s0 (State.enginesTick s) := by
  unfold State.enginesTick; try dsimp only
  repeat' first | (intro; try dsimp only) | (with_reducible first
    | assumption | apply State.each_keeps | apply State.wdtTick_keeps) | split

theorem State.alarmTick_keeps {s0 : State} (s : State) (h : Keeps s0 s) :
    Keeps s0 (State.alarmTick s) := by
  unfold State.alarmTick; try dsimp only
  repeat' first | (intro; try dsimp only) | (with_reducible first
    | assumption | apply State.rtcDue_keeps | apply keeps_ite | refine keeps_snd (by assumption) ?_
    | refine keeps_thd (by assumption) ?_ | refine keeps_fst (by assumption) ?_
    | refine keeps_next (by assumption) ?_ | refine keeps_ok (by assumption) ?_
    | refine keeps_some (by assumption) ?_) | split

theorem idle_keeps {s0 : State} (s : State) (h : Keeps s0 s) :
    Keeps s0 (idle s) := by
  unfold idle; try dsimp only
  repeat' first | (intro; try dsimp only) | (with_reducible first
    | assumption | apply State.updPwr_keeps | apply State.timeTick_keeps | apply State.inReset_keeps
    | apply State.startFault_keeps | apply State.portsTick_keeps | apply State.cansTick_keeps
    | apply State.piosTick_keeps | apply State.enginesTick_keeps | apply State.alarmTick_keeps
    | refine keeps_snd (by assumption) ?_ | refine keeps_thd (by assumption) ?_
    | refine keeps_fst (by assumption) ?_ | refine keeps_next (by assumption) ?_
    | refine keeps_ok (by assumption) ?_ | refine keeps_some (by assumption) ?_) | split

end Sys2Proof.Machine
end

