-- ==== Sys2Proof/Laws/KeepsRows.lean ====
section
/-!
SUPPORT. The meanings of the rows touch neither the queue nor the canonical form of the shared memory.
-/
set_option maxRecDepth 4000
namespace Sys2Proof.Machine
variable {s0 : State}

theorem State.identity_keeps {s0 : State} (s : State) (m : Msg) (h : Keeps s0 s) :
    RKeeps s0 (State.identity s m) := by
  unfold State.identity; try dsimp only
  repeat' first | (intro; try dsimp only) | (with_reducible first
    | assumption | apply yesData_keeps | apply rkeeps_ok | apply rkeeps_yes | apply rkeeps_yesData
    | apply rkeeps_no | apply rkeeps_bad | apply rkeeps_error | apply rkeeps_check | apply rkeeps_withSettings
    | apply rkeeps_ite) | split

theorem execOpenSession_keeps (m : Msg) (s : State) (h : Keeps s0 s) :
    OKeeps s0 (execOpenSession m s) := by
  unfold execOpenSession; try dsimp only
  repeat' first | (intro; try dsimp only) | (with_reducible first
    | assumption | apply State.command_keeps | apply State.openSession_keeps | apply okeeps_next
    | apply okeeps_fault | apply okeeps_ite) | split

theorem execCloseSession_keeps (m : Msg) (s : State) (h : Keeps s0 s) :
    OKeeps s0 (execCloseSession m s) := by
  unfold execCloseSession; try dsimp only
  repeat' first | (intro; try dsimp only) | (with_reducible first
    | assumption | apply State.command_keeps | apply State.closeSession_keeps | apply okeeps_next
    | apply okeeps_fault | apply okeeps_ite) | split

theorem execGetInfo_keeps (m : Msg) (s : State) (h : Keeps s0 s) :
    OKeeps s0 (execGetInfo m s) := by
  unfold execGetInfo; try dsimp only
  repeat' first | (intro; try dsimp only) | (with_reducible first
    | assumption | apply State.command_keeps | apply yesData_keeps | apply okeeps_next | apply okeeps_fault
    | apply okeeps_ite) | split

theorem execGetCaps_keeps (m : Msg) (s : State) (h : Keeps s0 s) :
    OKeeps s0 (execGetCaps m s) := by
  unfold execGetCaps; try dsimp only
  repeat' first | (intro; try dsimp only) | (with_reducible first
    | assumption | apply State.command_keeps | apply yesData_keeps | apply okeeps_next | apply okeeps_fault
    | apply okeeps_ite) | split

theorem execSetPowerState_keeps (m : Msg) (s : State) (h : Keeps s0 s) :
    OKeeps s0 (execSetPowerState m s) := by
  unfold execSetPowerState; try dsimp only
  repeat' first | (intro; try dsimp only) | (with_reducible first
    | assumption | apply State.commandThen_keeps | apply State.setPower_keeps | apply State.powerAfter_keeps
    | apply okeeps_next | apply okeeps_fault | apply okeeps_ite) | split

theorem execResetObject_keeps (m : Msg) (s : State) (h : Keeps s0 s) :
    OKeeps s0 (execResetObject m s) := by
  unfold execResetObject; try dsimp only
  repeat' first | (intro; try dsimp only) | (with_reducible first
    | assumption | apply State.commandThen_keeps | apply State.resetCmd_keeps | apply State.resetAfter_keeps
    | apply okeeps_next | apply okeeps_fault | apply okeeps_ite) | split

theorem execLoadCmd_keeps (m : Msg) (s : State) (h : Keeps s0 s) :
    OKeeps s0 (execLoadCmd m s) := by
  unfold execLoadCmd; try dsimp only
  repeat' first | (intro; try dsimp only) | (with_reducible first
    | assumption | apply State.command_keeps | apply State.load_keeps | apply okeeps_next | apply okeeps_fault
    | apply okeeps_ite) | split

theorem execLoadCustom_keeps (m : Msg) (s : State) (h : Keeps s0 s) :
    OKeeps s0 (execLoadCustom m s) := by
  unfold execLoadCustom; try dsimp only
  repeat' first | (intro; try dsimp only) | (with_reducible first
    | assumption | apply State.command_keeps | apply State.loadCustom_keeps | apply okeeps_next
    | apply okeeps_fault | apply okeeps_ite) | split

theorem execLoadJobEnd_keeps (c : Fin 4) (s : State) (h : Keeps s0 s) :
    OKeeps s0 (execLoadJobEnd c s) := by
  unfold execLoadJobEnd; try dsimp only
  repeat' first | (intro; try dsimp only) | (with_reducible first
    | assumption | apply State.loadEnd_keeps | apply done_keeps | apply okeeps_next | apply okeeps_fault
    | apply okeeps_ite) | split

theorem execClusterResetJobEnd_keeps (c : Fin 4) (copyDamaged : Bool) (s : State) (h : Keeps s0 s) :
    OKeeps s0 (execClusterResetJobEnd c copyDamaged s) := by
  unfold execClusterResetJobEnd; try dsimp only
  repeat' first | (intro; try dsimp only) | (with_reducible first
    | assumption | apply State.clusterResetEnd_keeps | apply done_keeps | apply okeeps_next | apply okeeps_fault
    | apply okeeps_ite) | split

theorem execStartCmd_keeps (m : Msg) (s : State) (h : Keeps s0 s) :
    OKeeps s0 (execStartCmd m s) := by
  unfold execStartCmd; try dsimp only
  repeat' first | (intro; try dsimp only) | (with_reducible first
    | assumption | apply State.command_keeps | apply State.start_keeps | apply okeeps_next | apply okeeps_fault
    | apply okeeps_ite) | split

theorem execStop_keeps (m : Msg) (s : State) (h : Keeps s0 s) :
    OKeeps s0 (execStop m s) := by
  unfold execStop; try dsimp only
  repeat' first | (intro; try dsimp only) | (with_reducible first
    | assumption | apply State.command_keeps | apply State.stopCmd_keeps | apply okeeps_next
    | apply okeeps_fault | apply okeeps_ite) | split

theorem execUnload_keeps (m : Msg) (s : State) (h : Keeps s0 s) :
    OKeeps s0 (execUnload m s) := by
  unfold execUnload; try dsimp only
  repeat' first | (intro; try dsimp only) | (with_reducible first
    | assumption | apply State.command_keeps | apply State.unloadCmd_keeps | apply okeeps_next
    | apply okeeps_fault | apply okeeps_ite) | split

theorem execCycleConfig_keeps (m : Msg) (s : State) (h : Keeps s0 s) :
    OKeeps s0 (execCycleConfig m s) := by
  unfold execCycleConfig; try dsimp only
  repeat' first | (intro; try dsimp only) | (with_reducible first
    | assumption | apply State.command_keeps | apply State.cycleConfig_keeps | apply okeeps_next
    | apply okeeps_fault | apply okeeps_ite) | split

theorem execPortConfig_keeps (m : Msg) (s : State) (h : Keeps s0 s) :
    OKeeps s0 (execPortConfig m s) := by
  unfold execPortConfig; try dsimp only
  repeat' first | (intro; try dsimp only) | (with_reducible first
    | assumption | apply State.command_keeps | apply State.portConfig_keeps | apply okeeps_next
    | apply okeeps_fault | apply okeeps_ite) | split

theorem execPortStatus_keeps (m : Msg) (s : State) (h : Keeps s0 s) :
    OKeeps s0 (execPortStatus m s) := by
  unfold execPortStatus; try dsimp only
  repeat' first | (intro; try dsimp only) | (with_reducible first
    | assumption | apply State.command_keeps | apply State.portStatus_keeps | apply okeeps_next
    | apply okeeps_fault | apply okeeps_ite) | split

theorem execCableTest_keeps (m : Msg) (s : State) (h : Keeps s0 s) :
    OKeeps s0 (execCableTest m s) := by
  unfold execCableTest; try dsimp only
  repeat' first | (intro; try dsimp only) | (with_reducible first
    | assumption | apply State.command_keeps | apply State.cableTest_keeps | apply okeeps_next
    | apply okeeps_fault | apply okeeps_ite) | split

theorem execCableTestEnd_keeps (p : Fin 12) (results : List (Byte × W16)) (s : State) (h : Keeps s0 s) :
    OKeeps s0 (execCableTestEnd p results s) := by
  unfold execCableTestEnd; try dsimp only
  repeat' first | (intro; try dsimp only) | (with_reducible first
    | assumption | apply State.cableEnd_keeps | apply done_keeps | apply okeeps_next | apply okeeps_fault
    | apply okeeps_ite) | split

theorem execQueueMap_keeps (m : Msg) (s : State) (h : Keeps s0 s) :
    OKeeps s0 (execQueueMap m s) := by
  unfold execQueueMap; try dsimp only
  repeat' first | (intro; try dsimp only) | (with_reducible first
    | assumption | apply State.command_keeps | apply State.queueMap_keeps | apply okeeps_next
    | apply okeeps_fault | apply okeeps_ite) | split

theorem execGateList_keeps (m : Msg) (s : State) (h : Keeps s0 s) :
    OKeeps s0 (execGateList m s) := by
  unfold execGateList; try dsimp only
  repeat' first | (intro; try dsimp only) | (with_reducible first
    | assumption | apply State.command_keeps | apply State.gateList_keeps | apply okeeps_next
    | apply okeeps_fault | apply okeeps_ite) | split

theorem execPreemptConfig_keeps (m : Msg) (s : State) (h : Keeps s0 s) :
    OKeeps s0 (execPreemptConfig m s) := by
  unfold execPreemptConfig; try dsimp only
  repeat' first | (intro; try dsimp only) | (with_reducible first
    | assumption | apply State.command_keeps | apply State.preemptConfig_keeps | apply okeeps_next
    | apply okeeps_fault | apply okeeps_ite) | split

theorem execPiDefine_keeps (m : Msg) (s : State) (h : Keeps s0 s) :
    OKeeps s0 (execPiDefine m s) := by
  unfold execPiDefine; try dsimp only
  repeat' first | (intro; try dsimp only) | (with_reducible first
    | assumption | apply State.command_keeps | apply State.piDefine_keeps | apply okeeps_next
    | apply okeeps_fault | apply okeeps_ite) | split

theorem execPiMap_keeps (m : Msg) (s : State) (h : Keeps s0 s) :
    OKeeps s0 (execPiMap m s) := by
  unfold execPiMap; try dsimp only
  repeat' first | (intro; try dsimp only) | (with_reducible first
    | assumption | apply State.command_keeps | apply State.piMap_keeps | apply okeeps_next | apply okeeps_fault
    | apply okeeps_ite) | split

theorem execPiCommit_keeps (m : Msg) (s : State) (h : Keeps s0 s) :
    OKeeps s0 (execPiCommit m s) := by
  unfold execPiCommit; try dsimp only
  repeat' first | (intro; try dsimp only) | (with_reducible first
    | assumption | apply State.command_keeps | apply State.piCommit_keeps | apply okeeps_next
    | apply okeeps_fault | apply okeeps_ite) | split

theorem execTimeConfig_keeps (m : Msg) (s : State) (h : Keeps s0 s) :
    OKeeps s0 (execTimeConfig m s) := by
  unfold execTimeConfig; try dsimp only
  repeat' first | (intro; try dsimp only) | (with_reducible first
    | assumption | apply State.command_keeps | apply State.timeConfig_keeps | apply okeeps_next
    | apply okeeps_fault | apply okeeps_ite) | split

theorem execTimeGet_keeps (m : Msg) (s : State) (h : Keeps s0 s) :
    OKeeps s0 (execTimeGet m s) := by
  unfold execTimeGet; try dsimp only
  repeat' first | (intro; try dsimp only) | (with_reducible first
    | assumption | apply State.command_keeps | apply State.timeGet_keeps | apply okeeps_next
    | apply okeeps_fault | apply okeeps_ite) | split

theorem execTimeAcceptJump_keeps (m : Msg) (s : State) (h : Keeps s0 s) :
    OKeeps s0 (execTimeAcceptJump m s) := by
  unfold execTimeAcceptJump; try dsimp only
  repeat' first | (intro; try dsimp only) | (with_reducible first
    | assumption | apply State.command_keeps | apply State.timeAccept_keeps | apply okeeps_next
    | apply okeeps_fault | apply okeeps_ite) | split

theorem execSyncPinConfig_keeps (m : Msg) (s : State) (h : Keeps s0 s) :
    OKeeps s0 (execSyncPinConfig m s) := by
  unfold execSyncPinConfig; try dsimp only
  repeat' first | (intro; try dsimp only) | (with_reducible first
    | assumption | apply State.command_keeps | apply State.syncPinConfig_keeps | apply okeeps_next
    | apply okeeps_fault | apply okeeps_ite) | split

theorem execDlConfig_keeps (m : Msg) (s : State) (h : Keeps s0 s) :
    OKeeps s0 (execDlConfig m s) := by
  unfold execDlConfig; try dsimp only
  repeat' first | (intro; try dsimp only) | (with_reducible first
    | assumption | apply State.command_keeps | apply State.dlConfig_keeps | apply okeeps_next
    | apply okeeps_fault | apply okeeps_ite) | split

theorem execRouteLoad_keeps (m : Msg) (s : State) (h : Keeps s0 s) :
    OKeeps s0 (execRouteLoad m s) := by
  unfold execRouteLoad; try dsimp only
  repeat' first | (intro; try dsimp only) | (with_reducible first
    | assumption | apply State.command_keeps | apply State.routeLoad_keeps | apply okeeps_next
    | apply okeeps_fault | apply okeeps_ite) | split

theorem execRouteSwitch_keeps (m : Msg) (s : State) (h : Keeps s0 s) :
    OKeeps s0 (execRouteSwitch m s) := by
  unfold execRouteSwitch; try dsimp only
  repeat' first | (intro; try dsimp only) | (with_reducible first
    | assumption | apply State.command_keeps | apply State.routeSwitch_keeps | apply okeeps_next
    | apply okeeps_fault | apply okeeps_ite) | split

theorem execRouteSwitchJobEnd_keeps (c : Fin 4) (s : State) (h : Keeps s0 s) :
    OKeeps s0 (execRouteSwitchJobEnd c s) := by
  unfold execRouteSwitchJobEnd; try dsimp only
  repeat' first | (intro; try dsimp only) | (with_reducible first
    | assumption | apply State.routeSwitchEnd_keeps | apply done_keeps | apply okeeps_next | apply okeeps_fault
    | apply okeeps_ite) | split

theorem execDlTopology_keeps (m : Msg) (s : State) (h : Keeps s0 s) :
    OKeeps s0 (execDlTopology m s) := by
  unfold execDlTopology; try dsimp only
  repeat' first | (intro; try dsimp only) | (with_reducible first
    | assumption | apply State.command_keeps | apply State.dlTopology_keeps | apply okeeps_next
    | apply okeeps_fault | apply okeeps_ite) | split

theorem execTollgateConfig_keeps (m : Msg) (s : State) (h : Keeps s0 s) :
    OKeeps s0 (execTollgateConfig m s) := by
  unfold execTollgateConfig; try dsimp only
  repeat' first | (intro; try dsimp only) | (with_reducible first
    | assumption | apply State.command_keeps | apply State.tollgateConfig_keeps | apply okeeps_next
    | apply okeeps_fault | apply okeeps_ite) | split

theorem execPairConfig_keeps (m : Msg) (s : State) (h : Keeps s0 s) :
    OKeeps s0 (execPairConfig m s) := by
  unfold execPairConfig; try dsimp only
  repeat' first | (intro; try dsimp only) | (with_reducible first
    | assumption | apply State.command_keeps | apply State.pairConfig_keeps | apply okeeps_next
    | apply okeeps_fault | apply okeeps_ite) | split

theorem execPairApprove_keeps (m : Msg) (s : State) (h : Keeps s0 s) :
    OKeeps s0 (execPairApprove m s) := by
  unfold execPairApprove; try dsimp only
  repeat' first | (intro; try dsimp only) | (with_reducible first
    | assumption | apply State.command_keeps | apply State.pairApprove_keeps | apply okeeps_next
    | apply okeeps_fault | apply okeeps_ite) | split

theorem execPairStatus_keeps (m : Msg) (s : State) (h : Keeps s0 s) :
    OKeeps s0 (execPairStatus m s) := by
  unfold execPairStatus; try dsimp only
  repeat' first | (intro; try dsimp only) | (with_reducible first
    | assumption | apply State.command_keeps | apply State.pairStatus_keeps | apply okeeps_next
    | apply okeeps_fault | apply okeeps_ite) | split

theorem execPairSwitch_keeps (m : Msg) (s : State) (h : Keeps s0 s) :
    OKeeps s0 (execPairSwitch m s) := by
  unfold execPairSwitch; try dsimp only
  repeat' first | (intro; try dsimp only) | (with_reducible first
    | assumption | apply State.command_keeps | apply State.pairSwitch_keeps | apply okeeps_next
    | apply okeeps_fault | apply okeeps_ite) | split

theorem execPairSwitchJobEnd_keeps (s : State) (h : Keeps s0 s) :
    OKeeps s0 (execPairSwitchJobEnd s) := by
  unfold execPairSwitchJobEnd; try dsimp only
  repeat' first | (intro; try dsimp only) | (with_reducible first
    | assumption | apply State.pairSwitchEnd_keeps | apply done_keeps | apply okeeps_next | apply okeeps_fault
    | apply okeeps_ite) | split

theorem execGroupConfig_keeps (m : Msg) (s : State) (h : Keeps s0 s) :
    OKeeps s0 (execGroupConfig m s) := by
  unfold execGroupConfig; try dsimp only
  repeat' first | (intro; try dsimp only) | (with_reducible first
    | assumption | apply State.command_keeps | apply State.groupConfig_keeps | apply okeeps_next
    | apply okeeps_fault | apply okeeps_ite) | split

theorem execCanConfig_keeps (m : Msg) (s : State) (h : Keeps s0 s) :
    OKeeps s0 (execCanConfig m s) := by
  unfold execCanConfig; try dsimp only
  repeat' first | (intro; try dsimp only) | (with_reducible first
    | assumption | apply State.command_keeps | apply State.canConfig_keeps | apply okeeps_next
    | apply okeeps_fault | apply okeeps_ite) | split

theorem execCanStatus_keeps (m : Msg) (s : State) (h : Keeps s0 s) :
    OKeeps s0 (execCanStatus m s) := by
  unfold execCanStatus; try dsimp only
  repeat' first | (intro; try dsimp only) | (with_reducible first
    | assumption | apply State.command_keeps | apply State.canStatus_keeps | apply okeeps_next
    | apply okeeps_fault | apply okeeps_ite) | split

theorem execCanFilter_keeps (m : Msg) (s : State) (h : Keeps s0 s) :
    OKeeps s0 (execCanFilter m s) := by
  unfold execCanFilter; try dsimp only
  repeat' first | (intro; try dsimp only) | (with_reducible first
    | assumption | apply State.command_keeps | apply State.canFilter_keeps | apply okeeps_next
    | apply okeeps_fault | apply okeeps_ite) | split

theorem execCanAbort_keeps (m : Msg) (s : State) (h : Keeps s0 s) :
    OKeeps s0 (execCanAbort m s) := by
  unfold execCanAbort; try dsimp only
  repeat' first | (intro; try dsimp only) | (with_reducible first
    | assumption | apply State.command_keeps | apply State.canAbort_keeps | apply okeeps_next
    | apply okeeps_fault | apply okeeps_ite) | split

theorem execPioConfig_keeps (m : Msg) (s : State) (h : Keeps s0 s) :
    OKeeps s0 (execPioConfig m s) := by
  unfold execPioConfig; try dsimp only
  repeat' first | (intro; try dsimp only) | (with_reducible first
    | assumption | apply State.command_keeps | apply State.pioConfig_keeps | apply okeeps_next
    | apply okeeps_fault | apply okeeps_ite) | split

theorem execPioProgram_keeps (m : Msg) (s : State) (h : Keeps s0 s) :
    OKeeps s0 (execPioProgram m s) := by
  unfold execPioProgram; try dsimp only
  repeat' first | (intro; try dsimp only) | (with_reducible first
    | assumption | apply State.command_keeps | apply State.pioProgram_keeps | apply okeeps_next
    | apply okeeps_fault | apply okeeps_ite) | split

theorem execPioStatus_keeps (m : Msg) (s : State) (h : Keeps s0 s) :
    OKeeps s0 (execPioStatus m s) := by
  unfold execPioStatus; try dsimp only
  repeat' first | (intro; try dsimp only) | (with_reducible first
    | assumption | apply State.command_keeps | apply State.pioStatus_keeps | apply okeeps_next
    | apply okeeps_fault | apply okeeps_ite) | split

theorem execFioConfig_keeps (m : Msg) (s : State) (h : Keeps s0 s) :
    OKeeps s0 (execFioConfig m s) := by
  unfold execFioConfig; try dsimp only
  repeat' first | (intro; try dsimp only) | (with_reducible first
    | assumption | apply State.command_keeps | apply State.fioConfig_keeps | apply okeeps_next
    | apply okeeps_fault | apply okeeps_ite) | split

theorem execDiConfig_keeps (m : Msg) (s : State) (h : Keeps s0 s) :
    OKeeps s0 (execDiConfig m s) := by
  unfold execDiConfig; try dsimp only
  repeat' first | (intro; try dsimp only) | (with_reducible first
    | assumption | apply State.command_keeps | apply State.diConfig_keeps | apply okeeps_next
    | apply okeeps_fault | apply okeeps_ite) | split

theorem execDoConfig_keeps (m : Msg) (s : State) (h : Keeps s0 s) :
    OKeeps s0 (execDoConfig m s) := by
  unfold execDoConfig; try dsimp only
  repeat' first | (intro; try dsimp only) | (with_reducible first
    | assumption | apply State.command_keeps | apply State.doConfig_keeps | apply okeeps_next
    | apply okeeps_fault | apply okeeps_ite) | split

theorem execDoSet_keeps (m : Msg) (s : State) (h : Keeps s0 s) :
    OKeeps s0 (execDoSet m s) := by
  unfold execDoSet; try dsimp only
  repeat' first | (intro; try dsimp only) | (with_reducible first
    | assumption | apply State.command_keeps | apply State.doSet_keeps | apply okeeps_next | apply okeeps_fault
    | apply okeeps_ite) | split

theorem execFioStatus_keeps (m : Msg) (currents : Vec W16 8) (terminals : FieldPins) (s : State) (h : Keeps s0 s) :
    OKeeps s0 (execFioStatus m currents terminals s) := by
  unfold execFioStatus; try dsimp only
  repeat' first | (intro; try dsimp only) | (with_reducible first
    | assumption | apply State.command_keeps | apply State.fioStatus_keeps | apply okeeps_next
    | apply okeeps_fault | apply okeeps_ite) | split

theorem execStatsConfig_keeps (m : Msg) (s : State) (h : Keeps s0 s) :
    OKeeps s0 (execStatsConfig m s) := by
  unfold execStatsConfig; try dsimp only
  repeat' first | (intro; try dsimp only) | (with_reducible first
    | assumption | apply State.command_keeps | apply State.statsConfig_keeps | apply okeeps_next
    | apply okeeps_fault | apply okeeps_ite) | split

theorem execLogConfig_keeps (m : Msg) (s : State) (h : Keeps s0 s) :
    OKeeps s0 (execLogConfig m s) := by
  unfold execLogConfig; try dsimp only
  repeat' first | (intro; try dsimp only) | (with_reducible first
    | assumption | apply State.command_keeps | apply State.logConfig_keeps | apply okeeps_next
    | apply okeeps_fault | apply okeeps_ite) | split

theorem execLogRead_keeps (m : Msg) (s : State) (h : Keeps s0 s) :
    OKeeps s0 (execLogRead m s) := by
  unfold execLogRead; try dsimp only
  repeat' first | (intro; try dsimp only) | (with_reducible first
    | assumption | apply State.command_keeps | apply State.logRead_keeps | apply okeeps_next
    | apply okeeps_fault | apply okeeps_ite) | split

theorem execSelftest_keeps (m : Msg) (s : State) (h : Keeps s0 s) :
    OKeeps s0 (execSelftest m s) := by
  unfold execSelftest; try dsimp only
  repeat' first | (intro; try dsimp only) | (with_reducible first
    | assumption | apply State.commandThen_keeps | apply State.selftestCmd_keeps
    | apply State.selftestNone_keeps | apply okeeps_next | apply okeeps_fault | apply okeeps_ite) | split

theorem execSelftestJobEnd_keeps (job : W32) (fail : Bool) (item : W16) (addr : W32) (slices : W32) (s : State) (h : Keeps s0 s) :
    OKeeps s0 (execSelftestJobEnd job fail item addr slices s) := by
  unfold execSelftestJobEnd; try dsimp only
  repeat' first | (intro; try dsimp only) | (with_reducible first
    | assumption | apply State.selftestEnd_keeps | apply done_keeps | apply okeeps_next | apply okeeps_fault
    | apply okeeps_ite) | split

theorem execHealthGet_keeps (m : Msg) (x : Measured) (s : State) (h : Keeps s0 s) :
    OKeeps s0 (execHealthGet m x s) := by
  unfold execHealthGet; try dsimp only
  repeat' first | (intro; try dsimp only) | (with_reducible first
    | assumption | apply State.command_keeps | apply State.healthGet_keeps | apply okeeps_next
    | apply okeeps_fault | apply okeeps_ite) | split

theorem execGetIdentity_keeps (m : Msg) (s : State) (h : Keeps s0 s) :
    OKeeps s0 (execGetIdentity m s) := by
  unfold execGetIdentity; try dsimp only
  repeat' first | (intro; try dsimp only) | (with_reducible first
    | assumption | apply State.command_keeps | apply State.identity_keeps | apply okeeps_next
    | apply okeeps_fault | apply okeeps_ite) | split

theorem execAttest_keeps (m : Msg) (s : State) (h : Keeps s0 s) :
    OKeeps s0 (execAttest m s) := by
  unfold execAttest; try dsimp only
  repeat' first | (intro; try dsimp only) | (with_reducible first
    | assumption | apply State.command_keeps | apply State.attestCmd_keeps | apply okeeps_next
    | apply okeeps_fault | apply okeeps_ite) | split

theorem execAttestJobEnd_keeps (s : State) (h : Keeps s0 s) :
    OKeeps s0 (execAttestJobEnd s) := by
  unfold execAttestJobEnd; try dsimp only
  repeat' first | (intro; try dsimp only) | (with_reducible first
    | assumption | apply State.attestEnd_keeps | apply done_keeps | apply okeeps_next | apply okeeps_fault
    | apply okeeps_ite) | split

theorem execUnassignedCommand_keeps (code : W16) (m : Msg) (s : State) (h : Keeps s0 s) :
    OKeeps s0 (execUnassignedCommand code m s) := by
  unfold execUnassignedCommand; try dsimp only
  repeat' first | (intro; try dsimp only) | (with_reducible first
    | assumption | apply State.command_keeps | apply no_keeps | apply okeeps_next | apply okeeps_fault
    | apply okeeps_ite | apply keeps_ite) | split

theorem execNotificationPost_keeps (n : Fin 8) (s : State) (h : Keeps s0 s) :
    OKeeps s0 (execNotificationPost n s) := by
  unfold execNotificationPost; try dsimp only
  repeat' first | (intro; try dsimp only) | (with_reducible first
    | assumption | apply State.notifyPost_keeps | apply okeeps_next | apply okeeps_fault | apply okeeps_ite) | split

theorem execPairStatePeriodic_keeps (s : State) (h : Keeps s0 s) :
    OKeeps s0 (execPairStatePeriodic s) := by
  unfold execPairStatePeriodic; try dsimp only
  repeat' first | (intro; try dsimp only) | (with_reducible first
    | assumption | apply State.pairPeriodic_keeps | apply okeeps_next | apply okeeps_fault | apply okeeps_ite) | split

theorem execDrumbeat_keeps (c : Fin 4) (merged : Bool) (inputs : List (List Byte)) (terminals : FieldPins) (s : State) (h : Keeps s0 s) :
    OKeeps s0 (execDrumbeat c merged inputs terminals s) := by
  unfold execDrumbeat; try dsimp only
  repeat' first | (intro; try dsimp only) | (with_reducible first
    | assumption | apply State.drumbeat_keeps | apply okeeps_next | apply okeeps_fault | apply okeeps_ite) | split

theorem execPiTake_keeps (c : Fin 4) (s : State) (h : Keeps s0 s) :
    OKeeps s0 (execPiTake c s) := by
  unfold execPiTake; try dsimp only
  repeat' first | (intro; try dsimp only) | (with_reducible first
    | assumption | apply State.piTake_keeps | apply done_keeps | apply okeeps_next | apply okeeps_fault
    | apply okeeps_ite) | split

theorem execInDone_keeps (e : Fin 16) (s : State) (h : Keeps s0 s) :
    OKeeps s0 (execInDone e s) := by
  unfold execInDone; try dsimp only
  repeat' first | (intro; try dsimp only) | (with_reducible first
    | assumption | apply State.engineStore_keeps | apply okeeps_next | apply okeeps_fault | apply okeeps_ite) | split

theorem execPiHostStale_keeps (c : Fin 4) (s : State) (h : Keeps s0 s) :
    OKeeps s0 (execPiHostStale c s) := by
  unfold execPiHostStale; try dsimp only
  repeat' first | (intro; try dsimp only) | (with_reducible first
    | assumption | apply State.piStale_keeps | apply done_keeps | apply okeeps_next | apply okeeps_fault
    | apply okeeps_ite) | split

theorem execModuleStatsPeriod_keeps (s : State) (h : Keeps s0 s) :
    OKeeps s0 (execModuleStatsPeriod s) := by
  unfold execModuleStatsPeriod; try dsimp only
  repeat' first | (intro; try dsimp only) | (with_reducible first
    | assumption | apply State.statsPeriod_keeps | apply done_keeps | apply okeeps_next | apply okeeps_fault
    | apply okeeps_ite) | split

theorem execSelftestSlice_keeps (w : SliceWork) (s : State) (h : Keeps s0 s) :
    OKeeps s0 (execSelftestSlice w s) := by
  unfold execSelftestSlice; try dsimp only
  repeat' first | (intro; try dsimp only) | (with_reducible first
    | assumption | apply State.testSlice_keeps | apply done_keeps | apply okeeps_next | apply okeeps_fault
    | apply okeeps_ite) | split

theorem execCalStarved_keeps (p : Fin 12) (s : State) (h : Keeps s0 s) :
    OKeeps s0 (execCalStarved p s) := by
  unfold execCalStarved; try dsimp only
  repeat' first | (intro; try dsimp only) | (with_reducible first
    | assumption | apply State.calStarved_keeps | apply okeeps_next | apply okeeps_fault | apply okeeps_ite) | split

theorem execMemStarve_keeps (w : MemWhich) (code : BitVec 6) (word : BitVec 20) (s : State) (h : Keeps s0 s) :
    OKeeps s0 (execMemStarve w code word s) := by
  unfold execMemStarve; try dsimp only
  repeat' first | (intro; try dsimp only) | (with_reducible first
    | assumption | apply State.memStarve_keeps | apply done_keeps | apply okeeps_next | apply okeeps_fault
    | apply okeeps_ite) | split

theorem execImemDmemScrub_keeps (e : Fin 16) (dmem : Bool) (word : BitVec 20) (uncorr : Bool) (s : State) (h : Keeps s0 s) :
    OKeeps s0 (execImemDmemScrub e dmem word uncorr s) := by
  unfold execImemDmemScrub; try dsimp only
  repeat' first | (intro; try dsimp only) | (with_reducible first
    | assumption | apply State.scrub_keeps | apply done_keeps | apply okeeps_next | apply okeeps_fault
    | apply okeeps_ite) | split

theorem execTsmpPost_keeps (e : Fin 16) (v : W32) (s : State) (h : Keeps s0 s) :
    OKeeps s0 (execTsmpPost e v s) := by
  unfold execTsmpPost; try dsimp only
  repeat' first | (intro; try dsimp only) | (with_reducible first
    | assumption | apply State.engineStore_keeps | apply okeeps_next | apply okeeps_fault | apply okeeps_ite) | split

theorem execServoSampleTaken_keeps (c : Fin 4) (s : State) (h : Keeps s0 s) :
    OKeeps s0 (execServoSampleTaken c s) := by
  unfold execServoSampleTaken; try dsimp only
  repeat' first | (intro; try dsimp only) | (with_reducible first
    | assumption | apply State.takeSample_keeps | apply State.servoMoved_keeps | apply done_keeps
    | apply okeeps_next | apply okeeps_fault | apply okeeps_ite) | split

theorem execSrcTimeout_keeps (s : State) (h : Keeps s0 s) :
    OKeeps s0 (execSrcTimeout s) := by
  unfold execSrcTimeout; try dsimp only
  repeat' first | (intro; try dsimp only) | (with_reducible first
    | assumption | apply srcTimeout_keeps | apply State.servoMoved_keeps | apply done_keeps | apply okeeps_next
    | apply okeeps_fault | apply okeeps_ite) | split

theorem execSlewEnd_keeps (s : State) (h : Keeps s0 s) :
    OKeeps s0 (execSlewEnd s) := by
  unfold execSlewEnd; try dsimp only
  repeat' first | (intro; try dsimp only) | (with_reducible first
    | assumption | apply slewEnd_keeps | apply State.servoMoved_keeps | apply done_keeps | apply okeeps_next
    | apply okeeps_fault | apply okeeps_ite) | split

theorem execStepHoldEnd_keeps (s : State) (h : Keeps s0 s) :
    OKeeps s0 (execStepHoldEnd s) := by
  unfold execStepHoldEnd; try dsimp only
  repeat' first | (intro; try dsimp only) | (with_reducible first
    | assumption | apply stepHoldEnd_keeps | apply okeeps_next | apply okeeps_fault | apply okeeps_ite) | split

theorem execMilestoneFire_keeps (e : Fin 16) (arm : BitVec 2) (s : State) (h : Keeps s0 s) :
    OKeeps s0 (execMilestoneFire e arm s) := by
  unfold execMilestoneFire; try dsimp only
  repeat' first | (intro; try dsimp only) | (with_reducible first
    | assumption | apply milestoneFire_keeps | apply okeeps_next | apply okeeps_fault | apply okeeps_ite) | split

theorem execSyncInEdge_keeps (rising : Bool) (ns : W64) (frac : W16) (s : State) (h : Keeps s0 s) :
    OKeeps s0 (execSyncInEdge rising ns frac s) := by
  unfold execSyncInEdge; try dsimp only
  repeat' first | (intro; try dsimp only) | (with_reducible first
    | assumption | apply syncInEdge_keeps | apply State.servoMoved_keeps | apply done_keeps | apply okeeps_next
    | apply okeeps_fault | apply okeeps_ite) | split

theorem execSyncOutPulse_keeps (i : Fin 2) (s : State) (h : Keeps s0 s) :
    OKeeps s0 (execSyncOutPulse i s) := by
  unfold execSyncOutPulse; try dsimp only
  repeat' first | (intro; try dsimp only) | (with_reducible first
    | assumption | apply syncOutPulse_keeps | apply okeeps_next | apply okeeps_fault | apply okeeps_ite) | split

theorem execTnsRead_keeps (e : Fin 16) (s : State) (h : Keeps s0 s) :
    OKeeps s0 (execTnsRead e s) := by
  unfold execTnsRead; try dsimp only
  repeat' first | (intro; try dsimp only) | (with_reducible first
    | assumption | apply State.engineTouch_keeps | apply okeeps_next | apply okeeps_fault | apply okeeps_ite) | split

theorem execSyncinNsRead_keeps (e : Fin 16) (s : State) (h : Keeps s0 s) :
    OKeeps s0 (execSyncinNsRead e s) := by
  unfold execSyncinNsRead; try dsimp only
  repeat' first | (intro; try dsimp only) | (with_reducible first
    | assumption | apply State.engineTouch_keeps | apply okeeps_next | apply okeeps_fault | apply okeeps_ite) | split

theorem execWatchdogTimeout_keeps (e : Fin 16) (s : State) (h : Keeps s0 s) :
    OKeeps s0 (execWatchdogTimeout e s) := by
  unfold execWatchdogTimeout; try dsimp only
  repeat' first | (intro; try dsimp only) | (with_reducible first
    | assumption | apply State.watchdog_keeps | apply okeeps_next | apply okeeps_fault | apply okeeps_ite) | split

theorem execCheckMismatch_keeps (c : Fin 4) (pair : Fin 2) (supplied : BitVec 12) (s : State) (h : Keeps s0 s) :
    OKeeps s0 (execCheckMismatch c pair supplied s) := by
  unfold execCheckMismatch; try dsimp only
  repeat' first | (intro; try dsimp only) | (with_reducible first
    | assumption | apply State.checkMismatch_keeps | apply okeeps_next | apply okeeps_fault | apply okeeps_ite) | split

theorem execLoadEccError_keeps (e : Fin 16) (pc : W32) (resume : W32) (addr : W32) (after : Fin 3) (s : State) (h : Keeps s0 s) :
    OKeeps s0 (execLoadEccError e pc resume addr after s) := by
  unfold execLoadEccError; try dsimp only
  repeat' first | (intro; try dsimp only) | (with_reducible first
    | assumption | apply State.loadFailed_keeps | apply okeeps_next | apply okeeps_fault | apply okeeps_ite) | split

theorem execCoprocComplete_keeps (e : Fin 16) (s : State) (h : Keeps s0 s) :
    OKeeps s0 (execCoprocComplete e s) := by
  unfold execCoprocComplete; try dsimp only
  repeat' first | (intro; try dsimp only) | (with_reducible first
    | assumption | apply State.copEnd_keeps | apply okeeps_next | apply okeeps_fault | apply okeeps_ite) | split

theorem execAdda_keeps (e : Fin 16) (stop : Bool) (ops : BitVec 23) (s : State) (h : Keeps s0 s) :
    OKeeps s0 (execAdda e stop ops s) := by
  unfold execAdda; try dsimp only
  repeat' first | (intro; try dsimp only) | (with_reducible first
    | assumption | apply syllable_keeps | apply okeeps_next | apply okeeps_fault | apply okeeps_ite) | split

theorem execSuba_keeps (e : Fin 16) (stop : Bool) (ops : BitVec 23) (s : State) (h : Keeps s0 s) :
    OKeeps s0 (execSuba e stop ops s) := by
  unfold execSuba; try dsimp only
  repeat' first | (intro; try dsimp only) | (with_reducible first
    | assumption | apply syllable_keeps | apply okeeps_next | apply okeeps_fault | apply okeeps_ite) | split

theorem execAddai_keeps (e : Fin 16) (stop : Bool) (ops : BitVec 23) (s : State) (h : Keeps s0 s) :
    OKeeps s0 (execAddai e stop ops s) := by
  unfold execAddai; try dsimp only
  repeat' first | (intro; try dsimp only) | (with_reducible first
    | assumption | apply syllable_keeps | apply okeeps_next | apply okeeps_fault | apply okeeps_ite) | split

theorem execAddad_keeps (e : Fin 16) (stop : Bool) (ops : BitVec 23) (s : State) (h : Keeps s0 s) :
    OKeeps s0 (execAddad e stop ops s) := by
  unfold execAddad; try dsimp only
  repeat' first | (intro; try dsimp only) | (with_reducible first
    | assumption | apply syllable_keeps | apply okeeps_next | apply okeeps_fault | apply okeeps_ite) | split

theorem execLha_keeps (e : Fin 16) (stop : Bool) (ops : BitVec 23) (s : State) (h : Keeps s0 s) :
    OKeeps s0 (execLha e stop ops s) := by
  unfold execLha; try dsimp only
  repeat' first | (intro; try dsimp only) | (with_reducible first
    | assumption | apply syllable_keeps | apply okeeps_next | apply okeeps_fault | apply okeeps_ite) | split

theorem execLla_keeps (e : Fin 16) (stop : Bool) (ops : BitVec 23) (s : State) (h : Keeps s0 s) :
    OKeeps s0 (execLla e stop ops s) := by
  unfold execLla; try dsimp only
  repeat' first | (intro; try dsimp only) | (with_reducible first
    | assumption | apply syllable_keeps | apply okeeps_next | apply okeeps_fault | apply okeeps_ite) | split

theorem execLdb_keeps (e : Fin 16) (stop : Bool) (ops : BitVec 23) (s : State) (h : Keeps s0 s) :
    OKeeps s0 (execLdb e stop ops s) := by
  unfold execLdb; try dsimp only
  repeat' first | (intro; try dsimp only) | (with_reducible first
    | assumption | apply syllable_keeps | apply okeeps_next | apply okeeps_fault | apply okeeps_ite) | split

theorem execLdbu_keeps (e : Fin 16) (stop : Bool) (ops : BitVec 23) (s : State) (h : Keeps s0 s) :
    OKeeps s0 (execLdbu e stop ops s) := by
  unfold execLdbu; try dsimp only
  repeat' first | (intro; try dsimp only) | (with_reducible first
    | assumption | apply syllable_keeps | apply okeeps_next | apply okeeps_fault | apply okeeps_ite) | split

theorem execLdh_keeps (e : Fin 16) (stop : Bool) (ops : BitVec 23) (s : State) (h : Keeps s0 s) :
    OKeeps s0 (execLdh e stop ops s) := by
  unfold execLdh; try dsimp only
  repeat' first | (intro; try dsimp only) | (with_reducible first
    | assumption | apply syllable_keeps | apply okeeps_next | apply okeeps_fault | apply okeeps_ite) | split

theorem execLdhu_keeps (e : Fin 16) (stop : Bool) (ops : BitVec 23) (s : State) (h : Keeps s0 s) :
    OKeeps s0 (execLdhu e stop ops s) := by
  unfold execLdhu; try dsimp only
  repeat' first | (intro; try dsimp only) | (with_reducible first
    | assumption | apply syllable_keeps | apply okeeps_next | apply okeeps_fault | apply okeeps_ite) | split

theorem execLdw_keeps (e : Fin 16) (stop : Bool) (ops : BitVec 23) (s : State) (h : Keeps s0 s) :
    OKeeps s0 (execLdw e stop ops s) := by
  unfold execLdw; try dsimp only
  repeat' first | (intro; try dsimp only) | (with_reducible first
    | assumption | apply syllable_keeps | apply okeeps_next | apply okeeps_fault | apply okeeps_ite) | split

theorem execLdd_keeps (e : Fin 16) (stop : Bool) (ops : BitVec 23) (s : State) (h : Keeps s0 s) :
    OKeeps s0 (execLdd e stop ops s) := by
  unfold execLdd; try dsimp only
  repeat' first | (intro; try dsimp only) | (with_reducible first
    | assumption | apply syllable_keeps | apply okeeps_next | apply okeeps_fault | apply okeeps_ite) | split

theorem execLda_keeps (e : Fin 16) (stop : Bool) (ops : BitVec 23) (s : State) (h : Keeps s0 s) :
    OKeeps s0 (execLda e stop ops s) := by
  unfold execLda; try dsimp only
  repeat' first | (intro; try dsimp only) | (with_reducible first
    | assumption | apply syllable_keeps | apply okeeps_next | apply okeeps_fault | apply okeeps_ite) | split

theorem execLdhr_keeps (e : Fin 16) (stop : Bool) (ops : BitVec 23) (s : State) (h : Keeps s0 s) :
    OKeeps s0 (execLdhr e stop ops s) := by
  unfold execLdhr; try dsimp only
  repeat' first | (intro; try dsimp only) | (with_reducible first
    | assumption | apply syllable_keeps | apply okeeps_next | apply okeeps_fault | apply okeeps_ite) | split

theorem execLdwr_keeps (e : Fin 16) (stop : Bool) (ops : BitVec 23) (s : State) (h : Keeps s0 s) :
    OKeeps s0 (execLdwr e stop ops s) := by
  unfold execLdwr; try dsimp only
  repeat' first | (intro; try dsimp only) | (with_reducible first
    | assumption | apply syllable_keeps | apply okeeps_next | apply okeeps_fault | apply okeeps_ite) | split

theorem execStb_keeps (e : Fin 16) (stop : Bool) (ops : BitVec 23) (s : State) (h : Keeps s0 s) :
    OKeeps s0 (execStb e stop ops s) := by
  unfold execStb; try dsimp only
  repeat' first | (intro; try dsimp only) | (with_reducible first
    | assumption | apply syllable_keeps | apply okeeps_next | apply okeeps_fault | apply okeeps_ite) | split

theorem execSth_keeps (e : Fin 16) (stop : Bool) (ops : BitVec 23) (s : State) (h : Keeps s0 s) :
    OKeeps s0 (execSth e stop ops s) := by
  unfold execSth; try dsimp only
  repeat' first | (intro; try dsimp only) | (with_reducible first
    | assumption | apply syllable_keeps | apply okeeps_next | apply okeeps_fault | apply okeeps_ite) | split

theorem execStw_keeps (e : Fin 16) (stop : Bool) (ops : BitVec 23) (s : State) (h : Keeps s0 s) :
    OKeeps s0 (execStw e stop ops s) := by
  unfold execStw; try dsimp only
  repeat' first | (intro; try dsimp only) | (with_reducible first
    | assumption | apply syllable_keeps | apply okeeps_next | apply okeeps_fault | apply okeeps_ite) | split

theorem execStd_keeps (e : Fin 16) (stop : Bool) (ops : BitVec 23) (s : State) (h : Keeps s0 s) :
    OKeeps s0 (execStd e stop ops s) := by
  unfold execStd; try dsimp only
  repeat' first | (intro; try dsimp only) | (with_reducible first
    | assumption | apply syllable_keeps | apply okeeps_next | apply okeeps_fault | apply okeeps_ite) | split

theorem execSta_keeps (e : Fin 16) (stop : Bool) (ops : BitVec 23) (s : State) (h : Keeps s0 s) :
    OKeeps s0 (execSta e stop ops s) := by
  unfold execSta; try dsimp only
  repeat' first | (intro; try dsimp only) | (with_reducible first
    | assumption | apply syllable_keeps | apply okeeps_next | apply okeeps_fault | apply okeeps_ite) | split

theorem execAdd_keeps (e : Fin 16) (stop : Bool) (ops : BitVec 23) (s : State) (h : Keeps s0 s) :
    OKeeps s0 (execAdd e stop ops s) := by
  unfold execAdd; try dsimp only
  repeat' first | (intro; try dsimp only) | (with_reducible first
    | assumption | apply syllable_keeps | apply okeeps_next | apply okeeps_fault | apply okeeps_ite) | split

theorem execSub_keeps (e : Fin 16) (stop : Bool) (ops : BitVec 23) (s : State) (h : Keeps s0 s) :
    OKeeps s0 (execSub e stop ops s) := by
  unfold execSub; try dsimp only
  repeat' first | (intro; try dsimp only) | (with_reducible first
    | assumption | apply syllable_keeps | apply okeeps_next | apply okeeps_fault | apply okeeps_ite) | split

theorem execAndD_keeps (e : Fin 16) (stop : Bool) (ops : BitVec 23) (s : State) (h : Keeps s0 s) :
    OKeeps s0 (execAndD e stop ops s) := by
  unfold execAndD; try dsimp only
  repeat' first | (intro; try dsimp only) | (with_reducible first
    | assumption | apply syllable_keeps | apply okeeps_next | apply okeeps_fault | apply okeeps_ite) | split

theorem execOrD_keeps (e : Fin 16) (stop : Bool) (ops : BitVec 23) (s : State) (h : Keeps s0 s) :
    OKeeps s0 (execOrD e stop ops s) := by
  unfold execOrD; try dsimp only
  repeat' first | (intro; try dsimp only) | (with_reducible first
    | assumption | apply syllable_keeps | apply okeeps_next | apply okeeps_fault | apply okeeps_ite) | split

theorem execXorD_keeps (e : Fin 16) (stop : Bool) (ops : BitVec 23) (s : State) (h : Keeps s0 s) :
    OKeeps s0 (execXorD e stop ops s) := by
  unfold execXorD; try dsimp only
  repeat' first | (intro; try dsimp only) | (with_reducible first
    | assumption | apply syllable_keeps | apply okeeps_next | apply okeeps_fault | apply okeeps_ite) | split

theorem execAndn_keeps (e : Fin 16) (stop : Bool) (ops : BitVec 23) (s : State) (h : Keeps s0 s) :
    OKeeps s0 (execAndn e stop ops s) := by
  unfold execAndn; try dsimp only
  repeat' first | (intro; try dsimp only) | (with_reducible first
    | assumption | apply syllable_keeps | apply okeeps_next | apply okeeps_fault | apply okeeps_ite) | split

theorem execShl_keeps (e : Fin 16) (stop : Bool) (ops : BitVec 23) (s : State) (h : Keeps s0 s) :
    OKeeps s0 (execShl e stop ops s) := by
  unfold execShl; try dsimp only
  repeat' first | (intro; try dsimp only) | (with_reducible first
    | assumption | apply syllable_keeps | apply okeeps_next | apply okeeps_fault | apply okeeps_ite) | split

theorem execShr_keeps (e : Fin 16) (stop : Bool) (ops : BitVec 23) (s : State) (h : Keeps s0 s) :
    OKeeps s0 (execShr e stop ops s) := by
  unfold execShr; try dsimp only
  repeat' first | (intro; try dsimp only) | (with_reducible first
    | assumption | apply syllable_keeps | apply okeeps_next | apply okeeps_fault | apply okeeps_ite) | split

theorem execSar_keeps (e : Fin 16) (stop : Bool) (ops : BitVec 23) (s : State) (h : Keeps s0 s) :
    OKeeps s0 (execSar e stop ops s) := by
  unfold execSar; try dsimp only
  repeat' first | (intro; try dsimp only) | (with_reducible first
    | assumption | apply syllable_keeps | apply okeeps_next | apply okeeps_fault | apply okeeps_ite) | split

theorem execRor_keeps (e : Fin 16) (stop : Bool) (ops : BitVec 23) (s : State) (h : Keeps s0 s) :
    OKeeps s0 (execRor e stop ops s) := by
  unfold execRor; try dsimp only
  repeat' first | (intro; try dsimp only) | (with_reducible first
    | assumption | apply syllable_keeps | apply okeeps_next | apply okeeps_fault | apply okeeps_ite) | split

theorem execMinD_keeps (e : Fin 16) (stop : Bool) (ops : BitVec 23) (s : State) (h : Keeps s0 s) :
    OKeeps s0 (execMinD e stop ops s) := by
  unfold execMinD; try dsimp only
  repeat' first | (intro; try dsimp only) | (with_reducible first
    | assumption | apply syllable_keeps | apply okeeps_next | apply okeeps_fault | apply okeeps_ite) | split

theorem execMaxD_keeps (e : Fin 16) (stop : Bool) (ops : BitVec 23) (s : State) (h : Keeps s0 s) :
    OKeeps s0 (execMaxD e stop ops s) := by
  unfold execMaxD; try dsimp only
  repeat' first | (intro; try dsimp only) | (with_reducible first
    | assumption | apply syllable_keeps | apply okeeps_next | apply okeeps_fault | apply okeeps_ite) | split

theorem execMinu_keeps (e : Fin 16) (stop : Bool) (ops : BitVec 23) (s : State) (h : Keeps s0 s) :
    OKeeps s0 (execMinu e stop ops s) := by
  unfold execMinu; try dsimp only
  repeat' first | (intro; try dsimp only) | (with_reducible first
    | assumption | apply syllable_keeps | apply okeeps_next | apply okeeps_fault | apply okeeps_ite) | split

theorem execMaxu_keeps (e : Fin 16) (stop : Bool) (ops : BitVec 23) (s : State) (h : Keeps s0 s) :
    OKeeps s0 (execMaxu e stop ops s) := by
  unfold execMaxu; try dsimp only
  repeat' first | (intro; try dsimp only) | (with_reducible first
    | assumption | apply syllable_keeps | apply okeeps_next | apply okeeps_fault | apply okeeps_ite) | split

theorem execAdds_keeps (e : Fin 16) (stop : Bool) (ops : BitVec 23) (s : State) (h : Keeps s0 s) :
    OKeeps s0 (execAdds e stop ops s) := by
  unfold execAdds; try dsimp only
  repeat' first | (intro; try dsimp only) | (with_reducible first
    | assumption | apply syllable_keeps | apply okeeps_next | apply okeeps_fault | apply okeeps_ite) | split

theorem execSubs_keeps (e : Fin 16) (stop : Bool) (ops : BitVec 23) (s : State) (h : Keeps s0 s) :
    OKeeps s0 (execSubs e stop ops s) := by
  unfold execSubs; try dsimp only
  repeat' first | (intro; try dsimp only) | (with_reducible first
    | assumption | apply syllable_keeps | apply okeeps_next | apply okeeps_fault | apply okeeps_ite) | split

theorem execAddi_keeps (e : Fin 16) (stop : Bool) (ops : BitVec 23) (s : State) (h : Keeps s0 s) :
    OKeeps s0 (execAddi e stop ops s) := by
  unfold execAddi; try dsimp only
  repeat' first | (intro; try dsimp only) | (with_reducible first
    | assumption | apply syllable_keeps | apply okeeps_next | apply okeeps_fault | apply okeeps_ite) | split

theorem execAndi_keeps (e : Fin 16) (stop : Bool) (ops : BitVec 23) (s : State) (h : Keeps s0 s) :
    OKeeps s0 (execAndi e stop ops s) := by
  unfold execAndi; try dsimp only
  repeat' first | (intro; try dsimp only) | (with_reducible first
    | assumption | apply syllable_keeps | apply okeeps_next | apply okeeps_fault | apply okeeps_ite) | split

theorem execOri_keeps (e : Fin 16) (stop : Bool) (ops : BitVec 23) (s : State) (h : Keeps s0 s) :
    OKeeps s0 (execOri e stop ops s) := by
  unfold execOri; try dsimp only
  repeat' first | (intro; try dsimp only) | (with_reducible first
    | assumption | apply syllable_keeps | apply okeeps_next | apply okeeps_fault | apply okeeps_ite) | split

theorem execXori_keeps (e : Fin 16) (stop : Bool) (ops : BitVec 23) (s : State) (h : Keeps s0 s) :
    OKeeps s0 (execXori e stop ops s) := by
  unfold execXori; try dsimp only
  repeat' first | (intro; try dsimp only) | (with_reducible first
    | assumption | apply syllable_keeps | apply okeeps_next | apply okeeps_fault | apply okeeps_ite) | split

theorem execShli_keeps (e : Fin 16) (stop : Bool) (ops : BitVec 23) (s : State) (h : Keeps s0 s) :
    OKeeps s0 (execShli e stop ops s) := by
  unfold execShli; try dsimp only
  repeat' first | (intro; try dsimp only) | (with_reducible first
    | assumption | apply syllable_keeps | apply okeeps_next | apply okeeps_fault | apply okeeps_ite) | split

theorem execShri_keeps (e : Fin 16) (stop : Bool) (ops : BitVec 23) (s : State) (h : Keeps s0 s) :
    OKeeps s0 (execShri e stop ops s) := by
  unfold execShri; try dsimp only
  repeat' first | (intro; try dsimp only) | (with_reducible first
    | assumption | apply syllable_keeps | apply okeeps_next | apply okeeps_fault | apply okeeps_ite) | split

theorem execSari_keeps (e : Fin 16) (stop : Bool) (ops : BitVec 23) (s : State) (h : Keeps s0 s) :
    OKeeps s0 (execSari e stop ops s) := by
  unfold execSari; try dsimp only
  repeat' first | (intro; try dsimp only) | (with_reducible first
    | assumption | apply syllable_keeps | apply okeeps_next | apply okeeps_fault | apply okeeps_ite) | split

theorem execRori_keeps (e : Fin 16) (stop : Bool) (ops : BitVec 23) (s : State) (h : Keeps s0 s) :
    OKeeps s0 (execRori e stop ops s) := by
  unfold execRori; try dsimp only
  repeat' first | (intro; try dsimp only) | (with_reducible first
    | assumption | apply syllable_keeps | apply okeeps_next | apply okeeps_fault | apply okeeps_ite) | split

theorem execCmp_keeps (e : Fin 16) (stop : Bool) (ops : BitVec 23) (s : State) (h : Keeps s0 s) :
    OKeeps s0 (execCmp e stop ops s) := by
  unfold execCmp; try dsimp only
  repeat' first | (intro; try dsimp only) | (with_reducible first
    | assumption | apply syllable_keeps | apply okeeps_next | apply okeeps_fault | apply okeeps_ite) | split

theorem execCmpi_keeps (e : Fin 16) (stop : Bool) (ops : BitVec 23) (s : State) (h : Keeps s0 s) :
    OKeeps s0 (execCmpi e stop ops s) := by
  unfold execCmpi; try dsimp only
  repeat' first | (intro; try dsimp only) | (with_reducible first
    | assumption | apply syllable_keeps | apply okeeps_next | apply okeeps_fault | apply okeeps_ite) | split

theorem execMovi_keeps (e : Fin 16) (stop : Bool) (ops : BitVec 23) (s : State) (h : Keeps s0 s) :
    OKeeps s0 (execMovi e stop ops s) := by
  unfold execMovi; try dsimp only
  repeat' first | (intro; try dsimp only) | (with_reducible first
    | assumption | apply syllable_keeps | apply okeeps_next | apply okeeps_fault | apply okeeps_ite) | split

theorem execLhi_keeps (e : Fin 16) (stop : Bool) (ops : BitVec 23) (s : State) (h : Keeps s0 s) :
    OKeeps s0 (execLhi e stop ops s) := by
  unfold execLhi; try dsimp only
  repeat' first | (intro; try dsimp only) | (with_reducible first
    | assumption | apply syllable_keeps | apply okeeps_next | apply okeeps_fault | apply okeeps_ite) | split

theorem execLli_keeps (e : Fin 16) (stop : Bool) (ops : BitVec 23) (s : State) (h : Keeps s0 s) :
    OKeeps s0 (execLli e stop ops s) := by
  unfold execLli; try dsimp only
  repeat' first | (intro; try dsimp only) | (with_reducible first
    | assumption | apply syllable_keeps | apply okeeps_next | apply okeeps_fault | apply okeeps_ite) | split

theorem execExtu_keeps (e : Fin 16) (stop : Bool) (ops : BitVec 23) (s : State) (h : Keeps s0 s) :
    OKeeps s0 (execExtu e stop ops s) := by
  unfold execExtu; try dsimp only
  repeat' first | (intro; try dsimp only) | (with_reducible first
    | assumption | apply syllable_keeps | apply okeeps_next | apply okeeps_fault | apply okeeps_ite) | split

theorem execExts_keeps (e : Fin 16) (stop : Bool) (ops : BitVec 23) (s : State) (h : Keeps s0 s) :
    OKeeps s0 (execExts e stop ops s) := by
  unfold execExts; try dsimp only
  repeat' first | (intro; try dsimp only) | (with_reducible first
    | assumption | apply syllable_keeps | apply okeeps_next | apply okeeps_fault | apply okeeps_ite) | split

theorem execIns_keeps (e : Fin 16) (stop : Bool) (ops : BitVec 23) (s : State) (h : Keeps s0 s) :
    OKeeps s0 (execIns e stop ops s) := by
  unfold execIns; try dsimp only
  repeat' first | (intro; try dsimp only) | (with_reducible first
    | assumption | apply syllable_keeps | apply okeeps_next | apply okeeps_fault | apply okeeps_ite) | split

theorem execClz_keeps (e : Fin 16) (stop : Bool) (ops : BitVec 23) (s : State) (h : Keeps s0 s) :
    OKeeps s0 (execClz e stop ops s) := by
  unfold execClz; try dsimp only
  repeat' first | (intro; try dsimp only) | (with_reducible first
    | assumption | apply syllable_keeps | apply okeeps_next | apply okeeps_fault | apply okeeps_ite) | split

theorem execPopc_keeps (e : Fin 16) (stop : Bool) (ops : BitVec 23) (s : State) (h : Keeps s0 s) :
    OKeeps s0 (execPopc e stop ops s) := by
  unfold execPopc; try dsimp only
  repeat' first | (intro; try dsimp only) | (with_reducible first
    | assumption | apply syllable_keeps | apply okeeps_next | apply okeeps_fault | apply okeeps_ite) | split

theorem execBswap_keeps (e : Fin 16) (stop : Bool) (ops : BitVec 23) (s : State) (h : Keeps s0 s) :
    OKeeps s0 (execBswap e stop ops s) := by
  unfold execBswap; try dsimp only
  repeat' first | (intro; try dsimp only) | (with_reducible first
    | assumption | apply syllable_keeps | apply okeeps_next | apply okeeps_fault | apply okeeps_ite) | split

theorem execBswaph_keeps (e : Fin 16) (stop : Bool) (ops : BitVec 23) (s : State) (h : Keeps s0 s) :
    OKeeps s0 (execBswaph e stop ops s) := by
  unfold execBswaph; try dsimp only
  repeat' first | (intro; try dsimp only) | (with_reducible first
    | assumption | apply syllable_keeps | apply okeeps_next | apply okeeps_fault | apply okeeps_ite) | split

theorem execAbsD_keeps (e : Fin 16) (stop : Bool) (ops : BitVec 23) (s : State) (h : Keeps s0 s) :
    OKeeps s0 (execAbsD e stop ops s) := by
  unfold execAbsD; try dsimp only
  repeat' first | (intro; try dsimp only) | (with_reducible first
    | assumption | apply syllable_keeps | apply okeeps_next | apply okeeps_fault | apply okeeps_ite) | split

theorem execNeg_keeps (e : Fin 16) (stop : Bool) (ops : BitVec 23) (s : State) (h : Keeps s0 s) :
    OKeeps s0 (execNeg e stop ops s) := by
  unfold execNeg; try dsimp only
  repeat' first | (intro; try dsimp only) | (with_reducible first
    | assumption | apply syllable_keeps | apply okeeps_next | apply okeeps_fault | apply okeeps_ite) | split

theorem execMul_keeps (e : Fin 16) (stop : Bool) (ops : BitVec 23) (s : State) (h : Keeps s0 s) :
    OKeeps s0 (execMul e stop ops s) := by
  unfold execMul; try dsimp only
  repeat' first | (intro; try dsimp only) | (with_reducible first
    | assumption | apply syllable_keeps | apply okeeps_next | apply okeeps_fault | apply okeeps_ite) | split

theorem execMulh_keeps (e : Fin 16) (stop : Bool) (ops : BitVec 23) (s : State) (h : Keeps s0 s) :
    OKeeps s0 (execMulh e stop ops s) := by
  unfold execMulh; try dsimp only
  repeat' first | (intro; try dsimp only) | (with_reducible first
    | assumption | apply syllable_keeps | apply okeeps_next | apply okeeps_fault | apply okeeps_ite) | split

theorem execMulhu_keeps (e : Fin 16) (stop : Bool) (ops : BitVec 23) (s : State) (h : Keeps s0 s) :
    OKeeps s0 (execMulhu e stop ops s) := by
  unfold execMulhu; try dsimp only
  repeat' first | (intro; try dsimp only) | (with_reducible first
    | assumption | apply syllable_keeps | apply okeeps_next | apply okeeps_fault | apply okeeps_ite) | split

theorem execMac_keeps (e : Fin 16) (stop : Bool) (ops : BitVec 23) (s : State) (h : Keeps s0 s) :
    OKeeps s0 (execMac e stop ops s) := by
  unfold execMac; try dsimp only
  repeat' first | (intro; try dsimp only) | (with_reducible first
    | assumption | apply syllable_keeps | apply okeeps_next | apply okeeps_fault | apply okeeps_ite) | split

theorem execMacu_keeps (e : Fin 16) (stop : Bool) (ops : BitVec 23) (s : State) (h : Keeps s0 s) :
    OKeeps s0 (execMacu e stop ops s) := by
  unfold execMacu; try dsimp only
  repeat' first | (intro; try dsimp only) | (with_reducible first
    | assumption | apply syllable_keeps | apply okeeps_next | apply okeeps_fault | apply okeeps_ite) | split

theorem execMsu_keeps (e : Fin 16) (stop : Bool) (ops : BitVec 23) (s : State) (h : Keeps s0 s) :
    OKeeps s0 (execMsu e stop ops s) := by
  unfold execMsu; try dsimp only
  repeat' first | (intro; try dsimp only) | (with_reducible first
    | assumption | apply syllable_keeps | apply okeeps_next | apply okeeps_fault | apply okeeps_ite) | split

theorem execAcclr_keeps (e : Fin 16) (stop : Bool) (ops : BitVec 23) (s : State) (h : Keeps s0 s) :
    OKeeps s0 (execAcclr e stop ops s) := by
  unfold execAcclr; try dsimp only
  repeat' first | (intro; try dsimp only) | (with_reducible first
    | assumption | apply syllable_keeps | apply okeeps_next | apply okeeps_fault | apply okeeps_ite) | split

theorem execAcld_keeps (e : Fin 16) (stop : Bool) (ops : BitVec 23) (s : State) (h : Keeps s0 s) :
    OKeeps s0 (execAcld e stop ops s) := by
  unfold execAcld; try dsimp only
  repeat' first | (intro; try dsimp only) | (with_reducible first
    | assumption | apply syllable_keeps | apply okeeps_next | apply okeeps_fault | apply okeeps_ite) | split

theorem execAcext_keeps (e : Fin 16) (stop : Bool) (ops : BitVec 23) (s : State) (h : Keeps s0 s) :
    OKeeps s0 (execAcext e stop ops s) := by
  unfold execAcext; try dsimp only
  repeat' first | (intro; try dsimp only) | (with_reducible first
    | assumption | apply syllable_keeps | apply okeeps_next | apply okeeps_fault | apply okeeps_ite) | split

theorem execMovad_keeps (e : Fin 16) (stop : Bool) (ops : BitVec 23) (s : State) (h : Keeps s0 s) :
    OKeeps s0 (execMovad e stop ops s) := by
  unfold execMovad; try dsimp only
  repeat' first | (intro; try dsimp only) | (with_reducible first
    | assumption | apply syllable_keeps | apply okeeps_next | apply okeeps_fault | apply okeeps_ite) | split

theorem execMovda_keeps (e : Fin 16) (stop : Bool) (ops : BitVec 23) (s : State) (h : Keeps s0 s) :
    OKeeps s0 (execMovda e stop ops s) := by
  unfold execMovda; try dsimp only
  repeat' first | (intro; try dsimp only) | (with_reducible first
    | assumption | apply syllable_keeps | apply okeeps_next | apply okeeps_fault | apply okeeps_ite) | split

theorem execMovd_keeps (e : Fin 16) (stop : Bool) (ops : BitVec 23) (s : State) (h : Keeps s0 s) :
    OKeeps s0 (execMovd e stop ops s) := by
  unfold execMovd; try dsimp only
  repeat' first | (intro; try dsimp only) | (with_reducible first
    | assumption | apply syllable_keeps | apply okeeps_next | apply okeeps_fault | apply okeeps_ite) | split

theorem execMova_keeps (e : Fin 16) (stop : Bool) (ops : BitVec 23) (s : State) (h : Keeps s0 s) :
    OKeeps s0 (execMova e stop ops s) := by
  unfold execMova; try dsimp only
  repeat' first | (intro; try dsimp only) | (with_reducible first
    | assumption | apply syllable_keeps | apply okeeps_next | apply okeeps_fault | apply okeeps_ite) | split

theorem execSel_keeps (e : Fin 16) (stop : Bool) (ops : BitVec 23) (s : State) (h : Keeps s0 s) :
    OKeeps s0 (execSel e stop ops s) := by
  unfold execSel; try dsimp only
  repeat' first | (intro; try dsimp only) | (with_reducible first
    | assumption | apply syllable_keeps | apply okeeps_next | apply okeeps_fault | apply okeeps_ite) | split

theorem execQpush_keeps (e : Fin 16) (stop : Bool) (ops : BitVec 23) (s : State) (h : Keeps s0 s) :
    OKeeps s0 (execQpush e stop ops s) := by
  unfold execQpush; try dsimp only
  repeat' first | (intro; try dsimp only) | (with_reducible first
    | assumption | apply syllable_keeps | apply okeeps_next | apply okeeps_fault | apply okeeps_ite) | split

theorem execQpop_keeps (e : Fin 16) (stop : Bool) (ops : BitVec 23) (s : State) (h : Keeps s0 s) :
    OKeeps s0 (execQpop e stop ops s) := by
  unfold execQpop; try dsimp only
  repeat' first | (intro; try dsimp only) | (with_reducible first
    | assumption | apply syllable_keeps | apply okeeps_next | apply okeeps_fault | apply okeeps_ite) | split

theorem execQstat_keeps (e : Fin 16) (stop : Bool) (ops : BitVec 23) (s : State) (h : Keeps s0 s) :
    OKeeps s0 (execQstat e stop ops s) := by
  unfold execQstat; try dsimp only
  repeat' first | (intro; try dsimp only) | (with_reducible first
    | assumption | apply syllable_keeps | apply okeeps_next | apply okeeps_fault | apply okeeps_ite) | split

theorem execB_keeps (e : Fin 16) (stop : Bool) (ops : BitVec 23) (s : State) (h : Keeps s0 s) :
    OKeeps s0 (execB e stop ops s) := by
  unfold execB; try dsimp only
  repeat' first | (intro; try dsimp only) | (with_reducible first
    | assumption | apply syllable_keeps | apply okeeps_next | apply okeeps_fault | apply okeeps_ite) | split

theorem execBdz_keeps (e : Fin 16) (stop : Bool) (ops : BitVec 23) (s : State) (h : Keeps s0 s) :
    OKeeps s0 (execBdz e stop ops s) := by
  unfold execBdz; try dsimp only
  repeat' first | (intro; try dsimp only) | (with_reducible first
    | assumption | apply syllable_keeps | apply okeeps_next | apply okeeps_fault | apply okeeps_ite) | split

theorem execBdnz_keeps (e : Fin 16) (stop : Bool) (ops : BitVec 23) (s : State) (h : Keeps s0 s) :
    OKeeps s0 (execBdnz e stop ops s) := by
  unfold execBdnz; try dsimp only
  repeat' first | (intro; try dsimp only) | (with_reducible first
    | assumption | apply syllable_keeps | apply okeeps_next | apply okeeps_fault | apply okeeps_ite) | split

theorem execDbnz_keeps (e : Fin 16) (stop : Bool) (ops : BitVec 23) (s : State) (h : Keeps s0 s) :
    OKeeps s0 (execDbnz e stop ops s) := by
  unfold execDbnz; try dsimp only
  repeat' first | (intro; try dsimp only) | (with_reducible first
    | assumption | apply syllable_keeps | apply okeeps_next | apply okeeps_fault | apply okeeps_ite) | split

theorem execCall_keeps (e : Fin 16) (stop : Bool) (ops : BitVec 23) (s : State) (h : Keeps s0 s) :
    OKeeps s0 (execCall e stop ops s) := by
  unfold execCall; try dsimp only
  repeat' first | (intro; try dsimp only) | (with_reducible first
    | assumption | apply syllable_keeps | apply okeeps_next | apply okeeps_fault | apply okeeps_ite) | split

theorem execCallr_keeps (e : Fin 16) (stop : Bool) (ops : BitVec 23) (s : State) (h : Keeps s0 s) :
    OKeeps s0 (execCallr e stop ops s) := by
  unfold execCallr; try dsimp only
  repeat' first | (intro; try dsimp only) | (with_reducible first
    | assumption | apply syllable_keeps | apply okeeps_next | apply okeeps_fault | apply okeeps_ite) | split

theorem execJr_keeps (e : Fin 16) (stop : Bool) (ops : BitVec 23) (s : State) (h : Keeps s0 s) :
    OKeeps s0 (execJr e stop ops s) := by
  unfold execJr; try dsimp only
  repeat' first | (intro; try dsimp only) | (with_reducible first
    | assumption | apply syllable_keeps | apply okeeps_next | apply okeeps_fault | apply okeeps_ite) | split

theorem execRet_keeps (e : Fin 16) (stop : Bool) (ops : BitVec 23) (s : State) (h : Keeps s0 s) :
    OKeeps s0 (execRet e stop ops s) := by
  unfold execRet; try dsimp only
  repeat' first | (intro; try dsimp only) | (with_reducible first
    | assumption | apply syllable_keeps | apply okeeps_next | apply okeeps_fault | apply okeeps_ite) | split

theorem execRte_keeps (e : Fin 16) (stop : Bool) (ops : BitVec 23) (s : State) (h : Keeps s0 s) :
    OKeeps s0 (execRte e stop ops s) := by
  unfold execRte; try dsimp only
  repeat' first | (intro; try dsimp only) | (with_reducible first
    | assumption | apply syllable_keeps | apply okeeps_next | apply okeeps_fault | apply okeeps_ite) | split

theorem execRpt_keeps (e : Fin 16) (stop : Bool) (ops : BitVec 23) (s : State) (h : Keeps s0 s) :
    OKeeps s0 (execRpt e stop ops s) := by
  unfold execRpt; try dsimp only
  repeat' first | (intro; try dsimp only) | (with_reducible first
    | assumption | apply syllable_keeps | apply okeeps_next | apply okeeps_fault | apply okeeps_ite) | split

theorem execWfe_keeps (e : Fin 16) (stop : Bool) (ops : BitVec 23) (s : State) (h : Keeps s0 s) :
    OKeeps s0 (execWfe e stop ops s) := by
  unfold execWfe; try dsimp only
  repeat' first | (intro; try dsimp only) | (with_reducible first
    | assumption | apply syllable_keeps | apply okeeps_next | apply okeeps_fault | apply okeeps_ite) | split

theorem execMwait_keeps (e : Fin 16) (stop : Bool) (ops : BitVec 23) (s : State) (h : Keeps s0 s) :
    OKeeps s0 (execMwait e stop ops s) := by
  unfold execMwait; try dsimp only
  repeat' first | (intro; try dsimp only) | (with_reducible first
    | assumption | apply syllable_keeps | apply okeeps_next | apply okeeps_fault | apply okeeps_ite) | split

theorem execSev_keeps (e : Fin 16) (stop : Bool) (ops : BitVec 23) (s : State) (h : Keeps s0 s) :
    OKeeps s0 (execSev e stop ops s) := by
  unfold execSev; try dsimp only
  repeat' first | (intro; try dsimp only) | (with_reducible first
    | assumption | apply syllable_keeps | apply okeeps_next | apply okeeps_fault | apply okeeps_ite) | split

theorem execSevr_keeps (e : Fin 16) (stop : Bool) (ops : BitVec 23) (s : State) (h : Keeps s0 s) :
    OKeeps s0 (execSevr e stop ops s) := by
  unfold execSevr; try dsimp only
  repeat' first | (intro; try dsimp only) | (with_reducible first
    | assumption | apply syllable_keeps | apply okeeps_next | apply okeeps_fault | apply okeeps_ite) | split

theorem execFence_keeps (e : Fin 16) (stop : Bool) (ops : BitVec 23) (s : State) (h : Keeps s0 s) :
    OKeeps s0 (execFence e stop ops s) := by
  unfold execFence; try dsimp only
  repeat' first | (intro; try dsimp only) | (with_reducible first
    | assumption | apply syllable_keeps | apply okeeps_next | apply okeeps_fault | apply okeeps_ite) | split

theorem execBrk_keeps (e : Fin 16) (stop : Bool) (ops : BitVec 23) (s : State) (h : Keeps s0 s) :
    OKeeps s0 (execBrk e stop ops s) := by
  unfold execBrk; try dsimp only
  repeat' first | (intro; try dsimp only) | (with_reducible first
    | assumption | apply syllable_keeps | apply okeeps_next | apply okeeps_fault | apply okeeps_ite) | split

theorem execMfs_keeps (e : Fin 16) (stop : Bool) (ops : BitVec 23) (s : State) (h : Keeps s0 s) :
    OKeeps s0 (execMfs e stop ops s) := by
  unfold execMfs; try dsimp only
  repeat' first | (intro; try dsimp only) | (with_reducible first
    | assumption | apply syllable_keeps | apply okeeps_next | apply okeeps_fault | apply okeeps_ite) | split

theorem execMts_keeps (e : Fin 16) (stop : Bool) (ops : BitVec 23) (s : State) (h : Keeps s0 s) :
    OKeeps s0 (execMts e stop ops s) := by
  unfold execMts; try dsimp only
  repeat' first | (intro; try dsimp only) | (with_reducible first
    | assumption | apply syllable_keeps | apply okeeps_next | apply okeeps_fault | apply okeeps_ite) | split

theorem execCrcset_keeps (e : Fin 16) (stop : Bool) (ops : BitVec 23) (s : State) (h : Keeps s0 s) :
    OKeeps s0 (execCrcset e stop ops s) := by
  unfold execCrcset; try dsimp only
  repeat' first | (intro; try dsimp only) | (with_reducible first
    | assumption | apply syllable_keeps | apply okeeps_next | apply okeeps_fault | apply okeeps_ite) | split

theorem execCrcm_keeps (e : Fin 16) (stop : Bool) (ops : BitVec 23) (s : State) (h : Keeps s0 s) :
    OKeeps s0 (execCrcm e stop ops s) := by
  unfold execCrcm; try dsimp only
  repeat' first | (intro; try dsimp only) | (with_reducible first
    | assumption | apply syllable_keeps | apply okeeps_next | apply okeeps_fault | apply okeeps_ite) | split

theorem execCrcw_keeps (e : Fin 16) (stop : Bool) (ops : BitVec 23) (s : State) (h : Keeps s0 s) :
    OKeeps s0 (execCrcw e stop ops s) := by
  unfold execCrcw; try dsimp only
  repeat' first | (intro; try dsimp only) | (with_reducible first
    | assumption | apply syllable_keeps | apply okeeps_next | apply okeeps_fault | apply okeeps_ite) | split

theorem execCsum_keeps (e : Fin 16) (stop : Bool) (ops : BitVec 23) (s : State) (h : Keeps s0 s) :
    OKeeps s0 (execCsum e stop ops s) := by
  unfold execCsum; try dsimp only
  repeat' first | (intro; try dsimp only) | (with_reducible first
    | assumption | apply syllable_keeps | apply okeeps_next | apply okeeps_fault | apply okeeps_ite) | split

theorem execStuff_keeps (e : Fin 16) (stop : Bool) (ops : BitVec 23) (s : State) (h : Keeps s0 s) :
    OKeeps s0 (execStuff e stop ops s) := by
  unfold execStuff; try dsimp only
  repeat' first | (intro; try dsimp only) | (with_reducible first
    | assumption | apply syllable_keeps | apply okeeps_next | apply okeeps_fault | apply okeeps_ite) | split

theorem execUnstuff_keeps (e : Fin 16) (stop : Bool) (ops : BitVec 23) (s : State) (h : Keeps s0 s) :
    OKeeps s0 (execUnstuff e stop ops s) := by
  unfold execUnstuff; try dsimp only
  repeat' first | (intro; try dsimp only) | (with_reducible first
    | assumption | apply syllable_keeps | apply okeeps_next | apply okeeps_fault | apply okeeps_ite) | split

theorem execFext_keeps (e : Fin 16) (stop : Bool) (ops : BitVec 23) (s : State) (h : Keeps s0 s) :
    OKeeps s0 (execFext e stop ops s) := by
  unfold execFext; try dsimp only
  repeat' first | (intro; try dsimp only) | (with_reducible first
    | assumption | apply syllable_keeps | apply okeeps_next | apply okeeps_fault | apply okeeps_ite) | split

theorem execFins_keeps (e : Fin 16) (stop : Bool) (ops : BitVec 23) (s : State) (h : Keeps s0 s) :
    OKeeps s0 (execFins e stop ops s) := by
  unfold execFins; try dsimp only
  repeat' first | (intro; try dsimp only) | (with_reducible first
    | assumption | apply syllable_keeps | apply okeeps_next | apply okeeps_fault | apply okeeps_ite) | split

theorem execGcmkey_keeps (e : Fin 16) (stop : Bool) (ops : BitVec 23) (s : State) (h : Keeps s0 s) :
    OKeeps s0 (execGcmkey e stop ops s) := by
  unfold execGcmkey; try dsimp only
  repeat' first | (intro; try dsimp only) | (with_reducible first
    | assumption | apply syllable_keeps | apply okeeps_next | apply okeeps_fault | apply okeeps_ite) | split

theorem execGcmiv_keeps (e : Fin 16) (stop : Bool) (ops : BitVec 23) (s : State) (h : Keeps s0 s) :
    OKeeps s0 (execGcmiv e stop ops s) := by
  unfold execGcmiv; try dsimp only
  repeat' first | (intro; try dsimp only) | (with_reducible first
    | assumption | apply syllable_keeps | apply okeeps_next | apply okeeps_fault | apply okeeps_ite) | split

theorem execGcmaad_keeps (e : Fin 16) (stop : Bool) (ops : BitVec 23) (s : State) (h : Keeps s0 s) :
    OKeeps s0 (execGcmaad e stop ops s) := by
  unfold execGcmaad; try dsimp only
  repeat' first | (intro; try dsimp only) | (with_reducible first
    | assumption | apply syllable_keeps | apply okeeps_next | apply okeeps_fault | apply okeeps_ite) | split

theorem execGcmenc_keeps (e : Fin 16) (stop : Bool) (ops : BitVec 23) (s : State) (h : Keeps s0 s) :
    OKeeps s0 (execGcmenc e stop ops s) := by
  unfold execGcmenc; try dsimp only
  repeat' first | (intro; try dsimp only) | (with_reducible first
    | assumption | apply syllable_keeps | apply okeeps_next | apply okeeps_fault | apply okeeps_ite) | split

theorem execGcmdec_keeps (e : Fin 16) (stop : Bool) (ops : BitVec 23) (s : State) (h : Keeps s0 s) :
    OKeeps s0 (execGcmdec e stop ops s) := by
  unfold execGcmdec; try dsimp only
  repeat' first | (intro; try dsimp only) | (with_reducible first
    | assumption | apply syllable_keeps | apply okeeps_next | apply okeeps_fault | apply okeeps_ite) | split

theorem execGcmtag_keeps (e : Fin 16) (stop : Bool) (ops : BitVec 23) (s : State) (h : Keeps s0 s) :
    OKeeps s0 (execGcmtag e stop ops s) := by
  unfold execGcmtag; try dsimp only
  repeat' first | (intro; try dsimp only) | (with_reducible first
    | assumption | apply syllable_keeps | apply okeeps_next | apply okeeps_fault | apply okeeps_ite) | split

theorem State.storeFails_keeps {s0 : State} (s : State) (h : Keeps s0 s) :
    Keeps s0 (State.storeFails s) := by
  unfold State.storeFails; try dsimp only
  repeat' first | (intro; try dsimp only) | (with_reducible first
    | assumption | apply State.updHif_keeps | apply State.parEnd_keeps
    | exact keeps_mk (Keeps.pending (by assumption)) (Keeps.shm (by assumption)) | apply keeps_ite) | split

theorem State.hostStore_keeps {s0 : State} (s : State) (m : Master) (win : Bool) (off : Nat) (bs : List (Option Byte)) (h : Keeps s0 s) :
    OKeeps s0 (State.hostStore s m win off bs) := by
  unfold State.hostStore; try dsimp only
  repeat' first | (intro; try dsimp only) | (with_reducible first
    | assumption | apply State.bar0Piece_keeps | apply State.hostWrite_keeps | apply State.storeFails_keeps
    | apply okeeps_next | apply okeeps_fault | apply okeeps_ite | apply keeps_ite) | split

theorem State.hostReg_keeps {s0 : State} (s : State) (m : Master) (off : Nat) (v : W32) (h : Keeps s0 s) :
    OKeeps s0 (State.hostReg s m off v) := by
  unfold State.hostReg; try dsimp only
  repeat' first | (intro; try dsimp only) | (with_reducible first
    | assumption | apply State.hostStore_keeps | apply okeeps_next | apply okeeps_fault | apply okeeps_ite) | split

theorem State.hostLoad_keeps {s0 : State} (s : State) (m : Master) (off : Nat) (h : Keeps s0 s) :
    OKeeps s0 (State.hostLoad s m off) := by
  unfold State.hostLoad; try dsimp only
  repeat' first | (intro; try dsimp only) | (with_reducible first
    | assumption | apply State.updHif_keeps | apply State.bar0Read_keeps | apply State.parRead_keeps
    | apply State.spiRead_keeps | exact keeps_mk (Keeps.pending (by assumption)) (Keeps.shm (by assumption))
    | apply okeeps_next | apply okeeps_fault | apply okeeps_ite | apply keeps_ite
    | refine keeps_snd (by assumption) ?_ | refine keeps_thd (by assumption) ?_
    | refine keeps_fst (by assumption) ?_ | refine keeps_next (by assumption) ?_
    | refine keeps_ok (by assumption) ?_ | refine keeps_some (by assumption) ?_
    | exact okeeps_of_fault (by assumption)) | split

theorem State.acquire_keeps {s0 : State} (s : State) (m : Master) (l : Fin 24) (h : Keeps s0 s) :
    OKeeps s0 (State.acquire s m l) := by
  unfold State.acquire; try dsimp only
  repeat' first | (intro; try dsimp only) | (with_reducible first
    | assumption | apply State.lockRead_keeps | apply State.engineTouch_keeps | apply State.hostLoad_keeps
    | apply okeeps_next | apply okeeps_fault | apply okeeps_ite | apply keeps_ite
    | refine keeps_snd (by assumption) ?_ | refine keeps_thd (by assumption) ?_
    | refine keeps_fst (by assumption) ?_ | refine keeps_next (by assumption) ?_
    | refine keeps_ok (by assumption) ?_ | refine keeps_some (by assumption) ?_
    | exact okeeps_of_fault (by assumption)) | split

theorem State.lockStore_keeps {s0 : State} (s : State) (m : Master) (l : Fin 24) (v : W32) (h : Keeps s0 s) :
    OKeeps s0 (State.lockStore s m l v) := by
  unfold State.lockStore; try dsimp only
  repeat' first | (intro; try dsimp only) | (with_reducible first
    | assumption | apply State.lockWrite_keeps | apply State.engineStore_keeps | apply State.hostReg_keeps
    | apply okeeps_next | apply okeeps_fault | apply okeeps_ite | apply keeps_ite
    | refine keeps_snd (by assumption) ?_ | refine keeps_thd (by assumption) ?_
    | refine keeps_fst (by assumption) ?_ | refine keeps_next (by assumption) ?_
    | refine keeps_ok (by assumption) ?_ | refine keeps_some (by assumption) ?_
    | exact okeeps_of_fault (by assumption)) | split

theorem State.embStore_keeps {s0 : State} (s : State) (m : Master) (e : Fin 16) (v : W32) (h : Keeps s0 s) :
    OKeeps s0 (State.embStore s m e v) := by
  unfold State.embStore; try dsimp only
  repeat' first | (intro; try dsimp only) | (with_reducible first
    | assumption | apply State.embCmd_keeps | apply State.engineStore_keeps | apply State.hostReg_keeps
    | apply okeeps_next | apply okeeps_fault | apply okeeps_ite | apply keeps_ite
    | refine keeps_snd (by assumption) ?_ | refine keeps_thd (by assumption) ?_
    | refine keeps_fst (by assumption) ?_ | refine keeps_next (by assumption) ?_
    | refine keeps_ok (by assumption) ?_ | refine keeps_some (by assumption) ?_
    | exact okeeps_of_fault (by assumption)) | split

theorem execVinOn_keeps (s : State) (h : Keeps s0 s) :
    OKeeps s0 (execVinOn s) := by
  unfold execVinOn; try dsimp only
  repeat' first | (intro; try dsimp only) | (with_reducible first
    | assumption | apply State.vinOn_keeps | apply okeeps_next | apply okeeps_fault | apply okeeps_ite) | split

theorem execVinOff_keeps (s : State) (h : Keeps s0 s) :
    OKeeps s0 (execVinOff s) := by
  unfold execVinOff; try dsimp only
  repeat' first | (intro; try dsimp only) | (with_reducible first
    | assumption | apply State.vinOff_keeps | apply okeeps_next | apply okeeps_fault | apply okeeps_ite) | split

theorem execVinOvlo_keeps (s : State) (h : Keeps s0 s) :
    OKeeps s0 (execVinOvlo s) := by
  unfold execVinOvlo; try dsimp only
  repeat' first | (intro; try dsimp only) | (with_reducible first
    | assumption | apply State.vinOver_keeps | apply okeeps_next | apply okeeps_fault | apply okeeps_ite) | split

theorem execVinOvloRelease_keeps (s : State) (h : Keeps s0 s) :
    OKeeps s0 (execVinOvloRelease s) := by
  unfold execVinOvloRelease; try dsimp only
  repeat' first | (intro; try dsimp only) | (with_reducible first
    | assumption | apply State.vinOverEnd_keeps | apply okeeps_next | apply okeeps_fault | apply okeeps_ite) | split

theorem execEfuseTrip_keeps (s : State) (h : Keeps s0 s) :
    OKeeps s0 (execEfuseTrip s) := by
  unfold execEfuseTrip; try dsimp only
  repeat' first | (intro; try dsimp only) | (with_reducible first
    | assumption | apply State.efuseTrip_keeps | apply okeeps_next | apply okeeps_fault | apply okeeps_ite) | split

theorem execEfuseRetry_keeps (s : State) (h : Keeps s0 s) :
    OKeeps s0 (execEfuseRetry s) := by
  unfold execEfuseRetry; try dsimp only
  repeat' first | (intro; try dsimp only) | (with_reducible first
    | assumption | apply State.efuseRetry_keeps | apply okeeps_next | apply okeeps_fault | apply okeeps_ite) | split

theorem execMateSettled_keeps (s : State) (h : Keeps s0 s) :
    OKeeps s0 (execMateSettled s) := by
  unfold execMateSettled; try dsimp only
  repeat' first | (intro; try dsimp only) | (with_reducible first
    | assumption | apply State.mateSettled_keeps | apply okeeps_next | apply okeeps_fault | apply okeeps_ite) | split

theorem execMateBreak_keeps (s : State) (h : Keeps s0 s) :
    OKeeps s0 (execMateBreak s) := by
  unfold execMateBreak; try dsimp only
  repeat' first | (intro; try dsimp only) | (with_reducible first
    | assumption | apply State.mateBreak_keeps | apply okeeps_next | apply okeeps_fault | apply okeeps_ite) | split

theorem execRstNLow_keeps (s : State) (h : Keeps s0 s) :
    OKeeps s0 (execRstNLow s) := by
  unfold execRstNLow; try dsimp only
  repeat' first | (intro; try dsimp only) | (with_reducible first
    | assumption | apply State.rstLow_keeps | apply okeeps_next | apply okeeps_fault | apply okeeps_ite) | split

theorem execResetRelease_keeps (b : Boot) (s : State) (h : Keeps s0 s) :
    OKeeps s0 (execResetRelease b s) := by
  unfold execResetRelease; try dsimp only
  repeat' first | (intro; try dsimp only) | (with_reducible first
    | assumption | apply State.release_keeps | apply okeeps_next | apply okeeps_fault | apply okeeps_ite) | split

theorem execSupWatchdogReset_keeps (s : State) (h : Keeps s0 s) :
    OKeeps s0 (execSupWatchdogReset s) := by
  unfold execSupWatchdogReset; try dsimp only
  repeat' first | (intro; try dsimp only) | (with_reducible first
    | assumption | apply State.supWatchdog_keeps | apply okeeps_next | apply okeeps_fault | apply okeeps_ite) | split

theorem execSupLockstep_keeps (s : State) (h : Keeps s0 s) :
    OKeeps s0 (execSupLockstep s) := by
  unfold execSupLockstep; try dsimp only
  repeat' first | (intro; try dsimp only) | (with_reducible first
    | assumption | apply State.supLockstep_keeps | apply okeeps_next | apply okeeps_fault | apply okeeps_ite) | split

theorem execWakePin_keeps (s : State) (h : Keeps s0 s) :
    OKeeps s0 (execWakePin s) := by
  unfold execWakePin; try dsimp only
  repeat' first | (intro; try dsimp only) | (with_reducible first
    | assumption | apply State.wakeBy_keeps | apply okeeps_next | apply okeeps_fault | apply okeeps_ite) | split

theorem execRtcAlarm_keeps (s : State) (h : Keeps s0 s) :
    OKeeps s0 (execRtcAlarm s) := by
  unfold execRtcAlarm; try dsimp only
  repeat' first | (intro; try dsimp only) | (with_reducible first
    | assumption | apply State.rtcDue_keeps | apply okeeps_next | apply okeeps_fault | apply okeeps_ite) | split

theorem execPerstN_keeps (s : State) (h : Keeps s0 s) :
    OKeeps s0 (execPerstN s) := by
  unfold execPerstN; try dsimp only
  repeat' first | (intro; try dsimp only) | (with_reducible first
    | assumption | apply State.perst_keeps | apply okeeps_next | apply okeeps_fault | apply okeeps_ite) | split

theorem execPowerRequest_keeps (s : State) (h : Keeps s0 s) :
    OKeeps s0 (execPowerRequest s) := by
  unfold execPowerRequest; try dsimp only
  repeat' first | (intro; try dsimp only) | (with_reducible first
    | assumption | apply State.serveAll_keeps | apply done_keeps | apply okeeps_next | apply okeeps_fault
    | apply okeeps_ite) | split

theorem execDomainPowerUpDone_keeps (d : Fin 12) (s : State) (h : Keeps s0 s) :
    OKeeps s0 (execDomainPowerUpDone d s) := by
  unfold execDomainPowerUpDone; try dsimp only
  repeat' first | (intro; try dsimp only) | (with_reducible first
    | assumption | apply State.powerUpDone_keeps | apply done_keeps | apply okeeps_next | apply okeeps_fault
    | apply okeeps_ite) | split

theorem execAvsPeriod_keeps (c : Fin 4) (margin : Nat) (s : State) (h : Keeps s0 s) :
    OKeeps s0 (execAvsPeriod c margin s) := by
  unfold execAvsPeriod; try dsimp only
  repeat' first | (intro; try dsimp only) | (with_reducible first
    | assumption | apply State.avsPeriod_keeps | apply okeeps_next | apply okeeps_fault | apply okeeps_ite) | split

theorem execAvsFastStep_keeps (c : Fin 4) (s : State) (h : Keeps s0 s) :
    OKeeps s0 (execAvsFastStep c s) := by
  unfold execAvsFastStep; try dsimp only
  repeat' first | (intro; try dsimp only) | (with_reducible first
    | assumption | apply State.avsFast_keeps | apply done_keeps | apply okeeps_next | apply okeeps_fault
    | apply okeeps_ite) | split

theorem execRtcCorrect_keeps (correction : Int) (s : State) (h : Keeps s0 s) :
    OKeeps s0 (execRtcCorrect correction s) := by
  unfold execRtcCorrect; try dsimp only
  repeat' first | (intro; try dsimp only) | (with_reducible first
    | assumption | apply State.rtcCorrect_keeps | apply okeeps_next | apply okeeps_fault | apply okeeps_ite) | split

theorem execHeartbeatTick_keeps (s : State) (h : Keeps s0 s) :
    OKeeps s0 (execHeartbeatTick s) := by
  unfold execHeartbeatTick; try dsimp only
  repeat' first | (intro; try dsimp only) | (with_reducible first
    | assumption | apply State.heartbeat_keeps | apply okeeps_next | apply okeeps_fault | apply okeeps_ite) | split

theorem execLockAcquire_keeps (m : Master) (l : Fin 24) (others : List Master) (s : State) (h : Keeps s0 s) :
    OKeeps s0 (execLockAcquire m l others s) := by
  unfold execLockAcquire; try dsimp only
  repeat' first | (intro; try dsimp only) | (with_reducible first
    | assumption | apply State.acquire_keeps | apply okeeps_next | apply okeeps_fault | apply okeeps_ite
    | apply okeeps_andThen | apply keeps_ite) | split

theorem execLockRelease_keeps (m : Master) (l : Fin 24) (v : W32) (s : State) (h : Keeps s0 s) :
    OKeeps s0 (execLockRelease m l v s) := by
  unfold execLockRelease; try dsimp only
  repeat' first | (intro; try dsimp only) | (with_reducible first
    | assumption | apply State.lockStore_keeps | apply okeeps_next | apply okeeps_fault | apply okeeps_ite) | split

theorem execMbInboundPost_keeps (n : Fin 8) (s : State) (h : Keeps s0 s) :
    OKeeps s0 (execMbInboundPost n s) := by
  unfold execMbInboundPost; try dsimp only
  repeat' first | (intro; try dsimp only) | (with_reducible first
    | assumption | apply State.hostReg_keeps | apply okeeps_next | apply okeeps_fault | apply okeeps_ite) | split

theorem execMbOutboundRelease_keeps (n : Fin 8) (s : State) (h : Keeps s0 s) :
    OKeeps s0 (execMbOutboundRelease n s) := by
  unfold execMbOutboundRelease; try dsimp only
  repeat' first | (intro; try dsimp only) | (with_reducible first
    | assumption | apply State.hostReg_keeps | apply okeeps_next | apply okeeps_fault | apply okeeps_ite) | split

theorem execOutputPublishRing_keeps (c : Fin 4) (s : State) (h : Keeps s0 s) :
    OKeeps s0 (execOutputPublishRing c s) := by
  unfold execOutputPublishRing; try dsimp only
  repeat' first | (intro; try dsimp only) | (with_reducible first
    | assumption | apply State.hostReg_keeps | apply okeeps_next | apply okeeps_fault | apply okeeps_ite) | split

theorem execDbH2sFutureRing_keeps (b : Fin 8) (s : State) (h : Keeps s0 s) :
    OKeeps s0 (execDbH2sFutureRing b s) := by
  unfold execDbH2sFutureRing; try dsimp only
  repeat' first | (intro; try dsimp only) | (with_reducible first
    | assumption | apply State.hostReg_keeps | apply okeeps_next | apply okeeps_fault | apply okeeps_ite) | split

theorem execDbS2hClear_keeps (v : W32) (s : State) (h : Keeps s0 s) :
    OKeeps s0 (execDbS2hClear v s) := by
  unfold execDbS2hClear; try dsimp only
  repeat' first | (intro; try dsimp only) | (with_reducible first
    | assumption | apply State.hostReg_keeps | apply okeeps_next | apply okeeps_fault | apply okeeps_ite) | split

theorem execDbS2hMaskWrite_keeps (v : W32) (s : State) (h : Keeps s0 s) :
    OKeeps s0 (execDbS2hMaskWrite v s) := by
  unfold execDbS2hMaskWrite; try dsimp only
  repeat' first | (intro; try dsimp only) | (with_reducible first
    | assumption | apply State.hostReg_keeps | apply okeeps_next | apply okeeps_fault | apply okeeps_ite) | split

theorem execEngDbRing_keeps (e : Fin 16) (s : State) (h : Keeps s0 s) :
    OKeeps s0 (execEngDbRing e s) := by
  unfold execEngDbRing; try dsimp only
  repeat' first | (intro; try dsimp only) | (with_reducible first
    | assumption | apply State.hostReg_keeps | apply okeeps_next | apply okeeps_fault | apply okeeps_ite) | split

theorem execEmbPost_keeps (m : Master) (e : Fin 16) (s : State) (h : Keeps s0 s) :
    OKeeps s0 (execEmbPost m e s) := by
  unfold execEmbPost; try dsimp only
  repeat' first | (intro; try dsimp only) | (with_reducible first
    | assumption | apply State.embStore_keeps | apply okeeps_next | apply okeeps_fault | apply okeeps_ite) | split

theorem execEmbInRel_keeps (e : Fin 16) (s : State) (h : Keeps s0 s) :
    OKeeps s0 (execEmbInRel e s) := by
  unfold execEmbInRel; try dsimp only
  repeat' first | (intro; try dsimp only) | (with_reducible first
    | assumption | apply State.embStore_keeps | apply okeeps_next | apply okeeps_fault | apply okeeps_ite) | split

theorem execEmbOutPost_keeps (e : Fin 16) (s : State) (h : Keeps s0 s) :
    OKeeps s0 (execEmbOutPost e s) := by
  unfold execEmbOutPost; try dsimp only
  repeat' first | (intro; try dsimp only) | (with_reducible first
    | assumption | apply State.embStore_keeps | apply okeeps_next | apply okeeps_fault | apply okeeps_ite) | split

theorem execEmbOutRel_keeps (m : Master) (e : Fin 16) (s : State) (h : Keeps s0 s) :
    OKeeps s0 (execEmbOutRel m e s) := by
  unfold execEmbOutRel; try dsimp only
  repeat' first | (intro; try dsimp only) | (with_reducible first
    | assumption | apply State.embStore_keeps | apply okeeps_next | apply okeeps_fault | apply okeeps_ite) | split

theorem execEngS2hRing_keeps (e : Fin 16) (v : W32) (s : State) (h : Keeps s0 s) :
    OKeeps s0 (execEngS2hRing e v s) := by
  unfold execEngS2hRing; try dsimp only
  repeat' first | (intro; try dsimp only) | (with_reducible first
    | assumption | apply State.engineStore_keeps | apply okeeps_next | apply okeeps_fault | apply okeeps_ite) | split

theorem execHifStatWrite_keeps (v : W32) (s : State) (h : Keeps s0 s) :
    OKeeps s0 (execHifStatWrite v s) := by
  unfold execHifStatWrite; try dsimp only
  repeat' first | (intro; try dsimp only) | (with_reducible first
    | assumption | apply State.hostReg_keeps | apply okeeps_next | apply okeeps_fault | apply okeeps_ite) | split

theorem execIntStatusWrite_keeps (v : W32) (s : State) (h : Keeps s0 s) :
    OKeeps s0 (execIntStatusWrite v s) := by
  unfold execIntStatusWrite; try dsimp only
  repeat' first | (intro; try dsimp only) | (with_reducible first
    | assumption | apply State.hostReg_keeps | apply okeeps_next | apply okeeps_fault | apply okeeps_ite) | split

theorem execRegisterWrite_keeps (w : RegWrite) (s : State) (h : Keeps s0 s) :
    OKeeps s0 (execRegisterWrite w s) := by
  unfold execRegisterWrite; try dsimp only
  repeat' first | (intro; try dsimp only) | (with_reducible first
    | assumption | apply State.engineStore_keeps | apply State.hostStore_keeps | apply okeeps_next
    | apply okeeps_fault | apply okeeps_ite | refine keeps_snd (by assumption) ?_
    | refine keeps_thd (by assumption) ?_ | refine keeps_fst (by assumption) ?_
    | refine keeps_next (by assumption) ?_ | refine keeps_ok (by assumption) ?_
    | refine keeps_some (by assumption) ?_ | exact okeeps_of_fault (by assumption)) | split

theorem execHostMemoryWrite_keeps (m : Master) (win : Bool) (off : BitVec 23) (data : List (Option Byte)) (s : State) (h : Keeps s0 s) :
    OKeeps s0 (execHostMemoryWrite m win off data s) := by
  unfold execHostMemoryWrite; try dsimp only
  repeat' first | (intro; try dsimp only) | (with_reducible first
    | assumption | apply State.hostStore_keeps | apply okeeps_next | apply okeeps_fault | apply okeeps_ite) | split

theorem execParLowHalfRead_keeps (win : Bool) (off : BitVec 23) (s : State) (h : Keeps s0 s) :
    OKeeps s0 (execParLowHalfRead win off s) := by
  unfold execParLowHalfRead; try dsimp only
  repeat' first | (intro; try dsimp only) | (with_reducible first
    | assumption | apply State.parRead_keeps | apply done_keeps | apply okeeps_next | apply okeeps_fault
    | apply okeeps_ite) | split

theorem execParHighHalfRead_keeps (win : Bool) (off : BitVec 23) (s : State) (h : Keeps s0 s) :
    OKeeps s0 (execParHighHalfRead win off s) := by
  unfold execParHighHalfRead; try dsimp only
  repeat' first | (intro; try dsimp only) | (with_reducible first
    | assumption | apply State.parRead_keeps | apply done_keeps | apply okeeps_next | apply okeeps_fault
    | apply okeeps_ite) | split

theorem execParLowHalfWrite_keeps (win : Bool) (off : BitVec 23) (lanes : BitVec 2) (v : W16) (s : State) (h : Keeps s0 s) :
    OKeeps s0 (execParLowHalfWrite win off lanes v s) := by
  unfold execParLowHalfWrite; try dsimp only
  repeat' first | (intro; try dsimp only) | (with_reducible first
    | assumption | apply State.parWrite_keeps | apply okeeps_next | apply okeeps_fault | apply okeeps_ite) | split

theorem execParHighHalfWrite_keeps (win : Bool) (off : BitVec 23) (lanes : BitVec 2) (v : W16) (s : State) (h : Keeps s0 s) :
    OKeeps s0 (execParHighHalfWrite win off lanes v s) := by
  unfold execParHighHalfWrite; try dsimp only
  repeat' first | (intro; try dsimp only) | (with_reducible first
    | assumption | apply State.parWrite_keeps | apply okeeps_next | apply okeeps_fault | apply okeeps_ite) | split

theorem execRead0_keeps (addr : BitVec 24) (count : BitVec 8) (s : State) (h : Keeps s0 s) :
    OKeeps s0 (execRead0 addr count s) := by
  unfold execRead0; try dsimp only
  repeat' first | (intro; try dsimp only) | (with_reducible first
    | assumption | apply State.spiRead_keeps | apply okeeps_next | apply okeeps_fault | apply okeeps_ite) | split

theorem execRead1_keeps (addr : BitVec 24) (count : BitVec 8) (s : State) (h : Keeps s0 s) :
    OKeeps s0 (execRead1 addr count s) := by
  unfold execRead1; try dsimp only
  repeat' first | (intro; try dsimp only) | (with_reducible first
    | assumption | apply State.spiRead_keeps | apply okeeps_next | apply okeeps_fault | apply okeeps_ite) | split

theorem execWrite0_keeps (drained : Bool) (addr : BitVec 24) (words : List W32) (s : State) (h : Keeps s0 s) :
    OKeeps s0 (execWrite0 drained addr words s) := by
  unfold execWrite0; try dsimp only
  repeat' first | (intro; try dsimp only) | (with_reducible first
    | assumption | apply State.spiWrite_keeps | apply okeeps_next | apply okeeps_fault | apply okeeps_ite) | split

theorem execWrite1_keeps (drained : Bool) (addr : BitVec 24) (words : List W32) (s : State) (h : Keeps s0 s) :
    OKeeps s0 (execWrite1 drained addr words s) := by
  unfold execWrite1; try dsimp only
  repeat' first | (intro; try dsimp only) | (with_reducible first
    | assumption | apply State.spiWrite_keeps | apply okeeps_next | apply okeeps_fault | apply okeeps_ite) | split

theorem execSpiStatus_keeps (drained : Bool) (s : State) (h : Keeps s0 s) :
    OKeeps s0 (execSpiStatus drained s) := by
  unfold execSpiStatus; try dsimp only
  repeat' first | (intro; try dsimp only) | (with_reducible first
    | assumption | apply State.spiStat_keeps | apply okeeps_next | apply okeeps_fault | apply okeeps_ite) | split

theorem execSpiBadCommand_keeps (b : Byte) (s : State) (h : Keeps s0 s) :
    OKeeps s0 (execSpiBadCommand b s) := by
  unfold execSpiBadCommand; try dsimp only
  repeat' first | (intro; try dsimp only) | (with_reducible first
    | assumption | apply State.spiBad_keeps | apply okeeps_next | apply okeeps_fault | apply okeeps_ite) | split

theorem execSpiCsNRise_keeps (w : SpiPhase) (s : State) (h : Keeps s0 s) :
    OKeeps s0 (execSpiCsNRise w s) := by
  unfold execSpiCsNRise; try dsimp only
  repeat' first | (intro; try dsimp only) | (with_reducible first
    | assumption | apply State.spiRise_keeps | apply okeeps_next | apply okeeps_fault | apply okeeps_ite) | split

theorem execAccessAbandoned_keeps (m : Master) (write : Bool) (off : BitVec 23) (s : State) (h : Keeps s0 s) :
    OKeeps s0 (execAccessAbandoned m write off s) := by
  unfold execAccessAbandoned; try dsimp only
  repeat' first | (intro; try dsimp only) | (with_reducible first
    | assumption | apply State.abandoned_keeps | apply okeeps_next | apply okeeps_fault | apply okeeps_ite
    | apply keeps_ite) | split

theorem execPcieLinkUp_keeps (s : State) (h : Keeps s0 s) :
    OKeeps s0 (execPcieLinkUp s) := by
  unfold execPcieLinkUp; try dsimp only
  repeat' first | (intro; try dsimp only) | (with_reducible first
    | assumption | apply State.pcieUp_keeps | apply okeeps_next | apply okeeps_fault | apply okeeps_ite) | split

theorem execPcieConfigWrite_keeps (rid : W16) (r : PcieReg) (v : W64) (s : State) (h : Keeps s0 s) :
    OKeeps s0 (execPcieConfigWrite rid r v s) := by
  unfold execPcieConfigWrite; try dsimp only
  repeat' first | (intro; try dsimp only) | (with_reducible first
    | assumption | apply State.pcieConfig_keeps | apply okeeps_next | apply okeeps_fault | apply okeeps_ite) | split

theorem execAklosSignalPresent_keeps (l : Fin 2) (s : State) (h : Keeps s0 s) :
    OKeeps s0 (execAklosSignalPresent l s) := by
  unfold execAklosSignalPresent; try dsimp only
  repeat' first | (intro; try dsimp only) | (with_reducible first
    | assumption | apply State.akSignal_keeps | apply done_keeps | apply okeeps_next | apply okeeps_fault
    | apply okeeps_ite) | split

theorem execAklosLinkUp_keeps (l : Fin 2) (i : PeerInfo) (s : State) (h : Keeps s0 s) :
    OKeeps s0 (execAklosLinkUp l i s) := by
  unfold execAklosLinkUp; try dsimp only
  repeat' first | (intro; try dsimp only) | (with_reducible first
    | assumption | apply State.linkUp_keeps | apply done_keeps | apply okeeps_next | apply okeeps_fault
    | apply okeeps_ite) | split

theorem execAklosLinkDown_keeps (l : Fin 2) (s : State) (h : Keeps s0 s) :
    OKeeps s0 (execAklosLinkDown l s) := by
  unfold execAklosLinkDown; try dsimp only
  repeat' first | (intro; try dsimp only) | (with_reducible first
    | assumption | apply State.akDown_keeps | apply done_keeps | apply okeeps_next | apply okeeps_fault
    | apply okeeps_ite) | split

theorem execBeatSend_keeps (l : Fin 2) (s : State) (h : Keeps s0 s) :
    OKeeps s0 (execBeatSend l s) := by
  unfold execBeatSend; try dsimp only
  repeat' first | (intro; try dsimp only) | (with_reducible first
    | assumption | apply State.beatSend_keeps | apply done_keeps | apply okeeps_next | apply okeeps_fault
    | apply okeeps_ite) | split

theorem execAklosBeat_keeps (l : Fin 2) (mpos : Fin 4) (state : Fin 6) (orphanMs : Nat) (count : Nat) (prefer : Bool) (crcOk : Bool) (s : State) (h : Keeps s0 s) :
    OKeeps s0 (execAklosBeat l mpos state orphanMs count prefer crcOk s) := by
  unfold execAklosBeat; try dsimp only
  repeat' first | (intro; try dsimp only) | (with_reducible first
    | assumption | apply State.received_keeps | apply State.beat_keeps | apply done_keeps | apply okeeps_next
    | apply okeeps_fault | apply okeeps_ite) | split

theorem execAklosTimeSend_keeps (l : Fin 2) (s : State) (h : Keeps s0 s) :
    OKeeps s0 (execAklosTimeSend l s) := by
  unfold execAklosTimeSend; try dsimp only
  repeat' first | (intro; try dsimp only) | (with_reducible first
    | assumption | apply State.akTimeSend_keeps | apply done_keeps | apply okeeps_next | apply okeeps_fault
    | apply okeeps_ite) | split

theorem execAklosTime_keeps (l : Fin 2) (off : W64) (at_ : W32) (master : Option (Fin 4)) (crcOk : Bool) (s : State) (h : Keeps s0 s) :
    OKeeps s0 (execAklosTime l off at_ master crcOk s) := by
  unfold execAklosTime; try dsimp only
  repeat' first | (intro; try dsimp only) | (with_reducible first
    | assumption | apply State.received_keeps | apply State.akTime_keeps | apply done_keeps | apply okeeps_next
    | apply okeeps_fault | apply okeeps_ite) | split

theorem execAklosCopy_keeps (l : Fin 2) (c : Fin 4) (cycle : W64) (block : Nat) (data : List Byte) (route : RouteCopy) (crcOk : Bool) (memErr : Bool) (s : State) (h : Keeps s0 s) :
    OKeeps s0 (execAklosCopy l c cycle block data route crcOk memErr s) := by
  unfold execAklosCopy; try dsimp only
  repeat' first | (intro; try dsimp only) | (with_reducible first
    | assumption | apply State.receivedPair_keeps | apply State.copyIn_keeps | apply State.copyBad_keeps
    | apply done_keeps | apply okeeps_next | apply okeeps_fault | apply okeeps_ite | apply keeps_ite) | split

theorem execCopyBudgetEnd_keeps (c : Fin 4) (s : State) (h : Keeps s0 s) :
    OKeeps s0 (execCopyBudgetEnd c s) := by
  unfold execCopyBudgetEnd; try dsimp only
  repeat' first | (intro; try dsimp only) | (with_reducible first
    | assumption | apply State.copyEnd_keeps | apply done_keeps | apply okeeps_next | apply okeeps_fault
    | apply okeeps_ite) | split

theorem execAklosRelay_keeps (l : Fin 2) (c : Fin 4) (data : List Byte) (crcOk : Bool) (s : State) (h : Keeps s0 s) :
    OKeeps s0 (execAklosRelay l c data crcOk s) := by
  unfold execAklosRelay; try dsimp only
  repeat' first | (intro; try dsimp only) | (with_reducible first
    | assumption | apply State.receivedPair_keeps | apply State.relayIn_keeps | apply done_keeps
    | apply okeeps_next | apply okeeps_fault | apply okeeps_ite) | split

theorem execAklosReport_keeps (l : Fin 2) (r : Report) (crcOk : Bool) (s : State) (h : Keeps s0 s) :
    OKeeps s0 (execAklosReport l r crcOk s) := by
  unfold execAklosReport; try dsimp only
  repeat' first | (intro; try dsimp only) | (with_reducible first
    | assumption | apply State.receivedPair_keeps | apply State.report_keeps | apply done_keeps
    | apply okeeps_next | apply okeeps_fault | apply okeeps_ite) | split

theorem execReportTimeout_keeps (c : Fin 4) (s : State) (h : Keeps s0 s) :
    OKeeps s0 (execReportTimeout c s) := by
  unfold execReportTimeout; try dsimp only
  repeat' first | (intro; try dsimp only) | (with_reducible first
    | assumption | apply State.reportLate_keeps | apply done_keeps | apply okeeps_next | apply okeeps_fault
    | apply okeeps_ite) | split

theorem execQuickCheckDone_keeps (pass : Bool) (s : State) (h : Keeps s0 s) :
    OKeeps s0 (execQuickCheckDone pass s) := by
  unfold execQuickCheckDone; try dsimp only
  repeat' first | (intro; try dsimp only) | (with_reducible first
    | assumption | apply State.quickOwnDone_keeps | apply done_keeps | apply okeeps_next | apply okeeps_fault
    | apply okeeps_ite) | split

theorem execQuickCheckTimeout_keeps (s : State) (h : Keeps s0 s) :
    OKeeps s0 (execQuickCheckTimeout s) := by
  unfold execQuickCheckTimeout; try dsimp only
  repeat' first | (intro; try dsimp only) | (with_reducible first
    | assumption | apply State.quickLate_keeps | apply done_keeps | apply okeeps_next | apply okeeps_fault
    | apply okeeps_ite) | split

theorem execAklosPairctl_keeps (l : Fin 2) (w : PairCtl) (crcOk : Bool) (s : State) (h : Keeps s0 s) :
    OKeeps s0 (execAklosPairctl l w crcOk s) := by
  unfold execAklosPairctl; try dsimp only
  repeat' first | (intro; try dsimp only) | (with_reducible first
    | assumption | apply State.receivedPair_keeps | apply State.pairCtlIn_keeps | apply done_keeps
    | apply okeeps_next | apply okeeps_fault | apply okeeps_ite) | split

theorem execAklosCmd_keeps (l : Fin 2) (src : Fin 4) (num : BitVec 30) (cmd : W16) (m : Msg) (crcOk : Bool) (s : State) (h : Keeps s0 s) :
    OKeeps s0 (execAklosCmd l src num cmd m crcOk s) := by
  unfold execAklosCmd; try dsimp only
  repeat' first | (intro; try dsimp only) | (with_reducible first
    | assumption | apply State.received_keeps | apply State.cmdIn_keeps | apply done_keeps | apply okeeps_next
    | apply okeeps_fault | apply okeeps_ite) | split

theorem execProxyResponse_keeps (l : Fin 2) (src dst : Fin 4) (num : BitVec 30) (cmd tag status : W16) (detail : W32) (target : W16) (payload : List Byte) (crcOk : Bool) (s : State) (h : Keeps s0 s) :
    OKeeps s0 (execProxyResponse l src dst num cmd tag status detail target payload crcOk s) := by
  unfold execProxyResponse; try dsimp only
  repeat' first | (intro; try dsimp only) | (with_reducible first
    | assumption | apply State.received_keeps | apply State.memberAnswer_keeps | apply done_keeps
    | apply okeeps_next | apply okeeps_fault | apply okeeps_ite | apply keeps_ite) | split

theorem execProxyTimeout_keeps (pos : Fin 4) (s : State) (h : Keeps s0 s) :
    OKeeps s0 (execProxyTimeout pos s) := by
  unfold execProxyTimeout; try dsimp only
  repeat' first | (intro; try dsimp only) | (with_reducible first
    | assumption | apply State.memberSilent_keeps | apply done_keeps | apply okeeps_next | apply okeeps_fault
    | apply okeeps_ite) | split

theorem execMirrorTimeout_keeps (s : State) (h : Keeps s0 s) :
    OKeeps s0 (execMirrorTimeout s) := by
  unfold execMirrorTimeout; try dsimp only
  repeat' first | (intro; try dsimp only) | (with_reducible first
    | assumption | apply State.mirrorSilent_keeps | apply done_keeps | apply okeeps_next | apply okeeps_fault
    | apply okeeps_ite) | split

theorem execAklosBulk_keeps (l : Fin 2) (b : BulkPlace) (data : List Byte) (crcOk : Bool) (s : State) (h : Keeps s0 s) :
    OKeeps s0 (execAklosBulk l b data crcOk s) := by
  unfold execAklosBulk; try dsimp only
  repeat' first | (intro; try dsimp only) | (with_reducible first
    | assumption | apply State.receivedPair_keeps | apply State.bulkIn_keeps | apply done_keeps
    | apply okeeps_next | apply okeeps_fault | apply okeeps_ite) | split

theorem execBulkSyncDone_keeps (s : State) (h : Keeps s0 s) :
    OKeeps s0 (execBulkSyncDone s) := by
  unfold execBulkSyncDone; try dsimp only
  repeat' first | (intro; try dsimp only) | (with_reducible first
    | assumption | apply State.bulkSynced_keeps | apply done_keeps | apply okeeps_next | apply okeeps_fault
    | apply okeeps_ite) | split

theorem execAklosIdent_keeps (l : Fin 2) (serial : W64) (certOk : Bool) (crcOk : Bool) (s : State) (h : Keeps s0 s) :
    OKeeps s0 (execAklosIdent l serial certOk crcOk s) := by
  unfold execAklosIdent; try dsimp only
  repeat' first | (intro; try dsimp only) | (with_reducible first
    | assumption | apply State.crcError_keeps | apply State.ident_keeps | apply done_keeps | apply okeeps_next
    | apply okeeps_fault | apply okeeps_ite | apply keeps_ite) | split

theorem execPartnerPresumedLost_keeps (s : State) (h : Keeps s0 s) :
    OKeeps s0 (execPartnerPresumedLost s) := by
  unfold execPartnerPresumedLost; try dsimp only
  repeat' first | (intro; try dsimp only) | (with_reducible first
    | assumption | apply State.presumeLost_keeps | apply done_keeps | apply okeeps_next | apply okeeps_fault
    | apply okeeps_ite) | split

theorem execLossCheckInstant_keeps (c : Fin 4) (s : State) (h : Keeps s0 s) :
    OKeeps s0 (execLossCheckInstant c s) := by
  unfold execLossCheckInstant; try dsimp only
  repeat' first | (intro; try dsimp only) | (with_reducible first
    | assumption | apply State.lossCheck_keeps | apply done_keeps | apply okeeps_next | apply okeeps_fault
    | apply okeeps_ite) | split

theorem execStandbyTake_keeps (c : Fin 4) (s : State) (h : Keeps s0 s) :
    OKeeps s0 (execStandbyTake c s) := by
  unfold execStandbyTake; try dsimp only
  repeat' first | (intro; try dsimp only) | (with_reducible first
    | assumption | apply State.standbyTake_keeps | apply done_keeps | apply okeeps_next | apply okeeps_fault
    | apply okeeps_ite) | split

theorem execBuildDone_keeps (e : Fin 16) (s : State) (h : Keeps s0 s) :
    OKeeps s0 (execBuildDone e s) := by
  unfold execBuildDone; try dsimp only
  repeat' first | (intro; try dsimp only) | (with_reducible first
    | assumption | apply State.engineStore_keeps | apply okeeps_next | apply okeeps_fault | apply okeeps_ite) | split

theorem execStateDone_keeps (e : Fin 16) (s : State) (h : Keeps s0 s) :
    OKeeps s0 (execStateDone e s) := by
  unfold execStateDone; try dsimp only
  repeat' first | (intro; try dsimp only) | (with_reducible first
    | assumption | apply State.engineStore_keeps | apply okeeps_next | apply okeeps_fault | apply okeeps_ite) | split

theorem State.branchFrame_keeps {s0 : State} (s : State) (c : Fin 4) (b : Fin 8) (p : Fin 12) (a : BranchIn) (f : RxFrame) (h : Keeps s0 s) :
    Keeps s0 (State.branchFrame s c b p a f) := by
  unfold State.branchFrame; try dsimp only
  repeat' first | (intro; try dsimp only) | (with_reducible first
    | assumption | apply State.arrived_keeps | apply State.branchArrival_keeps | apply State.symbolErrs_keeps
    | apply State.rxFrame_keeps | apply keeps_ite | refine keeps_snd (by assumption) ?_
    | refine keeps_thd (by assumption) ?_ | refine keeps_fst (by assumption) ?_
    | refine keeps_next (by assumption) ?_ | refine keeps_ok (by assumption) ?_
    | refine keeps_some (by assumption) ?_) | split

theorem State.frameIn_keeps {s0 : State} (s : State) (p : Fin 12) (f : RxFrame) (h : Keeps s0 s) :
    Keeps s0 (State.frameIn s p f) := by
  unfold State.frameIn; try dsimp only
  repeat' first | (intro; try dsimp only) | (with_reducible first
    | assumption | apply State.rxFrame_keeps | apply State.branchFrame_keeps | apply keeps_ite
    | refine keeps_snd (by assumption) ?_ | refine keeps_thd (by assumption) ?_
    | refine keeps_fst (by assumption) ?_ | refine keeps_next (by assumption) ?_
    | refine keeps_ok (by assumption) ?_ | refine keeps_some (by assumption) ?_) | split

theorem execLinkUp_keeps (p : Fin 12) (r : LinkRes) (s : State) (h : Keeps s0 s) :
    OKeeps s0 (execLinkUp p r s) := by
  unfold execLinkUp; try dsimp only
  repeat' first | (intro; try dsimp only) | (with_reducible first
    | assumption | apply State.portLinkUp_keeps | apply done_keeps | apply okeeps_next | apply okeeps_fault
    | apply okeeps_ite) | split

theorem execLinkLoss_keeps (p : Fin 12) (reason : Fin 16) (s : State) (h : Keeps s0 s) :
    OKeeps s0 (execLinkLoss p reason s) := by
  unfold execLinkLoss; try dsimp only
  repeat' first | (intro; try dsimp only) | (with_reducible first
    | assumption | apply State.portLinkLoss_keeps | apply done_keeps | apply okeeps_next | apply okeeps_fault
    | apply okeeps_ite) | split

theorem execTrainingRetry_keeps (p : Fin 12) (noCommon : Bool) (s : State) (h : Keeps s0 s) :
    OKeeps s0 (execTrainingRetry p noCommon s) := by
  unfold execTrainingRetry; try dsimp only
  repeat' first | (intro; try dsimp only) | (with_reducible first
    | assumption | apply State.trainingRetry_keeps | apply done_keeps | apply okeeps_next | apply okeeps_fault
    | apply okeeps_ite) | split

theorem execSnrLow_keeps (p : Fin 12) (pair : Fin 4) (margin : W16) (s : State) (h : Keeps s0 s) :
    OKeeps s0 (execSnrLow p pair margin s) := by
  unfold execSnrLow; try dsimp only
  repeat' first | (intro; try dsimp only) | (with_reducible first
    | assumption | apply State.snrLow_keeps | apply done_keeps | apply okeeps_next | apply okeeps_fault
    | apply okeeps_ite) | split

theorem execImpulseGuard_keeps (p : Fin 12) (s : State) (h : Keeps s0 s) :
    OKeeps s0 (execImpulseGuard p s) := by
  unfold execImpulseGuard; try dsimp only
  repeat' first | (intro; try dsimp only) | (with_reducible first
    | assumption | apply State.impulse_keeps | apply done_keeps | apply okeeps_next | apply okeeps_fault
    | apply okeeps_ite) | split

theorem execPhyFault_keeps (p : Fin 12) (s : State) (h : Keeps s0 s) :
    OKeeps s0 (execPhyFault p s) := by
  unfold execPhyFault; try dsimp only
  repeat' first | (intro; try dsimp only) | (with_reducible first
    | assumption | apply State.phyFault_keeps | apply done_keeps | apply okeeps_next | apply okeeps_fault
    | apply okeeps_ite) | split

theorem execPlcaBeacon_keeps (p : Fin 12) (energy : Bool) (s : State) (h : Keeps s0 s) :
    OKeeps s0 (execPlcaBeacon p energy s) := by
  unfold execPlcaBeacon; try dsimp only
  repeat' first | (intro; try dsimp only) | (with_reducible first
    | assumption | apply State.plcaBeacon_keeps | apply done_keeps | apply okeeps_next | apply okeeps_fault
    | apply okeeps_ite) | split

theorem execTransmitOpportunityEnd_keeps (p : Fin 12) (s : State) (h : Keeps s0 s) :
    OKeeps s0 (execTransmitOpportunityEnd p s) := by
  unfold execTransmitOpportunityEnd; try dsimp only
  repeat' first | (intro; try dsimp only) | (with_reducible first
    | assumption | apply State.opportunityEnd_keeps | apply done_keeps | apply okeeps_next | apply okeeps_fault
    | apply okeeps_ite) | split

theorem execBeaconReceived_keeps (p : Fin 12) (s : State) (h : Keeps s0 s) :
    OKeeps s0 (execBeaconReceived p s) := by
  unfold execBeaconReceived; try dsimp only
  repeat' first | (intro; try dsimp only) | (with_reducible first
    | assumption | apply State.beaconIn_keeps | apply done_keeps | apply okeeps_next | apply okeeps_fault
    | apply okeeps_ite) | split

theorem execBeaconLost_keeps (p : Fin 12) (s : State) (h : Keeps s0 s) :
    OKeeps s0 (execBeaconLost p s) := by
  unfold execBeaconLost; try dsimp only
  repeat' first | (intro; try dsimp only) | (with_reducible first
    | assumption | apply State.beaconLost_keeps | apply done_keeps | apply okeeps_next | apply okeeps_fault
    | apply okeeps_ite) | split

theorem execPlcaCollision_keeps (p : Fin 12) (s : State) (h : Keeps s0 s) :
    OKeeps s0 (execPlcaCollision p s) := by
  unfold execPlcaCollision; try dsimp only
  repeat' first | (intro; try dsimp only) | (with_reducible first
    | assumption | apply State.plcaCollision_keeps | apply done_keeps | apply okeeps_next | apply okeeps_fault
    | apply okeeps_ite) | split

theorem execLpiEntry_keeps (p : Fin 12) (s : State) (h : Keeps s0 s) :
    OKeeps s0 (execLpiEntry p s) := by
  unfold execLpiEntry; try dsimp only
  repeat' first | (intro; try dsimp only) | (with_reducible first
    | assumption | apply State.lpiEnter_keeps | apply done_keeps | apply okeeps_next | apply okeeps_fault
    | apply okeeps_ite) | split

theorem execLpiScheduledWake_keeps (p : Fin 12) (s : State) (h : Keeps s0 s) :
    OKeeps s0 (execLpiScheduledWake p s) := by
  unfold execLpiScheduledWake; try dsimp only
  repeat' first | (intro; try dsimp only) | (with_reducible first
    | assumption | apply State.lpiWake_keeps | apply done_keeps | apply okeeps_next | apply okeeps_fault
    | apply okeeps_ite) | split

theorem execPartnerLpi_keeps (p : Fin 12) (line : PartnerLine) (s : State) (h : Keeps s0 s) :
    OKeeps s0 (execPartnerLpi p line s) := by
  unfold execPartnerLpi; try dsimp only
  repeat' first | (intro; try dsimp only) | (with_reducible first
    | assumption | apply State.partnerLpi_keeps | apply done_keeps | apply okeeps_next | apply okeeps_fault
    | apply okeeps_ite) | split

theorem execFrameReceived_keeps (p : Fin 12) (f : RxFrame) (s : State) (h : Keeps s0 s) :
    OKeeps s0 (execFrameReceived p f s) := by
  unfold execFrameReceived; try dsimp only
  repeat' first | (intro; try dsimp only) | (with_reducible first
    | assumption | apply State.settle_keeps | apply State.tookFrom_keeps | apply State.frameIn_keeps
    | apply okeeps_next | apply okeeps_fault | apply okeeps_ite) | split

theorem execPauseExpiry_keeps (p : Fin 12) (s : State) (h : Keeps s0 s) :
    OKeeps s0 (execPauseExpiry p s) := by
  unfold execPauseExpiry; try dsimp only
  repeat' first | (intro; try dsimp only) | (with_reducible first
    | assumption | apply State.pauseEnd_keeps | apply done_keeps | apply okeeps_next | apply okeeps_fault
    | apply okeeps_ite) | split

theorem execPauseRepeat_keeps (p : Fin 12) (s : State) (h : Keeps s0 s) :
    OKeeps s0 (execPauseRepeat p s) := by
  unfold execPauseRepeat; try dsimp only
  repeat' first | (intro; try dsimp only) | (with_reducible first
    | assumption | apply State.pauseAgain_keeps | apply done_keeps | apply okeeps_next | apply okeeps_fault
    | apply okeeps_ite) | split

theorem execPrpEntryAge_keeps (pair : Fin 2) (src : BitVec 48) (s : State) (h : Keeps s0 s) :
    OKeeps s0 (execPrpEntryAge pair src s) := by
  unfold execPrpEntryAge; try dsimp only
  repeat' first | (intro; try dsimp only) | (with_reducible first
    | assumption | apply State.prpAge_keeps | apply okeeps_next | apply okeeps_fault | apply okeeps_ite) | split

theorem execPreemptVerify_keeps (p : Fin 12) (ev : VerifyEv) (s : State) (h : Keeps s0 s) :
    OKeeps s0 (execPreemptVerify p ev s) := by
  unfold execPreemptVerify; try dsimp only
  repeat' first | (intro; try dsimp only) | (with_reducible first
    | assumption | apply State.verify_keeps | apply okeeps_next | apply okeeps_fault | apply okeeps_ite) | split

theorem execTransmitSelection_keeps (p : Fin 12) (stamp : W64) (s : State) (h : Keeps s0 s) :
    OKeeps s0 (execTransmitSelection p stamp s) := by
  unfold execTransmitSelection; try dsimp only
  repeat' first | (intro; try dsimp only) | (with_reducible first
    | assumption | apply State.selectTx_keeps | apply done_keeps | apply okeeps_next | apply okeeps_fault
    | apply okeeps_ite) | split

theorem execLaunchTimeReached_keeps (p : Fin 12) (q : Fin 8) (s : State) (h : Keeps s0 s) :
    OKeeps s0 (execLaunchTimeReached p q s) := by
  unfold execLaunchTimeReached; try dsimp only
  repeat' first | (intro; try dsimp only) | (with_reducible first
    | assumption | apply State.launch_keeps | apply okeeps_next | apply okeeps_fault | apply okeeps_ite) | split

theorem execGateEntryEnd_keeps (p : Fin 12) (s : State) (h : Keeps s0 s) :
    OKeeps s0 (execGateEntryEnd p s) := by
  unfold execGateEntryEnd; try dsimp only
  repeat' first | (intro; try dsimp only) | (with_reducible first
    | assumption | apply State.gateStep_keeps | apply okeeps_next | apply okeeps_fault | apply okeeps_ite) | split

theorem execFrameTransmitEnd_keeps (p : Fin 12) (memErr : Bool) (s : State) (h : Keeps s0 s) :
    OKeeps s0 (execFrameTransmitEnd p memErr s) := by
  unfold execFrameTransmitEnd; try dsimp only
  repeat' first | (intro; try dsimp only) | (with_reducible first
    | assumption | apply State.txEnd_keeps | apply State.txMemErr_keeps | apply done_keeps | apply okeeps_next
    | apply okeeps_fault | apply okeeps_ite | apply keeps_ite) | split

theorem execHqPush_keeps (e : Fin 16) (h' : Fin 256) (w3 : W32) (s : State) (h : Keeps s0 s) :
    OKeeps s0 (execHqPush e h' w3 s) := by
  unfold execHqPush; try dsimp only
  repeat' first | (intro; try dsimp only) | (with_reducible first
    | assumption | apply State.engineStore_keeps | apply okeeps_next | apply okeeps_fault | apply okeeps_ite) | split

theorem execHqPop_keeps (e : Fin 16) (h' : Fin 256) (s : State) (h : Keeps s0 s) :
    OKeeps s0 (execHqPop e h' s) := by
  unfold execHqPop; try dsimp only
  repeat' first | (intro; try dsimp only) | (with_reducible first
    | assumption | apply State.engineTouch_keeps | apply okeeps_next | apply okeeps_fault | apply okeeps_ite) | split

theorem execHqStatWrite_keeps (e : Fin 16) (h' : Fin 256) (v : W32) (s : State) (h : Keeps s0 s) :
    OKeeps s0 (execHqStatWrite e h' v s) := by
  unfold execHqStatWrite; try dsimp only
  repeat' first | (intro; try dsimp only) | (with_reducible first
    | assumption | apply State.engineStore_keeps | apply okeeps_next | apply okeeps_fault | apply okeeps_ite) | split

theorem execQselWrite_keeps (e : Fin 16) (i : Fin 8) (v : W32) (s : State) (h : Keeps s0 s) :
    OKeeps s0 (execQselWrite e i v s) := by
  unfold execQselWrite; try dsimp only
  repeat' first | (intro; try dsimp only) | (with_reducible first
    | assumption | apply State.engineStore_keeps | apply okeeps_next | apply okeeps_fault | apply okeeps_ite) | split

theorem execDrumFrameRx_keeps (p : Fin 12) (f : DrumIn) (s : State) (h : Keeps s0 s) :
    OKeeps s0 (execDrumFrameRx p f s) := by
  unfold execDrumFrameRx; try dsimp only
  repeat' first | (intro; try dsimp only) | (with_reducible first
    | assumption | apply State.drumFrame_keeps | apply done_keeps | apply okeeps_next | apply okeeps_fault
    | apply okeeps_ite) | split

theorem execDrumFrameReturn_keeps (p : Fin 12) (f : DrumIn) (s : State) (h : Keeps s0 s) :
    OKeeps s0 (execDrumFrameReturn p f s) := by
  unfold execDrumFrameReturn; try dsimp only
  repeat' first | (intro; try dsimp only) | (with_reducible first
    | assumption | apply State.drumFrame_keeps | apply done_keeps | apply okeeps_next | apply okeeps_fault
    | apply okeeps_ite) | split

theorem execClaimRx_keeps (p : Fin 12) (f : DrumIn) (s : State) (h : Keeps s0 s) :
    OKeeps s0 (execClaimRx p f s) := by
  unfold execClaimRx; try dsimp only
  repeat' first | (intro; try dsimp only) | (with_reducible first
    | assumption | apply State.drumFrame_keeps | apply done_keeps | apply okeeps_next | apply okeeps_fault
    | apply okeeps_ite) | split

theorem execListenTimeout_keeps (c : Fin 4) (s : State) (h : Keeps s0 s) :
    OKeeps s0 (execListenTimeout c s) := by
  unfold execListenTimeout; try dsimp only
  repeat' first | (intro; try dsimp only) | (with_reducible first
    | assumption | apply State.listenOut_keeps | apply done_keeps | apply okeeps_next | apply okeeps_fault
    | apply okeeps_ite) | split

theorem execDlElected_keeps (c : Fin 4) (s : State) (h : Keeps s0 s) :
    OKeeps s0 (execDlElected c s) := by
  unfold execDlElected; try dsimp only
  repeat' first | (intro; try dsimp only) | (with_reducible first
    | assumption | apply State.elected_keeps | apply done_keeps | apply okeeps_next | apply okeeps_fault
    | apply okeeps_ite) | split

theorem execMasterClaim_keeps (c : Fin 4) (s : State) (h : Keeps s0 s) :
    OKeeps s0 (execMasterClaim c s) := by
  unfold execMasterClaim; try dsimp only
  repeat' first | (intro; try dsimp only) | (with_reducible first
    | assumption | apply State.masterClaim_keeps | apply done_keeps | apply okeeps_next | apply okeeps_fault
    | apply okeeps_ite) | split

theorem execDlMasterLost_keeps (c : Fin 4) (s : State) (h : Keeps s0 s) :
    OKeeps s0 (execDlMasterLost c s) := by
  unfold execDlMasterLost; try dsimp only
  repeat' first | (intro; try dsimp only) | (with_reducible first
    | assumption | apply State.masterLost_keeps | apply done_keeps | apply okeeps_next | apply okeeps_fault
    | apply okeeps_ite) | split

theorem execDlWatchdog_keeps (c : Fin 4) (s : State) (h : Keeps s0 s) :
    OKeeps s0 (execDlWatchdog c s) := by
  unfold execDlWatchdog; try dsimp only
  repeat' first | (intro; try dsimp only) | (with_reducible first
    | assumption | apply State.dlWatchdog_keeps | apply okeeps_next | apply okeeps_fault | apply okeeps_ite) | split

theorem execDlCycleMismatch_keeps (c : Fin 4) (s : State) (h : Keeps s0 s) :
    OKeeps s0 (execDlCycleMismatch c s) := by
  unfold execDlCycleMismatch; try dsimp only
  repeat' first | (intro; try dsimp only) | (with_reducible first
    | assumption | apply State.cycleMismatch_keeps | apply done_keeps | apply okeeps_next | apply okeeps_fault
    | apply okeeps_ite) | split

theorem execProbeTimer_keeps (p : Fin 12) (t1 : W64) (s : State) (h : Keeps s0 s) :
    OKeeps s0 (execProbeTimer p t1 s) := by
  unfold execProbeTimer; try dsimp only
  repeat' first | (intro; try dsimp only) | (with_reducible first
    | assumption | apply State.probeSend_keeps | apply okeeps_next | apply okeeps_fault | apply okeeps_ite) | split

theorem execProbeReqRx_keeps (p : Fin 12) (t2 : W64) (t3 : W64) (s : State) (h : Keeps s0 s) :
    OKeeps s0 (execProbeReqRx p t2 t3 s) := by
  unfold execProbeReqRx; try dsimp only
  repeat' first | (intro; try dsimp only) | (with_reducible first
    | assumption | apply State.probeAnswer_keeps | apply okeeps_next | apply okeeps_fault | apply okeeps_ite) | split

theorem execProbeRespRx_keeps (p : Fin 12) (t2 : W64) (t3 : W64) (t4 : W64) (s : State) (h : Keeps s0 s) :
    OKeeps s0 (execProbeRespRx p t2 t3 t4 s) := by
  unfold execProbeRespRx; try dsimp only
  repeat' first | (intro; try dsimp only) | (with_reducible first
    | assumption | apply State.probeResult_keeps | apply okeeps_next | apply okeeps_fault | apply okeeps_ite) | split

theorem execReturnRelease_keeps (c : Fin 4) (f : Fin 4) (late : Bool) (s : State) (h : Keeps s0 s) :
    OKeeps s0 (execReturnRelease c f late s) := by
  unfold execReturnRelease; try dsimp only
  repeat' first | (intro; try dsimp only) | (with_reducible first
    | assumption | apply State.returnRelease_keeps | apply done_keeps | apply okeeps_next | apply okeeps_fault
    | apply okeeps_ite) | split

theorem execBranchReturnArrival_keeps (p : Fin 12) (a : BranchIn) (s : State) (h : Keeps s0 s) :
    OKeeps s0 (execBranchReturnArrival p a s) := by
  unfold execBranchReturnArrival; try dsimp only
  repeat' first | (intro; try dsimp only) | (with_reducible first
    | assumption | apply State.settle_keeps | apply State.tookFrom_keeps | apply State.branchFrame_keeps
    | apply okeeps_next | apply okeeps_fault | apply okeeps_ite | apply keeps_ite
    | refine keeps_snd (by assumption) ?_ | refine keeps_thd (by assumption) ?_
    | refine keeps_fst (by assumption) ?_ | refine keeps_next (by assumption) ?_
    | refine keeps_ok (by assumption) ?_ | refine keeps_some (by assumption) ?_
    | exact okeeps_of_fault (by assumption)) | split

theorem execSlotWindowClose_keeps (c : Fin 4) (b : Fin 8) (f : Fin 4) (arriving : Bool) (s : State) (h : Keeps s0 s) :
    OKeeps s0 (execSlotWindowClose c b f arriving s) := by
  unfold execSlotWindowClose; try dsimp only
  repeat' first | (intro; try dsimp only) | (with_reducible first
    | assumption | apply State.slotClose_keeps | apply done_keeps | apply okeeps_next | apply okeeps_fault
    | apply okeeps_ite) | split

theorem execMergedFrame_keeps (c : Fin 4) (f : Fin 4) (s : State) (h : Keeps s0 s) :
    OKeeps s0 (execMergedFrame c f s) := by
  unfold execMergedFrame; try dsimp only
  repeat' first | (intro; try dsimp only) | (with_reducible first
    | assumption | apply State.mergedFrame_keeps | apply done_keeps | apply okeeps_next | apply okeeps_fault
    | apply okeeps_ite) | split

theorem execIsolationEnd_keeps (c : Fin 4) (b : Fin 8) (s : State) (h : Keeps s0 s) :
    OKeeps s0 (execIsolationEnd c b s) := by
  unfold execIsolationEnd; try dsimp only
  repeat' first | (intro; try dsimp only) | (with_reducible first
    | assumption | apply State.isolationEnd_keeps | apply done_keeps | apply okeeps_next | apply okeeps_fault
    | apply okeeps_ite) | split

theorem execProbationEnd_keeps (c : Fin 4) (b : Fin 8) (s : State) (h : Keeps s0 s) :
    OKeeps s0 (execProbationEnd c b s) := by
  unfold execProbationEnd; try dsimp only
  repeat' first | (intro; try dsimp only) | (with_reducible first
    | assumption | apply State.probationEnd_keeps | apply done_keeps | apply okeeps_next | apply okeeps_fault
    | apply okeeps_ite) | split

theorem State.canFits_keeps {s0 : State} (s : State) (n : Fin 4) (fresh : Option (Fin 8)) (t : State) (h : Keeps s0 s) (h1 : Keeps s0 t) :
    OKeeps s0 (State.canFits s n fresh t) := by
  unfold State.canFits; try dsimp only
  repeat' first | (intro; try dsimp only) | (with_reducible first
    | assumption | apply done_keeps | apply okeeps_next | apply okeeps_fault | apply okeeps_ite
    | apply keeps_ite) | split

theorem execCanFrameValid_keeps (n : Fin 4) (f : CanFrame) (s : State) (h : Keeps s0 s) :
    OKeeps s0 (execCanFrameValid n f s) := by
  unfold execCanFrameValid; try dsimp only
  repeat' first | (intro; try dsimp only) | (with_reducible first
    | assumption | apply State.canReceive_keeps | apply State.settle_keeps | apply State.tookFrom_keeps
    | apply okeeps_next | apply okeeps_fault | apply okeeps_ite) | split

theorem execCanStartPoint_keeps (n : Fin 4) (s : State) (h : Keeps s0 s) :
    OKeeps s0 (execCanStartPoint n s) := by
  unfold execCanStartPoint; try dsimp only
  repeat' first | (intro; try dsimp only) | (with_reducible first
    | assumption | apply State.canStart_keeps | apply State.canFits_keeps | apply okeeps_next
    | apply okeeps_fault | apply okeeps_ite | apply keeps_ite) | split

theorem execCanArbitrationLost_keeps (n : Fin 4) (s : State) (h : Keeps s0 s) :
    OKeeps s0 (execCanArbitrationLost n s) := by
  unfold execCanArbitrationLost; try dsimp only
  repeat' first | (intro; try dsimp only) | (with_reducible first
    | assumption | apply State.canArbLost_keeps | apply done_keeps | apply okeeps_next | apply okeeps_fault
    | apply okeeps_ite) | split

theorem execCanFrameComplete_keeps (n : Fin 4) (stamp : W32) (tdcv : Option (BitVec 7)) (s : State) (h : Keeps s0 s) :
    OKeeps s0 (execCanFrameComplete n stamp tdcv s) := by
  unfold execCanFrameComplete; try dsimp only
  repeat' first | (intro; try dsimp only) | (with_reducible first
    | assumption | apply State.canSent_keeps | apply State.settle_keeps | apply State.tookFrom_keeps
    | apply done_keeps | apply okeeps_next | apply okeeps_fault | apply okeeps_ite | apply keeps_ite) | split

theorem execCanError_keeps (n : Fin 4) (x : CanErr) (s : State) (h : Keeps s0 s) :
    OKeeps s0 (execCanError n x s) := by
  unfold execCanError; try dsimp only
  repeat' first | (intro; try dsimp only) | (with_reducible first
    | assumption | apply State.canErr_keeps | apply done_keeps | apply okeeps_next | apply okeeps_fault
    | apply okeeps_ite) | split

theorem execCanRecovered_keeps (n : Fin 4) (s : State) (h : Keeps s0 s) :
    OKeeps s0 (execCanRecovered n s) := by
  unfold execCanRecovered; try dsimp only
  repeat' first | (intro; try dsimp only) | (with_reducible first
    | assumption | apply State.canRecover_keeps | apply done_keeps | apply okeeps_next | apply okeeps_fault
    | apply okeeps_ite) | split

theorem execIntegrationDone_keeps (n : Fin 4) (s : State) (h : Keeps s0 s) :
    OKeeps s0 (execIntegrationDone n s) := by
  unfold execIntegrationDone; try dsimp only
  repeat' first | (intro; try dsimp only) | (with_reducible first
    | assumption | apply State.canIntegrated_keeps | apply done_keeps | apply okeeps_next | apply okeeps_fault
    | apply okeeps_ite) | split

theorem execProtocolException_keeps (n : Fin 4) (transmitter : Bool) (s : State) (h : Keeps s0 s) :
    OKeeps s0 (execProtocolException n transmitter s) := by
  unfold execProtocolException; try dsimp only
  repeat' first | (intro; try dsimp only) | (with_reducible first
    | assumption | apply State.canException_keeps | apply done_keeps | apply okeeps_next | apply okeeps_fault
    | apply okeeps_ite) | split

theorem execTxBufferLoad_keeps (n : Fin 4) (b : Fin 8) (memErr : Bool) (s : State) (h : Keeps s0 s) :
    OKeeps s0 (execTxBufferLoad n b memErr s) := by
  unfold execTxBufferLoad; try dsimp only
  repeat' first | (intro; try dsimp only) | (with_reducible first
    | assumption | apply State.canLoad_keeps | apply State.canFits_keeps | apply okeeps_next
    | apply okeeps_fault | apply okeeps_ite | apply keeps_ite) | split

theorem execCanLate_keeps (n : Fin 4) (b : Fin 8) (s : State) (h : Keeps s0 s) :
    OKeeps s0 (execCanLate n b s) := by
  unfold execCanLate; try dsimp only
  repeat' first | (intro; try dsimp only) | (with_reducible first
    | assumption | apply State.canLateEnd_keeps | apply done_keeps | apply okeeps_next | apply okeeps_fault
    | apply okeeps_ite) | split

theorem execCtxbAbort_keeps (e : Fin 16) (n : Fin 4) (mask : BitVec 8) (s : State) (h : Keeps s0 s) :
    OKeeps s0 (execCtxbAbort e n mask s) := by
  unfold execCtxbAbort; try dsimp only
  repeat' first | (intro; try dsimp only) | (with_reducible first
    | assumption | apply State.engineStore_keeps | apply okeeps_next | apply okeeps_fault | apply okeeps_ite) | split

theorem execPioRun_keeps (e : Fin 16) (k : Fin 8) (start : Fin 48) (s : State) (h : Keeps s0 s) :
    OKeeps s0 (execPioRun e k start s) := by
  unfold execPioRun; try dsimp only
  repeat' first | (intro; try dsimp only) | (with_reducible first
    | assumption | apply State.engineStore_keeps | apply State.start_keeps | apply okeeps_next
    | apply okeeps_fault | apply okeeps_ite) | split

theorem execRestart_keeps (e : Fin 16) (k : Fin 8) (start : Fin 48) (s : State) (h : Keeps s0 s) :
    OKeeps s0 (execRestart e k start s) := by
  unfold execRestart; try dsimp only
  repeat' first | (intro; try dsimp only) | (with_reducible first
    | assumption | apply State.engineStore_keeps | apply State.start_keeps | apply okeeps_next
    | apply okeeps_fault | apply okeeps_ite) | split

theorem execClrtx_keeps (e : Fin 16) (k : Fin 8) (s : State) (h : Keeps s0 s) :
    OKeeps s0 (execClrtx e k s) := by
  unfold execClrtx; try dsimp only
  repeat' first | (intro; try dsimp only) | (with_reducible first
    | assumption | apply State.engineStore_keeps | apply okeeps_next | apply okeeps_fault | apply okeeps_ite) | split

theorem execClrrx_keeps (e : Fin 16) (k : Fin 8) (s : State) (h : Keeps s0 s) :
    OKeeps s0 (execClrrx e k s) := by
  unfold execClrrx; try dsimp only
  repeat' first | (intro; try dsimp only) | (with_reducible first
    | assumption | apply State.engineStore_keeps | apply okeeps_next | apply okeeps_fault | apply okeeps_ite) | split

theorem execPtxqPush_keeps (e : Fin 16) (k : Fin 8) (w : W32) (s : State) (h : Keeps s0 s) :
    OKeeps s0 (execPtxqPush e k w s) := by
  unfold execPtxqPush; try dsimp only
  repeat' first | (intro; try dsimp only) | (with_reducible first
    | assumption | apply State.engineStore_keeps | apply okeeps_next | apply okeeps_fault | apply okeeps_ite) | split

theorem execPrxqPop_keeps (e : Fin 16) (k : Fin 8) (s : State) (h : Keeps s0 s) :
    OKeeps s0 (execPrxqPop e k s) := by
  unfold execPrxqPop; try dsimp only
  repeat' first | (intro; try dsimp only) | (with_reducible first
    | assumption | apply State.engineTouch_keeps | apply okeeps_next | apply okeeps_fault | apply okeeps_ite) | split

theorem execPimemWrite_keeps (e : Fin 16) (k : Fin 8) (i : Fin 48) (w : W32) (s : State) (h : Keeps s0 s) :
    OKeeps s0 (execPimemWrite e k i w s) := by
  unfold execPimemWrite; try dsimp only
  repeat' first | (intro; try dsimp only) | (with_reducible first
    | assumption | apply State.engineStore_keeps | apply okeeps_next | apply okeeps_fault | apply okeeps_ite) | split

theorem execPioNop_keeps (k : Fin 8) (ops : BitVec 28) (ticks : List PinTick) (s : State) (h : Keeps s0 s) :
    OKeeps s0 (execPioNop k ops ticks s) := by
  unfold execPioNop; try dsimp only
  repeat' first | (intro; try dsimp only) | (with_reducible first
    | assumption | apply pioInstr_keeps | apply okeeps_next | apply okeeps_fault | apply okeeps_ite) | split

theorem execXfer_keeps (k : Fin 8) (ops : BitVec 28) (ticks : List PinTick) (s : State) (h : Keeps s0 s) :
    OKeeps s0 (execXfer k ops ticks s) := by
  unfold execXfer; try dsimp only
  repeat' first | (intro; try dsimp only) | (with_reducible first
    | assumption | apply pioInstr_keeps | apply okeeps_next | apply okeeps_fault | apply okeeps_ite) | split

theorem execPioLoad_keeps (k : Fin 8) (ops : BitVec 28) (ticks : List PinTick) (s : State) (h : Keeps s0 s) :
    OKeeps s0 (execPioLoad k ops ticks s) := by
  unfold execPioLoad; try dsimp only
  repeat' first | (intro; try dsimp only) | (with_reducible first
    | assumption | apply pioInstr_keeps | apply okeeps_next | apply okeeps_fault | apply okeeps_ite) | split

theorem execPioStore_keeps (k : Fin 8) (ops : BitVec 28) (ticks : List PinTick) (s : State) (h : Keeps s0 s) :
    OKeeps s0 (execPioStore k ops ticks s) := by
  unfold execPioStore; try dsimp only
  repeat' first | (intro; try dsimp only) | (with_reducible first
    | assumption | apply pioInstr_keeps | apply okeeps_next | apply okeeps_fault | apply okeeps_ite) | split

theorem execWaite_keeps (k : Fin 8) (ops : BitVec 28) (ticks : List PinTick) (s : State) (h : Keeps s0 s) :
    OKeeps s0 (execWaite k ops ticks s) := by
  unfold execWaite; try dsimp only
  repeat' first | (intro; try dsimp only) | (with_reducible first
    | assumption | apply pioInstr_keeps | apply okeeps_next | apply okeeps_fault | apply okeeps_ite) | split

theorem execWaitt_keeps (k : Fin 8) (ops : BitVec 28) (ticks : List PinTick) (s : State) (h : Keeps s0 s) :
    OKeeps s0 (execWaitt k ops ticks s) := by
  unfold execWaitt; try dsimp only
  repeat' first | (intro; try dsimp only) | (with_reducible first
    | assumption | apply pioInstr_keeps | apply okeeps_next | apply okeeps_fault | apply okeeps_ite) | split

theorem execPioBr_keeps (k : Fin 8) (ops : BitVec 28) (ticks : List PinTick) (s : State) (h : Keeps s0 s) :
    OKeeps s0 (execPioBr k ops ticks s) := by
  unfold execPioBr; try dsimp only
  repeat' first | (intro; try dsimp only) | (with_reducible first
    | assumption | apply pioInstr_keeps | apply okeeps_next | apply okeeps_fault | apply okeeps_ite) | split

theorem execPins_keeps (k : Fin 8) (ops : BitVec 28) (ticks : List PinTick) (s : State) (h : Keeps s0 s) :
    OKeeps s0 (execPins k ops ticks s) := by
  unfold execPins; try dsimp only
  repeat' first | (intro; try dsimp only) | (with_reducible first
    | assumption | apply pioInstr_keeps | apply okeeps_next | apply okeeps_fault | apply okeeps_ite) | split

theorem execLdc_keeps (k : Fin 8) (ops : BitVec 28) (ticks : List PinTick) (s : State) (h : Keeps s0 s) :
    OKeeps s0 (execLdc k ops ticks s) := by
  unfold execLdc; try dsimp only
  repeat' first | (intro; try dsimp only) | (with_reducible first
    | assumption | apply pioInstr_keeps | apply okeeps_next | apply okeeps_fault | apply okeeps_ite) | split

theorem execSig_keeps (k : Fin 8) (ops : BitVec 28) (ticks : List PinTick) (s : State) (h : Keeps s0 s) :
    OKeeps s0 (execSig k ops ticks s) := by
  unfold execSig; try dsimp only
  repeat' first | (intro; try dsimp only) | (with_reducible first
    | assumption | apply pioInstr_keeps | apply okeeps_next | apply okeeps_fault | apply okeeps_ite) | split

theorem execSrx_keeps (k : Fin 8) (ops : BitVec 28) (ticks : List PinTick) (s : State) (h : Keeps s0 s) :
    OKeeps s0 (execSrx k ops ticks s) := by
  unfold execSrx; try dsimp only
  repeat' first | (intro; try dsimp only) | (with_reducible first
    | assumption | apply pioInstr_keeps | apply okeeps_next | apply okeeps_fault | apply okeeps_ite) | split

theorem execPioInvalidFetch_keeps (k : Fin 8) (w : W32) (s : State) (h : Keeps s0 s) :
    OKeeps s0 (execPioInvalidFetch k w s) := by
  unfold execPioInvalidFetch; try dsimp only
  repeat' first | (intro; try dsimp only) | (with_reducible first
    | assumption | apply pioInstr_keeps | apply okeeps_next | apply okeeps_fault | apply okeeps_ite
    | apply keeps_ite) | split

theorem execPioStallRelease_keeps (k : Fin 8) (ticks : List PinTick) (s : State) (h : Keeps s0 s) :
    OKeeps s0 (execPioStallRelease k ticks s) := by
  unfold execPioStallRelease; try dsimp only
  repeat' first | (intro; try dsimp only) | (with_reducible first
    | assumption | apply State.pioStall_keeps | apply done_keeps | apply okeeps_next | apply okeeps_fault
    | apply okeeps_ite) | split

theorem execDePinFall_keeps (k : Fin 8) (s : State) (h : Keeps s0 s) :
    OKeeps s0 (execDePinFall k s) := by
  unfold execDePinFall; try dsimp only
  repeat' first | (intro; try dsimp only) | (with_reducible first
    | assumption | apply State.updPio_keeps | apply okeeps_next | apply okeeps_fault | apply okeeps_ite) | split

theorem execKeepAliveSend_keeps (reach : BitVec 16) (s : State) (h : Keeps s0 s) :
    OKeeps s0 (execKeepAliveSend reach s) := by
  unfold execKeepAliveSend; try dsimp only
  repeat' first | (intro; try dsimp only) | (with_reducible first
    | assumption | apply State.fioKeepAlive_keeps | apply done_keeps | apply okeeps_next | apply okeeps_fault
    | apply okeeps_ite) | split

theorem execKeepAliveMissing_keeps (ch : Fin 16) (s : State) (h : Keeps s0 s) :
    OKeeps s0 (execKeepAliveMissing ch s) := by
  unfold execKeepAliveMissing; try dsimp only
  repeat' first | (intro; try dsimp only) | (with_reducible first
    | assumption | apply State.fioLost_keeps | apply done_keeps | apply okeeps_next | apply okeeps_fault
    | apply okeeps_ite) | split

theorem execCurrentLimit_keeps (d : Fin 8) (s : State) (h : Keeps s0 s) :
    OKeeps s0 (execCurrentLimit d s) := by
  unfold execCurrentLimit; try dsimp only
  repeat' first | (intro; try dsimp only) | (with_reducible first
    | assumption | apply State.doLimit_keeps | apply done_keeps | apply okeeps_next | apply okeeps_fault
    | apply okeeps_ite) | split

theorem execCurrentLimitRelease_keeps (d : Fin 8) (s : State) (h : Keeps s0 s) :
    OKeeps s0 (execCurrentLimitRelease d s) := by
  unfold execCurrentLimitRelease; try dsimp only
  repeat' first | (intro; try dsimp only) | (with_reducible first
    | assumption | apply State.doUnlimit_keeps | apply done_keeps | apply okeeps_next | apply okeeps_fault
    | apply okeeps_ite) | split

theorem execThermalShutdown_keeps (d : Fin 8) (s : State) (h : Keeps s0 s) :
    OKeeps s0 (execThermalShutdown d s) := by
  unfold execThermalShutdown; try dsimp only
  repeat' first | (intro; try dsimp only) | (with_reducible first
    | assumption | apply State.doTsd_keeps | apply done_keeps | apply okeeps_next | apply okeeps_fault
    | apply okeeps_ite) | split

theorem execRetryTimer_keeps (d : Fin 8) (s : State) (h : Keeps s0 s) :
    OKeeps s0 (execRetryTimer d s) := by
  unfold execRetryTimer; try dsimp only
  repeat' first | (intro; try dsimp only) | (with_reducible first
    | assumption | apply State.doRetry_keeps | apply done_keeps | apply okeeps_next | apply okeeps_fault
    | apply okeeps_ite) | split

theorem execOverloadTimer_keeps (d : Fin 8) (s : State) (h : Keeps s0 s) :
    OKeeps s0 (execOverloadTimer d s) := by
  unfold execOverloadTimer; try dsimp only
  repeat' first | (intro; try dsimp only) | (with_reducible first
    | assumption | apply State.doOverload_keeps | apply done_keeps | apply okeeps_next | apply okeeps_fault
    | apply okeeps_ite) | split

theorem execOverloadClear_keeps (d : Fin 8) (s : State) (h : Keeps s0 s) :
    OKeeps s0 (execOverloadClear d s) := by
  unfold execOverloadClear; try dsimp only
  repeat' first | (intro; try dsimp only) | (with_reducible first
    | assumption | apply State.doOverloadClear_keeps | apply done_keeps | apply okeeps_next | apply okeeps_fault
    | apply okeeps_ite) | split

theorem execLplusLow_keeps (mv : W16) (s : State) (h : Keeps s0 s) :
    OKeeps s0 (execLplusLow mv s) := by
  unfold execLplusLow; try dsimp only
  repeat' first | (intro; try dsimp only) | (with_reducible first
    | assumption | apply State.fioLow_keeps | apply done_keeps | apply okeeps_next | apply okeeps_fault
    | apply okeeps_ite) | split

theorem execLplusUvlo_keeps (mv : W16) (s : State) (h : Keeps s0 s) :
    OKeeps s0 (execLplusUvlo mv s) := by
  unfold execLplusUvlo; try dsimp only
  repeat' first | (intro; try dsimp only) | (with_reducible first
    | assumption | apply State.fioUvlo_keeps | apply done_keeps | apply okeeps_next | apply okeeps_fault
    | apply okeeps_ite) | split

theorem execUvloRestore_keeps (mv : W16) (s : State) (h : Keeps s0 s) :
    OKeeps s0 (execUvloRestore mv s) := by
  unfold execUvloRestore; try dsimp only
  repeat' first | (intro; try dsimp only) | (with_reducible first
    | assumption | apply State.fioUvloEnd_keeps | apply done_keeps | apply okeeps_next | apply okeeps_fault
    | apply okeeps_ite) | split

theorem execLplusLowClear_keeps (mv : W16) (s : State) (h : Keeps s0 s) :
    OKeeps s0 (execLplusLowClear mv s) := by
  unfold execLplusLowClear; try dsimp only
  repeat' first | (intro; try dsimp only) | (with_reducible first
    | assumption | apply State.fioLowEnd_keeps | apply done_keeps | apply okeeps_next | apply okeeps_fault
    | apply okeeps_ite) | split

theorem execReadbackResume_keeps (s : State) (h : Keeps s0 s) :
    OKeeps s0 (execReadbackResume s) := by
  unfold execReadbackResume; try dsimp only
  repeat' first | (intro; try dsimp only) | (with_reducible first
    | assumption | apply State.fioResume_keeps | apply done_keeps | apply okeeps_next | apply okeeps_fault
    | apply okeeps_ite) | split

theorem execFioOvertemp_keeps (s : State) (h : Keeps s0 s) :
    OKeeps s0 (execFioOvertemp s) := by
  unfold execFioOvertemp; try dsimp only
  repeat' first | (intro; try dsimp only) | (with_reducible first
    | assumption | apply State.fioHot_keeps | apply done_keeps | apply okeeps_next | apply okeeps_fault
    | apply okeeps_ite) | split

theorem execOvertempRecovery_keeps (s : State) (h : Keeps s0 s) :
    OKeeps s0 (execOvertempRecovery s) := by
  unfold execOvertempRecovery; try dsimp only
  repeat' first | (intro; try dsimp only) | (with_reducible first
    | assumption | apply State.fioCool_keeps | apply done_keeps | apply okeeps_next | apply okeeps_fault
    | apply okeeps_ite) | split

theorem execReadbackFault_keeps (d : Fin 8) (rb : Bool) (s : State) (h : Keeps s0 s) :
    OKeeps s0 (execReadbackFault d rb s) := by
  unfold execReadbackFault; try dsimp only
  repeat' first | (intro; try dsimp only) | (with_reducible first
    | assumption | apply State.rbMismatch_keeps | apply done_keeps | apply okeeps_next | apply okeeps_fault
    | apply okeeps_ite) | split

theorem execFeedbackClear_keeps (d : Fin 8) (s : State) (h : Keeps s0 s) :
    OKeeps s0 (execFeedbackClear d s) := by
  unfold execFeedbackClear; try dsimp only
  repeat' first | (intro; try dsimp only) | (with_reducible first
    | assumption | apply State.rbClear_keeps | apply done_keeps | apply okeeps_next | apply okeeps_fault
    | apply okeeps_ite) | split

theorem execOpenLoad_keeps (d : Fin 8) (s : State) (h : Keeps s0 s) :
    OKeeps s0 (execOpenLoad d s) := by
  unfold execOpenLoad; try dsimp only
  repeat' first | (intro; try dsimp only) | (with_reducible first
    | assumption | apply State.rbOpen_keeps | apply done_keeps | apply okeeps_next | apply okeeps_fault
    | apply okeeps_ite) | split

theorem execOpenLoadClear_keeps (d : Fin 8) (s : State) (h : Keeps s0 s) :
    OKeeps s0 (execOpenLoadClear d s) := by
  unfold execOpenLoadClear; try dsimp only
  repeat' first | (intro; try dsimp only) | (with_reducible first
    | assumption | apply State.doClear_keeps | apply done_keeps | apply okeeps_next | apply okeeps_fault
    | apply okeeps_ite) | split

theorem execDoSumHigh_keeps (s : State) (h : Keeps s0 s) :
    OKeeps s0 (execDoSumHigh s) := by
  unfold execDoSumHigh; try dsimp only
  repeat' first | (intro; try dsimp only) | (with_reducible first
    | assumption | apply State.fioSum_keeps | apply done_keeps | apply okeeps_next | apply okeeps_fault
    | apply okeeps_ite) | split

theorem execDoSumHighClear_keeps (s : State) (h : Keeps s0 s) :
    OKeeps s0 (execDoSumHighClear s) := by
  unfold execDoSumHighClear; try dsimp only
  repeat' first | (intro; try dsimp only) | (with_reducible first
    | assumption | apply State.fioSum_keeps | apply done_keeps | apply okeeps_next | apply okeeps_fault
    | apply okeeps_ite) | split

theorem execThresholdUpdate_keeps (mv : W16) (s : State) (h : Keeps s0 s) :
    OKeeps s0 (execThresholdUpdate mv s) := by
  unfold execThresholdUpdate; try dsimp only
  repeat' first | (intro; try dsimp only) | (with_reducible first
    | assumption | apply State.thresholds_keeps | apply done_keeps | apply okeeps_next | apply okeeps_fault
    | apply okeeps_ite) | split

theorem execDiEdge_keeps (d : Fin 8) (level : Bool) (stamp : W32) (s : State) (h : Keeps s0 s) :
    OKeeps s0 (execDiEdge d level stamp s) := by
  unfold execDiEdge; try dsimp only
  repeat' first | (intro; try dsimp only) | (with_reducible first
    | assumption | apply State.diEdgeAt_keeps | apply done_keeps | apply okeeps_next | apply okeeps_fault
    | apply okeeps_ite) | split

theorem execFreqGateEnd_keeps (d : Fin 8) (s : State) (h : Keeps s0 s) :
    OKeeps s0 (execFreqGateEnd d s) := by
  unfold execFreqGateEnd; try dsimp only
  repeat' first | (intro; try dsimp only) | (with_reducible first
    | assumption | apply State.updDi_keeps | apply okeeps_next | apply okeeps_fault | apply okeeps_ite
    | apply keeps_ite) | split

theorem execDiCountRead_keeps (e : Fin 16) (d : Fin 8) (s : State) (h : Keeps s0 s) :
    OKeeps s0 (execDiCountRead e d s) := by
  unfold execDiCountRead; try dsimp only
  repeat' first | (intro; try dsimp only) | (with_reducible first
    | assumption | apply State.engineTouch_keeps | apply okeeps_next | apply okeeps_fault | apply okeeps_ite) | split

theorem execEngWdtWrite_keeps (e : Fin 16) (k : Fin 4) (v : W32) (s : State) (h : Keeps s0 s) :
    OKeeps s0 (execEngWdtWrite e k v s) := by
  unfold execEngWdtWrite; try dsimp only
  repeat' first | (intro; try dsimp only) | (with_reducible first
    | assumption | apply State.engineStore_keeps | apply okeeps_next | apply okeeps_fault | apply okeeps_ite) | split

end Sys2Proof.Machine
end

