-- ==== Sys2Proof/Laws/Quiet.lean ====
section
/-!
SUPPORT. Everything that reporting can do: notifications, doorbells toward the host, the event log and the events of
engines. What a statement about another part of the state needs is that this part stands.
-/
namespace Sys2Proof.Machine

/-- From `s` to `t` only the mailboxes, the host interface, the supervisor, the waiting power requests and the Aklos
links may differ. -/
structure Quiet (s t : State) : Prop where
  all : ∃ m h u r l, t = { s with mbx := m, hif := h, sup := u, pwr := { s.pwr with requests := r },
                                  pair := { s.pair with links := l } }

variable {s0 s t : State}

theorem Quiet.refl (s : State) : Quiet s s := ⟨s.mbx, s.hif, s.sup, s.pwr.requests, s.pair.links, rfl⟩

theorem Quiet.trans {a b c : State} (h : Quiet a b) (g : Quiet b c) : Quiet a c := by
  obtain ⟨m, hh, u, r, l, rfl⟩ := h.all
  obtain ⟨m', h', u', r', l', rfl⟩ := g.all
  exact ⟨m', h', u', r', l', rfl⟩

theorem Quiet.pending (h : Quiet s t) : t.pending = s.pending := by obtain ⟨_, _, _, _, _, rfl⟩ := h.all; rfl
theorem Quiet.free (h : Quiet s t) : t.free = s.free := by obtain ⟨_, _, _, _, _, rfl⟩ := h.all; rfl
theorem Quiet.emb (h : Quiet s t) : t.emb = s.emb := by obtain ⟨_, _, _, _, _, rfl⟩ := h.all; rfl
theorem Quiet.group (h : Quiet s t) : t.group = s.group := by obtain ⟨_, _, _, _, _, rfl⟩ := h.all; rfl
theorem Quiet.cl (h : Quiet s t) : t.cl = s.cl := by obtain ⟨_, _, _, _, _, rfl⟩ := h.all; rfl
theorem Quiet.eng (h : Quiet s t) : t.eng = s.eng := by obtain ⟨_, _, _, _, _, rfl⟩ := h.all; rfl
theorem Quiet.hq (h : Quiet s t) : t.hq = s.hq := by obtain ⟨_, _, _, _, _, rfl⟩ := h.all; rfl
theorem Quiet.port (h : Quiet s t) : t.port = s.port := by obtain ⟨_, _, _, _, _, rfl⟩ := h.all; rfl
theorem Quiet.prp (h : Quiet s t) : t.prp = s.prp := by obtain ⟨_, _, _, _, _, rfl⟩ := h.all; rfl
theorem Quiet.can (h : Quiet s t) : t.can = s.can := by obtain ⟨_, _, _, _, _, rfl⟩ := h.all; rfl
theorem Quiet.pio (h : Quiet s t) : t.pio = s.pio := by obtain ⟨_, _, _, _, _, rfl⟩ := h.all; rfl
theorem Quiet.gpIn (h : Quiet s t) : t.gpIn = s.gpIn := by obtain ⟨_, _, _, _, _, rfl⟩ := h.all; rfl
theorem Quiet.gpAt (h : Quiet s t) : t.gpAt = s.gpAt := by obtain ⟨_, _, _, _, _, rfl⟩ := h.all; rfl
theorem Quiet.fio (h : Quiet s t) : t.fio = s.fio := by obtain ⟨_, _, _, _, _, rfl⟩ := h.all; rfl
theorem Quiet.tim (h : Quiet s t) : t.tim = s.tim := by obtain ⟨_, _, _, _, _, rfl⟩ := h.all; rfl
theorem Quiet.selft (h : Quiet s t) : t.selft = s.selft := by obtain ⟨_, _, _, _, _, rfl⟩ := h.all; rfl
theorem Quiet.shm (h : Quiet s t) : t.shm = s.shm := by obtain ⟨_, _, _, _, _, rfl⟩ := h.all; rfl
theorem Quiet.shmBad (h : Quiet s t) : t.shmBad = s.shmBad := by obtain ⟨_, _, _, _, _, rfl⟩ := h.all; rfl
theorem Quiet.modCtr (h : Quiet s t) : t.modCtr = s.modCtr := by obtain ⟨_, _, _, _, _, rfl⟩ := h.all; rfl

/-- A module in good health stays so under reporting. -/
theorem Quiet.unhealthy (h : Quiet s t) : t.unhealthy = s.unhealthy := by
  obtain ⟨_, _, _, _, _, rfl⟩ := h.all; rfl

theorem quiet_ite {c : Prop} [Decidable c] {a b : State} (ha : Quiet s0 a) (hb : Quiet s0 b) :
    Quiet s0 (if c then a else b) := by split <;> assumption

theorem quiet_foldl {α : Type} {f : State → α → State} {l : List α} {s : State}
    (hf : ∀ t x, Quiet s0 t → Quiet s0 (f t x)) (h : Quiet s0 s) : Quiet s0 (l.foldl f s) := by
  induction l generalizing s with
  | nil => exact h
  | cons x r ih => exact ih (hf s x h)

/-! ### The parts that reporting changes -/

theorem State.updHif_quiet (f : Hif → Hif) (h : Quiet s0 s) : Quiet s0 (s.updHif f) :=
  h.trans ⟨s.mbx, f s.hif, s.sup, s.pwr.requests, s.pair.links, rfl⟩

theorem State.updSup_quiet (f : Sup → Sup) (h : Quiet s0 s) : Quiet s0 (s.updSup f) :=
  h.trans ⟨s.mbx, s.hif, f s.sup, s.pwr.requests, s.pair.links, rfl⟩

theorem State.updMbx_quiet (n : Fin 8) (f : Mbx → Mbx) (h : Quiet s0 s) : Quiet s0 (s.updMbx n f) :=
  h.trans ⟨Vec.upd s.mbx n f, s.hif, s.sup, s.pwr.requests, s.pair.links, rfl⟩

theorem State.akSend_quiet (l : Fin 2) (typ : Nat) (data : List Byte) (h : Quiet s0 s) : Quiet s0 (s.akSend l typ data) :=
  h.trans ⟨s.mbx, s.hif, s.sup, s.pwr.requests, _, rfl⟩

/-! ### Signals, doorbells, messages, the log -/

theorem State.signal_quiet (b : Nat) (status : Bool) (h : Quiet s0 s) : Quiet s0 (s.signal b status) := by
  unfold State.signal
  repeat' first | (with_reducible first | assumption | apply State.updHif_quiet) | split

theorem State.intRise_quiet (old : Hif) (h : Quiet s0 s) : Quiet s0 (s.intRise old) := by
  unfold State.intRise
  exact quiet_ite (State.signal_quiet _ _ h) h

theorem State.ringS2H_quiet (b : Nat) (h : Quiet s0 s) : Quiet s0 (s.ringS2H b) := by
  unfold State.ringS2H
  extract_lets was s1 s2 s3
  have h1 : Quiet s0 s1 := State.updHif_quiet _ h
  have h2 : Quiet s0 s2 := quiet_ite (State.signal_quiet _ _ h1) h1
  have h3 : Quiet s0 s3 := State.intRise_quiet _ h2
  exact quiet_ite (h3.trans ⟨s3.mbx, s3.hif, s3.sup, _, s3.pair.links, rfl⟩) h3

theorem State.setStchg_quiet (h : Quiet s0 s) : Quiet s0 s.setStchg := State.intRise_quiet _ (State.updHif_quiet _ h)

theorem State.postNext_quiet (n : Fin 8) (h : Quiet s0 s) : Quiet s0 (s.postNext n) := by
  unfold State.postNext
  extract_lets x
  refine quiet_ite h ?_
  split
  · exact h
  · exact State.ringS2H_quiet _ (State.updMbx_quiet _ _ h)

theorem State.send_quiet (n : Fin 8) (m : OutMsg) (h : Quiet s0 s) : Quiet s0 (s.send n m) :=
  State.postNext_quiet _ (State.updMbx_quiet _ _ h)

theorem State.notifyChan_quiet (n : Fin 8) (m : OutMsg) (h : Quiet s0 s) : Quiet s0 (s.notifyChan n m) := by
  unfold State.notifyChan
  exact quiet_ite (State.updMbx_quiet _ _ h) (State.send_quiet _ _ h)

theorem State.toMember_quiet (g : GroupMsg) (h : Quiet s0 s) : Quiet s0 (s.toMember g) := by
  unfold State.toMember
  split
  · exact State.akSend_quiet _ _ _ h
  · exact h

theorem State.notifyFrom_quiet (pos : Fin 4) (code : Nat) (target : W16) (payload : List Byte) (h : Quiet s0 s) :
    Quiet s0 (s.notifyFrom pos code target payload) := by
  unfold State.notifyFrom
  refine quiet_foldl (fun t n ht => ?_) h
  split
  · exact quiet_ite (State.notifyChan_quiet _ _ ht) ht
  · exact ht

theorem State.notify_quiet (code : Nat) (target : W16) (payload : List Byte) (h : Quiet s0 s) :
    Quiet s0 (s.notify code target payload) := by
  unfold State.notify
  exact quiet_foldl (fun t n ht => quiet_ite (State.toMember_quiet _ ht) ht) (State.notifyFrom_quiet _ _ _ _ h)

theorem State.log_quiet (cls : Fin 4) (code : Nat) (obj : W16) (data : W32) (cleared : Bool) (h : Quiet s0 s) :
    Quiet s0 (s.log cls code obj data cleared) := by
  unfold State.log
  exact quiet_ite (State.notify_quiet _ _ _ (State.updSup_quiet _ h)) (State.updSup_quiet _ h)

theorem State.warn_quiet (code : Nat) (obj : W16) (data : W32) (cleared : Bool) (h : Quiet s0 s) :
    Quiet s0 (s.warn code obj data cleared) := State.log_quiet _ _ _ _ _ h

theorem State.notice_quiet (code : Nat) (obj : W16) (data : W32) (h : Quiet s0 s) : Quiet s0 (s.notice code obj data) :=
  State.log_quiet _ _ _ _ _ h

/-! ### Events of engines and alarms -/

/-- As `Quiet`, and the clusters may differ in SUPDB_CAUSE, the engines in the events they hold and the wait these end. -/
structure Noted (s t : State) : Prop where
  all : ∃ m h u r l cl eng, t = { s with mbx := m, hif := h, sup := u, pwr := { s.pwr with requests := r },
                                         pair := { s.pair with links := l }, cl := cl, eng := eng } ∧
    (∀ c, ∃ w, Vec.at cl c = { Vec.at s.cl c with supdb := w }) ∧
    (∀ e, ∃ d v w, Vec.at eng e = { Vec.at s.eng e with d := d, evp := v, wait := w })

theorem Quiet.noted (h : Quiet s t) : Noted s t := by
  obtain ⟨m, hh, u, r, l, rfl⟩ := h.all
  exact ⟨m, hh, u, r, l, s.cl, s.eng, rfl, fun c => ⟨_, rfl⟩, fun e => ⟨_, _, _, rfl⟩⟩

theorem Noted.refl (s : State) : Noted s s := (Quiet.refl s).noted

theorem Noted.trans {a b c : State} (h : Noted a b) (g : Noted b c) : Noted a c := by
  obtain ⟨m, hh, u, r, l, cl, eng, rfl, hc, he⟩ := h.all
  obtain ⟨m', h', u', r', l', cl', eng', rfl, hc', he'⟩ := g.all
  refine ⟨m', h', u', r', l', cl', eng', rfl, fun c => ?_, fun e => ?_⟩
  · obtain ⟨w, hw⟩ := hc c
    obtain ⟨w', hw'⟩ := hc' c
    exact ⟨w', by rw [hw']; simp only [hw]⟩
  · obtain ⟨d, v, w, hw⟩ := he e
    obtain ⟨d', v', w', hw'⟩ := he' e
    exact ⟨d', v', w', by rw [hw']; simp only [hw]⟩

theorem Noted.pending (h : Noted s t) : t.pending = s.pending := by obtain ⟨_, _, _, _, _, _, _, rfl, _⟩ := h.all; rfl
theorem Noted.emb (h : Noted s t) : t.emb = s.emb := by obtain ⟨_, _, _, _, _, _, _, rfl, _⟩ := h.all; rfl
theorem Noted.hq (h : Noted s t) : t.hq = s.hq := by obtain ⟨_, _, _, _, _, _, _, rfl, _⟩ := h.all; rfl
theorem Noted.port (h : Noted s t) : t.port = s.port := by obtain ⟨_, _, _, _, _, _, _, rfl, _⟩ := h.all; rfl
theorem Noted.prp (h : Noted s t) : t.prp = s.prp := by obtain ⟨_, _, _, _, _, _, _, rfl, _⟩ := h.all; rfl
theorem Noted.can (h : Noted s t) : t.can = s.can := by obtain ⟨_, _, _, _, _, _, _, rfl, _⟩ := h.all; rfl
theorem Noted.pio (h : Noted s t) : t.pio = s.pio := by obtain ⟨_, _, _, _, _, _, _, rfl, _⟩ := h.all; rfl
theorem Noted.gpIn (h : Noted s t) : t.gpIn = s.gpIn := by obtain ⟨_, _, _, _, _, _, _, rfl, _⟩ := h.all; rfl
theorem Noted.gpAt (h : Noted s t) : t.gpAt = s.gpAt := by obtain ⟨_, _, _, _, _, _, _, rfl, _⟩ := h.all; rfl
theorem Noted.fio (h : Noted s t) : t.fio = s.fio := by obtain ⟨_, _, _, _, _, _, _, rfl, _⟩ := h.all; rfl
theorem Noted.tim (h : Noted s t) : t.tim = s.tim := by obtain ⟨_, _, _, _, _, _, _, rfl, _⟩ := h.all; rfl
theorem Noted.selft (h : Noted s t) : t.selft = s.selft := by obtain ⟨_, _, _, _, _, _, _, rfl, _⟩ := h.all; rfl
theorem Noted.shm (h : Noted s t) : t.shm = s.shm := by obtain ⟨_, _, _, _, _, _, _, rfl, _⟩ := h.all; rfl
theorem Noted.modCtr (h : Noted s t) : t.modCtr = s.modCtr := by obtain ⟨_, _, _, _, _, _, _, rfl, _⟩ := h.all; rfl

theorem Engine.wake_noted (g : Engine) : ∃ d v w, g.wake = { g with d := d, evp := v, wait := w } := by
  unfold Engine.wake
  extract_lets hit
  split
  · exact ⟨g.d, g.evp, g.wait, rfl⟩
  · split
    · exact ⟨g.d, g.evp, g.wait, rfl⟩
    · exact ⟨_, _, _, rfl⟩
    · exact ⟨_, _, _, rfl⟩

theorem Engine.setEvp_noted (g : Engine) (b : Nat) : ∃ d v w, g.setEvp b = { g with d := d, evp := v, wait := w } := by
  unfold Engine.setEvp
  split
  · obtain ⟨d, v, w, h⟩ := Engine.wake_noted { g with evp := g.evp ||| bitAt 32 b true }
    exact ⟨d, v, w, h⟩
  · exact ⟨g.d, g.evp, g.wait, rfl⟩

theorem State.evp_noted (e : Fin 16) (b : Nat) (h : Noted s0 s) : Noted s0 (s.evp e b) := by
  refine h.trans ⟨s.mbx, s.hif, s.sup, s.pwr.requests, s.pair.links, s.cl, _, rfl, fun c => ⟨_, rfl⟩, fun f => ?_⟩
  by_cases hf : f = e
  · subst hf
    rw [Vec.at_upd_same]
    exact Engine.setEvp_noted _ _
  · rw [Vec.at_upd_other _ _ hf]
    exact ⟨_, _, _, rfl⟩

theorem State.evpCl_noted (c : Fin 4) (b : Nat) (h : Noted s0 s) : Noted s0 (s.evpCl c b) := by
  unfold State.evpCl
  generalize allFin 4 = xs
  induction xs generalizing s with
  | nil => exact h
  | cons k r ih => exact ih (State.evp_noted _ _ h)

theorem State.supdb_noted (c : Fin 4) (cause : Nat) (h : Noted s0 s) : Noted s0 (s.supdb c cause) := by
  unfold State.supdb
  refine State.evpCl_noted _ _ (h.trans ?_)
  refine ⟨s.mbx, s.hif, s.sup, s.pwr.requests, s.pair.links, _, s.eng, rfl, fun d => ?_, fun f => ⟨_, _, _, rfl⟩⟩
  by_cases hd : d = c
  · subst hd
    rw [Vec.at_upd_same]
    exact ⟨_, rfl⟩
  · rw [Vec.at_upd_other _ _ hd]
    exact ⟨_, rfl⟩

theorem State.alarm_noted (code : Nat) (obj : W16) (data : W32) (cleared : Bool) (h : Noted s0 s) :
    Noted s0 (s.alarm code obj data cleared) := by
  unfold State.alarm
  extract_lets s1
  have h1 : Noted s0 s1 := h.trans (State.log_quiet _ _ _ _ _ (Quiet.refl s)).noted
  split
  · exact State.supdb_noted _ _ h1
  · exact h1

/-- A module in good health takes no further step on its own account. -/
theorem State.settle_of_healthy (h : s.unhealthy = false) : s.settle = s := by simp [State.settle, h]

end Sys2Proof.Machine
end

