-- ==== Sys2Proof/Tests/Slice0.lean ====
section
/-!
SUPPORT. The model's own tests: an ill-formed command for each check of WellFormed; for each statement a state and
operands that meet its premises together; and the published examples of the standards and of R399.
-/
namespace Sys2Proof.Tests
open Sys2Proof Sys2Proof.Machine Sys2Proof.Claim
set_option Elab.async false

/-! ### A running module -/

/-- A message on channel 0 with the GEN of its session. -/
def msg (target : W16) (payload : List Byte) : Msg :=
  { chan := 0, tag := 7, flags := 0, gen := 1, target := target, payload := payload }

/-- An engine out of reset: A0 to A15 at the start of DMEM, D1 = 0, the other data registers 4. -/
def eng0 : Engine := { Engine.atReset 0 false [] [] [] [] with
  run := true, a := Vec.fill 16 0x10000, d := Vec.put (Vec.fill 32 4) 1 0 }

/-- A started cluster with a window on the first 64 KiB of shared memory. -/
def cl0 : Cluster := { Cluster.zero with
  st := .started, id := 1, ports := 0xFFF, windows := Vec.fill 8 ⟨0, 0x10000, true⟩, dl := { Dl.zero with st := 1 } }

/-- A running module, every domain powered, on PCIe with its link up; mailbox 0 has a session; cluster 0 owns all units. -/
def up : State := { State.reset with
  pwr := { Power.zero with phase := .run, ready := true, domains := 0xFFF }
  hif := { Hif.zero with pcie := { Pcie.zero with linkUp := true } }
  mbx := Vec.fill 8 { Mbx.zero with session := some ⟨1, 0, 0⟩ }
  cl := Vec.fill 4 cl0
  eng := Vec.fill 16 eng0
  hq := Vec.fill 256 { HwQ.empty 16 with grant := some 0 }
  port := Vec.fill 12 { Port.held with st := 3, owner := some 0 }
  can := Vec.fill 4 { Can.held with st := 3, owner := some 0 }
  pio := Vec.fill 8 { Pio.held with st := 2, owner := some 0 } }

/-- The module `up` with engine 0 changed. -/
def upE (f : Engine → Engine) : State := { up with eng := Vec.upd up.eng 0 f }
/-- The module `up` with cluster 0 changed. -/
def upC (f : Cluster → Cluster) : State := { up with cl := Vec.upd up.cl 0 f }
/-- The module `up` with port `p` changed. -/
def upP (p : Fin 12) (f : Port → Port) : State := { up with port := Vec.upd up.port p f }
/-- The module `up` with the queue 200 changed. -/
def upQ (f : HwQ → HwQ) : State := { up with hq := Vec.upd up.hq 200 f }

theorem test_ready : EngineReady up 0 :=
  ⟨by decide, by decide, by decide, by decide, by decide, by decide, by decide, by decide⟩
theorem test_alive : alive up 0 := ⟨by decide, by decide⟩
theorem test_up : hostUp up := ⟨by decide, by decide⟩

/-- The octets of a command in a mailbox's buffer (R87). -/
def octetsOf (code : Nat) (m : Msg) : List Byte :=
  leBytes 2 code ++ leBytes 2 m.tag.toNat ++ leBytes 2 m.payload.length ++ leBytes 2 m.flags.toNat ++ leBytes 4 m.gen.toNat ++
    leBytes 2 m.target.toNat ++ [0, 0] ++ m.payload
/-- The module `up` with a command waiting on channel 0. -/
def asks (code : Nat) (m : Msg) : State := { up with mbx := Vec.upd up.mbx 0 fun x => { x with taken := [octetsOf code m] } }
/-- Channel 0 is the first whose turn it is. -/
theorem test_turn (code : Nat) (m : Msg) (t : W16) (p : List Byte) : turnOf (asks code m) (msg t p) :=
  ⟨rfl, rfl, rfl, fun n h => absurd h (Nat.not_lt_zero _)⟩
/-- A message without payload, and one with a payload. -/
theorem test_brings : brings (asks 0x102 (msg 0 [])) 0x102 (msg 0 []) ∧ brings (asks 0x105 (msg 0x4203 [1, 2, 3])) 0x105 (msg 0x4203 [1, 2, 3]) :=
  ⟨⟨_, [], rfl, by decide, by decide, by decide, by decide, by decide, by decide⟩,
    ⟨_, [], rfl, by decide, by decide, by decide, by decide, by decide, by decide⟩⟩

/-! ### Well-formedness: an ill-formed command for each check -/

/-- A payload of 1009 octets; FLAGS bit 4. -/
theorem test_wf_payload : Instr.wellFormed (.getInfo (msg 0 (List.replicate 1009 0))) = false := by decide +kernel
theorem test_wf_flags : Instr.wellFormed (.getInfo { msg 0 [] with flags := 16 }) = false := by decide
theorem test_wf_message : Instr.wellFormed (.getInfo (msg 0 [1, 2])) = true := by decide
/-- A WRITE of no word; a parallel-bus half at the other half's address. -/
theorem test_wf_spi_words : Instr.wellFormed (.write0 false 2 []) = false ∧ Instr.wellFormed (.write0 false 2 [0]) = true := by decide
theorem test_wf_half : Instr.wellFormed (.parLowHalfRead false 2) = false ∧ Instr.wellFormed (.parHighHalfRead false 2) = true := by decide
/-- A frame of 13 octets; a base CAN frame with 12 bits of identifier; a COPY block of 1023 octets. -/
theorem test_wf_frame : Instr.wellFormed (.frameReceived 0 ⟨List.replicate 13 0, .good, 0, .whole, 0, 0, 0⟩) = false := by decide
theorem test_wf_can : Instr.wellFormed (.canFrameValid 0 ⟨false, false, false, false, false, 0x800, 0, [], 0, 0⟩) = false := by decide
theorem test_wf_copy : Instr.wellFormed (.aklosCopy 0 0 0 0 (List.replicate 1023 0) ⟨0, none⟩ true false) = false := by decide +kernel
/-- The partner owns no bus, only the host writes BAR0, and the supervisor writes nothing but the inbound buffers of EMBe. -/
theorem test_wf_bus : Instr.wellFormed (.lockRelease .peer 0 0) = false := by decide
theorem test_wf_host : Instr.wellFormed (.registerWrite (.bar0 .peer 0 15 0)) = false := by decide
theorem test_wf_memory : Instr.wellFormed (.hostMemoryWrite .supv true 0 []) = false ∧ Instr.wellFormed (.hostMemoryWrite .supv false 0x5000 []) = true := by decide

/-! ### Engines -/

/-- The module `up` with a syllable alone in its bundle at IMEM 0 of engine 0. -/
def holding (y : Syl) : State := upE fun g => { g with imem := memWriteN [] 0 (leBytes 4 (Syl.word y true).toNat) }
/-- The module `up` with the bundle `x | y` at IMEM 0 of engine 0, and `x` fetched. -/
def holding2 (x y : Syl) : State := upE fun g => { g with
  imem := memWriteN [] 0 (leBytes 4 (Syl.word x false).toNat ++ leBytes 4 (Syl.word y true).toNat), fetched := [x] }
/-- An engine row of each unit and format finds its word where the engine fetches next. -/
theorem test_fetched : ([.add 0 true 0x3FFF80, .shri 0 true 31, .ins 0 true 0x1F00, .mac 0 true 0x0C0000, .sel 0 true 0xE0, .ldw 0 true 8, .std 0 true 0,
    .qpush 0 true 200, .b 0 true 2, .callr 0 true 0x40000, .rte 0 true 0, .mts 0 true 0x4E000, .wfe 0 true 0, .sevr 0 true 0, .rpt 0 true 5,
    .brk 0 true 9, .crcset 0 true 0, .csum 0 true 0x44100] : List Instr).all (fun i => match i.syl with
      | some (_, p, y) => memWord (Vec.at (holding y).eng 0).imem 0 == Syl.word y p
      | none => false) = true := by decide +kernel
theorem test_engine_premises : EngineReady (holding (1, 0x00, 0x3FFF80)) 0 ∧ Fetched (holding (1, 0x00, 0x3FFF80)) (.add 0 true 0x3FFF80) := by
  refine ⟨⟨by decide, by decide, by decide, by decide, by decide, by decide, by decide, by decide⟩, ?_⟩
  intro e p y h
  cases h
  decide +kernel
/-- AluShiftsAndImmediates, AluRegisterForms. -/
theorem test_alu_premises : fld (0x3FFF80#23) 0 7 = 0 ∧ fld (31#23) 0 12 < 32 ∧ (r3 (0x080#23) = 0 ∧ fld (0x080#23) 0 7 = 0) := by decide
/-- CompareMoveField: a compare, LHI, and a field of 32 bits at position 0 and of 1 bit at position 31. -/
theorem test_field_premises : (r1 (0#23) = 0 ∧ fld (0#23) 0 8 = 0) ∧ fld (0xFFFF#23) 16 2 = 0 ∧
    (fld (0xF8#23) 0 3 = 0 ∧ fPos (0xF8#23) + fW (0xF8#23) ≤ 32) ∧ (fld (0x1F00#23) 0 3 = 0 ∧ fPos (0x1F00#23) + fW (0x1F00#23) ≤ 32) := by decide
/-- Accumulators. -/
theorem test_accumulator_premises : (r1 (0x0C0000#23) < 4 ∧ fld (0x0C0000#23) 0 18 = 0) ∧
    (r2 (0xA00#23) < 4 ∧ fld (0xA00#23) 6 6 ≤ 40 ∧ fld (0xA00#23) 0 6 = 0) := by decide
/-- AddressAndMoves. -/
theorem test_move_premises : (r1 (0#23) < 16 ∧ r2 (0#23) < 16 ∧ r3 (0#23) < 16 ∧ fld (0#23) 0 13 = 0) ∧ fld (0xFFFF#23) 16 2 = 0 ∧
    (fld (0xE0#23) 0 4 = 0 ∧ fld (0xE0#23) 4 4 ≠ 15) := by decide
/-- LoadsAndStores: each of the three memories. -/
theorem test_plain : plain up 0 0x10000 4 true ∧ plain up 0 0x10000000 4 true ∧ plain up 0 0x20000000 4 true := by
  refine ⟨.inl ⟨by decide, by decide, by decide⟩, .inr (.inl ⟨by decide, by decide, by decide, by decide⟩),
    .inr (.inr ⟨by decide, by decide, ⟨0, by decide⟩, by decide, by decide⟩)⟩
theorem test_load_premises : (addrOf (Vec.at up.eng 0) 0 8).toNat = 0x10000 ∧ 0x10000 % 8 = 0 ∧ r2 (0#23) < 16 ∧ (0#23).getLsbD 12 = false := by decide
/-- QueueInstructions, QueueWindowsAndEvents: queue 200 of cluster 0. -/
theorem test_queue : queueOf eng0 200 = 200 ∧ queueForm 200 ∧ r1 (200#23) % 4 = 0 ∧ up.hqServer 200 = some (clOf 0) := by decide
theorem test_lone : lone up (clOf 0) 200 := ⟨by decide, by decide +kernel, by decide⟩
theorem test_push : (Vec.at up.hq 200).bad = false ∧ up.pushOk (clOf 0) 200 ⟨0x10000000, 0, 0, 0⟩ = true := by decide +kernel
theorem test_queue_event_premises : let s := upC fun k => { k with qsel := Vec.put k.qsel 3 0x800000C8 }
    s.hqServer 200 = some (clOf 0) ∧ s.pushOk (clOf 0) 200 ⟨0x10000000, 0, 0, 0⟩ = true ∧ (Vec.at s.hq 200).items.length < (Vec.at s.hq 200).depth ∧
    Vec.at (Vec.at s.cl (clOf 0)).qsel 3 = BitVec.ofNat 32 (0x80000000 + 200) ∧ clOf 1 = clOf 0 ∧ (Vec.at s.eng 1).run = true := by decide +kernel
/-- ControlFlow: a branch to the next word but one, and RTE with a frame of zeros. -/
theorem test_branch_premises : fld (2#23) 19 4 ≠ 15 ∧ (relative eng0 19 2).toNat < 0x10000 := by decide
theorem test_rte_premises : let s := upE fun g => { g with sr := 0x80000000 }
    (Vec.at s.eng 0).sr.getLsbD 31 = true ∧ (∀ w ∈ (Vec.at s.eng 0).badD, w < 0xFFC) ∧ (frameAt (Vec.at s.eng 0) 4 &&& 0xFFFFFFFC).toNat < 0x10000 := by decide
/-- SpecialRegisters: SR takes D0 = 4, XCFG takes D1 = 0. -/
theorem test_mts_premises : fld (0x4000#23) 0 13 = 0 ∧ r2 (0x4000#23) = 2 ∧ eng0.dAt (r1 (0x4000#23)) &&& 0x007FFF70 = 0 ∧
    r2 (0x4E000#23) = 7 ∧ eng0.dAt (r1 (0x4E000#23)) &&& 0x0000FFFE = 0 := by decide
/-- Repetition: a count, a count of 0 with the next bundle in place, and a bundle under way. -/
theorem test_rpt_zero_premises : let s := upE fun g => { g with imem := [(7, 0x80)] }
    fld (0x400000#23) 10 12 = 0 ∧ min (fld (Vec.at s.eng 0).rc 0 11) 1024 = 0 ∧
    ∀ i, i ≤ 0 → (memWord (Vec.at s.eng 0).imem (4 + 4 * i)).getLsbD 31 = decide (i = 0) ∧ (4 + 4 * i) / 8 ∉ (Vec.at s.eng 0).badI := by decide
theorem test_repeat_premises : let g := Vec.at (upE fun g => { g with rcnt := 1024 }).eng 0
    0 < 1024 ∧ g.rcnt = 1024 ∧ g.rcHeld = none ∧ r1 (5#23) = r2 (5#23) ∧ (5#23).getLsbD 12 = false ∧ g.run = true ∧ g.wait = .none ∧ g.fetched = [] ∧ g.cop = none := by decide
/-- TrapEntry: an ADD with a reserved bit, MTS of a reserved bit of SR, a D slot after a Q slot. -/
theorem test_illegal_premises : (Instr.add 0 true 1).syl = some (0, true, (1, 0x00, 1)) ∧ Syl.legal (1, 0x00, 1) = false ∧
    (Syl.writes (1, 0x00, 1)).Nodup ∧ (Vec.at up.eng 0).inTrap = false := by decide
theorem test_mts_reserved_premises : (Vec.at (upE fun g => { g with d := Vec.fill 32 0x10 }).eng 0).dAt (r1 (0x4000#23)) &&& spReserved (r2 (0x4000#23)) ≠ 0 := by decide
theorem test_order_premises : let s := holding2 (2, 0x02, 0) (1, 0x00, 0)
    (Vec.at s.eng 0).inTrap = false ∧ (Vec.at s.eng 0).fetched = [(2, 0x02, 0)] ∧ (Instr.add 0 true 0).syl = some (0, true, (1, 0x00, 0)) ∧
    Syl.unit (1, 0x00, 0) ≤ Syl.unit (2, 0x02, 0) ∧ ((Vec.at s.eng 0).pc.toNat + 4) / 8 ∉ (Vec.at s.eng 0).badI := by decide
theorem test_order_ready : EngineReady ((holding2 (2, 0x02, 0) (1, 0x00, 0)).updEng 0 fun g => { g with fetched := [] }) 0 ∧
    Fetched (holding2 (2, 0x02, 0) (1, 0x00, 0)) (.add 0 true 0) := by
  refine ⟨⟨by decide, by decide, by decide, by decide, by decide, by decide, by decide, by decide⟩, ?_⟩
  intro e p y h
  cases h
  decide +kernel
/-- EmulationAndDoubleTrap. -/
theorem test_emulation_premises : let g := Vec.at (upE fun g => { g with xcfg := 1 }).eng 0
    (Instr.crcset 0 true 0).syl = some (0, true, (3, 0x30, 0)) ∧ Syl.legal (3, 0x30, 0) = true ∧ (Syl.writes (3, 0x30, 0)).Nodup ∧
    g.inTrap = false ∧ g.xcfg.getLsbD 0 = true := by decide
theorem test_double_premises : let s := upE fun g => { g with sr := 0xF0000000 }
    (Vec.at s.eng 0).inTrap = true ∧ (Vec.at s.cl (clOf 0)).st = .started ∧ s.pair.st = qSolo ∧ s.sup.singles < 128 := by decide
/-- BundleOrder: ADD waits for MOVAD, ADDAD for ADD; the first syllable of a bundle; a waiting engine. -/
theorem test_bundle_premises : ∀ xy ∈ ([((1, 0x00, 0), (2, 0x00, 0)), ((0, 0x03, 0), (1, 0x00, 0))] : List (Syl × Syl)), let s := holding2 xy.1 xy.2
    (Vec.at s.eng 0).fetched = [xy.1] ∧ (Vec.at s.eng 0).pc.toNat + 8 < 0x10000 ∧ ((Vec.at s.eng 0).pc.toNat + 4) / 8 ∉ (Vec.at s.eng 0).badI ∧
    memWord (Vec.at s.eng 0).imem 4 = Syl.word xy.2 true ∧ fld (0#23) 0 13 = 0 ∧ r1 (0#23) < 16 :=
  List.forall_mem_cons.mpr ⟨⟨by decide, by decide, by decide, by decide, by decide, by decide⟩,
    List.forall_mem_cons.mpr ⟨⟨by decide, by decide, by decide, by decide, by decide, by decide⟩, fun _ h => nomatch h⟩⟩
theorem test_bundle_ready : EngineReady ((holding2 (1, 0x00, 0) (2, 0x00, 0)).updEng 0 fun g => { g with fetched := [] }) 0 :=
  ⟨by decide, by decide, by decide, by decide, by decide, by decide, by decide, by decide⟩
theorem test_join_premises : let s := upE fun g => { g with imem := memWriteN [] 0 (leBytes 4 (Syl.word (1, 0x00, 0) false).toNat) }
    let g := Vec.at s.eng 0
    g.run = true ∧ g.wait = .none ∧ s.checker 0 = false ∧ g.fetched.length < 3 ∧ g.pc.toNat + 4 * (g.fetched.length + 1) < 0x10000 ∧
    (g.pc.toNat + 4 * g.fetched.length) / 8 ∉ g.badI ∧ memWord g.imem 0 = Syl.word (1, 0x00, 0) false ∧
    (Vec.at (upE fun g => { g with wait := .wfe 0 0 }).eng 0).wait ≠ .none := by decide +kernel
/-- Coprocessors: CSUM of no octets issues, and one of 4 octets of the scratchpad ends. -/
theorem test_coprocessor_premises : let s := upE fun g => { g with d := Vec.put g.d 2 0x10000000 }
    let g := Vec.at s.eng 0
    let o : BitVec 23 := 0x44100
    let x : Cop := { opcode := 0x33, ops := o, d := g.dAt (r1 o), s := g.dAt (r2 o), t := g.dAt (r3 o), pc := g.pc }
    Syl.legal (3, 0x33, o) = true ∧ g.xcfg = 0 ∧ s.copError 0 x = false ∧ s.copReach 0 x = none ∧ s.copTooSmall 0 x = false := by decide +kernel
theorem test_spad : soundSpad up 0 0x10000000 4 := ⟨by decide, by decide, by decide, by decide⟩
/-- AccessTrapsAndFailedLoads: a misaligned address, one outside every memory, a failed load. -/
theorem test_access_premises : let s := upE fun g => { g with a := Vec.fill 16 0x10001 }
    let t := upE fun g => { g with a := Vec.fill 16 0x18000 }
    (addrOf (Vec.at s.eng 0) 0 2).toNat % 2 ≠ 0 ∧ (addrOf (Vec.at t.eng 0) 0 8).toNat % 8 = 0 ∧ 0x18000 ≤ (addrOf (Vec.at t.eng 0) 0 8).toNat ∧
    (addrOf (Vec.at t.eng 0) 0 8).toNat < 0x10000000 := by decide
theorem test_ecc_premises : let g := Vec.at (upE fun g => { g with loads := [⟨0, 0x10008, some [(regD 3, 9)]⟩], badD := [1] }).eng 0
    g.run = true ∧ g.loads[0]? = some ⟨0, 0x10008, some [(regD 3, 9)]⟩ ∧ (0x10008 - 0x10000) / 8 ∈ g.badD ∧ g.inTrap = false ∧ g.rcnt = 0 := by decide
/-- EngineWatchdog. -/
theorem test_watchdog_premises : let g := Vec.at (upE fun g => { g with wdtEn := true }).eng 0
    g.run = true ∧ g.wdtEn = true ∧ g.wdtFired = false ∧ g.inTrap = false ∧ g.rcnt = 0 ∧ fld (0x80000001#32) 24 6 = 0 ∧ fld (0x80000001#32) 0 24 ≠ 0 := by decide
theorem test_watchdog_end_premises : let s := upE fun g => { g with wdtEn := true, wdtFired := true }
    (Vec.at s.eng 0).run = true ∧ (Vec.at s.eng 0).wdtEn = true ∧ (Vec.at s.eng 0).wdtFired = true ∧ (Vec.at s.cl (clOf 0)).st = .started ∧
    s.pair.st = qSolo ∧ s.sup.singles < 128 ∧ (1 : Fin 4) ≠ kOf 0 := by decide
/-- StepRunsFrontCommand, MemoryStaysCanonical: the empty queue after reset. -/
theorem test_step_premises : up.pending = [] ∧ up.pwr.phase = .run ∧ (∀ e, (Vec.at up.eng e).wdtEn = false) ∧ up.tim.stepHold = 0 ∧ up.tim.slewLeft = 0 ∧
    2 ^ 40 ≤ ({ up with tim := { up.tim with stepHold := 2 ^ 40 } } : State).tim.stepHold ∧ State.reset.pending = [] ∧ State.reset.pwr.phase = .inReset ∧
    memWf up.shm = true := by decide +kernel
/-- SyllableWords. -/
theorem test_syllable_premises : (Instr.add 0 true 5).syl = some (0, true, (1, 0x00, 5)) := rfl

/-! ### The host interface -/

/-- The module `up` on another host interface. -/
def upH (n : Fin 4) : State := { up with pwr := { up.pwr with hifsel := n } }
/-- The module `up` with its host interface changed. -/
def upI (f : Hif → Hif) : State := { up with hif := f up.hif }

/-- HostRegisters. -/
theorem test_host_premises : up.bar0Err 0x104 = none ∧ up.hif.intStatus = 0 ∧ up.hostServed = true ∧ up.live = true := by decide +kernel
theorem test_before_ready_premises : let s := { up with pwr := { up.pwr with ready := false, phase := .startFault, domains := 0x403 } }
    s.live = false ∧ s.hostServed = true ∧ 0x400 ≤ (0x400#16).toNat := by decide +kernel
theorem test_wake_premises : let s := { up with pwr := { up.pwr with phase := .standby, wakeWord := 4 } }
    s.hostServed = true ∧ s.live = true ∧ s.pwr.phase = .standby ∧ s.pwr.wakeWord.getLsbD 2 = true := by decide +kernel
theorem test_msix : msixOpen (upI fun h => { h with pcie := { h.pcie with msixEn := true, table := Vec.fill 128 0 } }) :=
  ⟨by decide, by decide, by decide, by decide, by decide, by decide +kernel⟩
/-- Mailboxes: the host holds the lock of an inbound buffer of zeros; one message behind a held one; no message; no lock. -/
def upX (f : Mbx → Mbx) : State := { up with mbx := Vec.upd up.mbx 0 fun x => f { x with lock := 1 } }
theorem test_post_premises : let x := Vec.at (upX id).mbx 0
    let h := fun i => (memRead x.inBuf i).toNat
    x.lock = 1 ∧ x.overrun = false ∧ x.inFull = false ∧ h 4 + 256 * h 5 ≤ 1008 ∧ h 6 < 16 ∧ h 7 = 0 ∧ h 14 = 0 ∧ h 15 = 0 ∧
    (Vec.at up.mbx 0).outFull = false ∧ (Vec.at up.mbx 0).lock ≠ 1 := by decide
theorem test_release_premises : let x := Vec.at (upX fun x => { x with
      outFull := true, outq := [⟨0xF002, 0, 0, 0, 0, [], true⟩, ⟨0x8102, 0, 0, 0, 0, [], false⟩], slotOpen := false }).mbx 0
    x.outFull = true ∧ x.lock = 1 ∧ x.overrun = false ∧
    x.outq = [⟨0xF002, 0, 0, 0, 0, [], true⟩] ++ (⟨0x8102, 0, 0, 0, 0, [], false⟩ : OutMsg) :: [] ∧ (0x8102#16) ≠ 0xF001 ∧ x.slotOpen = false ∧
    ∀ y ∈ [(⟨0xF002, 0, 0, 0, 0, [], true⟩ : OutMsg)], y.held = true := by decide
theorem test_release_none_premises : let x := Vec.at (upX fun x => { x with outFull := true }).mbx 0
    x.outFull = true ∧ x.lock = 1 ∧ x.overrun = false ∧ x.outq = [] := by decide
/-- LocksAndEngineMailboxes: the host and engine 1 at lock 8 + 0, and at the mailbox of engine 0. -/
theorem test_lock_premises : up.unhealthy = false ∧ reaches up 0 .host ∧ reaches up 8 (.eng 0) ∧ (Master.id .host).toNat ≤ (Master.id (.eng 0)).toNat := by
  refine ⟨by decide +kernel, ⟨by decide +kernel, by decide +kernel⟩, ⟨⟨by decide, by decide⟩, by decide +kernel⟩, by decide⟩
theorem test_emb_premises : embReach up 0 .host ∧ embReach up 0 (.eng 1) :=
  ⟨⟨by decide, by decide, by decide +kernel, by decide⟩, ⟨⟨by decide, by decide⟩, by decide, by decide, by decide⟩⟩
theorem test_embpost_premises : let s := { up with emb := Vec.upd up.emb 0 fun x => { x with lock := Master.id .host } }
    (Vec.at s.emb 0).lock = Master.id .host ∧ (Vec.at s.emb 0).inFull = false := by decide
/-- ParallelBusAndQuadSpi, CommandsComplete: the parallel bus and SPI; two octets and one word written. -/
theorem test_bus_premises : (upH 1).hostOn 1 = true ∧ (upH 2).hostOn 2 = true ∧ (upH 1).unhealthy = false ∧ (upH 1).live = true ∧
    (upH 2).live = true ∧ (upH 1).bar0Err 0x460 = none ∧ (upH 2).hif.spiBusy = false := by decide +kernel
theorem test_half_premises : let s := { upH 1 with hif := { (upH 1).hif with parLow := some ⟨0x618, 7⟩ } }
    s.hostOn 1 = true ∧ s.live = true ∧ s.hif.parLow = some ⟨0x618, 7⟩ := by decide +kernel
theorem test_plain_shm : plainShm (upH 1) ∧ plainShm (upH 2) :=
  ⟨⟨by decide, by decide, by decide, by decide, by decide +kernel⟩, ⟨by decide, by decide, by decide, by decide, by decide +kernel⟩⟩
theorem test_may_write : mayWrite (upH 1) 0x7FFFFE [some 1, none] ∧ mayWrite (upH 2) 0 [some 1, some 2, some 3, some 4] :=
  ⟨⟨by decide, by decide +kernel⟩, ⟨by decide, by decide +kernel⟩⟩
theorem test_write0_premises : let s := { upH 2 with mbx := Vec.upd (upH 2).mbx 7 fun x => { x with lock := 1 } }
    (Vec.at s.mbx 7).lock = 1 ∧ (Vec.at s.mbx 7).overrun = false ∧ (Vec.at s.mbx 7).inFull = false ∧ s.hif.spiBusy = false ∧
    0x1000 + 0x800 * 7 ≤ 0x4BFC ∧ 0x4BFC + 4 * [(5 : W32)].length ≤ 0x1400 + 0x800 * 7 ∧ [(5 : W32)] ≠ [] := by decide
/-- PcieAndRuns. -/
theorem test_pcie_premises : up.pwr.hifsel = 0 ∧ up.powered 10 = true ∧ up.hif.pcie.linkUp = true ∧ up.hif.pcie.pba = 0 ∧ up.hif.pcie.owed = 0 ∧
    up.isHost (up.resolve .host) = true ∧ (upH 1).pwr.hifsel ≠ 0 ∧ up.live = true ∧ (({ up with pwr := { up.pwr with domains := 0xFBF } } : State).powered 6 = false) := by
  decide +kernel

/-! ### Power -/

/-- The module in reset, with an image in slot 0 and another key. -/
def held (slot : Slot) (key : List Byte) : State :=
  { State.reset with pwr := { Power.zero with keyHash := key, slots := Vec.put Power.zero.slots 0 slot } }
/-- The module `up` with its power block changed. -/
def upW (f : Power → Power) : State := { up with pwr := f up.pwr }

/-- SupplyAndResets. -/
theorem test_supply_premises : up.pwr.phase ≠ .noPower ∧ up.pwr.efuse = .closed ∧ (upW fun p => { p with phase := .noPower }).pwr.phase = .noPower := by decide
/-- StartUp: a failure, and a slot without an image. -/
theorem test_fault_premises : State.reset.pwr.phase = .inReset ∧ State.reset.slotFault 0 = some 1 ∧ State.reset.pwr.lockstepSeen = false := by decide +kernel
/-- PowerStatesAndVoltage. -/
theorem test_power_premises : let s := upW fun p => { p with domains := 0xEFF, requests := [⟨8, true⟩] }
    let t := upW fun p => { p with requests := [⟨8, false⟩] }
    s.unhealthy = false ∧ s.powered 8 = false ∧ s.pwr.powering = 0 ∧ t.unhealthy = false ∧ t.powered 8 = true ∧ t.pwr.requests = [⟨8, false⟩] := by decide +kernel
theorem test_avs_premises : let a := { Avs.zero with frozen := false, volt := 900 }
    let s := upC fun k => { k with avs := a }
    s.powered 2 = true ∧ (Vec.at s.cl 0).st ≠ .loading ∧ (Vec.at s.cl 0).avs.frozen = false ∧ (Vec.at s.cl 0).avs.volt ≤ 900 := by decide
/-- PowerAndResets: RUN with every domain kept, and HIBERNATE of a module with no personality. -/
theorem test_run_state_premises : up.pwr.phase = .run ∧ up.pwr.requests = [] ∧ up.pwr.powering = 0 ∧ leAt [0, 0, 0xFF, 0x0F] 2 2 < 4096 ∧
    ∀ d : Fin 12, up.powered d.1 = true → (leAt [0, 0, 0xFF, 0x0F] 2 2).testBit d.1 = false → up.keptDomain d.1 = false := by decide +kernel
theorem test_sleep_premises : let s := { up with cl := Vec.fill 4 Cluster.zero }
    wakeOk 1 = true ∧ (∀ c, (Vec.at s.cl c).st = .empty) ∧ s.pair.st = 0 ∧ s.syncOn = false ∧ s.sup.jobs = [] := by decide +kernel
/-- FieldOutputs, FieldSupplyAndInputs. -/
theorem test_fio_premises : logRoom up ∧ compared up 0 ∧ (Vec.at up.fio.do_ 0).faults.getLsbD 1 = false := by
  refine ⟨⟨by decide, by decide⟩, ⟨by decide, by decide, by decide +kernel⟩, by decide⟩
theorem test_di_premises : let x := { Din.zero with sets := Vec.put diDefault 6 3, count := 0xFFFFFFFF }
    (Vec.at x.sets 6).toNat ≤ 3 ∧ (if Vec.at x.sets 5 = 1 then !true else true) ≠ x.level ∧ x.count = 0xFFFFFFFF := by decide

/-- An image of Sundom with an empty body, signed by a key of the test; SHA-256 of that key. -/
def image : List Byte :=
  beBytes 320 0x464A534B01000000000000010100000000000000000000000000000000000000E3B0C44298FC1C149AFBF4C8996FB92427AE41E4649B934CA495991B7852B855F9EBE464147CC102D92324D099D927C1A50E42D57A08A116FFEC0A29819D8C6570BAF7D12888902A6A0C1D67ADD103123C859AB69BF8E9431C9384930D4B7EEE00000000000000000000000000000000000000000000000000000000000000000000000000000000000000000000000000000000000000000000000000000000000000000000000000000000000000000000000000000000000000000000000000000000000000000000000000000000000000000000000000000000000000005CDA8F705838C6638E54A5090717D1C88EBEEB1AD4318DC3ED3F2FB5C167739FC189485D92E52E17044200BBE0085AC48829F5F6FD11A993807E8030E1A807DA
def imageKey : List Byte := beBytes 32 0xB4A554A124A36EF1564C565670DFFEDA3D8AD292C43394A18DC91B0BBCDA8111
/-- A customer image with an empty body, with the customer's key. -/
def custom : List Byte :=
  beBytes 320 0x464A534B03000180050000000000000000000000080000000000000000000000E3B0C44298FC1C149AFBF4C8996FB92427AE41E4649B934CA495991B7852B855F9EBE464147CC102D92324D099D927C1A50E42D57A08A116FFEC0A29819D8C6570BAF7D12888902A6A0C1D67ADD103123C859AB69BF8E9431C9384930D4B7EEEB8FB0F80C76FB54C049D8B24287F8001084CEB546A5686EC931EFD132A3627AEEA00647C13B190FCD1CDDC67516E38784AA3BD55141F368086FF773469BFE16F000000000000000000000000000000000000000000000000000000000000000000000000000000000000000000000000000000000000000000000000000000005CDA8F705838C6638E54A5090717D1C88EBEEB1AD4318DC3ED3F2FB5C167739FB85ECC3BC22E04FA356BCE6C624DFE4EFCAB524C4E6727C511F152E21F14BD10
def customKey : List Byte := beBytes 64 0xF9EBE464147CC102D92324D099D927C1A50E42D57A08A116FFEC0A29819D8C6570BAF7D12888902A6A0C1D67ADD103123C859AB69BF8E9431C9384930D4B7EEE
/-- SHA-256 of "abc" (FIPS 180-4). -/
theorem test_sha256 : sha256 [0x61, 0x62, 0x63] = beBytes 32 0xBA7816BF8F01CFEA414140DE5DAE2223B00361A396177A9CB410FF61F20015AD := by decide +kernel
/-- AES-128 of FIPS 197, appendix B. -/
theorem test_aes : aes (beBytes 16 0x2B7E151628AED2A6ABF7158809CF4F3C) (beBytes 16 0x3243F6A8885A308D313198A2E0370734) =
    beBytes 16 0x3925841D02DC09FBDC118597196A0B32 := by decide +kernel
/-- StartUp: the image passes verification and its slot boots. -/
theorem test_boot_premises : (held ⟨image, [], 3, false⟩ imageKey).slotFault 0 = none := by decide +kernel
/-- Personalities: a customer image passes verification. -/
theorem test_image_premises : (upW fun p => { p with supPubkey := customKey }).imgFault custom 3 0x8001 = none := by decide +kernel

/-! ### Sundom -/

/-- Every command aimed at this module that waits on channel 0 is served; the tests below vary the rest of `up`. -/
theorem test_served (code : Nat) (t : W16) (p : List Byte) (h : tgtPos t = 0) : served (asks code (msg t p)) (msg t p) :=
  ⟨⟨test_turn _ _ _ _, h, 0, ⟨1, 0, 0⟩, rfl, rfl, rfl⟩, rfl, by show up.pair.st ≠ 2; decide, by show up.pair.st ≠ 3; decide⟩
theorem test_named : named [0] (msg 0 []) ∧ named [1] (msg 0x100 []) ∧ named [2] (msg 0x20B []) ∧ named [3] (msg 0x303 []) ∧ named [4] (msg 0x407 []) ∧
    named [10] (msg 0xA00 []) ∧ named [12] (msg 0xC00 []) := by refine ⟨?_, ?_, ?_, ?_, ?_, ?_, ?_⟩ <;> exact ⟨by decide, by decide⟩
/-- The module `up` with a job for a target. -/
def upJ (k : JobKind) (t : W16) : State := { up with sup := { up.sup with jobs := [⟨1, k, 0, 1, 7, 0, t⟩] } }
/-- SundomRules: each of the checks has a command that fails it. -/
theorem test_rules_premises : sundomRow (.getInfo (msg 0 [])) = some (0x102, msg 0 [], fun _ => named [0]) ∧ ¬ named [0] (msg 0x100 []) ∧
    (msg 0 []).gen ≠ 2 ∧ up.pair.members.getLsbD (tgtPos 0x4000).1 = false ∧ tgtPos 0x4000 ≠ up.pwr.mpos ∧
    ((upJ (.resetCluster 0) 0x100).heldBy 0x100).isSome = true ∧ 0x201 ∉ statusCodes := by
  refine ⟨rfl, by unfold named; decide, by decide, by decide, by decide, by decide, by decide⟩
/-- SettingsPayload: one record. -/
theorem test_settings : (msg 0 (settingsForm [⟨0x101, 0, 5⟩])).settings = some [⟨0x101, 0, 5⟩] := by decide +kernel
theorem test_settings_premises : leAt ([1, 0, 0, 0] : List Byte) 0 2 ≠ 0 ∧ ([⟨0x101, 0, 5⟩] : List Setting).length ≤ 83 := by decide
/-- SundomReads: LOG_READ of 30 entries of every class; a Drumline role; the counters settings. -/
theorem test_reads_premises : (let p : List Byte := [0xF, 30, 0, 0, 1, 0, 0, 0]
    8 ≤ p.length ∧ 1 ≤ leAt p 1 1 ∧ leAt p 1 1 ≤ 30 ∧ leAt p 2 2 = 0) ∧ leAt ([0, 0, 0, 0] : List Byte) 1 1 = 0 ∧ leAt ([0, 0, 0, 0] : List Byte) 3 1 = 0 ∧
    (Vec.at up.cl 0).role = some .controller ∧ (Vec.at up.cl 0).st = .started ∧
    (let p : List Byte := leBytes 4 1000 ++ leBytes 4 0xFFFFFFFF ++ leBytes 8 0
     16 ≤ p.length ∧ leAt p 0 4 = 1000 ∧ leAt p 4 4 = 0xFFFFFFFF ∧ leAt p 0xC 4 ≤ 1) := by decide +kernel
/-- ResponsesAndJobs. -/
theorem test_response_premises : up.sup.traceEn = false ∧ (Vec.at up.mbx 0).outFull = false ∧ (Vec.at up.mbx 0).outq = [] ∧ up.sup.notify.toNat < 2 ∧
    up.sup.ring.length < 800 ∧ (0#16).getLsbD 3 = false := by decide
/-- A resource list that asks for the image 1 and nothing else: LOAD of Personalities. -/
def bare : List Byte := [1, 0] ++ List.replicate 142 0
def upL : State := { up with
  cl := Vec.fill 4 Cluster.zero
  pwr := { up.pwr with slots := Vec.fill 2 { Slot.blank with images := [[0x46, 0x4A, 0x53, 0x4B, 2, 0, 1, 0, 5, 0, 0, 0]] } } }
theorem test_load_shape : bare.length = 0x90 + 4 * leAt bare 0xF 1 ∧ 1 ≤ leAt bare 0 2 ∧ loadShape bare = true := by decide +kernel
theorem test_load_windows : upL.windowsClash 0 (windowsAt bare 0x50) = false := by decide +kernel
theorem test_load_units : upL.missing 0 bare = none := by decide +kernel
theorem test_load_empty : (Vec.at upL.cl 0).st = .empty ∧ jobRoom upL (msg 0x100 bare)  := ⟨by decide, by decide, by decide⟩
theorem test_load_catalogue : inCatalogue upL 1 0 := ⟨[0x46, 0x4A, 0x53, 0x4B, 2, 0, 1, 0, 5, 0, 0, 0], by decide, by decide, .inl rfl⟩
theorem test_load_end_premises : let s := upJ (.load 0 true (List.replicate 144 0)) 0x100
    (s.clusterJob 0).isSome = true ∧ ((upJ (.resetCluster 0) 0x100).clusterJob 0).isSome = true := by decide +kernel
theorem test_start_premises : let s := upC fun k => { k with st := .stopped, id := 0x30 }
    (Vec.at s.cl 0).st = .stopped ∧ (Vec.at s.cl 0).role = none ∧ s.inPair 0 = false := by decide +kernel
theorem test_custom_premises : let p : List Byte := leBytes 4 0 ++ leBytes 4 320 ++ leBytes 2 0x8001 ++ List.replicate 142 0
    let q := p.drop 8
    let s := { up with cl := Vec.fill 4 Cluster.zero, port := Vec.fill 12 Port.held, can := Vec.fill 4 Can.held, pio := Vec.fill 8 Pio.held }
    0x98 ≤ p.length ∧ q.length = 0x90 + 4 * leAt q 0xF 1 ∧ 0x8000 ≤ leAt q 0 2 ∧ loadShape q = true ∧ s.missing 0 q = none ∧
    s.windowsClash 0 (windowsAt q 0x50) = false ∧ leAt p 0 4 % 64 = 0 ∧ s.memBad .shm (leAt p 0 4) (min (leAt p 4 4) 320) = false ∧
    imgBodyLen (s.peek .shm (leAt p 0 4) (min (leAt p 4 4) 320)) ≤ 0x40000 := by decide +kernel
/-- PortCommands. -/
theorem test_port_premises : let s := up
    s.cableJob 0 = none ∧ (Vec.at s.port 0).st ≠ 0 ∧ portSettingOk 0 ⟨0x101, 0, 1⟩ = true ∧
    ((upJ (.cableTest 0) 0x200).cableJob 0).isSome = true := by decide +kernel
theorem test_gate_premises : let p : List Byte := [0, 0, 1, 0, 1, 0, 0, 0, 0x20, 0xBC, 0xBE, 0xFF]
    leAt p 0 2 = 0 ∧ leAt p 2 2 = 1 ∧ p.length = 8 + 4 * 1 ∧ leAt p 4 2 = 1 ∧ leAt p 6 2 = 0 := by decide
theorem test_gate_entry : leAt ([0, 0, 1, 0, 1, 0, 0, 0, 0x20, 0xBC, 0xBE, 0xFF] : List Byte) 8 4 = 0xFFBEBC20 := by decide
theorem test_gate_length : 8 ≤ (0xFFBEBC20#32).toNat % 2 ^ 24 ∧ (0xFFBEBC20#32).toNat % 2 ^ 24 ≤ 12500000 := by decide
theorem test_image_define_premises : let P : List Byte := leBytes 4 64 ++ leBytes 4 16 ++ leBytes 4 0 ++ leBytes 4 40 ++ leBytes 4 0
    let k := { cl0 with st := .stopped }
    0x14 ≤ P.length ∧ leAt P 0 4 % 64 = 0 ∧ 16 ≤ leAt P 4 4 ∧ 40 ≤ leAt P 0xC 4 ∧ leAt P 0xC 4 + 40 ≤ k.ct ∧ leAt P 0x12 2 ≤ 1 ∧
    (Vec.at k.windows 0).base ≤ 64 ∧ 64 + (64 + 3 * 64) ≤ (Vec.at k.windows 0).base + (Vec.at k.windows 0).len ∧
    ({ up with cl := Vec.upd (Vec.fill 4 Cluster.zero) 0 fun _ => k } : State).overObjects 0 64 (64 + 3 * 64) = false := by decide +kernel
theorem test_commit_premises : let s := upC fun k => { k with pi := { PiUnit.zero with defined := true } }
    (Vec.at s.cl 0).st = .started ∧ (Vec.at s.cl 0).pi.defined = true ∧ (Vec.at s.cl 0).ct ≠ 0 ∧
    (Vec.at s.cl 0).phase * 125 ≤ s.ns.toNat + 2 * ((Vec.at s.cl 0).ct * 125) := by decide +kernel
/-- NetworkCommands. -/
theorem test_time_premises : timeOkSetting ⟨0x101, 0, 1⟩ = true ∧ 0x28 ≤ (leBytes 40 1).length ∧
    (let p : List Byte := [1, 1, 0, 0, 0, 0, 0, 0] ++ leBytes 8 100 ++ leBytes 8 10 ++ leBytes 8 99 ++ leBytes 8 0
     leAt p 4 4 = 0 ∧ leAt p 8 8 ≤ 10000000000 ∧ leAt p 0 1 = (0 : Fin 2).1 + 1 ∧ leAt p 1 1 = 1 ∧ 100 ≤ leAt p 8 8 ∧ 10 ≤ leAt p 0x10 8 ∧ leAt p 0x10 8 + 10 ≤ leAt p 8 8 ∧ leAt p 0x18 8 < leAt p 8 8) := by decide +kernel
theorem test_jump_premises : let s := { up with tim := { up.tim with st := 5, offset := 0xFFFFFFFFFFFFFF00 } }
    s.tim.st = 5 ∧ s.tim.offset.toInt < 0 := by decide
theorem test_dl_premises : let s := upC fun k => { k with st := .stopped }
    let d : Dl := { (Vec.at s.cl 0).dl with sets := Vec.put dlDefault 2 1 }
    (Vec.at s.cl 0).role = some .controller ∧ dlSettingOk ⟨0x103, 0, 1⟩ = true ∧ s.switchJob 0 = none ∧ (Vec.at s.cl 0).dl.proposal = none ∧ d.sane = true := by decide +kernel
/-- A route of no datagram. -/
def route : Route := ⟨1, 0, [], Vec.fill 4 0, 0, Vec.fill 8 ⟨true, 200, Vec.fill 4 100, Vec.fill 4 2000⟩, Vec.fill 4 0⟩
theorem test_route_premises : let p : List Byte := [1, 0, 1, 0] ++ List.replicate 144 0
    let k := Vec.at (upC fun k => { k with id := 2, st := .stopped }).cl 0
    k.role = some .device ∧ k.st = .stopped ∧ k.dl.proposal = none ∧ up.switchJob 0 = none ∧ k.dl.topo ≠ 1 ∧ 4 ≤ p.length ∧ leAt p 0 1 = 1 ∧ leAt p 1 1 = 0 ∧
    leAt p 2 1 = 1 ∧ leAt p 3 1 = 0 := by decide +kernel
theorem test_route_part : (routePart .device ([1, 0, 1, 0] ++ List.replicate 144 0) up.newRoute).all (fun x => x.ok .device cl0.dl 1000000) = true ∧
    (routePart .device ([1, 0, 1, 0] ++ List.replicate 144 0) up.newRoute).isSome = true := by decide +kernel
theorem test_switch_premises : let s := upC fun k => { k with dl := { k.dl with st := 3, routes := Vec.put k.dl.routes 1 (some route) } }
    (Vec.at s.cl 0).dl.st = 3 ∧ (Vec.at (Vec.at s.cl 0).dl.routes 1).isSome = true ∧ (Vec.at s.cl 0).dl.active ≠ 1 ∧
    ((upJ (.routeSwitch 0) 0x100).switchJob 0).isSome = true := by decide +kernel
theorem test_tollgate_command_premises : (Vec.at (upC fun k => { k with id := 3, st := .stopped }).cl 0).role = some .hub ∧ tollgateOk ⟨0x102, 0, 3⟩ = true := by decide +kernel
theorem test_pair_command_premises : up.pairJob = none ∧ up.pair.st = 0 ∧ pairSettingOk ⟨0x101, 0, 1⟩ = true ∧
    up.budgetOk (Pair.put up.pair ⟨0x101, 0, 1⟩) (row (Pair.put up.pair ⟨0x101, 0, 1⟩).sets 2) = true ∧
    ((upJ .pairSwitch 0).pairJob).isSome = true := by decide +kernel
/-- UnitCommands. -/
theorem test_can_command_premises : let s := { up with can := Vec.fill 4 { Can.held with st := 1, owner := some 0 } }
    (Vec.at s.can 0).st = 1 ∧ canSettingOk ⟨0x101, 0, 1⟩ = true ∧ canSetsOk (Vec.put canDefault 0 1) = true ∧ s.started 0 = true := by decide +kernel
theorem test_pio_command_premises : pclkOk 0x00010001 = true ∧ pfmtOk 0x20000000 = true ∧ ppinsOk 0 = true ∧ pdeOk 0 = true ∧ pevtOk 0x100 = true ∧
    up.linkOk 0 0x20000000 = true := by decide +kernel
theorem test_fio_command_premises : up.powered 11 = true ∧ up.fio.uvlo = false ∧ up.fio.hot = false ∧ (Vec.at up.fio.do_ 0).owner = none ∧
    doSettingOk ⟨0x101, 0, 1⟩ = true ∧ diSettingOk ⟨0x104, 7, 1000⟩ = true := by decide +kernel
/-- Eight inputs: four continuous, four pulsed at this period in µs. -/
def heated (sp : W64) : Fio := { Fio.zero with di := Vector.ofFn fun d => { Din.zero with sets := if d.1 < 4 then diDefault else Vec.put (Vec.put diDefault 2 1) 3 sp } }
/-- The example of R399: at 60 µs the budget of the FK-960-X is met exactly. -/
theorem test_heat : (heated 60).heatOk = true := by
  have h : (allFin 8).foldl (fun a d => a + (Vec.at (heated 60).di d).heat) 0 = 420 := by decide +kernel
  unfold Fio.heatOk; rw [h]; cases Config.variantX <;> decide +kernel
/-- And at 50 µs it is exceeded. -/
theorem test_heat_exceeded (h : Config.variantX = true) : (heated 50).heatOk = false := by
  have g : (allFin 8).foldl (fun a d => a + (Vec.at (heated 50).di d).heat) 0 = 432 := by decide +kernel
  unfold Fio.heatOk; rw [g, h]; decide +kernel
/-- Diagnostics. -/
theorem test_diag_premises : up.testJob 0 = none ∧ up.scopeSelects 0 1 = true ∧ up.attestJob = none ∧ ((upJ (.attest (List.replicate 16 0)) 0).attestJob).isSome = true ∧
    up.sup.area = 0xFFFFFFFF ∧ up.pair.clearWarn = 0 ∧ up.powered 2 = true ∧ (Vec.at up.cl 0).borrow.active = false := by decide +kernel

/-! ### Ports and frames -/

/-- PortLines: a port in TRAINING with a link found without PAUSE; one in UP that loses it; a margin below the warning; LPI. -/
def link : LinkRes := ⟨3, true, true, false, false, Vec.fill 4 20, Vec.fill 4 0, Vec.fill 4 [], Vec.fill 4 0, 10, 0, 0⟩
theorem test_line_premises : (Vec.at (upP 0 fun x => { x with st := 2 }).port 0).st = 2 ∧ Vec.at (Vec.at up.port 0).t2 8 ≠ 1 ∧
    link.pause = false ∧ (Vec.at up.port 0).st = 3 ∧ (Vec.at up.port 0).tx = none ∧ (Vec.at up.port 0).preempted = none ∧ Vec.at (Vec.at up.port 10).t1 17 = 0 ∧
    (-5 : W16).toInt < (Vec.at (Vec.at up.port 0).t1 8).toNat ∧ logRoom up :=
  ⟨by decide, by decide, by decide, by decide, by decide, by decide, by decide, by decide, by decide, by decide⟩
theorem test_lpi_premises : let x := Vec.at (upP 0 fun x => { x with eeeOn := true }).port 0
    lpiAble x 0 ∧ x.lpiTx = false ∧ x.ways.store = [] ∧ x.copies = [] ∧ (∀ c : Fin 8, (Vec.at up.hq (finOf 256 (8 * 0 + c.1))).items = []) ∧
    (upP 0 fun x => { x with eeeOn := true }).lpiGap 0 = true := ⟨.inl ⟨by decide, by decide⟩, by decide, by decide, by decide, by decide, by decide +kernel⟩
/-- PlcaRules: a coordinator at the end of its cycle and one within it; a follower; one that lost the beacon. -/
theorem test_plca_premises : let x := Vec.at (upP 8 fun x => { x with t1 := Vec.put x.t1 12 0, turn := 255 }).port 8
    let y := Vec.at (upP 8 fun x => { x with t1 := Vec.put x.t1 12 0 }).port 8
    let z := Vec.at (upP 8 fun x => { x with st := 2, reason := 7 }).port 8
    x.st = 3 ∧ (Vec.at x.t1 12).toNat = 0 ∧ (Vec.at x.t1 13).toNat ≤ x.turn ∧ x.tx = none ∧ ¬ (Vec.at y.t1 13).toNat ≤ y.turn ∧
    (Vec.at up.port 8).st = 3 ∧ (Vec.at (Vec.at up.port 8).t1 12).toNat = 255 ∧ (Vec.at up.port 8).preempted = none ∧ z.st = 2 ∧ z.reason = 7 := by decide
/-- A frame in a buffer of the scratchpad, to the port's own station; a frame on the line. -/
def txDesc : Desc := ⟨0x10000000, 0xC1000040, 0, 0⟩
def run (n : Nat) : TxRun := ⟨0, [], [], List.replicate n 0, 0, 0, false, 0, false, true, 0, 0, 0, false⟩
theorem test_collision_premises : let x := Vec.at (upP 8 fun x => { x with tx := some (run 60), attempts := 15 }).port 8
    x.st = 3 ∧ x.tx = some (run 60) ∧ x.retry = false ∧ 16 ≤ x.attempts + 1 ∧ (run 60).descs.all (fun d => !d.ret) = true ∧
    Vec.atD x.ctr.live 8 0 = 0 ∧ Vec.atD x.ctr.ival 8 0 = 0 := by decide
/-- FrameReception: a broadcast frame of 60 octets; its queue 96 with the buffer queue 200; a duplicate of a PRP pair. -/
def rx : RxFrame := ⟨List.replicate 6 0xFF ++ [2, 0, 0, 0, 0, 1, 0x08, 0x06] ++ List.replicate 46 0, .good, 0, .whole, 5, 1, 0⟩
def upF : State := { upC fun k => { k with id := 0x30 } with
  hq := Vec.put (Vec.put up.hq 96 { HwQ.empty 128 with fbq := some 200 }) 200 { HwQ.empty 16 with items := [txDesc] } }
theorem test_reception_premises : let x := Vec.at upF.port 0
    x.st = 3 ∧ x.owner = some 0 ∧ x.reasm = none ∧ rx.asm = .whole ∧ 60 ≤ rx.bytes.length ∧ rx.fcs = .good ∧ rx.symErrs = 0 ∧ rx.bytes.length + 4 ≤ (Vec.at x.t2 0).toNat ∧
    beAt rx.bytes 12 2 ≠ 0x8808 ∧ (Vec.at upF.cl 0).role = none ∧ beAt rx.bytes 0 6 = 2 ^ 48 - 1 ∧ Vec.at x.t2 6 ≠ 1 ∧ Vec.at x.t2 11 = 0 ∧
    (rxChecks rx.bytes).1 ≠ 2 ∧ (rxChecks rx.bytes).2 ≠ 3 := by decide +kernel
/-- The port is no branch of a hub; no queue, or one, is in the error of R196; a runt and a frame with a bad FCS that RX_KEEP_BAD 1 keeps. -/
theorem test_sound_queues : soundQueues upF ∧ offBranch upF 0 0 := by
  refine ⟨?_, ?_⟩
  · unfold soundQueues; decide +kernel
  · intro h; exact absurd h (by decide)
theorem test_bad_queue_premises : let s := { upF with hq := Vec.upd upF.hq 200 fun q => { q with bad := true } }
    (Vec.at s.hq 200).bad = true ∧ (∀ g : Fin 256, g ≠ 200 → (Vec.at s.hq g).bad = false) ∧ s.pair.st = 0 ∧ (Vec.at s.hq 200).items = [txDesc] ∧
    rx.bytes.length ≤ txDesc.size := by decide +kernel
theorem test_keep_premises : let x := Vec.at (upP 0 fun x => { x with t2 := Vec.put x.t2 2 1, pcpMap := 0 }).port 0
    x.st = 3 ∧ Vec.at x.t2 2 = 1 ∧ Vec.at x.t2 3 ≠ 1 ∧ x.pcpMap = 0 ∧ (∀ i, (Vec.at x.etypes i).getLsbD 24 = false) ∧
    (rx.bytes.take 30).length + 4 < 64 ∧ 64 ≤ rx.bytes.length + 4 ∧ ({ rx with fcs := .bad } : RxFrame).fcs ≠ .good ∧ inSpad txDesc := by
  unfold inSpad; decide +kernel
/-- A frame in reassembly with its fragment; a PAUSE; a runt, a bad FCS, an invalid symbol, an oversize frame with RX_KEEP_BAD 0. -/
def pauseIn : RxFrame := { rx with bytes := List.replicate 12 0 ++ [0x88, 0x08, 0, 1, 0, 9] ++ List.replicate 42 0 }
theorem test_fragment_premises : let x := Vec.at (upP 0 fun x => { x with reasm := some ⟨[1], 2, 1, 0, 0, 0⟩, pauseRx := true }).port 0
    let f : RxFrame := { rx with asm := .more 2 1 .fcs }
    (x.reasm = some ⟨[1], 2, 1, 0, 0, 0⟩ ∧ f.asm = .more 2 1 .fcs ∧ f.symErrs = 0) ∧ x.pauseRx = true ∧ beAt pauseIn.bytes 12 2 = 0x8808 ∧
    beAt pauseIn.bytes 14 2 = 1 ∧ beAt pauseIn.bytes 16 2 ≠ 0 ∧ x.ways.store = [] ∧ x.copies = [] ∧ Vec.at x.t2 2 ≠ 1 ∧
    (Vec.at x.t2 0).toNat < 2000 ∧ x.xoff = false := by decide +kernel
theorem test_delivery_premises : let x := Vec.at upF.port 0
    (∀ i, ¬ ((Vec.at x.etypes i).getLsbD 24 = true ∧ fld (Vec.at x.etypes i) 0 16 = 0x0806)) ∧ fld x.pcpMap 0 2 = (0 : Fin 4).1 ∧
    (Vec.at upF.hq (finOf 256 96)).fbq = some 200 ∧ (200 : Fin 256) ≠ finOf 256 96 ∧ (Vec.at upF.hq 200).items ≠ [] ∧
    (Vec.at upF.cl 0).borrow.active = false ∧ (Vec.at upF.cl 0).badWords = [] ∧
    (∀ y ∈ filled (Vec.at upF.hq 200).items rx.bytes, 0x10000000 ≤ y.1.w0.toNat ∧ y.1.w0.toNat + y.1.size ≤ 0x10080000) ∧
    (Vec.at upF.hq (finOf 256 96)).items.length + (filled (Vec.at upF.hq 200).items rx.bytes).length ≤ 128 := by decide +kernel
def prpFrame : RxFrame := { rx with bytes := List.replicate 12 0 ++ [0x88, 0xF7] ++ List.replicate 44 0 ++ [0, 9, 0xA0, 50, 0x88, 0xFB] }
theorem test_prp_premises : prpFrame.bytes.length = 64 ∧ beAt prpFrame.bytes 62 2 = 0x88FB ∧ beAt prpFrame.bytes 60 2 % 4096 = 64 - 14 ∧
    beAt prpFrame.bytes 60 2 / 4096 = 0xA ∧ beAt prpFrame.bytes 12 2 = 0x88F7 ∧
    (let s := { up with prp := Vec.fill 2 ⟨0, [⟨0, 9, true⟩]⟩ }
     ∃ y ∈ (Vec.at s.prp 0).entries, y.src = BitVec.ofNat 48 (beAt prpFrame.bytes 6 6) ∧ y.seq = BitVec.ofNat 16 (beAt prpFrame.bytes 58 2) ∧ y.lanB = true) ∧
    (let x := Vec.at (upP 0 fun x => { x with t2 := Vec.put (Vec.put x.t2 11 1) 1 1 }).port 0
     Vec.at x.t2 11 = 1 ∧ Vec.at x.t2 1 = 1 ∧ Vec.at x.t2 6 = 0 ∧ 64 + 4 ≤ (Vec.at x.t2 0).toNat ∧ (∀ i, (Vec.at x.etypes i).getLsbD 24 = false) ∧
     64 ≤ txDesc.size + 6) := by decide +kernel
/-- FrameTransmit: a frame of 64 octets in class 7 of port 0. -/
def upT : State := { upC fun k => { k with id := 0x30 } with hq := Vec.put up.hq 7 { HwQ.empty 64 with items := [txDesc] }, port := Vec.put up.port 0 { Vec.at up.port 0 with speed := 3, t3 := Vec.fill 4 0 } }
theorem test_free_premises : lineFree (Vec.at upT.port 0) 0 ∧ oneFrame upT 0 7 txDesc :=
  ⟨⟨by decide, by decide, by decide, by decide, by decide, by decide, .inl (by decide)⟩, ⟨by decide +kernel, by decide, by decide, by decide, by decide +kernel⟩⟩
theorem test_send_premises : let s := upT
    let x := Vec.at s.port 0
    (∀ e, e < 8 → x.gate.gates.getLsbD e = true) ∧ (Vec.at s.cl 0).borrow.active = false ∧ (Vec.at s.cl 0).badWords = [] ∧ txDesc.w3.getLsbD 30 = false ∧
    fld txDesc.w3 28 2 = 0 ∧ x.gate.active = [] ∧ x.ways.windows = [] ∧ s.inPair 0 = false ∧
    (Vec.at s.cl 0).sinceBeat (s.stampNs 0).toNat + frameNs x.speed (max 60 (txDesc.len + 4) + 4) ≤ (Vec.at s.cl 0).period ∧
    txDesc.len ≤ txDesc.size ∧ txDesc.dup = false ∧ txDesc.nofcs = false ∧ Vec.at x.t3 0 ≠ 1 ∧ Vec.at x.t3 1 ≠ 1 ∧
    0x10000000 ≤ txDesc.w0.toNat ∧ txDesc.w0.toNat + txDesc.size ≤ 0x10080000 := by decide +kernel
/-- A hold of a preemptable frame by the gates; verification; a head that waited for its launch time. -/
theorem test_hold_premises : let x := Vec.at (upP 0 fun x => { x with
      mm := 2, tx := some (run 400), gate := { x.gate with active := [0x01000100] }, pre := #v[1, 0xFE, 0, 0, 0] }).port 0
    x.gate.active = [0x01000100] ∧ x.tx = some (run 400) ∧ x.mm = 2 ∧ (run 400).pre = true ∧ idleLine x ∧
    (∀ k : Fin 8, (Vec.at x.pre 1).toNat.testBit k.1 = true → (0x01000100#32).getLsbD (24 + k.1) = false) ∧
    (run 400).since = BitVec.ofNat 64 (up.tim.t / 2 ^ 23) ∧ 64 * (Vec.at x.pre 2).toNat + 123 < (run 400).total ∧
    (run 400).sent + (64 * (1 + (Vec.at x.pre 2).toNat) - 4) + 64 ≤ (run 400).total :=
  ⟨rfl, rfl, rfl, rfl, ⟨by decide, by decide⟩, by decide, by decide, by decide +kernel, by decide +kernel⟩
/-- No window of a drum frame lies on the port; a preempted frame that goes on while a pause stands. -/
theorem test_no_window : ∀ a b, upT.inWindow 0 0 a b = false := by
  intro a b
  have h : (Vec.at upT.port 0).ways.windows = [] ∧ (Vec.at upT.port 0).ways.merges = [] ∧ (upT.drumAt 0).isSome = false := by decide +kernel
  simp [State.inWindow, h.1, h.2.1, h.2.2]
theorem test_paused_premises : let x := Vec.at (upP 0 fun x => { x with pauseLeft := 5, preempted := some (run 400) }).port 0
    x.owner = some 0 ∧ x.st = 3 ∧ x.pauseLeft ≠ 0 ∧ x.tx = none ∧ x.preempted = some (run 400) ∧ (run 400).held = false :=
  ⟨rfl, rfl, by decide, rfl, rfl, rfl⟩
theorem test_verify_premises : let x := Vec.at (upP 0 fun x => { x with mm := 1, mmTries := 3, headAt := Vec.fill 8 5000 }).port 0
    x.st = 3 ∧ x.mm = 1 ∧ 3 ≤ x.mmTries ∧ timeDiff 0 (Vec.at x.headAt 0) < -1000 := by decide
theorem test_resend_premises : let x := Vec.at (upP 0 fun x => { x with retry := true, tx := some { run 60 with pre := false, descs := [txDesc] }, t3 := Vec.fill 4 0 }).port 0
    x.retry = true ∧ x.tx = some { run 60 with pre := false, descs := [txDesc] } ∧ lineFree { x with retry := false, tx := none } 0 ∧
    ({ run 60 with pre := false, descs := [txDesc] } : TxRun).nofcs = false ∧ Vec.at x.t3 0 ≠ 1 ∧ Vec.at x.t3 1 ≠ 1 :=
  ⟨by decide, by decide, ⟨by decide, by decide, by decide, by decide, by decide, by decide, .inl (by decide)⟩, by decide, by decide, by decide⟩

/-! ### Drumline and Tollgate -/

/-- A device in the ring on ports 0 and 1, with one take of 4 octets from address 0 into the scratchpad at 256. -/
def upD (id : W16) : State := upC fun k => { k with
  id := id
  dl := { k.dl with st := 3, sets := Vec.put (Vec.put k.dl.sets 3 0x0000000100000000) 19 1, maps := [(4, 4), (9, 1)] } }
/-- A DRUM frame of one WRITE of 4 octets to address 0, cycle 0, SEQ 1. -/
def drum : DrumIn :=
  let h : List Byte := [0, 0, 0, 0, 0x20, 4, 0, 1, 0, 0, 0x80]
  ⟨List.replicate 14 0 ++ [0x11, 0, 0, 0, 0, 1, 0, 0] ++ h ++ [crc8 h] ++ [1, 2, 3, 4, 0, 0] ++ List.replicate 20 0, .good, 0, 0, [], 0⟩
def datagram : DgHead := ⟨22, 0, 2, false, 4, 1, 0, true⟩
theorem test_drum_port : drumPort (upD 2) 0 0 false ∧ drumPort (upD 1) 0 1 true := by refine ⟨⟨?_, ?_, ?_⟩, ⟨?_, ?_, ?_⟩⟩ <;> decide +kernel
theorem test_drum_premises : let s := upD 2
    let l := (Vec.at s.cl 0).dl
    l.activeEntries = [⟨0, 0, 4, false, 256⟩] ∧ (Machine.octet drum.bytes 15).toNat / 32 = l.active.1 ∧ l.newest = none ∧
    ((Vec.at s.cl 0).cycle.setWidth 16 - BitVec.ofNat 16 (beAt drum.bytes 16 2)).toInt = 0 ∧
    datagram.data + datagram.len + 2 ≤ drum.bytes.length ∧ 0 + 16 ≤ 256 := by decide +kernel
theorem test_datagram : oneDatagram drum datagram :=
  by unfold oneDatagram; and_intros <;> decide +kernel
theorem test_pass_premises : let s := upD 2
    let l := (Vec.at s.cl 0).dl
    (Vec.at s.cl 0).st = .started ∧ l.st = 3 ∧ s.inPair 0 = false ∧ (Vec.at s.cl 0).borrow.active = false ∧ (Vec.at s.cl 0).badWords = [] ∧
    l.proposal = none ∧ l.silent = false ∧ l.guardIn = 0 ∧ (1 : Fin 12).1 = l.portB ∧ (Vec.at s.port 1).st = 3 ∧ clearLine (Vec.at s.port 1) ∧
    (Vec.at s.port 1).ways.stored + drum.bytes.length + 4 ≤ 2048 ∧ (Vec.at s.port 1).mm ≠ 2 := by
  unfold clearLine
  and_intros <;> decide +kernel
theorem test_return_premises : (Vec.at (upD 1).cl 0).dl.entries = [⟨0, 0, 4, false, 256⟩] ∧ (Vec.at (upD 1).cl 0).dl.split = false ∧
    (Machine.octet drum.bytes 15).getLsbD 3 = false := by decide +kernel
/-- DrumElection: LISTEN and CLAIM of a controller, the watchdog of a device. -/
theorem test_election_premises : let k := Vec.at (upC fun k => { k with dl := { k.dl with st := 2, claims := 5 } }).cl 0
    k.st = .started ∧ k.id = 1 ∧ up.inPair 0 = false ∧ k.dl.st = 2 ∧ k.dl.claims = 5 ∧ (Vec.at up.cl 0).dl.st = 1 ∧ Vec.at (Vec.at up.cl 0).dl.sets 5 ≠ 255 := by decide +kernel
theorem test_dl_watchdog_premises : let k := Vec.at (upC fun k => { k with id := 2, dl := { k.dl with st := 3, missed := 3 } }).cl 0
    k.id = 2 ∧ k.dl.st = 3 ∧ (Vec.at k.dl.sets 11).toNat ≤ k.dl.missed := by decide
theorem test_claim_premises : let bs : List Byte := List.replicate 14 0 ++ [0x12, 0, 0, 0, 0, 0, 0, 0, 10, 5, 0, 0] ++ List.replicate 8 0 ++ beBytes 4 8000 ++ beBytes 4 0 ++ List.replicate 18 0
    Machine.octet bs 14 = 0x12 ∧ 60 ≤ bs.length ∧ bs.length ≤ 1514 ∧ Machine.octet bs 20 ≠ 255 ∧ beAt bs 34 4 = (Vec.at dlDefault 6).toNat ∧ beAt bs 38 4 = (Vec.at dlDefault 7).toNat ∧
    (Machine.octet bs 22).toNat < (Vec.at dlDefault 5).toNat := by decide +kernel
/-- TollgateBranches: a branch of a hub on port 4, uplinks 0 and 1, in NORMAL, and one whose isolation is over. -/
def upB (f : Branch → Branch) : State := upC fun k => { k with
  id := 3
  dl := { k.dl with
    st := 3, sets := Vec.put k.dl.sets 3 0x0000000100000000, branchPorts := Vec.put k.dl.branchPorts 0 4
    branches := Vec.fill 8 (f { Branch.zero with st := 1 }), routes := Vec.put k.dl.routes 0 (some route)
    sentFrames := Vec.fill 4 (some drum.bytes) } }
theorem test_branch_at : branchAt (upB id) 0 0 4 := by unfold branchAt; and_intros <;> decide +kernel
theorem test_tollgate_premises : let d := (Vec.at (upB id).cl 0).dl
    (Vec.at d.routes d.active) = some route ∧ (Vec.at route.branches 0).inRoute = true ∧ (Vec.at d.branches 0).st = 1 ∧
    (Vec.at d.branches 0).viol + 1 < (Vec.at d.tgSets 0).toNat ∧ Vec.at (Vec.at d.branches 0).admitted 0 = false ∧
    ((Vec.at (Vec.at route.branches 0).opens 0).toNat : Int) - 200 < 0 ∧ dfDatagrams drum.bytes = ([datagram], false) ∧ d.portA ≠ d.portB ∧
    Vec.at d.sentFrames 0 = some drum.bytes ∧ (Vec.at (Vec.at route.branches 0).closes 0).toNat ≠ 0 ∧ (Vec.at (upB id).port 4).st = 3 ∧ d.st = 3 := by
  decide +kernel
theorem test_merge_premises : (upB id).cl.toList.head?.map (fun k => (k.st, k.dl.st, k.dl.silent)) = some (.started, 3, false) ∧
    clearLine (Vec.at (upB id).port 0) ∧ clearLine (Vec.at (upB id).port 1) := by
  unfold clearLine
  and_intros <;> decide +kernel
theorem test_isolation_premises : let x := Vec.at (Vec.at (upB fun b => { b with st := 2, isorun := 4 }).cl 0).dl.branches 0
    x.st = 2 ∧ x.left = 0 ∧ (Vec.at tgDefault 3).toNat ≤ x.isorun := by decide

/-! ### Aklos and pairing -/

/-- The module `up` as one of a pair, its links UP and verified. -/
def upA (st : Fin 6) (f : Pair → Pair) : State := { up with pair := f { up.pair with
  st := st, sets := Vec.put up.pair.sets 1 1, links := Vec.fill 2 { AkLink.zero with st := 2, identOk := true }
  stateLen := Vec.fill 4 1, buildLen := Vec.fill 4 64, relayBase := Vec.fill 4 0x1000 } }
/-- AklosLinks. -/
theorem test_link_premises : up.pwr.domains.getLsbD 9 = true ∧ (Vec.at up.pair.links 0).st = 0 ∧ (Vec.at (upA 3 id).pair.links 0).st = 2 ∧
    (upA 1 id).peerOk = true ∧ (Vec.at (upA 1 id).pair.links 0).identOk = true ∧ (upA 1 id).pair.configMismatch = false ∧ (upA 1 id).selft.shmBorrow.active = false ∧ (upA 5 fun p => { p with orphanMs := 1 }).pair.orphanMs < 2 := by decide +kernel
theorem test_trained_premises : (Vec.at ({ up with pair := { up.pair with st := 2, links := Vec.fill 2 { AkLink.zero with st := 1 } } } : State).pair.links 0).st = 1 := by decide
/-- PairedOperation: the standby's side, the active's side, the quick check. -/
theorem test_standby_premises : let s := upA 3 id
    s.inPair 0 = true ∧ (Vec.at s.cl 0).pair.own = false ∧ s.pair.st ≠ 2 ∧ s.pair.st ≠ 5 ∧ (Vec.at s.cl 0).pair.takenFor = none ∧
    (0 : Nat) < (Vec.at s.pair.stateLen 0).toNat ∧ (Vec.at s.cl 0).pair.copyCycle = 0 ∧ (Vec.at s.cl 0).pair.ckptValid = false := by decide +kernel
theorem test_take_premises : let s := { upA 3 id with cl := Vec.fill 4 { cl0 with pair := { PairCl.zero with relay := Vec.fill 2 (some 1), missed := 1 } } }
    Vec.atD (Vec.at s.cl 0).pair.relay 1 none = some ((Vec.at s.cl 0).cycle + 1) ∧ (1 ≤ (Vec.at s.cl 0).pair.missed ∧ s.pair.peerLost = false) := by decide
theorem test_report_premises : let s := { upA 2 id with cl := Vec.fill 4 { cl0 with cycle := 5, pair := { PairCl.zero with lastFlags := 1 } } }
    let r : Report := ⟨0, 4, 0, 9, 1⟩
    s.inPair 0 = true ∧ (Vec.at s.cl 0).pair.reportSeen = false ∧ (∀ d, (Vec.at s.fio.do_ d).rbDue = none) ∧
    r.cycle = ((Vec.at s.cl 0).cycle - 1).setWidth 16 ∧ (Vec.at s.cl 0).pair.lastFlags.getLsbD 0 = true ∧ r.flags.getLsbD 0 = true ∧
    r.digest ≠ (Vec.at s.cl 0).pair.last.digest ∧ r.flags.getLsbD 1 = false := by decide +kernel
/-- A readback mismatch that waits for the reports; a COPY block of a copy under way, and one that the partner wants again. -/
theorem test_rb_due_premises : let s := { upA 2 id with fio := { up.fio with do_ := Vec.upd up.fio.do_ 3 fun x => { x with rbDue := some true, owner := some 0 } } }
    (Vec.at s.fio.do_ 3).rbDue = some true ∧ (∀ j, j ≠ 3 → (Vec.at s.fio.do_ j).rbDue = none) ∧ (Vec.at s.fio.do_ 3).owner = some 0 ∧
    (Vec.at s.fio.do_ 3).faults.getLsbD 2 = false ∧ s.inPair 0 = true := by decide +kernel
theorem test_copy_premises : let s := upA 3 fun p => { p with stateBase := Vec.fill 4 0x8000 }
    let t := { upA 2 (fun p => { p with peerState := 3 }) with cl := Vec.fill 4 { cl0 with pair := { PairCl.zero with copySent := some (5, 0, []) } } }
    (s.inPair 0 = true ∧ s.selft.shmBorrow.active = false ∧ s.shmBad = [] ∧ 0 < (Vec.at s.pair.stateLen 0).toNat ∧ (Vec.at s.cl 0).role = some .controller) ∧
    (t.pairLink = some 0 ∧ t.feeds = true ∧ (Vec.at t.cl 0).pair.copySent = some (5, 0, []) ∧ 0 < (Vec.at t.pair.stateLen 0).toNat ∧
      t.ns.toNat + 1700 ≤ 0 + t.copyBudget) := by decide +kernel
theorem test_quick_premises : (upA 2 fun p => { p with quick := true, quickPeer := some true }).pair.quickPeer = some true ∧
    ({ upA 2 (fun p => { p with quick := true }) with pair := { up.pair with quick := true } } : State).partnerLink = none := by decide +kernel
theorem test_check_premises : let s := { upA 3 id with cl := Vec.fill 4 { cl0 with pair := { PairCl.zero with checkFrom := some 0, origSeen := [0] } } }
    (Vec.at s.cl 0).pair.checkFrom = some 0 ∧ (0 : W64).toInt ≤ (Vec.at s.cl 0).cycle.toInt ∧ (Vec.at s.cl 0).cycle ∈ (Vec.at s.cl 0).pair.origSeen := by decide
theorem test_build_premises : let s := upA 2 fun p => { p with peerState := 3 }
    s.inPair 0 = true ∧ s.feeds = true ∧ s.partnerLink = some 0 ∧ s.checker 0 = false := by decide +kernel
theorem test_master_premises : let s := { upA 2 id with tim := { up.tim with sets := Vec.put up.tim.sets 0 3 } }
    s.tim.tsrc = 3 ∧ (some (1 : Fin 4)) ≠ none ∧ ∀ j : Fin 2, j ≠ 0 → (Vec.at s.pair.links j).master = none := by decide +kernel
theorem test_checked_premises : let s := { upC (fun k => { k with checked := true }) with port := Vec.upd up.port 0 fun x => { x with tx := some (run 60) } }
    (Vec.at s.cl 0).st = .started ∧ (Vec.at s.cl 0).checked = true ∧ s.pair.st = 0 ∧ s.sup.singles < 192 ∧ s.sup.ring.length < 800 ∧
    (Vec.at s.port 0).owner = some 0 ∧ (Vec.at s.port 0).st = 3 ∧ (Vec.at s.port 0).tx = some (run 60) ∧ (Vec.at s.port 0).retry = false ∧
    (run 60).result = 0 := by decide +kernel
/-- The partner's BEAT: settings and images that agree, two ORPHANs of unequal time, a joiner to synchronise; a BULK block. -/
theorem test_peer_beat_premises : let s := upA 5 fun p => { p with orphanMs := 3, peerSerial := 0, lastSerial := 0 }
    s.pair.configMismatch = false ∧ (Vec.at s.pair.links 0).st = 2 ∧ s.pairLink = some 0 ∧ s.syncAllowed = true ∧ s.pair.bulkSent = false ∧
    s.pair.orphanMs < 4 ∧ s.inPair 0 = true ∧ (Vec.at s.cl 0).st = .started ∧ finOf 4 (s.pwr.mpos.1 ^^^ 1) ≠ finOf 4 (s.pwr.mpos.1 ^^^ 2) := by decide +kernel
theorem test_agree_premises : let s := upA 0 fun p => { p with links := Vec.fill 2 { AkLink.zero with st := 1 } }
    let i : PeerInfo := ⟨s.pair.compared, ((allFin 4).filter fun c => (Vec.at s.pair.sets 1).toNat.testBit c.1).map fun c => sha256 (Vec.at s.cl c).image, false, 0⟩
    (Vec.at s.pair.links 0).st = 1 ∧ i.settings = s.pair.compared := by decide +kernel
theorem test_bulk_premises : let s := upA 1 id
    s.pair.st = 1 ∧ s.peerOk = true ∧ s.inPair 0 = true ∧ 1024 ≤ (Vec.at s.pair.stateLen 0).toNat * 1024 ∧ s.shmBad = [] := by decide +kernel
theorem test_time_from : timeFrom up 0 (some 1) ∧ ¬ timeFrom up 0 none := by
  refine ⟨⟨1, rfl, by decide, fun x h => absurd h ?_⟩, fun ⟨_, h, _⟩ => by cases h⟩
  decide +revert
/-- GroupCommands: an answer to a mirrored command, and the JOB_DONE of another member's job. -/
theorem test_mirror_premises : let o : OutMsg := ⟨0x8201, 7, 0, 0, 0, [], false⟩
    let s := { upA 2 id with sup := { up.sup with mirrors := [⟨5, 0, 1, o⟩], remotes := [⟨1, 9, 5, 0, 1, 7, 0, 0x4000⟩] } }
    s.sup.proxies = [] ∧ s.sup.mirrors = [⟨5, 0, 1, o⟩] ∧ (1 : Fin 4).1 = s.pwr.mpos.1 ^^^ 1 ∧ s.pair.st = 2 ∧
    s.sup.remotes = [⟨1, 9, 5, 0, 1, 7, 0, 0x4000⟩] ∧ (0#16).getLsbD 3 = false ∧ (Vec.at s.mbx 0).session = some ⟨1, 0, 0⟩ := by decide +kernel
/-- GroupCommands. -/
theorem test_group_premises : let s := upA 2 fun p => { p with allow := Vec.fill 4 2 }
    finOf 4 (fld (0x4100#16) 14 2) ≠ s.pwr.mpos ∧ finOf 4 (fld (0x0100#16) 14 2) = s.pwr.mpos ∧ (Vec.at s.pair.allow 0).getLsbD 1 = true ∧
    (Vec.at s.pair.links 0).st = 2 ∧
    (let p : Proxy := ⟨5, 0, 0x201, 7, 1, 0, 0x4100⟩
     p.num = 5 ∧ p.chan.1 = (0 : Fin 8).1 ∧ finOf 4 (fld p.target 14 2) = 1 ∧ (0x201#16).toNat < 0xF000) := by decide

/-! ### CAN controllers, PIO engines, time, drumbeats -/

/-- The module `up` with CAN controller 0, or PIO engine 0, or the time unit changed. -/
def upN (f : Can → Can) : State := { up with can := Vec.upd up.can 0 f }
def upK (f : Pio → Pio) : State := { up with pio := Vec.upd up.pio 0 f }
def upM (f : Tim → Tim) : State := { up with tim := f up.tim }
def canDesc : Desc := ⟨0x10000000, 5, 0, 0⟩
def canFrame : CanFrame := ⟨false, false, false, false, false, 5, 2, [1, 2], 9, 0⟩
/-- CanReception: a frame that filter 3 accepts into queue 144, whose buffers come from queue 200. -/
def upR : State := { upN fun x => { x with filters := Vec.put x.filters 3 ⟨true, 2, 1, 1, 5, 0x7FF⟩ } with
  hq := Vec.put (Vec.put up.hq 144 { HwQ.empty 32 with fbq := some 200 }) 200 { HwQ.empty 16 with items := [canDesc] } }
theorem test_admits : admits (Vec.at (Vec.at upR.can 0).filters 3) false 5 := ⟨by decide, by decide, by decide⟩
theorem test_can_reception_premises : let x := Vec.at upR.can 0
    x.owner = some 0 ∧ x.st = 3 ∧ Vec.at x.sets 1 ≠ 3 ∧ x.resting = false ∧ canFrame.changes = 0 ∧ (200 : Fin 256) ≠ finOf 256 144 ∧
    (Vec.at upR.cl 0).borrow.active = false ∧ (Vec.at upR.cl 0).badWords = [] ∧ (Vec.at x.filters 3).frames.getLsbD 0 = true ∧ (∀ j : Fin 32, j < 3 → (Vec.at x.filters j).valid = false) ∧
    (Vec.at x.filters 3).action.toNat = 1 ∧ (Vec.at upR.hq (finOf 256 144)).fbq = some 200 ∧ (Vec.at upR.hq 200).items = [canDesc] ∧
    (Vec.at upR.hq (finOf 256 144)).items.length < (Vec.at upR.hq (finOf 256 144)).depth ∧
    0x10000000 ≤ canDesc.w0.toNat ∧ canDesc.w0.toNat + 64 ≤ 0x10080000 := by decide +kernel
theorem test_can_queues : soundQueues upR := by unfold soundQueues; decide +kernel
theorem test_decides : decides (Vec.at upR.can 0) 0 canFrame (some 3) 1 ∧ decides (Vec.at up.can 0) 0 canFrame none (Vec.at (Vec.at up.can 0).sets 16).toNat := by
  refine ⟨⟨⟨test_admits, by decide +kernel⟩, ?_, by decide +kernel⟩, ?_, rfl⟩
  · have h : ∀ j : Fin 32, j < 3 → (Vec.at (Vec.at upR.can 0).filters j).valid = false := by decide +kernel
    exact fun j hj g => Bool.noConfusion ((h j hj).symm.trans g.1.1)
  · have h : ∀ j : Fin 32, (Vec.at (Vec.at up.can 0).filters j).valid = false := by decide +kernel
    exact fun i g => Bool.noConfusion ((h i).symm.trans g.1.1)
theorem test_can_fd_premises : let d : Desc := { canDesc with w1 := 0x40000005 }
    let x := Vec.at (upN fun x => { x with sets := Vec.put x.sets 2 0, tb := Vec.put x.tb 2 (some ⟨d, [], 0, 0, 0, 0⟩) }).can 0
    Vec.at x.sets 2 ≠ 1 ∧ d.w1.getLsbD 30 = true ∧ Vec.at x.tb 2 = some ⟨d, [], 0, 0, 0, 0⟩ ∧ d.lt = false := by decide
theorem test_can_single_premises : let d : Desc := { canDesc with w3 := 0x30000000 }
    let x := Vec.at (upN fun x => { x with tb := Vec.put x.tb 2 (some ⟨d, [], 1, 0, 9, 0⟩), onbus := some 2 }).can 0
    x.onbus = some 2 ∧ Vec.at x.tb 2 = some ⟨d, [], 1, 0, 9, 0⟩ ∧ d.w3.getLsbD 28 = true ∧ d.w3.getLsbD 29 = true ∧ x.abort.getLsbD 2 = false := by decide
/-- CanTransmission: a frame to load, one to start, one on the bus, and the error states. -/
theorem test_can_load_premises : let s := { up with hq := Vec.put up.hq 146 { HwQ.empty 32 with items := [canDesc] } }
    (Vec.at s.hq (finOf 256 146)).items = [canDesc] ∧ Vec.at (Vec.at s.can 0).sets 1 ≠ 1 ∧ Vec.at (Vec.at s.can 0).tb 0 = none ∧ s.isFbq 146 = false := by decide +kernel
theorem test_can_start_premises : let s := upN fun x => { x with tb := Vec.put x.tb 2 (some ⟨canDesc, [], 0, 0, 0, 0⟩) }
    let x := Vec.at s.can 0
    x.owner = some 0 ∧ x.st = 3 ∧ Vec.at x.sets 1 ≠ 1 ∧ Vec.at x.sets 1 ≠ 2 ∧ x.resting = false ∧ x.onbus = none ∧ Vec.at x.tb 2 = some ⟨canDesc, [], 0, 0, 0, 0⟩ ∧ canDesc.lt = false ∧ (∀ a : Fin 8, a ≠ 2 → Vec.at x.tb a = none) ∧
    (Vec.at s.cl 0).id ≠ 0x0030 := by decide
theorem test_can_bus_premises : let x := Vec.at (upN fun x => { x with tb := Vec.put x.tb 2 (some ⟨canDesc, [], 1, 0, 0, 0⟩), onbus := some 2, tec := 248, retry := true }).can 0
    x.onbus = some 2 ∧ (Vec.at x.tb 2).isSome = true ∧ 255 < x.tec + 8 ∧ canDesc.w3.getLsbD 28 = false ∧ x.abort.getLsbD 2 = false ∧ Vec.at x.sets 1 ≠ 2 := by decide
theorem test_can_late_premises : let d : Desc := { canDesc with w2 := 0xFFFFF000, w3 := 0x80000000 }
    let s := upN fun x => { x with sets := Vec.put x.sets 15 1, tb := Vec.put x.tb 2 (some ⟨d, [], 0, 0, 0, 0⟩) }
    let x := Vec.at s.can 0
    Vec.at x.tb 2 = some ⟨d, [], 0, 0, 0, 0⟩ ∧ d.lt = true ∧ Vec.at x.sets 15 ≠ 0 ∧ x.onbus ≠ some 2 ∧
    1000 * ((Vec.at x.sets 15).toNat : Int) ≤ timeDiff s.tim.eng d.w2 := by decide
/-- MODE 3's own reception; an error seen by the transmitter, one by a receiver, and one that clashes. -/
theorem test_can_own_premises : let x := Vec.at (upN fun x => { x with sets := Vec.put x.sets 1 3, tb := Vec.put x.tb 2 (some ⟨canDesc, [], 1, 0, 0, 0⟩), onbus := some 2 }).can 0
    x.onbus = some 2 ∧ Vec.at x.sets 1 = 3 ∧ x.owner = some 0 ∧ x.st = 3 ∧ Vec.at x.sets 16 = 0 ∧ ∀ i, (Vec.at x.filters i).valid = false := by decide
theorem test_can_error_premises : let x := Vec.at (upN fun x => { x with rxErr := 127 }).can 0
    let e : CanErr := ⟨.bit, false, true, true, false, false, none⟩
    x.st = 3 ∧ x.resting = false ∧ Vec.at x.sets 1 ≠ 3 ∧ Vec.at x.sets 1 ≠ 2 ∧ x.tec ≤ 255 ∧ 127 < x.rxErr + 1 ∧ x.clashSeen = false ∧
    e.transmitter = true ∧ e.exempt = false ∧ e.kind = .bit ∧ e.afterArbitration = true := by decide
theorem test_can_state_premises : (Vec.at (upN fun x => { x with st := 5 }).can 0).st = 5 ∧ (Vec.at (upN fun x => { x with st := 2, tec := 128 }).can 0).tec = 128 ∧
    Vec.at (Vec.at up.can 0).sets 3 = 1 := by decide
/-- PIO engine 0 in RUN with a word of PIMEM at its PC. -/
def upO (op : Nat) (o : BitVec 28) (f : Pio → Pio) : State := upK fun x => f { x with pimem := Vec.put x.pimem 0 (BitVec.ofNat 32 (op * 2 ^ 28 + o.toNat)) }
/-- PioInstructions, CommandsComplete: a valid word of each OP at PC. -/
theorem test_pio_premises : ∀ w ∈ ([(0, 0), (1, 0x0400000), (2, 0x8000000), (3, 0), (4, 0x0100000), (5, 0x8000000), (6, 0x0000007), (7, 0x0040400), (8, 5), (9, 3), (10, 0x4000000)] :
      List (Nat × BitVec 28)), let x := Vec.at (upO w.1 w.2 fun x => { x with txq := [5] }).pio 0
    x.st = 2 ∧ x.stallc = 0 ∧ x.pc.toNat < 48 ∧ Vec.atD x.pimem x.pc.toNat 0 = BitVec.ofNat 32 (w.1 * 2 ^ 28 + w.2.toNat) ∧ x.txq = [5] ∧ x.rxq.length < 16 ∧
    x.pfmt.getLsbD 19 = false ∧ x.tcnt.toNat ≤ 1 := by decide +kernel
theorem test_pio_valid : ¬ invalidPio 0 0 ∧ ¬ invalidPio 1 0x0400000 ∧ ¬ invalidPio 2 0x8000000 ∧ ¬ invalidPio 3 0 ∧ ¬ invalidPio 4 0x0100000 ∧
    ¬ invalidPio 5 0x8000000 ∧ ¬ invalidPio 6 7 ∧ ¬ invalidPio 7 0x0040400 ∧ ¬ invalidPio 8 5 ∧ ¬ invalidPio 9 3 ∧ ¬ invalidPio 10 0x4000000 ∧ invalidPio 0 1 := by
  refine ⟨?_, ?_, ?_, ?_, ?_, ?_, ?_, ?_, ?_, ?_, ?_, ?_⟩ <;> (simp only [invalidPio] <;> decide)
theorem test_pio_row : Claim.pioRow (.pioLoad 0 0x8000000 [⟨1, 1, 1⟩]) = some (0, 2, 0x8000000, [⟨1, 1, 1⟩]) := rfl
/-- An XFER of 8 bits that meets a frame boundary, with a word to go on with and without one; unequal shift directions. -/
theorem test_xfer_premises : let o : BitVec 28 := 0x3C01000
    let x := Vec.at (upO 1 o fun x => { x with frame := 4, txq := [7] }).pio 0
    ¬ invalidPio 1 (0x0401000 ||| 0x3800000) ∧ o.getLsbD 12 = true ∧ o.getLsbD 22 = true ∧ o.getLsbD 21 = false ∧ x.bc < x.frame ∧ x.frame - x.bc < fld o 23 5 + 1 ∧ x.frame ≤ 32 ∧
    fld o 23 5 + 1 - (x.frame - x.bc) ≤ x.frame ∧ x.pfmt.getLsbD 19 = false ∧ (0x80000000#32).getLsbD 31 ≠ (0x80000000#32).getLsbD 30 := by
  refine ⟨?_, by decide, by decide, by decide, by decide, by decide, by decide, by decide, by decide, by decide⟩
  simp only [invalidPio] <;> decide
/-- A WAITE on a rising edge of pin 0 that comes at its second tick, and a WAITT on a timer of 3. -/
theorem test_wait_premises : let x := Vec.at (upO 4 0 fun x => { x with inMask := 1 }).pio 0
    edgeAt x [0, 1] 0 0 = false ∧ edgeAt x [0, 1] 0 1 = true ∧ ¬ timedAt x 4 0 1 ∧
    ¬ timedAt (Vec.at (upO 5 0 fun x => { x with tcnt := 3 }).pio 0) 5 0 1 ∧ timedAt (Vec.at (upO 5 0 fun x => { x with tcnt := 3 }).pio 0) 5 0 2 := by
  unfold timedAt; decide +kernel
/-- A stalled XFER with more frames to come. -/
theorem test_again_premises : let x := Vec.at (upK fun x => { x with st := 3, stallc := 5, frame := 8, txq := [7], latched := some ⟨0x1FC01000, 8, false⟩ }).pio 0
    x.st = 3 ∧ x.latched = some ⟨0x1FC01000, 8, false⟩ ∧ (0x1FC01000#32).toNat / 2 ^ 28 = 1 ∧ (0x1FC01000#32).getLsbD 22 = true ∧ (0x1FC01000#32).getLsbD 21 = false ∧
    (0x1FC01000#32).getLsbD 12 = true ∧ x.txq = [7] ∧ 8 + x.frame < fld (0x1FC01000#32) 23 5 + 1 ∧ 0 < x.frame ∧ x.frame ≤ 32 := by decide
theorem test_room : roomFor up (Vec.at up.pio 0) ∧ ¬ roomFor up { Vec.at up.pio 0 with rxq := List.replicate 16 0 } := by
  refine ⟨?_, ?_⟩ <;> (unfold roomFor; decide)
/-- PioWindow: an engine in IDLE, one in RUN, a stalled LOAD. -/
theorem test_pio_window_premises : alive up 0 ∧ (Vec.at up.pio 0).owner = some (clOf 0) ∧ (Vec.at (upK fun x => { x with st := 1 }).pio 0).run = false ∧
    (2 ≤ (Vec.at (upK fun x => { x with run := true }).pio 0).st) ∧
    (Vec.at (upK fun x => { x with st := 3, latched := some ⟨0x28000000, 0, false⟩ }).pio 0).latched = some ⟨0x28000000, 0, false⟩ ∧
    (0x28000000#32).toNat / 2 ^ 28 = 2 ∧ 11 ≤ (0xB0000000#32).toNat / 2 ^ 28 ∧ Vec.atD (Vec.at (upO 11 0 id).pio 0).pimem 0 0 = 0xB0000000 :=
  ⟨⟨by decide, by decide⟩, by decide, by decide, by decide, by decide, by decide, by decide, by decide⟩
/-- Servo: a post by the source, a sample to apply, a jump. -/
theorem test_post_sample_premises : let s := upM fun t => { t with sets := Vec.put t.sets 0 1 }
    Vec.at s.tim.sets 0 = 1 ∧ Vec.at s.tim.sets 1 = BitVec.ofNat 64 (clOf 0).1 ∧ s.tim.stoppedSrc = false ∧ (1#32).getLsbD 0 = true ∧ (1#32).toNat < 4 := by decide
theorem test_slew_premises : let s := upM fun t => { t with st := 2, slewLeft := 5 }
    s.tim.slewLeft ≠ 0 ∧ s.tim.st ≠ 0 ∧ s.tim.st ≠ 4 := by decide +kernel
theorem test_sample_premises : let s := { upC (fun k => { k with tsSample := some ⟨2560, 1000000, false⟩ }) with
      tim := { up.tim with st := 1, freeStep := false, lastAt := some 0 } }
    (Vec.at s.cl 0).tsSample = some ⟨2560, 1000000, false⟩ ∧ s.pair.st ≠ 1 ∧ s.pair.st ≠ 3 ∧ s.tim.st = 1 ∧ s.tim.freeStep = false ∧
    (100000 : Int) ≤ ((1000000 : W32) - 0).toInt ∧ s.tim.avg = [] ∧ s.tim.slewLeft = 0 := by decide
theorem test_small_offset : ¬ ((1000 : Rat) < nsOf 2560 ∨ (1000 : Rat) < -nsOf 2560) ∧ (1000 : Rat) < nsOf 0x100000 ∧ nsOf 2560 ≠ 0 := by decide +kernel
/-- TimeEvents. -/
theorem test_milestone_premises : let s := upE fun g => { g with milestone := true, wait := .mwait 3 0, evm := 2 }
    let g := Vec.at s.eng 0
    (g.milestone = true ∧ g.arm = 0 ∧ 0 ≤ (BitVec.ofNat 32 (s.tim.t / 2 ^ 39) - g.ms).toInt) ∧ g.run = true ∧ g.wait = .mwait 3 0 ∧ g.waitMask.getLsbD 1 = true ∧
    g.evp &&& g.waitMask = 0 ∧ (Vec.at up.eng 0).wait = .none := by decide
theorem test_sync_premises : let s := upM fun t => { t with sets := Vec.put t.sets 0 2, syncIn := { t.syncIn with mode := 2, edge := 2, period := 1000 } }
    let i := s.tim.syncIn
    i.mode = 2 ∧ i.edge = 2 ∧ i.stamped = false ∧ Vec.at s.tim.sets 0 = 2 ∧ i.period.toNat ≠ 0 ∧ i.period.toNat < 2 ^ 40 ∧ i.phase.toNat < i.period.toNat ∧
    (upM fun t => { t with syncIn := { t.syncIn with mode := 1, edge := 2 } }).tim.syncIn.mode = 1 := by decide
theorem test_pulse_premises : let s := upM fun t => { t with t := 5000 * 2 ^ 39, syncOut := #v[{ Vec.at t.syncOut 0 with mode := 1, period := 1000, last := 3000 },
      { Vec.at t.syncOut 1 with mode := 3, armed := true, time := 4000 }] }
    let now := s.tim.t / 2 ^ 39
    let o := Vec.at s.tim.syncOut 0
    let q := Vec.at s.tim.syncOut 1
    (o.mode = 1 ∧ now < 2 ^ 64 ∧ 5 * o.period.toNat + o.phase.toNat ≤ now ∧ now < 5 * o.period.toNat + o.phase.toNat + o.period.toNat ∧
      o.last < 5 * o.period.toNat + o.phase.toNat) ∧ q.mode = 3 ∧ q.armed = true ∧ q.time.toNat ≤ now := by decide +kernel
/-- Drumbeats: a cluster with a defined process image at the start of shared memory. -/
theorem test_beat_premises : let s := upC fun k => { k with pi := { PiUnit.zero with defined := true, inDone := true, watchdog := 1, stale := 1 } }
    let k := Vec.at s.cl 0
    k.st = .started ∧ k.ct ≠ 0 ∧ (k.role ≠ some .controller ∨ k.dl.stat = none) ∧ s.shmBad = [] ∧ s.selft.shmBorrow.active = false ∧
    s.hostServed = true ∧ s.live = true ∧ k.ival = false ∧ k.pi.news = [] ∧ k.pi.rewrite = false ∧ s.inPair 0 = false ∧
    k.pi.base.toNat + 64 ≤ 2 ^ 23 ∧ k.pi.watchdog.toNat ≤ k.pi.stale ∧ k.pi.staleWarn = false ∧ k.pi.inFill ≠ 3 ∧ k.pi.newest ≠ 3 := by decide +kernel

end Sys2Proof.Tests
end

section
/-!
The masters of an access and the locks they read and write (R21, R67–R71).
-/
namespace Sys2Proof.Machine
open Sys2Proof.Claim

/-! ### Masters (R21, R70, R71) -/

/-- A Requester ID is HOST's or its DMA's (R71). -/
theorem State.resolve_pcie (s : State) (r : W16) : s.resolve (.pcie r) = .host ∨ s.resolve (.pcie r) = .dma := by
  simp only [State.resolve]
  split <;> simp

/-- No access stays with a Requester ID. -/
theorem State.resolve_ne_pcie (s : State) (m : Master) (rid : W16) : s.resolve m ≠ .pcie rid := by
  cases m with
  | pcie r => obtain h | h := s.resolve_pcie r <;> rw [h] <;> exact Master.noConfusion
  | _ => simp [State.resolve]

@[simp] theorem State.resolve_resolve (s : State) (m : Master) : s.resolve (s.resolve m) = s.resolve m := by
  cases m with
  | pcie r => obtain h | h := s.resolve_pcie r <;> rw [h] <;> rfl
  | _ => rfl

theorem Master.id_eng_toNat (e : Fin 16) : (Master.id (.eng e)).toNat = 16 + e.1 := by
  simp only [Master.id, BitVec.toNat_ofNat]
  omega

/-- A free lock's 0 is no master's ID. -/
theorem Master.id_ne_zero (m : Master) : Master.id m ≠ 0 := by
  cases m with
  | eng e =>
    intro h
    have := congrArg BitVec.toNat h
    rw [Master.id_eng_toNat] at this
    simp at this
  | _ => simp [Master.id]

/-- The master that an ID names (R21). -/
def Master.ofId : Nat → Master
  | 1 => .host
  | 2 => .supv
  | 3 => .peer
  | 4 => .dma
  | n => .eng (finOf 16 (n - 16))

/-- An ID names its master, an unresolved Requester ID apart. -/
theorem Master.ofId_id {m : Master} (h : ∀ r, m ≠ .pcie r) : Master.ofId (Master.id m).toNat = m := by
  cases m with
  | pcie r => exact absurd rfl (h r)
  | eng e =>
    rw [Master.id_eng_toNat]
    have hk : ∀ k, Master.ofId (16 + k) = .eng (finOf 16 k) := fun k => by
      rw [Master.ofId, Nat.add_sub_cancel_left] <;> omega
    rw [hk]
    exact congrArg Master.eng (Fin.ext (Nat.mod_eq_of_lt e.2))
  | _ => rfl

/-- The winner of a free lock is one of its readers, and none has a lower ID (R70). -/
theorem lockWinner_spec (m : Master) (xs : List Master) :
    lockWinner m xs ∈ m :: xs ∧ ∀ x ∈ m :: xs, (Master.id (lockWinner m xs)).toNat ≤ (Master.id x).toNat := by
  induction xs generalizing m with
  | nil => simp [lockWinner]
  | cons y ys ih =>
    have hcons : lockWinner m (y :: ys) = lockWinner (if (Master.id y).toNat < (Master.id m).toNat then y else m) ys := rfl
    rw [hcons]
    split
    · next hlt =>
      obtain ⟨hmem, hle⟩ := ih y
      refine ⟨List.mem_cons_of_mem _ hmem, fun x hx => ?_⟩
      rcases List.mem_cons.mp hx with rfl | hx
      · exact Nat.le_trans (hle y List.mem_cons_self) (Nat.le_of_lt hlt)
      · exact hle x hx
    · next hge =>
      obtain ⟨hmem, hle⟩ := ih m
      have hm := hle m List.mem_cons_self
      refine ⟨?_, fun x hx => ?_⟩
      · rcases List.mem_cons.mp hmem with h | h
        · rw [h]; exact List.mem_cons_self
        · exact List.mem_cons_of_mem _ (List.mem_cons_of_mem _ h)
      · rcases List.mem_cons.mp hx with rfl | hx
        · exact hm
        · rcases List.mem_cons.mp hx with rfl | hx
          · omega
          · exact hle x (List.mem_cons_of_mem _ hx)

/-- A reader with the lowest ID, as the module resolves the masters, is the winner. -/
theorem lockWinner_resolve {s : State} {m w : Master} {others : List Master} (hw : w ∈ m :: others)
    (hmin : ∀ x ∈ m :: others, (Master.id (s.resolve w)).toNat ≤ (Master.id (s.resolve x)).toNat) :
    lockWinner (s.resolve m) (others.map s.resolve) = s.resolve w := by
  obtain ⟨hmem, hle⟩ := lockWinner_spec (s.resolve m) (others.map s.resolve)
  rw [← List.map_cons] at hmem hle
  obtain ⟨x, hx, hxe⟩ := List.mem_map.mp hmem
  have h1 := hle _ (List.mem_map_of_mem hw)
  have h2 := hmin x hx
  rw [← hxe] at h1 ⊢
  have hid : (Master.id (s.resolve x)).toNat = (Master.id (s.resolve w)).toNat := by omega
  rw [← Master.ofId_id (s.resolve_ne_pcie x), hid, Master.ofId_id (s.resolve_ne_pcie w)]

/-! ### Locks (R67–R69) -/

/-- A lock stands with a supervisor or an engine mailbox; nothing else of the module changes with its owner. -/
theorem State.setLock_eq (s : State) (l : Fin 24) (b : Byte) : ∃ mb em, s.setLock l b = { s with mbx := mb, emb := em } := by
  unfold State.setLock
  split
  · exact ⟨_, s.emb, rfl⟩
  · exact ⟨s.mbx, _, rfl⟩

@[simp] theorem State.setLock_hif (s : State) (l : Fin 24) (b : Byte) : (s.setLock l b).hif = s.hif := by
  obtain ⟨mb, em, h⟩ := s.setLock_eq l b
  rw [h]

@[simp] theorem State.setLock_unhealthy (s : State) (l : Fin 24) (b : Byte) : (s.setLock l b).unhealthy = s.unhealthy := by
  obtain ⟨mb, em, h⟩ := s.setLock_eq l b
  rw [h]; rfl

@[simp] theorem State.lockOwner_setLock_same (s : State) (l : Fin 24) (b : Byte) : (s.setLock l b).lockOwner l = b := by
  unfold State.lockOwner State.setLock
  split <;> simp

/-- The host interface has no part in the locks. -/
theorem State.setLock_updHif (s : State) (l : Fin 24) (b : Byte) (f : Hif → Hif) :
    (s.updHif f).setLock l b = (s.setLock l b).updHif f := by
  unfold State.setLock
  split <;> rfl

theorem State.lockOwner_updHif (s : State) (l : Fin 24) (f : Hif → Hif) : (s.updHif f).lockOwner l = s.lockOwner l := rfl

/-- What a read of a lock leaves: the reader owns a lock that was free, and a held one stands (R68). -/
def State.afterRead (s : State) (m : Master) (l : Fin 24) : State :=
  if s.lockOwner l = 0 then s.setLock l (Master.id m) else s

/-- A read of a lock returns its owner, which is 0 for a free one (R68). -/
theorem State.lockRead_eq (s : State) (m : Master) (l : Fin 24) :
    s.lockRead m l = ((s.lockOwner l).setWidth 32, s.afterRead m l) := by
  unfold State.lockRead State.afterRead
  split
  · next h => rw [h]; rfl
  · rfl

@[simp] theorem State.afterRead_hif (s : State) (m : Master) (l : Fin 24) : (s.afterRead m l).hif = s.hif := by
  unfold State.afterRead; split <;> simp

@[simp] theorem State.afterRead_unhealthy (s : State) (m : Master) (l : Fin 24) :
    (s.afterRead m l).unhealthy = s.unhealthy := by
  unfold State.afterRead; split <;> simp

theorem State.afterRead_updHif (s : State) (m : Master) (l : Fin 24) (f : Hif → Hif) :
    (s.updHif f).afterRead m l = (s.afterRead m l).updHif f := by
  simp only [State.afterRead, State.lockOwner_updHif, State.setLock_updHif]
  split <;> rfl

/-- A lock that has been read is held: the next reader gets nothing. -/
theorem State.afterRead_afterRead (s : State) (m n : Master) (l : Fin 24) :
    (s.afterRead m l).afterRead n l = s.afterRead m l := by
  have held : (s.afterRead m l).lockOwner l ≠ 0 := by
    unfold State.afterRead
    split
    · rw [State.lockOwner_setLock_same]; exact Master.id_ne_zero m
    · next h => exact h
  exact if_neg held

/-- A write of one octet to a lock frees it when the owner writes its own ID (R69). -/
theorem State.lockWrite_eq (s : State) (m : Master) (l : Fin 24) (v : W32) (hv : v.toNat < 256) :
    s.lockWrite m l v = if s.lockOwner l = Master.id m ∧ v.toNat = (Master.id m).toNat then s.setLock l 0 else s := by
  have key : v.setWidth 8 = Master.id m ↔ v.toNat = (Master.id m).toNat := by
    rw [← BitVec.toNat_inj, BitVec.toNat_setWidth, Nat.mod_eq_of_lt hv]
  simp [State.lockWrite, key]

/-- What decides whether a master reaches a lock stands in the power block, the clusters, the engines and the PCIe
configuration. -/
theorem reaches_congr {s t : State} (l : Fin 24) (m : Master) (hp : t.pwr = s.pwr) (hc : t.cl = s.cl)
    (he : t.eng = s.eng) (hx : t.hif.pcie = s.hif.pcie) : reaches t l m ↔ reaches s l m := by
  simp only [reaches, State.resolve, State.isHost, State.hostServed, State.hostOn, State.lockReach, State.checker,
    State.live, State.powered, alive, hp, hc, he, hx]

theorem State.afterRead_reaches (s : State) (n : Master) (l : Fin 24) (m : Master) :
    reaches (s.afterRead n l) l m ↔ reaches s l m := by
  unfold State.afterRead
  split
  · obtain ⟨mb, em, h⟩ := s.setLock_eq l (Master.id n)
    rw [h]
    exact reaches_congr l m rfl rfl rfl rfl
  · rfl

/-- A master that reaches a lock passes the module's own check of it. -/
theorem lockReach_of_reaches {s : State} {l : Fin 24} {m : Master} (h : reaches s l m) :
    s.lockReach (s.resolve m) l = true := by
  unfold reaches at h
  split at h
  · next e he => rw [he]; exact h.2
  · next he => rw [he]; exact h
  · next he => rw [he]; exact h
  · exact h.2

end Sys2Proof.Machine
end

section
/-!
The mailbox region of the engine map (R23, R82): what a load and a store of a word there come to.
-/
namespace Sys2Proof.Machine
open Sys2Proof.Claim

theorem leNat_leBytes (n v : Nat) : leNat (leBytes n v) = v % 256 ^ n := by
  induction n generalizing v with
  | zero => simp [leBytes, leNat, Nat.mod_one]
  | succ n ih =>
    rw [leBytes, leNat, ih, BitVec.toNat_ofNat, Nat.pow_succ' (n := n), Nat.mod_mul]

/-- A word is what its four octets spell. -/
theorem leNat_leBytes_word (v : W32) : leNat (leBytes 4 v.toNat) = v.toNat := by
  exact (leNat_leBytes 4 _).trans (Nat.mod_eq_of_lt v.isLt)

theorem engOf_clOf (e f : Fin 16) (h : clOf f = clOf e) : engOf (clOf e) (finOf 4 (f.1 % 4)) = f := by
  have h' : f.1 / 4 = e.1 / 4 := congrArg Fin.val h
  apply Fin.ext
  simp only [engOf, clOf, finOf, Fin.val_ofNat]
  omega

/-- Engine `e` addresses the lock of a mailbox of its cluster. -/
theorem boxAt_lock (e f : Fin 16) (h : clOf f = clOf e) :
    boxAt (clOf e) (0x70001000 + 4 * (f.1 % 4)) = some (.lock f) := by
  have hk : (0x70001000 + 4 * (f.1 % 4) - 0x70000000 - 0x1000) / 4 = f.1 % 4 := by omega
  simp only [boxAt, hk, engOf_clOf e f h]
  rw [if_neg (by omega), if_neg (by omega), if_pos (by omega)]

/-- Engine `e` addresses EMB_CMD of a mailbox of its cluster. -/
theorem boxAt_cmd (e f : Fin 16) (h : clOf f = clOf e) :
    boxAt (clOf e) (0x70001030 + 4 * (f.1 % 4)) = some (.cmd f) := by
  have hk : (0x70001030 + 4 * (f.1 % 4) - 0x70000000 - 0x1030) / 4 = f.1 % 4 := by omega
  simp only [boxAt, hk, engOf_clOf e f h]
  rw [if_neg (by omega), if_neg (by omega), if_neg (by omega), if_neg (by omega), if_neg (by omega), if_pos (by omega)]

section
variable {s : State} {e : Fin 16} {a : Nat} {b : Box}
variable (ha : alive s e) (hlo : 0x70000000 ≤ a) (hhi : a < 0x80000000) (hal : a % 4 = 0)
variable (hb : boxAt (clOf e) a = some b) (hc : ∀ f, b.engine = some f → s.checker f = false)
include hlo hhi hal hb hc

/-- A word access to the mailbox region traps on a checker's mailbox and where the map allows no store, else never. -/
theorem State.busTrap_box (m : MemOp) (v : Nat) (hm : m.size = 4 ∧ m.rot = false)
    (hst : m.store = true → s.boxStore e v b = true) : s.busTrap e a m v = none := by
  obtain ⟨hsize, hrot⟩ := hm
  have hw : (!m.store || s.boxStore e v b) = true := by
    cases hs : m.store with
    | false => rfl
    | true => exact hst hs
  simp only [State.busTrap, hsize, hrot, hal, hb, imemSize, dmemBase, dmemSize]
  rw [if_neg (by decide), if_neg (by omega), if_neg (by omega), if_neg (by simp; omega), if_neg (by simp; omega),
    if_neg (by decide), if_neg (by simp; omega), if_neg (by simp; omega), if_pos (by simp; omega)]
  cases hbe : b.engine with
  | none => simp [hw]
  | some f => simp [hw, hc f hbe]

include ha

/-- A store of a word to the mailbox region that the map allows lands there. -/
theorem State.engineStore_box (v : W32) (hst : s.boxStore e v.toNat b = true) :
    s.engineStore e (BitVec.ofNat 32 a) v = andThen (s.boxPut e (leBytes 4 v.toNat) b) fun t => .next t.settle := by
  obtain ⟨hrun, hck⟩ := ha
  have haddr : (BitVec.ofNat 32 a).toNat = a := Nat.mod_eq_of_lt (by omega)
  have hstore : s.busStore e a (leBytes 4 v.toNat) = s.boxPut e (leBytes 4 v.toNat) b := by
    simp only [State.busStore, hb, imemSize, dmemBase, dmemSize]
    rw [if_neg (by omega), if_neg (by omega), if_neg (by omega), if_neg (by omega), if_neg (by omega), if_neg (by omega)]
  simp only [State.engineStore, haddr, hrun, hck, hstore,
    State.busTrap_box hlo hhi hal hb hc ⟨4, true, false⟩ v.toNat ⟨rfl, rfl⟩ (fun _ => hst)]
  rfl

/-- A load of a word from the mailbox region has the side effect of its object. -/
theorem State.engineTouch_box : s.engineTouch e (BitVec.ofNat 32 a) = .next (s.boxLoad e 4 b).2.settle := by
  obtain ⟨hrun, hck⟩ := ha
  have haddr : (BitVec.ofNat 32 a).toNat = a := Nat.mod_eq_of_lt (by omega)
  have hload : (s.busLoad e a 4).2 = (s.boxLoad e 4 b).2 := by
    simp only [State.busLoad, hb, imemSize, dmemBase, dmemSize]
    rw [if_neg (by omega), if_neg (by omega), if_neg (by omega), if_neg (by omega), if_neg (by omega), if_neg (by omega)]
  simp only [State.engineTouch, haddr, hrun, hck, hload,
    State.busTrap_box hlo hhi hal hb hc ⟨4, false, false⟩ 0 ⟨rfl, rfl⟩ (fun h => absurd h Bool.false_ne_true)]
  have hpop : ¬ (decide (0x40000000 ≤ a) && decide (a < 0x40004000) && decide (a % 0x40 = 0x10)) = true := by
    simp; omega
  exact if_neg hpop

end

end Sys2Proof.Machine
end

section
/-!
One register of BAR0 as the host reaches it (R26, R46, R53–R55, R59): the locks, ENG_DB and EMB_CMD.
-/
namespace Sys2Proof.Machine
open Sys2Proof.Claim

/-! ### Whole registers -/

/-- The four octets of a register are one access. -/
theorem bar0Pieces_word {α : Type} {off : Nat} (a b c d : α) (hal : off % 4 = 0) (hlt : off < 0x1000) :
    bar0Pieces off [a, b, c, d] = [(off, [a, b, c, d])] := by
  obtain ⟨k, hk⟩ : ∃ k, 0x1000 - off = k + 4 := ⟨0x1000 - off - 4, by omega⟩
  simp [bar0Pieces, dwordChunks, hk, hal]

/-- The lanes of a word written whole are its octets. -/
theorem lanesOf_full (v : W32) : lanesOf v 15 = (leBytes 4 v.toNat).map some := by
  have hoct (i : Nat) : BitVec.ofNat 8 (fld v (8 * i) 8) = BitVec.ofNat 8 (v.toNat / 256 ^ i) := by
    apply BitVec.eq_of_toNat_eq
    rw [BitVec.toNat_ofNat, BitVec.toNat_ofNat, fld, Nat.mod_mod, Nat.pow_mul]
  have hrange : List.range 4 = [0, 1, 2, 3] := rfl
  simp [lanesOf, hrange, hoct, leBytes, Nat.div_div_eq_div_mul]

/-- A register that can be served is written whole. -/
theorem State.bar0Piece_word {s : State} (m : Master) {off : Nat} (v : W32) (hlt : off < 0x1000)
    (herr : s.runErr off 4 = none) : s.bar0Piece m off (lanesOf v 15) = s.bar0Write m off v := by
  have hword : BitVec.ofNat 32 (leNat ((leBytes 4 v.toNat).map some |>.map fun b => b.getD 0)) = v := by
    rw [List.map_map]
    have hid : ((fun b : Option Byte => b.getD 0) ∘ some) = id := rfl
    rw [hid, List.map_id, leNat_leBytes_word, BitVec.ofNat_toNat, BitVec.setWidth_eq]
  rw [lanesOf_full]
  simp only [State.bar0Piece, List.length_map]
  have hlen : (leBytes 4 v.toNat).length = 4 := rfl
  rw [hlen, herr, hword]
  simp [hlt]

theorem State.runErr_eq_none {s : State} {off : Nat} (n : Nat) (h : ∀ i < n, s.bar0Err (off + i) = none) :
    s.runErr off n = none := by
  simp only [State.runErr, List.findSome?_eq_none_iff, List.mem_range]
  exact h

section
variable {s : State} {off : Nat} (hal : off % 4 = 0) (hlt : off < 0x1000)
include hal hlt

theorem State.bar0WriteRun_word (m : Master) (v : W32) (herr : s.runErr off 4 = none) :
    s.bar0WriteRun m off (lanesOf v 15) = s.bar0Write m off v ∧ s.bar0WriteFails off (lanesOf v 15) = false := by
  have hoff : off % 0x10000 = off := Nat.mod_eq_of_lt (by omega)
  have hpieces : bar0Pieces off (lanesOf v 15) = [(off, lanesOf v 15)] := bar0Pieces_word _ _ _ _ hal hlt
  refine ⟨?_, ?_⟩
  · rw [State.bar0WriteRun, hoff, hpieces]
    exact State.bar0Piece_word m v hlt herr
  · rw [State.bar0WriteFails, hoff, hpieces]
    have hlen : (lanesOf v 15).length = 4 := rfl
    simp only [List.any_cons, List.any_nil, hlen, herr, Option.isSome_none, Bool.or_false]

/-- The host writes a register that can be served over whichever interface it has. -/
theorem State.hostReg_served {m : Master} (v : W32) (hh : s.isHost (s.resolve m) = true)
    (herr : ∀ i < 4, s.bar0Err (off + i) = none) : s.hostReg m off v = s.bar0Write (s.resolve m) off v := by
  obtain ⟨hw, hf⟩ := State.bar0WriteRun_word hal hlt (s.resolve m) v (State.runErr_eq_none 4 herr)
  simp only [State.hostReg, State.hostStore, hh, State.hostWriteFails, State.hostWrite, hf]
  exact hw

/-- The host reads a register as one access. -/
theorem State.bar0ReadRun_word (m : Master) :
    s.bar0ReadRun m off 4 = ((leBytes 4 (s.bar0Read m off).1.1.toNat, (s.bar0Read m off).1.2), (s.bar0Read m off).2) := by
  have hoff : off % 0x10000 = off := Nat.mod_eq_of_lt (by omega)
  have hpieces : bar0Pieces off (List.replicate 4 ()) = [(off, List.replicate 4 ())] := bar0Pieces_word _ _ _ _ hal hlt
  have hdown : off / 4 * 4 = off := by omega
  rw [State.bar0ReadRun, hoff, hpieces]
  simp [hlt, hdown, hal, slice, leBytes]

end

/-! ### Locks -/

theorem embOf_lock (l : Fin 24) {i : Nat} (hi : i < 4) :
    embOf (0x400 + 4 * l.1 + i) = if l.1 < 8 then none else some (finOf 16 (l.1 - 8)) := by
  have hl := l.2
  split
  · simp only [embOf, Bool.and_eq_true, decide_eq_true_eq]
    rw [if_neg (by omega), if_neg (by omega), if_neg (by omega), if_neg (by omega)]
  · have hdiv : (0x400 + 4 * l.1 + i - 0x420) / 4 = l.1 - 8 := by omega
    simp only [embOf, Bool.and_eq_true, decide_eq_true_eq, hdiv]
    rw [if_pos (by omega)]

theorem State.bar0Err_lock {s : State} {l : Fin 24} {i : Nat} (hi : i < 4) (h : s.lockReach .host l = true) :
    s.bar0Err (0x400 + 4 * l.1 + i) = none := by
  simp only [State.lockReach, Bool.and_eq_true, Bool.or_eq_true, decide_eq_true_eq] at h
  obtain ⟨hlive, hemb⟩ := h
  simp only [State.bar0Err, embOf_lock l hi, hlive]
  rw [if_neg (by simp)]
  split
  · next e he =>
    split at he
    · contradiction
    · next hl =>
      obtain rfl := Option.some.inj he
      rw [if_pos]
      simpa [State.embUp] using hemb.resolve_left hl
  · rfl

theorem State.bar0Read_lock {s : State} (m : Master) {l : Fin 24} (h : s.lockReach .host l = true) :
    s.bar0Read m (0x400 + 4 * l.1) = (((s.lockOwner l).setWidth 32, false), s.afterRead m l) := by
  have hl := l.2
  have hdiv : finOf 24 ((0x400 + 4 * l.1 - 0x400) / 4) = l := Fin.ext (by simp only [finOf, Fin.val_ofNat]; omega)
  have herr : s.bar0Err (0x400 + 4 * l.1) = none := State.bar0Err_lock (i := 0) (by omega) h
  simp only [State.bar0Read, herr, hdiv, State.lockRead_eq]
  rw [if_pos (by simp; omega)]

/-- A write of a lock with a reserved bit is the host's error, any other the owner's release or nothing (R69). -/
theorem State.bar0Write_lock (s : State) (m : Master) (l : Fin 24) (v : W32) :
    (v.toNat < 256 → s.bar0Write m (0x400 + 4 * l.1) v = .next (s.lockWrite m l v)) ∧
    (256 ≤ v.toNat → ∃ obj, s.bar0Write m (0x400 + 4 * l.1) v = .fault (.hostError obj)) := by
  have hl := l.2
  have hdiv : finOf 24 ((0x400 + 4 * l.1 - 0x400) / 4) = l := Fin.ext (by simp only [finOf, Fin.val_ofNat]; omega)
  have hv := v.isLt
  have hfld : fld v 8 24 = v.toNat / 256 := by simp only [fld]; omega
  simp only [State.bar0Write, hdiv, hfld, Bool.and_eq_true, decide_eq_true_eq]
  rw [if_neg (by omega), if_neg (by omega), if_neg (by omega), if_neg (by omega), if_pos (by omega)]
  refine ⟨fun h => if_neg (by omega), fun h => ?_⟩
  rw [if_pos (by omega)]
  split
  · exact ⟨_, rfl⟩
  · exact ⟨_, rfl⟩

/-! ### ENG_DB and EMB_CMD -/

theorem State.bar0Write_engDb (s : State) (m : Master) (e : Fin 16) (v : W32) :
    s.bar0Write m (0x700 + 4 * e.1) v = s.engDbWrite e v := by
  have he := e.2
  have hdiv : finOf 16 ((0x700 + 4 * e.1 - 0x700) / 4) = e := Fin.ext (by simp only [finOf, Fin.val_ofNat]; omega)
  simp only [State.bar0Write, hdiv, Bool.and_eq_true, decide_eq_true_eq]
  rw [if_neg (by omega), if_neg (by omega), if_neg (by omega), if_neg (by omega), if_neg (by omega), if_neg (by omega),
    if_neg (by omega), if_neg (by omega), if_neg (by omega), if_pos (by omega)]

theorem State.bar0Write_embCmd (s : State) (m : Master) (e : Fin 16) (v : W32) :
    s.bar0Write m (0x804 + 16 * e.1) v = s.hostWake.embCmd m e v := by
  have he := e.2
  have hdiv : finOf 16 ((0x804 + 16 * e.1 - 0x800) / 16) = e := Fin.ext (by simp only [finOf, Fin.val_ofNat]; omega)
  simp only [State.bar0Write, hdiv, Bool.and_eq_true, decide_eq_true_eq]
  rw [if_neg (by omega), if_neg (by omega), if_neg (by omega), if_neg (by omega), if_neg (by omega), if_neg (by omega),
    if_neg (by omega), if_neg (by omega), if_neg (by omega), if_neg (by omega), if_pos (by omega)]

/-- From READY on ENG_DB is reached whether its cluster is powered or not (R59, R81). -/
theorem State.bar0Err_engDb {s : State} (e : Fin 16) {i : Nat} (hi : i < 4) (h : s.live = true) :
    s.bar0Err (0x700 + 4 * e.1 + i) = none := by
  have he := e.2
  have hemb : embOf (0x700 + 4 * e.1 + i) = none := by
    simp only [embOf, Bool.and_eq_true, decide_eq_true_eq]
    rw [if_neg (by omega), if_neg (by omega), if_neg (by omega), if_neg (by omega)]
  simp [State.bar0Err, hemb, h]

theorem State.bar0Err_embCmd {s : State} (e : Fin 16) {i : Nat} (hi : i < 4) (h : s.live = true) (hu : s.embUp e = true) :
    s.bar0Err (0x804 + 16 * e.1 + i) = none := by
  have he := e.2
  have hdiv : finOf 16 ((0x804 + 16 * e.1 + i - 0x800) / 16) = e := Fin.ext (by simp only [finOf, Fin.val_ofNat]; omega)
  have hemb : embOf (0x804 + 16 * e.1 + i) = some e := by
    simp only [embOf, Bool.and_eq_true, decide_eq_true_eq, hdiv]
    rw [if_neg (by omega), if_neg (by omega), if_pos (by omega)]
  simp [State.bar0Err, hemb, h, hu]

end Sys2Proof.Machine
end

section
/-!
Locks as the masters read and write them (R59, R67–R71, R82): LOCK_ACQUIRE and LOCK_RELEASE.
-/
namespace Sys2Proof.Machine
open Sys2Proof.Claim

/-! ### What the host's interface keeps of an answer -/

/-- From `s` to `t` only what the host interface holds or shows may differ, the PCIe configuration apart. -/
structure Answered (s t : State) : Prop where
  all : ∃ f : Hif → Hif, (∀ h, (f h).pcie = h.pcie) ∧ t = s.updHif f

theorem Answered.refl (s : State) : Answered s s := ⟨id, fun _ => rfl, rfl⟩

theorem State.updHif_answered {s t : State} (h : Answered s t) (f : Hif → Hif)
    (hf : ∀ h, (f h).pcie = h.pcie := by intro h; rfl) : Answered s (t.updHif f) := by
  obtain ⟨g, hg, rfl⟩ := h.all
  exact ⟨f ∘ g, fun h => (hf _).trans (hg h), rfl⟩

theorem Answered.unhealthy {s t : State} (h : Answered s t) : t.unhealthy = s.unhealthy := by
  obtain ⟨f, -, rfl⟩ := h.all; rfl

theorem Answered.restore {s t : State} (h : Answered s t) : ({ t with hif := s.hif } : State) = s := by
  obtain ⟨f, -, rfl⟩ := h.all; rfl

theorem Answered.reaches {s t : State} (h : Answered s t) (l : Fin 24) (m : Master) : reaches t l m ↔ reaches s l m := by
  obtain ⟨f, hf, rfl⟩ := h.all
  exact reaches_congr l m rfl rfl rfl (hf _)

theorem Answered.afterRead {s t : State} (h : Answered s t) (m : Master) (l : Fin 24) :
    Answered (s.afterRead m l) (t.afterRead m l) := by
  obtain ⟨f, hf, rfl⟩ := h.all
  exact ⟨f, hf, s.afterRead_updHif m l f⟩

theorem Answered.trans {a b c : State} (h : Answered a b) (g : Answered b c) : Answered a c := by
  obtain ⟨f, hf, rfl⟩ := g.all
  exact State.updHif_answered h f hf

theorem State.parEnd_answered {s t : State} (h : Answered s t) (hd : Option W16) (bad : Bool) :
    Answered s (t.parEnd hd bad) := State.updHif_answered h _

theorem State.spiAnswer_answered {s t : State} (h : Answered s t) (n : Nat) (data : Option (List W32)) :
    Answered s (t.spiAnswer n data) := State.updHif_answered h _

/-! ### By BAR0 -/

theorem State.hostOn_of_isHost {s : State} {m : Master} (h : s.isHost m = true) :
    s.pwr.hifsel.1 ≠ 3 ∧ s.hostOn s.pwr.hifsel.1 = true ∧ (m = .host ∨ m = .dma ∧ s.pwr.hifsel = 0) := by
  simpa [State.isHost, State.hostServed, and_assoc] using h

/-- Over PCIe a read of a register completes with its word or as a Completer Abort (R59). -/
theorem State.hostLoad_pcie {s : State} (m : Master) (off : Nat) (h : s.pwr.hifsel = 0) :
    s.hostLoad m off = .next ((s.bar0Read m off).2.updHif fun h => { h with
      rdata := [(s.bar0Read m off).1.1], rerr := (s.bar0Read m off).1.2 }) := by
  simp [State.hostLoad, h]

section
variable {s : State} {l : Fin 24} (hl : s.lockReach .host l = true)
include hl

/-- On the parallel bus the low half of a lock's register is its read (R53). -/
theorem State.parRead_lock (hon : s.hostOn 1 = true) :
    Answered (s.afterRead .host l) (s.parRead false (0x400 + 4 * l.1) false) := by
  have hlt := l.2
  have hoff : (0x400 + 4 * l.1) % 0x10000 = 0x400 + 4 * l.1 := by omega
  have hdown : (0x400 + 4 * l.1) / 4 * 4 = 0x400 + 4 * l.1 := by omega
  have hreg : 0x400 + 4 * l.1 < 0x1000 := by omega
  simp only [State.parRead, hon, hoff, hdown, hreg, State.bar0Read_lock .host hl, Bool.not_true, Bool.not_false,
    Bool.false_eq_true, Bool.true_and, decide_true, if_false, if_true]
  exact State.parEnd_answered (State.updHif_answered (Answered.refl _) _) _ _

theorem State.hostRead_lock : (s.hostRead .host false (0x400 + 4 * l.1) 4).2 = s.afterRead .host l := by
  have hlt := l.2
  rw [State.hostRead, if_neg Bool.false_ne_true, State.bar0ReadRun_word (by omega) (by omega), State.bar0Read_lock _ hl]

/-- On SPI a lock is read by a READ0 of one word (R54, R55). -/
theorem State.spiRead_lock (hon : s.hostOn 2 = true) : ∃ t, Answered (s.afterRead .host l) t ∧
    s.spiRead false (BitVec.ofNat 24 (0x400 + 4 * l.1)) 0 = .next t := by
  have hlt := l.2
  have hoff : spiOff false (BitVec.ofNat 24 (0x400 + 4 * l.1)) = 0x400 + 4 * l.1 := by
    simp only [spiOff, BitVec.toNat_ofNat, Bool.false_eq_true, if_false]
    omega
  have hrow : ∀ o, 0x400 ≤ o → o < 0x600 → barRow o = 2 := fun o h1 h2 => by
    simp only [barRow]
    rw [if_neg (by omega), if_neg (by omega), if_pos h2]
  have hburst : burstOk false (0x400 + 4 * l.1) ((0 : BitVec 8).toNat + 1) = true := by
    have hrows : barRow (0x400 + 4 * l.1) = barRow (0x400 + 4 * l.1 + 4 * 1 - 1) := by
      rw [hrow _ (by omega) (by omega), hrow _ (by omega) (by omega)]
    have hend : 0x400 + 4 * l.1 + 4 * 1 ≤ 0x10000 := by omega
    simp [burstOk, hrows, hend]
  have hidle : Answered s (s.updHif fun h => { h with spiBusy := false }) :=
    State.updHif_answered (Answered.refl s) _
  simp only [State.spiRead, hon, hoff, hburst, Bool.not_true, Bool.false_eq_true, if_false]
  refine ⟨_, State.spiAnswer_answered ?_ _ _, rfl⟩
  rw [show 4 * ((0 : BitVec 8).toNat + 1) = 4 from rfl, State.hostRead_lock (s := s.updHif _) hl]
  exact hidle.afterRead .host l

/-- The host reads a lock that it reaches; what its interface holds of the answer apart, this is the read of R68. -/
theorem State.hostLoad_lock {m : Master} (hh : s.isHost m = true) :
    ∃ t, Answered (s.afterRead m l) t ∧ s.hostLoad m (0x400 + 4 * l.1) = .next t := by
  obtain ⟨hne, hon, hm⟩ := State.hostOn_of_isHost hh
  by_cases h0 : s.pwr.hifsel = 0
  · rw [State.hostLoad_pcie m _ h0, State.bar0Read_lock m hl]
    exact ⟨_, State.updHif_answered (Answered.refl _) _, rfl⟩
  · obtain rfl : m = .host := hm.resolve_right fun h => h0 h.2
    have hsel : s.pwr.hifsel = 1 ∨ s.pwr.hifsel = 2 := by omega
    obtain h | h := hsel <;> rw [h] at hon
    · exact ⟨_, State.parRead_lock hl hon, if_pos h⟩
    · obtain ⟨t, ht, hr⟩ := State.spiRead_lock hl hon
      exact ⟨t, ht, by rw [State.hostLoad, if_neg (by simp [h]), if_pos h, hr]⟩

end

end Sys2Proof.Machine
end

section
/-!
LOCK_ACQUIRE and LOCK_RELEASE by every master that reaches the lock (R65, R67–R71, R82).
-/
namespace Sys2Proof.Machine
open Sys2Proof.Claim

/-! ### By the engine map -/

@[simp] theorem finOf_val (f : Fin 16) : finOf 16 f.1 = f := Fin.ext (Nat.mod_eq_of_lt f.2)

/-- A lock that an engine reaches is that of an engine mailbox of its cluster, and of no checker's. -/
theorem lockReach_eng {s : State} {e : Fin 16} {l : Fin 24} (h : s.lockReach (.eng e) l = true) :
    ∃ f : Fin 16, 8 ≤ l.1 ∧ l.1 - 8 = f.1 ∧ embLock f = l ∧ clOf f = clOf e ∧ s.checker f = false := by
  have hl := l.2
  simp only [State.lockReach, Bool.and_eq_true, decide_eq_true_eq, beq_iff_eq, Bool.not_eq_true'] at h
  obtain ⟨⟨⟨h8, hcl⟩, hck⟩, -⟩ := h
  refine ⟨finOf 16 (l.1 - 8), h8, ?_, Fin.ext ?_, hcl, hck⟩
  · simp only [finOf, Fin.val_ofNat]; omega
  · simp only [embLock, finOf, Fin.val_ofNat]; omega

section
variable {s : State} {e : Fin 16} {l : Fin 24} (hu : s.unhealthy = false) (ha : alive s e)
variable (hl : s.lockReach (.eng e) l = true)
include hu ha hl

theorem State.acquire_eng : s.acquire (.eng e) l = .next (s.afterRead (.eng e) l) := by
  obtain ⟨f, h8, hf, hlock, hcl, hck⟩ := lockReach_eng hl
  have htouch := State.engineTouch_box ha (by omega) (by omega) (by omega) (boxAt_lock e f hcl)
    (by rintro g ⟨⟩; exact hck)
  have hload : (s.boxLoad e 4 (.lock f)).2 = s.afterRead (.eng e) l := by
    simp only [State.boxLoad, hlock, State.lockRead_eq]
  rw [hload, State.settle_of_healthy (by rw [State.afterRead_unhealthy, hu])] at htouch
  simp [State.acquire, State.resolve, h8, hf, hcl, htouch]

theorem State.lockStore_eng (v : W32) (hv : v.toNat < 256) :
    s.lockStore (.eng e) l v = .next (s.lockWrite (.eng e) l v) := by
  obtain ⟨f, h8, hf, hlock, hcl, hck⟩ := lockReach_eng hl
  have hstore := State.engineStore_box ha (by omega) (by omega) (by omega) (boxAt_lock e f hcl)
    (by rintro g ⟨⟩; exact hck) v rfl
  have hput : s.boxPut e (leBytes 4 v.toNat) (.lock f) = .next (s.lockWrite (.eng e) l v) := by
    simp only [State.boxPut, leNat_leBytes_word, hlock, BitVec.ofNat_toNat, BitVec.setWidth_eq]
    rw [if_neg (by omega)]
  have hsettle : (s.lockWrite (.eng e) l v).settle = s.lockWrite (.eng e) l v := by
    apply State.settle_of_healthy
    rw [State.lockWrite_eq _ _ _ _ hv]
    split <;> simp [hu]
  rw [hput] at hstore
  simp only [andThen, hsettle] at hstore
  simp [State.lockStore, h8, hf, hcl, hstore]

end

/-! ### By every master -/

section
variable {s : State} {m : Master} {l : Fin 24}

/-- A host or its DMA that reaches a lock reaches it through BAR0. -/
theorem reaches_host (hm : s.resolve m = .host ∨ s.resolve m = .dma) (h : reaches s l m) :
    s.isHost (s.resolve m) = true ∧ s.lockReach .host l = true := by
  unfold reaches at h
  obtain hm | hm := hm <;> rw [hm] at h ⊢ <;> exact h

/-- A master is an engine, the supervisor, the pair's Aklos, or the host or its DMA. -/
theorem State.resolve_cases (s : State) (m : Master) : (∃ e, s.resolve m = .eng e) ∨ s.resolve m = .supv ∨
    s.resolve m = .peer ∨ s.resolve m = .host ∨ s.resolve m = .dma := by
  cases h : s.resolve m with
  | pcie r => exact absurd h (s.resolve_ne_pcie m r)
  | _ => simp

/-- A read of a lock by a master that reaches it (R68). -/
theorem State.acquire_of_reaches (hu : s.unhealthy = false) (h : reaches s l m) :
    ∃ t, Answered (s.afterRead (s.resolve m) l) t ∧ s.acquire m l = .next t := by
  have hreach := lockReach_of_reaches h
  have hself : s.acquire m l = s.acquire (s.resolve m) l := by simp only [State.acquire, State.resolve_resolve]
  rw [hself]
  obtain ⟨e, he⟩ | hm | hm | hm := s.resolve_cases m
  · unfold reaches at h
    rw [he] at h hreach ⊢
    exact ⟨_, Answered.refl _, State.acquire_eng hu h.1 hreach⟩
  · rw [hm] at hreach ⊢
    exact ⟨_, Answered.refl _, by simp [State.acquire, State.resolve, hreach, State.lockRead_eq]⟩
  · rw [hm] at hreach ⊢
    exact ⟨_, Answered.refl _, by simp [State.acquire, State.resolve, hreach, State.lockRead_eq]⟩
  · obtain ⟨hh, hl⟩ := reaches_host hm h
    obtain ⟨t, ht, hload⟩ := State.hostLoad_lock hl hh
    refine ⟨t, ht, ?_⟩
    rw [← hload]
    obtain hm | hm := hm <;> rw [hm] at hh ⊢ <;> simp [State.acquire, State.resolve, hh]

/-- A write of a lock without a reserved bit by a master that reaches it (R69). -/
theorem State.lockStore_of_reaches (hu : s.unhealthy = false) (h : reaches s l m) (v : W32) (hv : v.toNat < 256) :
    s.lockStore m l v = .next (s.lockWrite (s.resolve m) l v) := by
  have hreach := lockReach_of_reaches h
  have hreg : ∀ r, r = s.resolve m → (r = .host ∨ r = .dma) →
      s.hostReg m (0x400 + 4 * l.1) v = .next (s.lockWrite r l v) := by
    rintro _ rfl hm
    have hlt := l.2
    obtain ⟨hh, hl⟩ := reaches_host hm h
    rw [State.hostReg_served (by omega) (by omega) v hh fun i hi => State.bar0Err_lock hi hl]
    exact (s.bar0Write_lock _ l v).1 hv
  cases m with
  | eng e => exact State.lockStore_eng hu h.1 h.2 v hv
  | supv => exact congrArg Host.Outcome.next (if_pos hreach)
  | peer => exact congrArg Host.Outcome.next (if_pos hreach)
  | host => exact hreg _ rfl (.inl rfl)
  | dma => exact hreg _ rfl (.inr rfl)
  | pcie r => exact hreg _ rfl (s.resolve_pcie r)

/-- A reserved bit in the host's write of a lock is its error (R69). -/
theorem State.lockStore_reserved (hm : s.resolve m = .host ∨ s.resolve m = .dma) (h : reaches s l m) (v : W32)
    (hv : 256 ≤ v.toNat) : ∃ obj : W16, s.lockStore m l v = .fault (.hostError obj) := by
  have hlt := l.2
  obtain ⟨hh, hl⟩ := reaches_host hm h
  obtain ⟨obj, hobj⟩ := (s.bar0Write_lock (s.resolve m) l v).2 hv
  have hreg : s.hostReg m (0x400 + 4 * l.1) v = .fault (.hostError obj) := by
    rw [State.hostReg_served (by omega) (by omega) v hh fun i hi => State.bar0Err_lock hi hl]
    exact hobj
  refine ⟨obj, ?_⟩
  cases m with
  | host | dma | pcie r => exact hreg
  | eng e | supv | peer => simp [State.resolve] at hm

/-- Of the masters that read a lock in one cycle the winner's read comes first, and the others find the lock held (R70). -/
theorem execLockAcquire_of_reaches {w : Master} {others : List Master} (hu : s.unhealthy = false) (hr : reaches s l m)
    (hrs : ∀ x ∈ others, reaches s l x) (hw : w ∈ m :: others)
    (hmin : ∀ x ∈ m :: others, (Master.id (s.resolve w)).toNat ≤ (Master.id (s.resolve x)).toNat) :
    ∃ t, Answered (s.afterRead (s.resolve w) l) t ∧ execLockAcquire m l others s = .next t := by
  have hall : (others.map s.resolve).filter (fun x => s.lockReach x l) = others.map s.resolve := by
    refine List.filter_eq_self.mpr fun x hx => ?_
    obtain ⟨y, hy, rfl⟩ := List.mem_map.mp hx
    exact lockReach_of_reaches (hrs y hy)
  have hwr : reaches s l (s.resolve w) := by
    have hw' : reaches s l w := by
      obtain rfl | hw := List.mem_cons.mp hw
      · exact hr
      · exact hrs w hw
    simpa only [reaches, State.resolve_resolve] using hw'
  simp only [execLockAcquire, hall, lockWinner_resolve hw hmin]
  obtain ⟨t, ht, hta⟩ := State.acquire_of_reaches hu hwr
  rw [State.resolve_resolve] at ht
  rw [hta]
  simp only [andThen]
  split
  · exact ⟨t, ht, rfl⟩
  · have hut : t.unhealthy = false := by rw [ht.unhealthy, State.afterRead_unhealthy, hu]
    have hrt : reaches t l m := (ht.reaches l m).mpr ((s.afterRead_reaches (s.resolve w) l m).mpr hr)
    obtain ⟨u, hu', hua⟩ := State.acquire_of_reaches hut hrt
    refine ⟨u, ?_, hua⟩
    have hlost := ht.afterRead (t.resolve m) l
    rw [State.afterRead_afterRead] at hlost
    exact hlost.trans hu'

/-- The host's read of a lock over PCIe completes with the word read (R59, R68). -/
theorem execLockAcquire_pcie (hp : s.pwr.hifsel = 0) (hs : s.hostServed = true)
    (hm : s.resolve m = .host ∨ s.resolve m = .dma) :
    execLockAcquire m l [] s = .next ((s.bar0Read (s.resolve m) (0x400 + 4 * l.1)).2.updHif fun h => { h with
      rdata := [(s.bar0Read (s.resolve m) (0x400 + 4 * l.1)).1.1]
      rerr := (s.bar0Read (s.resolve m) (0x400 + 4 * l.1)).1.2 }) := by
  have hacq : s.acquire (s.resolve m) l = s.hostLoad (s.resolve m) (0x400 + 4 * l.1) := by
    obtain hm | hm := hm <;> rw [hm] <;> simp [State.acquire, State.resolve, State.isHost, hs, hp]
  simp only [execLockAcquire, List.map_nil, List.filter_nil, lockWinner, List.foldl_nil, hacq, State.hostLoad_pcie _ _ hp]
  simp [andThen]

end

end Sys2Proof.Machine
end

section
/-!
The engine mailboxes and the doorbells between host and engines (R64–R66, R73, R75, R80, R83).
-/
namespace Sys2Proof.Machine
open Sys2Proof.Claim

/-! ### Engine mailboxes -/

theorem andThen_next (o : Host.Outcome State Fault Refusal) : andThen o .next = o := by cases o <;> rfl

section
variable (s : State) (m : Master) (e : Fin 16)

/-! EMB_CMD written with one of its bits (R65). -/

theorem State.embCmd_post : s.embCmd m e 1 = s.embPost m e := by
  simp [State.embCmd, fld, andThen_next]

theorem State.embCmd_inRel : s.embCmd (.eng e) e 2 = .next (s.embInRel e) := by
  simp [State.embCmd, fld, andThen]

theorem State.embCmd_outPost : s.embCmd (.eng e) e 4 = .next (s.embOutPost e) := by
  simp [State.embCmd, fld, andThen]

theorem State.embCmd_outRel : s.embCmd m e 8 = .next (s.embOutRel m e) := by
  simp [State.embCmd, fld, andThen]

end

section
variable {s : State} {m : Master} {e : Fin 16}

/-- POST by the owner of the lock fills an empty inbound buffer, with EVP bit 4 in engine e (R65). -/
theorem State.embPost_owner (hne : m ≠ .eng e) (hlock : (Vec.at s.emb e).lock = Master.id m)
    (hfree : (Vec.at s.emb e).inFull = false) :
    s.embPost m e = .next ((s.updEmb e fun x => { x with inFull := true }).evp e 4) := by
  simp [State.embPost, hne, hlock, hfree]

/-- OUT_REL by a reader empties the outbound buffer, with EVP bit 4 in engine e (R65). -/
theorem State.embOutRel_reader (hne : m ≠ .eng e) :
    s.embOutRel m e = (s.updEmb e fun x => { x with outFull := false }).evp e 4 := if_neg hne

/-- An engine of the cluster writes EMB_CMD: POST takes the lock, its own mailbox none (R65, R82). -/
theorem State.embStore_eng {f : Fin 16} {v : W32} {t : State} (ha : alive s f) (hcl : clOf e = clOf f)
    (hck : s.checker e = false) (hown : s.boxStore f v.toNat (.cmd e) = true)
    (hcmd : s.embCmd (.eng f) e v = .next t) (ht : t.unhealthy = false) : s.embStore (.eng f) e v = .next t := by
  have hstore := State.engineStore_box ha (by omega) (by omega) (by omega) (boxAt_cmd f e hcl)
    (by rintro g ⟨⟩; exact hck) v hown
  have hput : s.boxPut f (leBytes 4 v.toNat) (.cmd e) = .next t := by
    simp only [State.boxPut, leNat_leBytes_word, BitVec.ofNat_toNat, BitVec.setWidth_eq, hcmd]
  rw [hput] at hstore
  simp only [andThen, State.settle_of_healthy ht] at hstore
  simp [State.embStore, hcl, hstore]

/-- Engine e writes EMB_CMD of its own mailbox (R66). -/
theorem State.embStore_own {v : W32} {t : State} (ha : alive s e)
    (hcmd : s.embCmd (.eng e) e v = .next t) (ht : t.unhealthy = false) : s.embStore (.eng e) e v = .next t :=
  State.embStore_eng ha rfl ha.2 (by simp [State.boxStore]) hcmd ht

/-- A master that may post to an engine mailbox is not its engine. -/
theorem ne_eng_of_embReach (h : embReach s e m) : s.resolve m ≠ .eng e := by
  intro hm
  unfold embReach at h
  rw [hm] at h
  obtain ⟨-, -, hne, -⟩ := h
  exact hne rfl

/-- Another master writes EMB_CMD: POST takes the lock, for an engine (R65, R82). -/
theorem State.embStore_of_embReach {v : W32} {t : State} (h : embReach s e m)
    (hown : v.toNat % 2 = 0 ∨ (Vec.at s.emb e).lock = Master.id (s.resolve m))
    (hcmd : s.embCmd (s.resolve m) e v = .next t) (ht : t.unhealthy = false) : s.embStore m e v = .next t := by
  have hreg : ∀ r, r = s.resolve m → (r = .host ∨ r = .dma) → s.hostReg m (0x804 + 16 * e.1) v = .next t := by
    rintro _ rfl hm
    have he := e.2
    obtain ⟨hh, hlive, hup, hrun⟩ : s.isHost (s.resolve m) = true ∧ s.live = true ∧ s.embUp e = true ∧
        s.pwr.phase = .run := by
      unfold embReach at h
      obtain hm | hm := hm <;> rw [hm] at h ⊢ <;> exact h
    rw [State.hostReg_served (by omega) (by omega) v hh fun i hi => State.bar0Err_embCmd e hi hlive hup,
      State.bar0Write_embCmd]
    have hawake : s.hostWake = s := by simp [State.hostWake, hrun]
    rw [hawake, hcmd]
  cases m with
  | eng f =>
    obtain ⟨ha, hcl, -, hck⟩ := h
    refine State.embStore_eng ha hcl hck ?_ hcmd ht
    obtain hv | hl := hown
    · simp [State.boxStore, hv]
    · simp only [State.resolve] at hl; simp [State.boxStore, hl]
  | supv =>
    obtain ⟨hlive, hup⟩ := h
    simp only [State.resolve] at hcmd
    simp [State.embStore, hlive, hup, hcmd]
  | peer =>
    obtain ⟨hlive, hup⟩ := h
    simp only [State.resolve] at hcmd
    simp [State.embStore, hlive, hup, hcmd]
  | host => exact hreg _ rfl (.inl rfl)
  | dma => exact hreg _ rfl (.inr rfl)
  | pcie r => exact hreg _ rfl (s.resolve_pcie r)

end

/-! ### ENG_DB -/

/-- A ring wakes a module in STANDBY that waits for the host, and no other (R556). -/
theorem State.hostWake_eq (s : State) :
    s.hostWake = if s.pwr.phase = .standby ∧ s.pwr.wakeWord.getLsbD 2 = true then s.wakeStandby else s := by
  by_cases hp : s.pwr.phase = .standby
  · cases hw : s.pwr.wakeWord.getLsbD 2 <;>
      simp only [State.hostWake, State.wakeBy, hp, hw] <;> rfl
  · simp [State.hostWake, hp]

/-- A ring wakes a module once. -/
theorem State.hostWake_hostWake (s : State) : s.hostWake.hostWake = s.hostWake := by
  by_cases h : s.pwr.phase = .standby ∧ s.pwr.wakeWord.getLsbD 2 = true
  · have hw : s.hostWake = s.wakeStandby := by rw [State.hostWake_eq, if_pos h]
    have hrun : s.wakeStandby.pwr.phase ≠ .standby := Phase.noConfusion
    rw [hw, State.hostWake_eq, if_neg fun hs => hrun hs.1]
  · have hw : s.hostWake = s := by rw [State.hostWake_eq, if_neg h]
    rw [hw, hw]

/-- To wake takes requests for power; the domains stand until they are served. -/
theorem State.hostWake_pwr (s : State) : ∃ p : Power, p.domains = s.pwr.domains ∧ s.hostWake = { s with pwr := p } := by
  rw [State.hostWake_eq]
  split
  · exact ⟨s.wakeStandby.pwr, rfl, rfl⟩
  · exact ⟨s.pwr, rfl, rfl⟩

theorem vecUpd_self {α : Type} {n : Nat} (v : Vec α n) (i : Fin n) (f : α → α) (h : f (Vec.at v i) = Vec.at v i) :
    Vec.upd v i f = v := by
  rw [Vec.upd, h]
  exact Vector.set_getElem_self ..

/-- ENG_DB written with its RING bit and the WAKEEN it holds is a ring (R73). -/
theorem State.engDbWrite_ring (s : State) (e : Fin 16) :
    s.engDbWrite e (bitAt 32 31 (Vec.at s.emb e).wakeEn ||| 1) = .next (s.engDbRing e) := by
  generalize hw : (Vec.at s.emb e).wakeEn = w
  have hrsv : fld (bitAt 32 31 w ||| 1) 1 30 = 0 := by cases w <;> decide
  have hring : (bitAt 32 31 w ||| 1).getLsbD 0 = true := by cases w <;> decide
  have hwake : (bitAt 32 31 w ||| 1).getLsbD 31 = w := by cases w <;> decide
  have hsame : (s.updEmb e fun x => { x with wakeEn := w }) = s := by
    rw [State.updEmb, vecUpd_self _ _ _ (by rw [← hw])]
  have hdouble : s.hostWake.engDbRing e = s.engDbRing e := by
    simp only [State.engDbRing, State.hostWake_hostWake]
  simp only [State.engDbWrite, hrsv, hring, hwake, hsame, hdouble]
  rfl

/-- Where a ring goes: to a running engine, or it stays and may ask for the cluster's power (R73, R80, R81). -/
theorem State.engDbRing_cases {s : State} {e : Fin 16} (hck : s.checker e = false) :
    (s.powered (clDomain (clOf e)) = true → (Vec.at s.eng e).run = true → s.engDbRing e = s.hostWake.evp e 2) ∧
    (s.powered (clDomain (clOf e)) = true → (Vec.at s.eng e).run = false →
      s.engDbRing e = s.hostWake.updEmb e fun x => { x with ring := true }) ∧
    (s.powered (clDomain (clOf e)) = false → s.engDbRing e =
      (s.hostWake.updEmb e fun x => { x with ring := true }).updPwr fun p => { p with
        requests := p.requests ++ if (Vec.at s.emb e).wakeEn then [⟨finOf 12 (clDomain (clOf e)), true⟩] else [] }) := by
  obtain ⟨p, hp, hwake⟩ := s.hostWake_pwr
  have hpow : s.hostWake.powered (clDomain (clOf e)) = s.powered (clDomain (clOf e)) := by
    rw [hwake]; simp only [State.powered, hp]
  have hck' : s.hostWake.checker e = false := by rw [hwake]; exact hck
  have heng : s.hostWake.eng = s.eng := by rw [hwake]
  have hemb : s.hostWake.emb = s.emb := by rw [hwake]
  simp only [State.engDbRing, hck', hpow, heng, hemb, Bool.false_eq_true, if_false]
  refine ⟨fun hd hr => ?_, fun hd hr => ?_, fun hd => ?_⟩
  · rw [hd, hr]; rfl
  · rw [hd, hr]; rfl
  · rw [hd]
    cases (Vec.at s.emb e).wakeEn with
    | true => rfl
    | false =>
      have hsame : ∀ t : State, (t.updPwr fun p => { p with requests := p.requests ++ [] }) = t := fun t => by
        simp [State.updPwr]
      exact (hsame _).symm

end Sys2Proof.Machine
end

section
/-!
Signals to the host and what they leave alone (R46, R51, R59, R75, R76): the error response and the rings of an engine (R83).
-/
namespace Sys2Proof.Machine
open Sys2Proof.Claim

/-! ### Signals -/

/-- From `s` to `t` only the PCIe configuration's pending messages and the counts of the vectors may differ, and over the
parallel bus and SPI nothing. -/
structure Signalled (s t : State) : Prop where
  all : ∃ p n, t = s.updHif fun h => { h with pcie := p, signals := n }
  level : s.pwr.hifsel ≠ 0 → t = s

theorem Signalled.refl (s : State) : Signalled s s := ⟨⟨s.hif.pcie, s.hif.signals, rfl⟩, fun _ => rfl⟩

theorem Signalled.trans {a b c : State} (h : Signalled a b) (g : Signalled b c) : Signalled a c := by
  refine ⟨?_, fun ha => ?_⟩
  · obtain ⟨p, n, rfl⟩ := h.all
    obtain ⟨q, k, rfl⟩ := g.all
    exact ⟨q, k, rfl⟩
  · obtain rfl := h.level ha
    exact g.level ha

theorem Hif.message_eq (h : Hif) (v : Nat) :
    h.message v = { h with pcie := (h.message v).pcie, signals := (h.message v).signals } := by
  unfold Hif.message
  split <;> rfl

theorem State.signal_signalled (s : State) (b : Nat) (status : Bool) : Signalled s (s.signal b status) := by
  refine ⟨?_, fun h => if_neg h⟩
  unfold State.signal
  split
  · split
    · exact ⟨_, s.hif.signals, rfl⟩
    · split
      · exact ⟨_, _, congrArg (fun h => { s with hif := h }) (Hif.message_eq _ _)⟩
      · exact (Signalled.refl s).all
  · exact (Signalled.refl s).all

theorem State.intRise_signalled (s : State) (old : Hif) : Signalled s (s.intRise old) := by
  unfold State.intRise
  split
  · exact s.signal_signalled _ _
  · exact Signalled.refl s

/-! ### The error response -/

theorem Signalled.failed {s u t : State} {b addr : Nat} {win wr : Bool} (h : Signalled u t)
    (hu : failed s u b win wr addr) : failed s t b win wr addr := by
  obtain ⟨p, n, rfl⟩ := h.all
  exact hu

/-- HIF_ERRADDR as its fields make it up, as a number (R46). -/
theorem erraddr_eq (win wr : Bool) {addr : Nat} (ha : addr < 2 ^ 24) :
    (bitAt 32 31 true ||| bitAt 32 30 win ||| bitAt 32 29 wr ||| place addr 0 24 : W32) =
      BitVec.ofNat 32 (0x80000000 + (if win then 0x40000000 else 0) + (if wr then 0x20000000 else 0) + addr) := by
  have hplace : place addr 0 24 = BitVec.ofNat 32 addr := by
    rw [place, Nat.mod_eq_of_lt ha, Nat.pow_zero, Nat.mul_one]
  have hor : ∀ k, BitVec.ofNat 32 (2 ^ 24 * k) ||| BitVec.ofNat 32 addr = BitVec.ofNat 32 (2 ^ 24 * k + addr) := fun k => by
    rw [Nat.two_pow_add_eq_or_of_lt ha, BitVec.ofNat_or]
  rw [hplace]
  cases win <;> cases wr
  · exact hor 0x80
  · exact hor 0xA0
  · exact hor 0xC0
  · exact hor 0xE0

/-- An error response counts, marks and captures the access, and changes nothing beside the host interface (R46, R59). -/
theorem State.hostErr_failed (s : State) (b : Nat) {addr : Nat} (win wr : Bool) (ha : addr < 2 ^ 24) :
    failed s (s.hostErr b win wr addr) b win wr addr := by
  refine Signalled.failed (State.intRise_signalled _ _) ⟨rfl, ?_, ?_, rfl⟩
  · have hsat : satTo 255 (s.hif.errcnt.toNat + 1) = min 255 (s.hif.errcnt.toNat + 1) := by
      rw [satTo]; split <;> omega
    simp only [State.updHif_hif, hsat, BitVec.toNat_ofNat]
    omega
  · simp only [State.updHif_hif, erraddr_eq win wr ha]

/-! ### Rings by an engine -/

/-- From `s` to `t` bits of DB_S2H have rung: the host interface may differ, and the power block where HIF is down; on the
parallel bus and SPI nothing but DB_S2H differs. -/
structure Rung (s t : State) : Prop where
  rest : ∃ h p, t = { s with hif := h, pwr := p }
  powered : t.powered 10 = s.powered 10
  hifsel : t.pwr.hifsel = s.pwr.hifsel
  pwr : s.powered 10 = true → t.pwr = s.pwr
  hif : s.pwr.hifsel ≠ 0 → t.hif = { s.hif with s2h := t.hif.s2h }

theorem Rung.refl (s : State) : Rung s s := ⟨⟨s.hif, s.pwr, rfl⟩, rfl, rfl, fun _ => rfl, fun _ => rfl⟩

theorem Rung.trans {a b c : State} (h : Rung a b) (g : Rung b c) : Rung a c where
  rest := by
    obtain ⟨x, p, rfl⟩ := h.rest
    obtain ⟨y, q, rfl⟩ := g.rest
    exact ⟨y, q, rfl⟩
  powered := g.powered.trans h.powered
  hifsel := g.hifsel.trans h.hifsel
  pwr ha := (g.pwr (h.powered.trans ha)).trans (h.pwr ha)
  hif ha := by rw [g.hif (by rwa [h.hifsel]), h.hif ha]

theorem Rung.cl {s t : State} (h : Rung s t) : t.cl = s.cl := by obtain ⟨x, p, rfl⟩ := h.rest; rfl

theorem Rung.unhealthy {s t : State} (h : Rung s t) : t.unhealthy = s.unhealthy := by
  obtain ⟨x, p, rfl⟩ := h.rest; rfl

theorem Rung.restore {s t : State} (h : Rung s t) : ({ t with hif := s.hif, pwr := s.pwr } : State) = s := by
  obtain ⟨x, p, rfl⟩ := h.rest; rfl

/-- A ring sets its bit of DB_S2H (R75). -/
theorem State.ringS2H_rung (s : State) (b : Nat) :
    Rung s (s.ringS2H b) ∧ (s.ringS2H b).hif.s2h = s.hif.s2h ||| bitAt 32 b true := by
  unfold State.ringS2H
  extract_lets was s1 s2 s3
  have h3 : Signalled s1 s3 := by
    refine Signalled.trans ?_ (s2.intRise_signalled s.hif)
    unfold s2
    split
    · exact s1.signal_signalled b false
    · exact Signalled.refl s1
  obtain ⟨hrung, hbit⟩ : Rung s s3 ∧ s3.hif.s2h = s.hif.s2h ||| bitAt 32 b true := by
    have hlevel := h3.level
    obtain ⟨p, n, h⟩ := h3.all
    rw [h] at hlevel ⊢
    exact ⟨⟨⟨_, s.pwr, rfl⟩, rfl, rfl, fun _ => rfl, fun hsel => by rw [hlevel hsel]; rfl⟩, rfl⟩
  split
  · next hdown =>
    have hoff : s.powered 10 ≠ true := by
      intro hon; simp [hon] at hdown
    have hreq : Rung s3 (s3.updPwr fun p => { p with requests := p.requests ++ [⟨10, true⟩] }) :=
      ⟨⟨s3.hif, _, rfl⟩, rfl, rfl, fun hon => absurd (hrung.powered ▸ hon) hoff, fun _ => rfl⟩
    exact ⟨hrung.trans hreq, hbit⟩
  · exact ⟨hrung, hbit⟩

theorem bitAt_getLsbD {n i : Nat} (b : Nat) (hi : i < n) : (bitAt n b true).getLsbD i = decide (i = b) := by
  rw [bitAt, if_pos rfl, BitVec.getLsbD_ofNat, Nat.testBit_two_pow, decide_eq_true hi, Bool.true_and]
  exact decide_eq_decide.mpr eq_comm

/-- Bit `i` is one that the engine writes and that its cluster was granted, among the bits 24 + `bs` (R83). -/
def grantedAmong (v : W32) (grant : Byte) (bs : List Nat) (i : Nat) : Bool :=
  bs.any fun b => v.getLsbD (24 + b) && grant.getLsbD b && decide (i = 24 + b)

/-- ENG_S2H rings the granted bits among 24–31 that the engine writes (R83). -/
theorem State.engS2h_rung (s : State) (e : Fin 16) (v : W32) :
    Rung s (s.engS2h e v) ∧ ∀ i < 32, (s.engS2h e v).hif.s2h.getLsbD i =
      (s.hif.s2h.getLsbD i || grantedAmong v (Vec.at s.cl (clOf e)).grant (List.range 8) i) := by
  unfold State.engS2h
  generalize List.range 8 = bs
  induction bs generalizing s with
  | nil => exact ⟨Rung.refl s, fun i _ => by simp [grantedAmong]⟩
  | cons b bs ih =>
    rw [List.foldl_cons]
    split
    · next hring =>
      obtain ⟨h1, hbit⟩ := s.ringS2H_rung (24 + b)
      obtain ⟨h2, hbits⟩ := ih (s.ringS2H (24 + b))
      refine ⟨h1.trans h2, fun i hi => ?_⟩
      rw [hbits i hi, hbit, h1.cl]
      rw [BitVec.getLsbD_or, bitAt_getLsbD _ hi]
      simp [grantedAmong, hring, Bool.or_assoc]
    · next hring =>
      obtain ⟨h2, hbits⟩ := ih s
      refine ⟨h2, fun i hi => ?_⟩
      rw [hbits i hi]
      simp [grantedAmong, hring]

/-- The granted bits stand at 24–31 of the word (R83). -/
theorem grantedAmong_range (v : W32) (grant : Byte) {i : Nat} (hi : i < 32) :
    grantedAmong v grant (List.range 8) i = (v &&& BitVec.ofNat 32 (grant.toNat * 0x1000000)).getLsbD i := by
  have hword : (BitVec.ofNat 32 (grant.toNat * 0x1000000)).getLsbD i = (decide (24 ≤ i) && grant.getLsbD (i - 24)) := by
    rw [show (0x1000000 : Nat) = 2 ^ 24 from rfl, BitVec.getLsbD_ofNat, Nat.testBit_mul_two_pow, decide_eq_true hi, Bool.true_and]
    rfl
  rw [BitVec.getLsbD_and, hword, Bool.eq_iff_iff]
  simp only [grantedAmong, List.any_eq_true, List.mem_range, Bool.and_eq_true, decide_eq_true_eq]
  constructor
  · rintro ⟨b, -, ⟨hv, hg⟩, rfl⟩
    exact ⟨hv, by omega, by rwa [Nat.add_sub_cancel_left]⟩
  · rintro ⟨hv, h24, hg⟩
    exact ⟨i - 24, by omega, ⟨by rwa [Nat.add_sub_cancel' h24], hg⟩, by omega⟩

theorem State.engS2h_s2h (s : State) (e : Fin 16) (v : W32) : (s.engS2h e v).hif.s2h =
    s.hif.s2h ||| (v &&& BitVec.ofNat 32 ((Vec.at s.cl (clOf e)).grant.toNat * 0x1000000)) := by
  refine BitVec.eq_of_getLsbD_eq fun i hi => ?_
  rw [(s.engS2h_rung e v).2 i hi, grantedAmong_range v _ hi, BitVec.getLsbD_or]

end Sys2Proof.Machine
end

section
/-!
The commands of the locks, the engine mailboxes and the doorbells between host and engines.
-/
namespace Sys2Proof.Machine
open Sys2Proof.Claim

section
variable (s : State)

/-! ### Locks -/

theorem exec_lockAcquire {l : Fin 24} {m w : Master} {others : List Master} (hu : s.unhealthy = false)
    (hr : reaches s l m) (hrs : ∀ x ∈ others, reaches s l x) (hw : w ∈ m :: others)
    (hmin : ∀ x ∈ m :: others, (Master.id (s.resolve w)).toNat ≤ (Master.id (s.resolve x)).toNat) :
    ∃ t, exec (.lockAcquire m l others) s = .next t ∧ ({ t with hif := s.hif } : State) =
      if s.lockOwner l = 0 then s.setLock l (Master.id (s.resolve w)) else s := by
  obtain ⟨t, ht, hexec⟩ := execLockAcquire_of_reaches hu hr hrs hw hmin
  refine ⟨t, hexec, ?_⟩
  rw [← s.afterRead_hif (s.resolve w) l]
  exact ht.restore

theorem exec_lockAcquire_pcie_served {l : Fin 24} {m : Master} (hp : s.pwr.hifsel = 0) (hs : s.hostServed = true)
    (hm : s.resolve m = .host ∨ s.resolve m = .dma) (hl : s.lockReach .host l = true) :
    exec (.lockAcquire m l []) s = .next
      ((if s.lockOwner l = 0 then s.setLock l (Master.id (s.resolve m)) else s).updHif fun h => { h with
        rdata := [(s.lockOwner l).setWidth 32], rerr := false }) := by
  have h := execLockAcquire_pcie (l := l) hp hs hm
  rw [State.bar0Read_lock _ hl] at h
  exact h

theorem exec_lockAcquire_pcie_unready {l : Fin 24} {m : Master} (hp : s.pwr.hifsel = 0) (hs : s.hostServed = true)
    (hm : s.resolve m = .host ∨ s.resolve m = .dma) (hlive : s.live = false) :
    ∃ t, exec (.lockAcquire m l []) s = .next t ∧ failed s t 0 false false (0x400 + 4 * l.1) ∧ t.hif.rerr = true := by
  have hlt := l.2
  have herr : s.bar0Err (0x400 + 4 * l.1) = some 0 := by simp [State.bar0Err, hlive]
  have hread : s.bar0Read (s.resolve m) (0x400 + 4 * l.1) = ((0, true), s.hostErr 0 false false (0x400 + 4 * l.1)) := by
    simp only [State.bar0Read, herr]
  have hfail := s.hostErr_failed 0 false false (addr := 0x400 + 4 * l.1) (by omega)
  have h := execLockAcquire_pcie (l := l) hp hs hm
  rw [hread] at h
  exact ⟨_, h, hfail, rfl⟩

theorem exec_lockRelease {l : Fin 24} {m : Master} {v : W32} (hu : s.unhealthy = false) (hr : reaches s l m)
    (hv : v.toNat < 256) : exec (.lockRelease m l v) s = .next
      (if s.lockOwner l = Master.id (s.resolve m) ∧ v.toNat = (Master.id (s.resolve m)).toNat then s.setLock l 0 else s) := by
  have h := State.lockStore_of_reaches hu hr v hv
  rw [State.lockWrite_eq _ _ _ _ hv] at h
  exact h

/-! ### Engine mailboxes and doorbells -/

theorem exec_embPost {m : Master} {e : Fin 16} (hu : s.unhealthy = false) (hr : embReach s e m)
    (hlock : (Vec.at s.emb e).lock = Master.id (s.resolve m)) (hfree : (Vec.at s.emb e).inFull = false) :
    exec (.embPost m e) s = .next ((s.updEmb e fun x => { x with inFull := true }).evp e 4) := by
  refine State.embStore_of_embReach hr (.inr hlock) ?_ hu
  rw [State.embCmd_post, State.embPost_owner (ne_eng_of_embReach hr) hlock hfree]

theorem exec_embOutRel {m : Master} {e : Fin 16} (hu : s.unhealthy = false) (hr : embReach s e m) :
    exec (.embOutRel m e) s = .next ((s.updEmb e fun x => { x with outFull := false }).evp e 4) := by
  refine State.embStore_of_embReach hr (.inl rfl) ?_ hu
  rw [State.embCmd_outRel, State.embOutRel_reader (ne_eng_of_embReach hr)]

theorem exec_emb_own {e : Fin 16} (hu : s.unhealthy = false) (ha : alive s e) :
    exec (.embInRel e) s = .next (s.updEmb e fun x => { x with inFull := false }) ∧
    exec (.embOutPost e) s = .next (s.updEmb e fun x => { x with outFull := true }) ∧
    exec (.embPost (.eng e) e) s = .next s ∧ exec (.embOutRel (.eng e) e) s = .next s := by
  refine ⟨State.embStore_own ha (s.embCmd_inRel e) hu, State.embStore_own ha (s.embCmd_outPost e) hu,
    State.embStore_own ha ?_ hu, State.embStore_own ha ?_ hu⟩
  · exact (s.embCmd_post _ e).trans (if_pos rfl)
  · exact (s.embCmd_outRel _ e).trans (congrArg Host.Outcome.next (if_pos rfl))

theorem exec_engDbRing {e : Fin 16} (hup : hostUp s) : exec (.engDbRing e) s = .next (s.engDbRing e) := by
  obtain ⟨hserved, hlive⟩ := hup
  have he := e.2
  have hh : s.isHost (s.resolve .host) = true := by simp [State.isHost, State.resolve, hserved]
  refine (State.hostReg_served (by omega) (by omega) _ hh fun i hi => State.bar0Err_engDb e hi hlive).trans ?_
  rw [State.bar0Write_engDb, State.engDbWrite_ring]

theorem exec_engS2hRing {e : Fin 16} {v : W32} (hu : s.unhealthy = false) (ha : alive s e) :
    exec (.engS2hRing e v) s = .next (s.engS2h e v) := by
  have hstore := State.engineStore_box (b := .s2h) (a := 0x70001040) ha (by omega) (by omega) (by omega) rfl
    (fun _ h => nomatch h) v rfl
  have hput : s.boxPut e (leBytes 4 v.toNat) .s2h = .next (s.engS2h e v) := by
    simp only [State.boxPut, leNat_leBytes_word, BitVec.ofNat_toNat, BitVec.setWidth_eq]
  have hsettle : (s.engS2h e v).settle = s.engS2h e v :=
    State.settle_of_healthy ((s.engS2h_rung e v).1.unhealthy.trans hu)
  rw [hput] at hstore
  simp only [andThen, hsettle] at hstore
  exact hstore

end

/-- Settles O25: each command comes to one access to a lock's register, EMB_CMD, ENG_DB or ENG_S2H, by BAR0, by the engine
map or directly. -/
theorem locksAndEngineMailboxes : Obligations.LocksAndEngineMailboxes := by
  unfold Obligations.LocksAndEngineMailboxes
  refine ⟨⟨?_, ?_, ?_, ?_⟩, ?_, ?_, ?_, ?_⟩
  · intro s l m w others hu hr hrs hw hmin
    exact exec_lockAcquire s hu hr hrs hw hmin
  · intro s l m hp hs hm
    exact ⟨exec_lockAcquire_pcie_served s hp hs hm, exec_lockAcquire_pcie_unready s hp hs hm⟩
  · intro s l m v hu hr hv
    exact exec_lockRelease s hu hr hv
  · intro s l m v hm hr hv
    exact State.lockStore_reserved hm hr v hv
  · intro s m e hu hr
    exact ⟨exec_embPost s hu hr, exec_embOutRel s hu hr⟩
  · intro s e hu ha
    exact exec_emb_own s hu ha
  · intro s e hup hck
    obtain ⟨hrun, hheld, hdown⟩ := State.engDbRing_cases hck
    rw [exec_engDbRing s hup]
    exact ⟨fun hd hr => congrArg _ (hrun hd hr), fun hd hr => congrArg _ (hheld hd hr), fun hd => congrArg _ (hdown hd)⟩
  · intro s e v hu ha
    obtain ⟨hrung, -⟩ := s.engS2h_rung e v
    exact ⟨_, exec_engS2hRing s hu ha, s.engS2h_s2h e v, hrung.restore, hrung.pwr, hrung.hif⟩

end Sys2Proof.Machine
end

section
/-!
Whose turn it is: when Sundom takes a command (R87, R98–R100), and what taking it leaves.
-/
namespace Sys2Proof.Machine
open Sys2Proof.Claim

/-! ### The message (R87) -/

theorem leNat_lt (bs : List Byte) : leNat bs < 256 ^ bs.length := by
  induction bs with
  | nil => exact Nat.one_pos
  | cons b r ih =>
    have hb : b.toNat < 256 := b.isLt
    rw [leNat, List.length_cons, Nat.pow_succ]
    omega

theorem leAt_lt (bs : List Byte) (off n : Nat) : leAt bs off n < 256 ^ n :=
  Nat.lt_of_lt_of_le (leNat_lt _) (Nat.pow_le_pow_right (by decide) (List.length_take_le _ _))

/-- A field of a message spells a word of its width exactly when it holds the word's number. -/
theorem ofNat_leAt_eq_iff {w n : Nat} (hw : 256 ^ n = 2 ^ w) (bs : List Byte) (off : Nat) (x : BitVec w) :
    BitVec.ofNat w (leAt bs off n) = x ↔ leAt bs off n = x.toNat := by
  rw [← BitVec.toNat_inj, BitVec.toNat_ofNat, Nat.mod_eq_of_lt (hw ▸ leAt_lt bs off n)]

theorem msgOf_eq_iff (bs : List Byte) (code : Nat) (m : Msg) : msgOf m.chan bs = (BitVec.ofNat 16 code, m) ↔
    leAt bs 0 2 = code % 65536 ∧ leAt bs 2 2 = m.tag.toNat ∧ leAt bs 6 2 = m.flags.toNat ∧ leAt bs 8 4 = m.gen.toNat ∧
      leAt bs 12 2 = m.target.toNat ∧ (bs.drop 16).take (leAt bs 4 2) = m.payload := by
  obtain ⟨chan, tag, flags, gen, target, payload⟩ := m
  simp only [msgOf, Prod.mk.injEq, Msg.mk.injEq, true_and, slice]
  rw [ofNat_leAt_eq_iff rfl, ofNat_leAt_eq_iff rfl, ofNat_leAt_eq_iff rfl, ofNat_leAt_eq_iff rfl, ofNat_leAt_eq_iff rfl]
  exact Iff.rfl

/-! ### The channel (R98) -/

theorem chanOf_mailbox {n : Fin 9} {k : Fin 8} (h : n.1 = k.1) : chanOf n = some k :=
  (dif_pos (h ▸ k.2)).trans (congrArg some (Fin.ext h))

theorem waiting_eq_waits (s : State) (n : Fin 9) : s.waiting n = waits s n := by
  by_cases h : n.1 < 8
  · rw [State.waiting, chanOf_mailbox (k := ⟨n.1, h⟩) rfl, waits, dif_pos h]
  · rw [State.waiting, chanOf, dif_neg h, waits, dif_neg h]

/-- How many channels stand before this one in Sundom's round. -/
def State.turnsTo (s : State) (n : Fin 9) : Nat := (n.1 + 8 - s.sup.rr.1) % 9

theorem State.turnsTo_lt (s : State) (n : Fin 9) : s.turnsTo n < 9 := Nat.mod_lt _ (by decide)

/-- The `i`th channel of the round. -/
def State.nthTurn (s : State) (i : Nat) : Fin 9 := finOf 9 (s.sup.rr.1 + 1 + i)

theorem State.nthTurn_turnsTo (s : State) (n : Fin 9) : s.nthTurn (s.turnsTo n) = n := by
  have hr := s.sup.rr.2
  have hn := n.2
  apply Fin.ext
  simp only [State.nthTurn, State.turnsTo, finOf, Fin.val_ofNat]
  omega

theorem State.turnsTo_nthTurn (s : State) {i : Nat} (hi : i < 9) : s.turnsTo (s.nthTurn i) = i := by
  have hr := s.sup.rr.2
  simp only [State.nthTurn, State.turnsTo, finOf, Fin.val_ofNat]
  omega

/-- The turn is the first channel of the round with a message. -/
theorem State.turn_eq_some_iff (s : State) (c : Fin 9) :
    s.turn = some c ↔ waits s c ≠ [] ∧ ∀ n, s.turnsTo n < s.turnsTo c → waits s n = [] := by
  have hturn : s.turn = ((List.range 9).find? fun i => !(waits s (s.nthTurn i)).isEmpty).map s.nthTurn := by
    simp only [← waiting_eq_waits]
    exact List.find?_map
  rw [hturn, Option.map_eq_some_iff]
  simp only [List.find?_range_eq_some, List.mem_range, Bool.not_eq_true', List.isEmpty_eq_false_iff, Bool.not_not, List.isEmpty_iff]
  constructor
  · rintro ⟨i, ⟨hne, hi, hbefore⟩, rfl⟩
    refine ⟨hne, fun n hn => ?_⟩
    rw [s.turnsTo_nthTurn hi] at hn
    have h := hbefore _ hn
    rwa [s.nthTurn_turnsTo] at h
  · rintro ⟨hne, hbefore⟩
    refine ⟨s.turnsTo c, ⟨?_, s.turnsTo_lt c, fun j hj => hbefore _ ?_⟩, s.nthTurn_turnsTo c⟩
    · rwa [s.nthTurn_turnsTo]
    · rwa [s.turnsTo_nthTurn (Nat.lt_trans hj (s.turnsTo_lt c))]

/-- Sundom takes exactly the command that is due (R98–R100). -/
theorem State.takes_iff_due (s : State) (code : Nat) (m : Msg) : s.takes code m = true ↔ due s code m := by
  have hhead : (s.waiting m.chan).head?.map (msgOf m.chan) = some (BitVec.ofNat 16 code, m) ↔ brings s code m := by
    rw [waiting_eq_waits, Option.map_eq_some_iff]
    simp only [msgOf_eq_iff, List.head?_eq_some_iff, brings]
    exact ⟨fun ⟨bs, ⟨r, hr⟩, h⟩ => ⟨bs, r, hr, h⟩, fun ⟨bs, r, hr, h⟩ => ⟨bs, ⟨r, hr⟩, h⟩⟩
  have hne : brings s code m → waits s m.chan ≠ [] := by
    rintro ⟨bs, r, hr, -⟩
    simp [hr]
  simp only [State.takes, Bool.and_eq_true, beq_iff_eq, List.isEmpty_iff, hhead, s.turn_eq_some_iff]
  constructor
  · rintro ⟨⟨⟨⟨hlive, hproxies⟩, hmirrors⟩, -, hbefore⟩, hb⟩
    exact ⟨⟨hlive, hproxies, hmirrors, hbefore⟩, hb⟩
  · rintro ⟨⟨hlive, hproxies, hmirrors, hbefore⟩, hb⟩
    exact ⟨⟨⟨⟨hlive, hproxies⟩, hmirrors⟩, hne hb, hbefore⟩, hb⟩

/-! ### What taking it leaves (R62, R98) -/

/-- The message leaves its channel; of the rest only the channel taken last differs. -/
theorem State.takeMsg_eq (s : State) (n : Fin 9) :
    ∃ mb g, s.takeMsg n = { s with mbx := mb, sup := { s.sup with rr := n }, group := g } := by
  unfold State.takeMsg
  extract_lets s1
  split
  · exact ⟨_, s.group, rfl⟩
  · exact ⟨s.mbx, _, rfl⟩

@[simp] theorem State.takeMsg_pwr (s : State) (n : Fin 9) : (s.takeMsg n).pwr = s.pwr := by
  obtain ⟨mb, g, h⟩ := s.takeMsg_eq n
  rw [h]

@[simp] theorem State.takeMsg_cl (s : State) (n : Fin 9) : (s.takeMsg n).cl = s.cl := by
  obtain ⟨mb, g, h⟩ := s.takeMsg_eq n
  rw [h]

@[simp] theorem State.takeMsg_pair (s : State) (n : Fin 9) : (s.takeMsg n).pair = s.pair := by
  obtain ⟨mb, g, h⟩ := s.takeMsg_eq n
  rw [h]

@[simp] theorem State.takeMsg_pathTo (s : State) (n : Fin 9) (pos : Fin 4) : (s.takeMsg n).pathTo pos = s.pathTo pos := by
  obtain ⟨mb, g, h⟩ := s.takeMsg_eq n
  rw [h]; rfl

@[simp] theorem State.takeMsg_heldBy (s : State) (n : Fin 9) (t : W16) : (s.takeMsg n).heldBy t = s.heldBy t := by
  obtain ⟨mb, g, h⟩ := s.takeMsg_eq n
  rw [h]; rfl

@[simp] theorem State.takeMsg_session (s : State) (n : Fin 9) (k : Fin 8) :
    (Vec.at (s.takeMsg n).mbx k).session = (Vec.at s.mbx k).session := by
  unfold State.takeMsg
  extract_lets s1
  split
  · next j _ =>
    rw [State.updMbx_mbx, Vec.at_upd]
    split
    · next h => rw [h]; rfl
    · rfl
  · rfl

end Sys2Proof.Machine
end

section
/-!
The checks that Sundom's commands pass, in their order (R92, R95, R101, R113, R425, R427).
-/
namespace Sys2Proof.Machine
open Sys2Proof.Claim

/-! ### The checks -/

/-- The TARGET check of a row: an object of its classes, at this module where the command serves no other (R92). -/
def CmdRow.accepts (r : CmdRow) (s : State) (m : Msg) : Prop :=
  r.target s m.target = true ∧ (r.own = true → tgtPos m.target = s.pwr.mpos)

/-- The row accepts the same targets once the message has left its channel. -/
def CmdRow.steady (r : CmdRow) (s : State) (m : Msg) : Prop := r.target (taken s m) m.target = r.target s m.target

section
variable {s : State} {r : CmdRow} {m : Msg} {after : State → State} {run : State → Reply}

theorem commandThen_of_not_due (h : ¬ due s r.code m) : s.commandThen r m after run = .next s := by
  rw [← s.takes_iff_due, Bool.not_eq_true] at h
  simp [State.commandThen, h]

section
variable (hdue : due s r.code m)
include hdue

/-- What follows the taking of a command whose turn it is. -/
theorem commandThen_of_due : s.commandThen r m after run =
    if !r.target (taken s m) m.target || (r.own && tgtPos m.target != s.pwr.mpos) then .next ((taken s m).answer r.code m (.err stBadCmd 2))
    else if !(taken s m).sessionOk r.code m then .next ((taken s m).answer r.code m (.err stStaleGen ((taken s m).chanGen m.chan).toNat))
    else if (chanOf m.chan).isSome && tgtPos m.target != s.pwr.mpos then .next ((taken s m).forwardCmd r.code m)
    else (taken s m).executeCmd r m after run := by
  have h := (s.takes_iff_due r.code m).mpr hdue
  simp only [State.commandThen, h, ← s.takeMsg_pwr m.chan]
  rfl

variable (hsteady : r.steady s m)
include hsteady

theorem commandThen_of_not_accepts (h : ¬ r.accepts s m) :
    s.commandThen r m after run = .next ((taken s m).answer r.code m (.err 0x20 2)) := by
  rw [commandThen_of_due hdue, hsteady, if_pos]
  simpa [CmdRow.accepts, Decidable.imp_iff_not_or] using h

variable (hacc : r.accepts s m)
include hacc

/-- What follows the TARGET check. -/
theorem commandThen_of_accepts : s.commandThen r m after run =
    if !(taken s m).sessionOk r.code m then .next ((taken s m).answer r.code m (.err stStaleGen ((taken s m).chanGen m.chan).toNat))
    else if (chanOf m.chan).isSome && tgtPos m.target != s.pwr.mpos then .next ((taken s m).forwardCmd r.code m)
    else (taken s m).executeCmd r m after run := by
  obtain ⟨htgt, hown⟩ := hacc
  rw [commandThen_of_due hdue, hsteady, if_neg]
  simpa [htgt] using hown

variable {k : Fin 8} (hchan : m.chan.1 = k.1)
include hchan

theorem commandThen_of_stale {x : Session} (hcode : r.code ≠ 0x100) (hx : (Vec.at s.mbx k).session = some x) (hgen : x.gen ≠ m.gen) :
    s.commandThen r m after run = .next ((taken s m).answer r.code m (.err 0x12 x.gen.toNat)) := by
  rw [commandThen_of_accepts hdue hsteady hacc, if_pos]
  · simp [State.chanGen, chanOf_mailbox hchan, taken, hx]
  · simp [State.sessionOk, chanOf_mailbox hchan, taken, hx, hcode, hgen]

theorem commandThen_of_no_session (hcode : r.code ≠ 0x100) (hx : (Vec.at s.mbx k).session = none) :
    s.commandThen r m after run = .next ((taken s m).answer r.code m (.err 0x12 0)) := by
  rw [commandThen_of_accepts hdue hsteady hacc, if_pos]
  · simp [State.chanGen, chanOf_mailbox hchan, taken, hx]
  · simp [State.sessionOk, chanOf_mailbox hchan, taken, hx, hcode]

variable {x : Session} (hx : (Vec.at s.mbx k).session = some x) (hgen : x.gen = m.gen)
include hx hgen

/-- What follows the session check. -/
theorem commandThen_of_session : s.commandThen r m after run =
    if tgtPos m.target = s.pwr.mpos then (taken s m).executeCmd r m after run else .next ((taken s m).forwardCmd r.code m) := by
  have hses : (taken s m).sessionOk r.code m = true := by
    simp [State.sessionOk, chanOf_mailbox hchan, taken, hx, hgen]
  rw [commandThen_of_accepts hdue hsteady hacc, hses, chanOf_mailbox hchan]
  by_cases hpos : tgtPos m.target = s.pwr.mpos <;> simp [hpos]

theorem commandThen_of_unreached (hpos : tgtPos m.target ≠ s.pwr.mpos)
    (hout : s.pair.members.getLsbD (tgtPos m.target).1 = false ∨ s.pathTo (tgtPos m.target) = none) :
    s.commandThen r m after run = .next ((taken s m).answer r.code m (.err 0x60 1)) := by
  rw [commandThen_of_session hdue hsteady hacc hchan hx hgen, if_neg hpos, State.forwardCmd, if_pos]
  simpa [taken] using hout

end

/-- A command whose turn it is, of a session, and aimed at this module, is executed here. -/
theorem commandThen_of_asked (hasked : asked s m) (hbrings : brings s r.code m) (hsteady : r.steady s m) (hacc : r.accepts s m) :
    s.commandThen r m after run = (taken s m).executeCmd r m after run := by
  obtain ⟨hturn, hpos, k, x, hchan, hx, hgen⟩ := hasked
  rw [commandThen_of_session ⟨hturn, hbrings⟩ hsteady hacc hchan hx hgen, if_pos hpos]

/-- A command of a mailbox's channel was not sent by the active. -/
theorem fromActive_of_mailbox {k : Fin 8} (hchan : m.chan.1 = k.1) : s.fromActive m = false := by
  simp [State.fromActive, chanOf_mailbox hchan]

/-- A refused command is answered and changes nothing else (R101). -/
theorem conclude_of_refused {s1 : State} {k : Fin 8} (hchan : m.chan.1 = k.1) {status : Nat} (detail : Nat)
    (hok : status ≠ stOk) (hacc : status ≠ stAccepted) (hhw : status ≠ stHwFault) :
    s.conclude r m after (.err status detail) s1 = s.answer r.code m (.err status detail) := by
  simp [State.conclude, Answer.err, fromActive_of_mailbox hchan, hok, hacc, hhw]

theorem executeCmd_of_busy {j : Job} {k : Fin 8} (hchan : m.chan.1 = k.1) (hbusy : r.busy s m = some j) :
    s.executeCmd r m after run = .next (s.answer r.code m (.err 0x10 j.num.toNat)) := by
  have hanswer : s.conclude r m after (.err stBusy j.num.toNat) s = s.answer r.code m (.err stBusy j.num.toNat) :=
    conclude_of_refused hchan _ (by decide) (by decide) (by decide)
  simp only [State.executeCmd, hbusy, hanswer]

end

end Sys2Proof.Machine
end

section
/-!
The rows of the command table (R424): what each command asks of its target, and which of its jobs make it BUSY.
-/
namespace Sys2Proof.Machine
open Sys2Proof.Claim

/-! ### Targets -/

theorem inClass_iff (cls : List Nat) (s : State) (m : Msg) : inClass cls s m.target = true ↔ named cls m := by
  simp [inClass, named]

theorem roleTarget_iff (roles : List DlRole) (s : State) (m : Msg) :
    roleTarget roles s m.target = true ↔ drumTarget roles s m := by
  simp only [roleTarget, drumTarget, Bool.and_eq_true, inClass_iff, Bool.or_eq_true, bne_iff_ne, Decidable.imp_iff_not_or, finOf]
  cases (Vec.at s.cl (Fin.ofNat 4 (tgtInst m.target))).role <;> simp

/-- No job holds the module itself: a LOAD and a cluster reset hold clusters, their images and their units (R427). -/
theorem heldBy_module {s : State} {m : Msg} (h : named [0] m) : s.heldBy m.target = none := by
  have hobj : fld m.target 0 14 = 0 := by
    obtain ⟨hcls, hinst⟩ := h
    rw [List.mem_singleton] at hcls
    rw [hcls] at hinst
    simp only [tgtClass, tgtInst, fld, classSize] at hcls hinst ⊢
    omega
  have hunits : ∀ p, 0 ∉ loadUnits p := by simp [loadUnits]
  have hjoined : ∀ c, 0 ∉ s.clUnits c := by simp [State.clUnits]
  rw [State.heldBy, List.find?_eq_none, hobj]
  intro j _
  cases j.kind with
  | load c custom p => simp [JobKind.holds, hunits]; omega
  | resetCluster c => simp [JobKind.holds, hjoined]; omega
  | _ => simp [JobKind.holds]

/-! ### Rows -/

/-- The command may answer BUSY: its code is assigned and it is no status command (R427). -/
def mayBeBusy (code : Nat) : Prop := code ∈ commandCodes ∧ code ∉ statusCodes

/-- A row accepts the targets that a statement's `ok` names, and a job that holds the target makes it BUSY. -/
structure CmdRow.Obeys (r : CmdRow) (code : Nat) (m : Msg) (ok : State → Msg → Prop) : Prop where
  number : r.code = code
  accepts : ∀ s, r.accepts s m ↔ ok s m
  steady : ∀ s, r.steady s m
  busy : mayBeBusy code → ∀ s j, ok s m → s.heldBy m.target = some j → r.busy s m = some j

/-- The target is accepted after the message has left its channel as before. -/
theorem CmdRow.Obeys.taken {r : CmdRow} {code : Nat} {m : Msg} {ok : State → Msg → Prop} (hr : r.Obeys code m ok) {s : State}
    (h : ok s m) : ok (taken s m) m := by
  obtain ⟨htgt, hown⟩ := (hr.accepts s).mpr h
  refine (hr.accepts _).mp ⟨(hr.steady s).trans htgt, ?_⟩
  rwa [Claim.taken, s.takeMsg_pwr]

section
variable {code : Nat} {cls : List Nat} {m : Msg} {busy : State → Msg → Option Job} {mirror : State → Msg → Bool}

/-- A command of objects of classes. -/
theorem obeys_classRow (hbusy : mayBeBusy code → ∀ s j, named cls m → s.heldBy m.target = some j → busy s m = some j) :
    CmdRow.Obeys ⟨code, inClass cls, false, busy, mirror⟩ code m fun _ => named cls :=
  ⟨rfl, fun s => by simp [CmdRow.accepts, inClass_iff], fun _ => rfl, hbusy⟩

/-- A status command, and a code that is not assigned. -/
theorem obeys_statusRow (h : ¬ mayBeBusy code) : (statusRow code cls).Obeys code m fun _ => named cls :=
  obeys_classRow fun hmay => absurd hmay h

/-- A command that is BUSY with the holder of its target alone. -/
theorem obeys_heldRow : CmdRow.Obeys ⟨code, inClass cls, false, heldBusy, mirror⟩ code m fun _ => named cls :=
  obeys_classRow fun _ _ _ _ h => h

theorem heldBusy_or {s : State} {j : Job} (o : Option Job) (h : s.heldBy m.target = some j) : (heldBusy s m).or o = some j := by
  rw [heldBusy, h]; rfl

/-- A command of a port, a cluster or a self-test, BUSY with other jobs besides. -/
theorem obeys_alsoBusyRow (others : State → Msg → Option Job) :
    CmdRow.Obeys ⟨code, inClass cls, false, fun s m => (heldBusy s m).or (others s m), mirror⟩ code m fun _ => named cls :=
  obeys_classRow fun _ _ _ _ h => heldBusy_or _ h

/-- A command of the module is BUSY with whatever job its row says: none holds its target. -/
theorem obeys_moduleRow : CmdRow.Obeys ⟨code, inClass [0], false, busy, mirror⟩ code m fun _ => named [0] :=
  obeys_classRow fun _ _ _ hnamed h => by rw [heldBy_module hnamed] at h; cases h

/-- OPEN_SESSION and CLOSE_SESSION serve their own module only (R93, R96). -/
theorem obeys_ownRow : ({ plainRow code cls with own := true } : CmdRow).Obeys code m
    fun s m => named cls m ∧ tgtPos m.target = s.pwr.mpos :=
  ⟨rfl, fun s => by simp [CmdRow.accepts, plainRow, inClass_iff], fun _ => rfl, fun _ _ _ _ h => h⟩

theorem obeys_cableRow : cableRow.Obeys 0x302 m fun _ m => named [2] m ∧ tgtInst m.target < 10 :=
  ⟨rfl, fun s => by simp [CmdRow.accepts, cableRow, inClass_iff], fun _ => rfl, fun _ _ _ _ h => heldBusy_or _ h⟩

theorem obeys_preemptRow : preemptRow.Obeys 0x305 m fun _ m => named [2] m ∧ tgtInst m.target ≠ 8 ∧ tgtInst m.target ≠ 9 :=
  ⟨rfl, fun s => by simp [CmdRow.accepts, preemptRow, inClass_iff, and_assoc], fun _ => rfl, fun _ _ _ _ h => heldBusy_or _ h⟩

/-- A Drumline command. -/
theorem obeys_roleRow {roles : List DlRole}
    (hbusy : mayBeBusy code → ∀ s j, s.heldBy m.target = some j → busy s m = some j) :
    CmdRow.Obeys ⟨code, roleTarget roles, false, busy, mirror⟩ code m (drumTarget roles) where
  number := rfl
  accepts s := by simp [CmdRow.accepts, roleTarget_iff]
  steady s := by simp [CmdRow.steady, taken, roleTarget, inClass]
  busy hmay s j _ h := hbusy hmay s j h

end

theorem assignedCodes_eq : assignedCodes = commandCodes := rfl

theorem exec_unassignedCommand {code : W16} {m : Msg} (h : code.toNat ∉ commandCodes) (s : State) :
    exec (.unassignedCommand code m) s = s.commandThen (unassignedRow code) m id fun s => no s stBadCmd 1 :=
  if_neg (by simpa [assignedCodes_eq] using h)

/-- Every command of Sundom is a row of the table: it passes the checks, and only then runs. -/
theorem sundomRow_obeys {i : Instr} {code : Nat} {m : Msg} {ok : State → Msg → Prop} (h : sundomRow i = some (code, m, ok)) :
    ∃ r after run, (∀ s, exec i s = s.commandThen r m after run) ∧ r.Obeys code m ok := by
  cases i with
  | openSession m | closeSession m => cases h; exact ⟨_, _, _, fun _ => rfl, obeys_ownRow⟩
  | getInfo m | getCaps m | portStatus m | timeGet m | pairStatus m | canStatus m | pioStatus m | fioStatus m _ _ | logRead m
  | healthGet m _ | getIdentity m => cases h; exact ⟨_, _, _, fun _ => rfl, obeys_statusRow (by simp [mayBeBusy, statusCodes])⟩
  | setPowerState m | resetObject m | loadCmd m | unload m | loadCustom m | cycleConfig m | piDefine m | piMap m | piCommit m
  | timeConfig m | timeAcceptJump m | syncPinConfig m | pairApprove m | canConfig m | canFilter m | canAbort m | pioConfig m
  | pioProgram m | fioConfig m | diConfig m | doConfig m | doSet m | statsConfig m | logConfig m =>
    cases h; exact ⟨_, _, _, fun _ => rfl, obeys_heldRow⟩
  | startCmd m | stop m | portConfig m | queueMap m | gateList m | selftest m =>
    cases h; exact ⟨_, _, _, fun _ => rfl, obeys_alsoBusyRow _⟩
  | pairConfig m | pairSwitch m | groupConfig m | attest m => cases h; exact ⟨_, _, _, fun _ => rfl, obeys_moduleRow⟩
  | cableTest m => cases h; exact ⟨_, _, _, fun _ => rfl, obeys_cableRow⟩
  | preemptConfig m => cases h; exact ⟨_, _, _, fun _ => rfl, obeys_preemptRow⟩
  | dlConfig m | tollgateConfig m => cases h; exact ⟨_, _, _, fun _ => rfl, obeys_roleRow fun _ _ _ h => h⟩
  | routeLoad m | routeSwitch m => cases h; exact ⟨_, _, _, fun _ => rfl, obeys_roleRow fun _ _ _ h => heldBusy_or _ h⟩
  | dlTopology m =>
    cases h; exact ⟨_, _, _, fun _ => rfl, obeys_roleRow fun hmay => absurd hmay (by simp [mayBeBusy, statusCodes])⟩
  | unassignedCommand code m =>
    rw [sundomRow] at h
    split at h
    · cases h
    · next hcode =>
      cases h
      exact ⟨_, _, _, exec_unassignedCommand hcode, obeys_statusRow fun hmay => hcode hmay.1⟩
  | _ => cases h

/-- A command of no assigned code gets past the other checks to its own answer (R424). -/
theorem exec_unassignedCommand_of_asked {s : State} {code : W16} {m : Msg} (h : code.toNat ∉ commandCodes) (hasked : asked s m)
    (hnamed : named (List.range 13) m) :
    responds (.unassignedCommand code m) s code.toNat m (.err 0x20 1) (taken s m) := by
  intro hbrings
  have hrow : (unassignedRow code).Obeys code.toNat m fun _ => named (List.range 13) :=
    obeys_statusRow fun hmay => h hmay.1
  obtain ⟨-, -, k, -, hchan, -⟩ := id hasked
  rw [exec_unassignedCommand h, commandThen_of_asked hasked hbrings (hrow.steady s) ((hrow.accepts s).mpr hnamed)]
  have hanswer := conclude_of_refused (s := taken s m) (r := unassignedRow code) (after := id)
    (s1 := taken s m) (status := stBadCmd) hchan 1 (by decide) (by decide) (by decide)
  exact congrArg (fun t => Host.Outcome.next (State.settle t)) hanswer

/-- Settles O33: every command is a row of the table, and the row's checks come one after the other. -/
theorem sundomRules : Obligations.SundomRules := by
  unfold Obligations.SundomRules
  refine ⟨fun s code m h hasked hnamed => exec_unassignedCommand_of_asked h hasked hnamed, ?_⟩
  intro i s code m ok hi
  obtain ⟨r, after, run, hexec, hr⟩ := sundomRow_obeys hi
  obtain rfl := hr.number
  rw [hexec]
  refine ⟨commandThen_of_not_due, ?_, ?_, ?_, ?_⟩
  · intro hdue hok
    exact commandThen_of_not_accepts hdue (hr.steady s) (mt (hr.accepts s).mp hok)
  · intro k hdue hok hchan hcode
    have hacc := (hr.accepts s).mpr hok
    exact ⟨fun x => commandThen_of_stale hdue (hr.steady s) hacc hchan hcode, commandThen_of_no_session hdue (hr.steady s) hacc hchan hcode⟩
  · intro k x hdue hok hchan hx hgen hpos hout
    exact commandThen_of_unreached hdue (hr.steady s) ((hr.accepts s).mpr hok) hchan hx hgen hpos hout
  · intro j hasked hbrings hok hheld hassigned hstatus
    obtain ⟨-, -, k, -, hchan, -⟩ := id hasked
    rw [commandThen_of_asked hasked hbrings (hr.steady s) ((hr.accepts s).mpr hok)]
    refine executeCmd_of_busy hchan (hr.busy ⟨hassigned, hstatus⟩ (taken s m) j (hr.taken hok) ((s.takeMsg_heldBy m.chan m.target).trans hheld))

end Sys2Proof.Machine
end

section
/-!
What a message to the host does to its mailbox, the host interface and nothing else (R62, R75, R84, R88).
-/
namespace Sys2Proof.Machine
open Sys2Proof.Claim

/-! ### The ring (R75, R76, R80) -/

/-- A ring leaves everything but the host interface and the waiting power requests. -/
theorem State.ringS2H_eq (s : State) (b : Nat) :
    ∃ h r, s.ringS2H b = { s with hif := h, pwr := { s.pwr with requests := r } } := by
  obtain ⟨h, p, hrung⟩ := (s.ringS2H_rung b).1.rest
  obtain ⟨_, _, _, r, _, hquiet⟩ := (State.ringS2H_quiet b (Quiet.refl s)).all
  have hp : p = { s.pwr with requests := r } := by
    have := congrArg State.pwr hquiet
    rwa [hrung] at this
  exact ⟨h, r, by rw [hrung, hp]⟩

@[simp] theorem State.ringS2H_mbx (s : State) (b : Nat) : (s.ringS2H b).mbx = s.mbx := by
  obtain ⟨h, r, he⟩ := s.ringS2H_eq b
  rw [he]

/-- With MSI-X open, the signal of a doorbell bit is one message on the bit's own vector (R51). -/
theorem State.signal_msix {s : State} {b : Nat} (hb : b < 32) (ho : msixOpen s) :
    s.signal b false = s.updHif fun h => { h with signals := Vec.updN h.signals b (· + 1) } := by
  obtain ⟨hsel, hlink, hen, hmask, -, htable⟩ := ho
  have hfree : (Vec.atD s.hif.pcie.table (4 * b + 3) 1).getLsbD 0 = false := htable ⟨b, hb⟩
  have hopen : s.hif.pcie.masked b = false := by
    simp only [Pcie.masked, hlink, hen, hmask, hfree]; rfl
  simp [State.signal, hsel, hlink, hen, Pcie.vector, Nat.mod_eq_of_lt hb, State.updHif, Hif.message, hopen]

/-- INT_STATUS signals nothing while none of its bits is enabled. -/
theorem State.intRise_disabled {s : State} (old : Hif) (h : s.hif.intEn = 0) : s.intRise old = s := by
  simp [State.intRise, h]

/-- Each bit of DB_S2H rings as R75 and R76 say. -/
theorem State.ringS2H_rang (s : State) {b : Nat} (hb : b < 32) : rang s (s.ringS2H b) b := by
  obtain ⟨hrung, hbit⟩ := s.ringS2H_rung b
  refine ⟨hbit, fun hsel => ?_, fun ho => ?_⟩
  · rw [hrung.hif hsel, hbit]; rfl
  · unfold State.ringS2H
    extract_lets was s1 s2 s3
    have ho1 : msixOpen s1 := ho
    obtain ⟨-, -, -, -, hen, -⟩ := id ho
    have h2 : s2 = if !was && !s.hif.s2hMask.getLsbD b then s1.updHif fun h => { h with signals := Vec.updN h.signals b (· + 1) }
        else s1 := by
      unfold s2
      rw [State.signal_msix hb ho1]
    have h3 : s3 = s2 := State.intRise_disabled _ (by rw [h2]; split <;> exact hen)
    rw [apply_ite State.hif, State.updPwr_hif, ite_self, h3, h2]
    unfold was
    cases s.hif.s2h.getLsbD b <;> cases s.hif.s2hMask.getLsbD b <;> rfl

/-! ### Posting and queueing (R62, R84, R85) -/

theorem State.updMbx_updMbx (s : State) (n : Fin 8) (f g : Mbx → Mbx) :
    (s.updMbx n f).updMbx n g = s.updMbx n fun x => g (f x) := by
  simp [State.updMbx, Vec.upd, Vec.put, Vec.at]

theorem State.updMbx_congr {s : State} {n : Fin 8} {f g : Mbx → Mbx} (h : f (Vec.at s.mbx n) = g (Vec.at s.mbx n)) :
    s.updMbx n f = s.updMbx n g := by
  rw [State.updMbx, Vec.upd, h]; rfl

/-- From `s` to `t` mailbox `n`, the host interface and the waiting power requests may differ. -/
structure Posted (s t : State) (n : Fin 8) : Prop where
  all : ∃ f h r, t = { s.updMbx n f with hif := h, pwr := { s.pwr with requests := r } }

section
variable {s t : State} {n : Fin 8} {m : OutMsg}

theorem Posted.sup (h : Posted s t n) : t.sup = s.sup := by
  obtain ⟨f, hif, r, rfl⟩ := h.all; rfl

theorem Posted.others (h : Posted s t n) {k : Fin 8} (hk : k ≠ n) : Vec.at t.mbx k = Vec.at s.mbx k := by
  obtain ⟨f, hif, r, rfl⟩ := h.all
  exact Vec.at_upd_other _ _ hk

theorem Posted.restore (h : Posted s t n) :
    ({ t with mbx := s.mbx, hif := s.hif, pwr := { t.pwr with requests := s.pwr.requests } } : State) = s := by
  obtain ⟨f, hif, r, rfl⟩ := h.all; rfl

/-- A message queued for a channel, posted or left waiting, stays within the channel. -/
theorem State.send_posted (s : State) (n : Fin 8) (m : OutMsg) : Posted s (s.send n m) n := by
  unfold State.send
  generalize (fun x : Mbx => x.enqueue (!x.outFull && s.postable x m) m) = f
  have hsame : Posted s (s.updMbx n f) n := ⟨f, s.hif, s.pwr.requests, rfl⟩
  unfold State.postNext
  extract_lets x
  split
  · exact hsame
  · split
    · exact hsame
    · extract_lets posted
      rw [State.updMbx_updMbx]
      obtain ⟨h, r, he⟩ := State.ringS2H_eq _ _
      exact ⟨_, h, r, he⟩

/-- A message that need not wait goes into a free outbound buffer, and its bit rings. -/
theorem State.send_free (hfree : (Vec.at s.mbx n).outFull = false) (hempty : (Vec.at s.mbx n).outq = []) (hheld : m.held = false)
    (hcode : m.code ≠ 0xF001) : s.send n m =
      (s.updMbx n fun x => { x with outFull := true, outBuf := memWriteN x.outBuf 0 m.bytes }).ringS2H n.1 := by
  have hpost : ∀ t x, State.postable t x m = true := fun t x => by simp [State.postable, hheld]
  have hq : s.updMbx n (fun x => x.enqueue (!x.outFull && s.postable x m) m) = s.updMbx n fun x => { x with outq := [m] } :=
    State.updMbx_congr (by simp [Mbx.enqueue, hempty])
  rw [State.send, hq]
  simp only [State.postNext, State.updMbx_mbx, Vec.at_upd_same, hfree, takeFirst, hpost, hcode, decide_false, Bool.false_and,
    Bool.false_eq_true, if_false, if_true, State.updMbx_updMbx, hheld, Bool.not_false, Bool.and_true]
  exact congrArg (fun t => State.ringS2H t n.1) (State.updMbx_congr (by simp [hempty]))

/-- With the outbound buffer full a message waits behind the others. -/
theorem State.send_full (hfull : (Vec.at s.mbx n).outFull = true) (hroom : (Vec.at s.mbx n).outq.length < 32) :
    s.send n m = s.updMbx n fun x => { x with outq := x.outq ++ [m] } := by
  have hq : s.updMbx n (fun x => x.enqueue (!x.outFull && s.postable x m) m) = s.updMbx n fun x => { x with outq := x.outq ++ [m] } :=
    State.updMbx_congr (by simp [Mbx.enqueue, hroom])
  rw [State.send, hq, State.postNext]
  exact if_pos (by simp [hfull])

end

end Sys2Proof.Machine
end

section
/-!
The event log within the supervisor (R539–R545): what an occurrence leaves alone, and the notifications it brings.
-/
namespace Sys2Proof.Machine

/-! ### The supervisor's record -/

/-- From `u` to `v` only the event log may differ: its stores, its number and its counts of loss. -/
structure Sup.Logged (u v : Sup) : Prop where
  all : ∃ a r q l, v = { u with alarms := a, ring := r, seq := q, loss := l }

namespace Sup

theorem Logged.refl (u : Sup) : Logged u u := ⟨u.alarms, u.ring, u.seq, u.loss, rfl⟩

theorem Logged.trans {u v w : Sup} (h : Logged u v) (g : Logged v w) : Logged u w := by
  obtain ⟨a, r, q, l, rfl⟩ := h.all
  obtain ⟨a', r', q', l', rfl⟩ := g.all
  exact ⟨a', r', q', l', rfl⟩

theorem Logged.jobs {u v : Sup} (h : Logged u v) : v.jobs = u.jobs := by obtain ⟨_, _, _, _, rfl⟩ := h.all; rfl
theorem Logged.jobNext {u v : Sup} (h : Logged u v) : v.jobNext = u.jobNext := by obtain ⟨_, _, _, _, rfl⟩ := h.all; rfl
theorem Logged.lastEnd {u v : Sup} (h : Logged u v) : v.lastEnd = u.lastEnd := by obtain ⟨_, _, _, _, rfl⟩ := h.all; rfl
theorem Logged.orphans {u v : Sup} (h : Logged u v) : v.orphans = u.orphans := by obtain ⟨_, _, _, _, rfl⟩ := h.all; rfl

variable (u : Sup)

theorem nextSeq_logged : Logged u u.nextSeq := ⟨_, _, _, _, rfl⟩

theorem lose_logged (e : LogEntry) : Logged u (u.lose e) := by
  unfold lose
  split
  · exact Logged.refl u
  · exact ⟨_, _, _, _, rfl⟩

theorem ringPut_logged (e : LogEntry) : Logged u (u.ringPut e) := by
  unfold ringPut
  split
  · exact ⟨_, _, _, _, rfl⟩
  · split
    · next v _ => exact (u.lose_logged v).trans ⟨_, _, _, _, rfl⟩
    · exact Logged.refl u

theorem ringOccur_logged (p : LogEntry → Bool) (e : LogEntry) : Logged u (u.ringOccur p e) := by
  unfold ringOccur
  split
  · exact ⟨_, _, _, _, rfl⟩
  · exact (u.ringPut_logged e).trans (nextSeq_logged _)

/-- An occurrence of any class changes nothing but the log. -/
theorem record_logged (cls : Fin 4) (code obj module : W16) (data : W32) (now : W64) (cleared : Bool) :
    Logged u (u.record cls code obj module data now cleared) := by
  unfold record
  extract_lets e sum
  split
  · split
    · exact ⟨_, _, _, _, rfl⟩
    · split
      · exact ⟨_, _, _, _, rfl⟩
      · split <;> exact ⟨_, _, _, _, rfl⟩
  · exact u.ringOccur_logged _ _
  · split
    · exact u.ringOccur_logged _ _
    · exact (u.ringOccur_logged _ _).trans ⟨_, _, _, _, rfl⟩
  · split
    · exact Logged.refl u
    · split
      · exact (u.ringPut_logged _).trans (nextSeq_logged _)
      · exact ⟨_, _, _, _, rfl⟩

/-- With the trace off, a TRACE is not recorded (R545). -/
theorem record_untraced {u : Sup} (h : u.traceEn = false) (code obj module : W16) (data : W32) (now : W64) (cleared : Bool) :
    u.record 3 code obj module data now cleared = u := by
  simp [record, h]

/-- The updated entry stands in the list. -/
theorem updFirst_mem {p : LogEntry → Bool} {f : LogEntry → LogEntry} {es r : List LogEntry} (h : updFirst p f es = some r) :
    ∃ x ∈ es, p x = true ∧ f x ∈ r := by
  induction es generalizing r with
  | nil => cases h
  | cons y ys ih =>
    rw [updFirst] at h
    split at h
    · next hy =>
      cases h
      exact ⟨y, List.mem_cons_self, hy, List.mem_cons_self⟩
    · obtain ⟨r', hr', rfl⟩ := Option.map_eq_some_iff.mp h
      obtain ⟨x, hx, hp, hf⟩ := ih hr'
      exact ⟨x, List.mem_cons_of_mem _ hx, hp, List.mem_cons_of_mem _ hf⟩

/-- A NOTICE stands in a ring with room: as an entry of its own, or in the unread one of the same event (R540, R541). -/
theorem record_notice_mem {u : Sup} (h : u.ring.length < 800) (code obj module : W16) (data : W32) (now : W64) (cleared : Bool) :
    ∃ e ∈ (u.record 2 code obj module data now cleared).ring, e.code = code ∧ e.data = data ∧ e.cls = 2 := by
  have hroom : 128 ≤ 1024 - u.ring.length := by omega
  simp only [record, if_pos hroom, ringOccur]
  split
  · next r hr =>
    obtain ⟨x, -, hx, hmem⟩ := updFirst_mem hr
    simp only [Bool.and_eq_true, decide_eq_true_eq] at hx
    obtain ⟨⟨⟨⟨hcls, hcode⟩, -⟩, -⟩, -⟩ := hx
    exact ⟨_, hmem, hcode, rfl, hcls⟩
  · refine ⟨LogEntry.make u.seq 2 code obj data now cleared false, ?_, rfl, rfl, rfl⟩
    have hput : u.ringPut (LogEntry.make u.seq 2 code obj data now cleared false) =
        { u with ring := u.ring ++ [LogEntry.make u.seq 2 code obj data now cleared false] } := if_pos (by omega)
    rw [hput]
    exact List.mem_append_right _ List.mem_cons_self

end Sup

/-! ### Notifications leave the supervisor alone -/

theorem State.foldl_sup {α : Type} {f : State → α → State} (hf : ∀ t x, (f t x).sup = t.sup) (xs : List α) (s : State) :
    (xs.foldl f s).sup = s.sup := by
  induction xs generalizing s with
  | nil => rfl
  | cons x xs ih => exact (ih (f s x)).trans (hf s x)

@[simp] theorem State.send_sup (s : State) (n : Fin 8) (m : OutMsg) : (s.send n m).sup = s.sup := (s.send_posted n m).sup

@[simp] theorem State.toMember_sup (s : State) (m : GroupMsg) : (s.toMember m).sup = s.sup := by
  unfold State.toMember
  split <;> rfl

@[simp] theorem State.reply_sup (s : State) (chan : Fin 9) (gen : W32) (r : OutMsg) : (s.reply chan gen r).sup = s.sup := by
  unfold State.reply
  split
  · exact s.send_sup _ _
  · exact s.toMember_sup _

theorem State.notifyChan_sup (s : State) (n : Fin 8) (m : OutMsg) : (s.notifyChan n m).sup = s.sup := by
  unfold State.notifyChan
  extract_lets x
  split
  · rfl
  · exact s.send_sup _ _

theorem State.notifyFrom_sup (s : State) (pos : Fin 4) (code : Nat) (target : W16) (payload : List Byte) :
    (s.notifyFrom pos code target payload).sup = s.sup := by
  refine State.foldl_sup (fun t n => ?_) _ s
  split
  · split
    · exact t.notifyChan_sup _ _
    · rfl
  · rfl

@[simp] theorem State.notify_sup (s : State) (code : Nat) (target : W16) (payload : List Byte) :
    (s.notify code target payload).sup = s.sup := by
  refine (State.foldl_sup (fun t n => ?_) _ _).trans (s.notifyFrom_sup _ _ _ _)
  split
  · exact t.toMember_sup _
  · rfl

/-! ### An occurrence (R539–R545) -/

theorem State.log_sup (s : State) (cls : Fin 4) (code : Nat) (obj : W16) (data : W32) (cleared : Bool) :
    (s.log cls code obj data cleared).sup = s.sup.record cls (BitVec.ofNat 16 code) obj (s.objAt 0 0) data s.ns cleared := by
  unfold State.log
  extract_lets was s1
  split
  · exact s1.notify_sup _ _ _
  · rfl

theorem State.log_logged (s : State) (cls : Fin 4) (code : Nat) (obj : W16) (data : W32) (cleared : Bool) :
    Sup.Logged s.sup (s.log cls code obj data cleared).sup := by
  rw [s.log_sup]
  exact s.sup.record_logged _ _ _ _ _ _ _

/-- An event below NOTIFY raises no LOG_READY (R544). -/
theorem State.log_mbx {s : State} {cls : Fin 4} (h : s.sup.notify.toNat < cls.1) (code : Nat) (obj : W16) (data : W32) (cleared : Bool) :
    (s.log cls code obj data cleared).mbx = s.mbx := by
  unfold State.log
  extract_lets was s1
  rw [if_neg]
  · rfl
  · simp [h]

theorem State.log_untraced {s : State} (h : s.sup.traceEn = false) (code : Nat) (obj : W16) (data : W32) (cleared : Bool) :
    s.log 3 code obj data cleared = s := by
  have hrec : s.updSup (fun u => u.record 3 (BitVec.ofNat 16 code) obj (s.objAt 0 0) data s.ns cleared) = s := by
    rw [State.updSup, Sup.record_untraced h]
  unfold State.log
  extract_lets was s1
  have hs1 : s1 = s := hrec
  rw [hs1, if_neg]
  simp [was]

end Sys2Proof.Machine
end

section
/-!
Answers and jobs (R88, R97, R102, R105–R108): the response to a command, the start of a job and its end.
-/
namespace Sys2Proof.Machine
open Sys2Proof.Claim

/-! ### Responses (R88, R102) -/

/-- The response to a command (R88). -/
def responseOf (code : Nat) (m : Msg) (a : Answer) : OutMsg :=
  { code := BitVec.ofNat 16 (0x8000 + code), tag := m.tag, status := BitVec.ofNat 16 a.status, detail := BitVec.ofNat 32 a.detail,
    target := m.target, payload := a.payload, held := false }

/-- With the trace off, an answer is its response and nothing else. -/
theorem State.answer_eq_send {s : State} {m : Msg} {k : Fin 8} (hchan : m.chan.1 = k.1) (htrace : s.sup.traceEn = false) (code : Nat)
    (a : Answer) : s.answer code m a = s.send k (responseOf code m a) := by
  have hk : m.chan.1 < 8 := hchan ▸ k.2
  have hfin : (⟨m.chan.1, hk⟩ : Fin 8) = k := Fin.ext hchan
  rw [State.answer, State.log_untraced htrace, State.reply, dif_pos hk, hfin]
  rfl

/-- No response has the code of LOG_READY. -/
theorem responseOf_code_ne {code : Nat} (h : code < 0x1000) (m : Msg) (a : Answer) : (responseOf code m a).code ≠ 0xF001 := by
  intro he
  have hnum : (0x8000 + code) % 2 ^ 16 = 0xF001 := congrArg BitVec.toNat he
  omega

/-- A message that need not wait is posted, and its bit rings. -/
theorem State.send_rang {s : State} {n : Fin 8} {m : OutMsg} (hfree : (Vec.at s.mbx n).outFull = false)
    (hempty : (Vec.at s.mbx n).outq = []) (hheld : m.held = false) (hcode : m.code ≠ 0xF001) :
    Vec.at (s.send n m).mbx n = { Vec.at s.mbx n with outFull := true, outBuf := memWriteN (Vec.at s.mbx n).outBuf 0 m.bytes } ∧
      rang s (s.send n m) n.1 := by
  rw [State.send_free hfree hempty hheld hcode]
  refine ⟨?_, State.ringS2H_rang _ (by omega)⟩
  rw [State.ringS2H_mbx, State.updMbx_mbx, Vec.at_upd_same]

/-! ### The start of a job (R105, R106) -/

/-- The record of a job that a command starts. -/
def State.newJob (s : State) (kind : JobKind) (m : Msg) : Job :=
  { num := s.sup.jobNext, kind := kind, chan := m.chan, gen := m.gen, tag := m.tag, flags := m.flags, target := m.target }

/-- The module with the job in the supervisor's list and the next number counted. -/
def State.listJob (s : State) (kind : JobKind) (m : Msg) : State :=
  s.updSup fun u => { u with
    jobs := u.jobs ++ [s.newJob kind m], jobNext := if s.sup.jobNext = 0xFFFFFFFF then 1 else s.sup.jobNext + 1 }

/-- A start is a job in the list and its TRACE (R545). -/
theorem State.startJob_eq (s : State) (kind : JobKind) (m : Msg) :
    s.startJob kind m = (s.sup.jobNext, (s.listJob kind m).log 3 0x0F01 m.target s.sup.jobNext false) := rfl

theorem State.startJob_logged (s : State) (kind : JobKind) (m : Msg) :
    Sup.Logged (s.listJob kind m).sup (s.startJob kind m).2.sup :=
  (s.listJob kind m).log_logged _ _ _ _ _

theorem State.startJob_restore {s : State} (h : s.sup.traceEn = false) (kind : JobKind) (m : Msg) :
    ({ (s.startJob kind m).2 with sup := s.sup } : State) = s := by
  rw [State.startJob_eq, State.log_untraced (s := s.listJob kind m) h]
  rfl

/-! ### The end of a job (R97, R108) -/

/-- The record of R97 of a job that ends with a status. -/
def State.endOf (s : State) (j : Job) (status : Nat) : JobEnd := ⟨j.num, BitVec.ofNat 16 status, 0, !s.jobLives j⟩

/-- The module once a job has left the supervisor's list and its end is on record. -/
def State.closeJob (s : State) (j : Job) (x : JobEnd) : State :=
  s.updSup fun u => { u with
    jobs := u.jobs.filter fun y => y.num ≠ j.num, lastEnd := some x, orphans := if x.orphaned then u.orphans ++ [x] else u.orphans }

/-- JOB_DONE (R89, R108). -/
def jobDoneOf (j : Job) (status : Nat) (bs : List Byte) : OutMsg :=
  { code := 0xF000, tag := j.tag, status := BitVec.ofNat 16 status, detail := j.num, target := j.target, payload := bs, held := false }

theorem jobDoneOf_code_ne (j : Job) (status : Nat) (bs : List Byte) : (jobDoneOf j status bs).code ≠ 0xF001 :=
  show (0xF000 : W16) ≠ 0xF001 by decide

section
variable {s : State} {j : Job}

/-- The end of a job whose session lives sends JOB_DONE to the carrying channel, unless DONECH names another (R108). -/
theorem State.endJob_of_lives {k : Fin 8} (hchan : j.chan.1 = k.1) (hlives : s.jobLives j = true) (hdone : j.flags.getLsbD 3 = false)
    (status : Nat) (bs : List Byte) :
    s.endJob j status none bs = (s.closeJob j (s.endOf j status)).send k (jobDoneOf j status bs) := by
  have hl : ∀ f : Sup → Sup, (s.updSup f).jobLives j = true := fun _ => hlives
  have hto : ∀ t : State, t.doneChan j = some k := fun t => by
    simp only [State.doneChan, chanOf_mailbox hchan, hdone, Bool.false_and, Bool.false_eq_true, if_false]
  simp only [State.endJob, State.jobDone, hl, hto, Bool.not_true, Bool.false_eq_true, if_false, State.endOf, hlives]
  rfl

/-- The end of a job whose session is gone is a NOTICE (R97). -/
theorem State.endJob_of_orphaned (hlives : s.jobLives j = false) (status : Nat) (bs : List Byte) :
    s.endJob j status none bs = (s.closeJob j (s.endOf j status)).notice 0x0101 (s.objAt 0 0) j.num := by
  have hl : ∀ f : Sup → Sup, (s.updSup f).jobLives j = false := fun _ => hlives
  simp only [State.endJob, State.jobDone, hl, Bool.not_false, if_true, State.endOf, hlives]
  rfl

/-- However a job ends, its record is closed, and of the rest of the supervisor only the log differs. -/
theorem State.endJob_logged (status : Nat) (bs : List Byte) :
    Sup.Logged (s.closeJob j (s.endOf j status)).sup (s.endJob j status none bs).sup := by
  have hsup : ∀ t : State, t.sup = (s.closeJob j (s.endOf j status)).sup → Sup.Logged (s.closeJob j (s.endOf j status)).sup t.sup :=
    fun t h => h ▸ Sup.Logged.refl _
  unfold State.endJob State.jobDone
  extract_lets x s1 msg
  split
  · exact s1.log_logged _ _ _ _ _
  · split
    · exact hsup _ (s1.send_sup _ _)
    · exact hsup _ (s1.reply_sup _ _ _)

theorem State.jobLives_of_session {k : Fin 8} (hchan : j.chan.1 = k.1) {x : Session} (hx : (Vec.at s.mbx k).session = some x)
    (hgen : x.gen = j.gen) : s.jobLives j = true := by
  simp [State.jobLives, chanOf_mailbox hchan, hx, hgen]

theorem State.jobLives_of_no_session {k : Fin 8} (hchan : j.chan.1 = k.1) (hx : (Vec.at s.mbx k).session = none) :
    s.jobLives j = false := by
  simp [State.jobLives, chanOf_mailbox hchan, hx]

/-- The NOTICE JOB_ORPHANED stands in a log with room and rings nobody who asks for ALARMs and WARNINGs only (R97, R544). -/
theorem State.endJob_orphaned {k : Fin 8} (hchan : j.chan.1 = k.1) (hx : (Vec.at s.mbx k).session = none)
    (hroom : s.sup.ring.length < 800) (hnotify : s.sup.notify.toNat < 2) (status : Nat) (bs : List Byte) :
    (s.endJob j status none bs).mbx = s.mbx ∧ s.endOf j status = ⟨j.num, BitVec.ofNat 16 status, 0, true⟩ ∧
      ∃ e ∈ (s.endJob j status none bs).sup.ring, e.code = 0x0101 ∧ e.data = j.num ∧ e.cls = 2 := by
  have hlives := State.jobLives_of_no_session hchan hx
  rw [State.endJob_of_orphaned hlives]
  refine ⟨State.log_mbx hnotify _ _ _ _, by rw [State.endOf, hlives]; rfl, ?_⟩
  rw [State.notice, State.log_sup]
  exact Sup.record_notice_mem (u := (s.closeJob j (s.endOf j status)).sup) hroom _ _ _ _ _ _

end

/-- Settles O36: an answer and a JOB_DONE are one message to a mailbox; what else a job changes stands in the supervisor. -/
theorem responsesAndJobs : Obligations.ResponsesAndJobs := by
  unfold Obligations.ResponsesAndJobs
  refine ⟨?_, rfl, ?_, ?_⟩
  · intro s m code a k hchan htrace hcode
    rw [State.answer_eq_send hchan htrace]
    have hposted := s.send_posted k (responseOf code m a)
    exact ⟨fun hfree hempty => State.send_rang hfree hempty rfl (responseOf_code_ne hcode m a),
      fun hfull hroom => State.send_full hfull hroom, fun j hj => hposted.others hj, hposted.restore⟩
  · intro s m kind
    have h := s.startJob_logged kind m
    exact ⟨rfl, h.jobs, h.jobNext, fun htrace => State.startJob_restore htrace kind m⟩
  · intro s j k status bs hchan
    have h := State.endJob_logged (s := s) (j := j) status bs
    refine ⟨fun x hx => ?_, fun y hy hne => ?_, ⟨_, h.lastEnd, rfl, rfl⟩, fun ses hses hgen hdone hfree hempty => ?_,
      fun hses hroom hnotify => ?_⟩
    · rw [h.jobs] at hx
      simpa using (List.mem_filter.mp hx).2
    · rw [h.jobs]
      exact List.mem_filter.mpr ⟨hy, by simpa using hne⟩
    · rw [State.endJob_of_lives hchan (State.jobLives_of_session hchan hses hgen) hdone]
      have hpost := State.send_rang (s := s.closeJob j (s.endOf j status)) (m := jobDoneOf j status bs) hfree hempty rfl
        (jobDoneOf_code_ne j status bs)
      exact ⟨hpost.1, fun n hn => (State.send_posted _ k _).others hn⟩
    · obtain ⟨hmbx, hend, hnotice⟩ := State.endJob_orphaned hchan hses hroom hnotify status bs
      rw [hend] at h
      exact ⟨hmbx, ⟨_, h.lastEnd, rfl⟩, h.orphans, hnotice⟩

end Sys2Proof.Machine
end

section
/-!
Ports as the rules speak of them: rows of settings, the kinds of ports, and a port that is changed more than once.
-/
namespace Sys2Proof.Machine
open Sys2Proof.Claim

/-- A row of a table, rows counted from 1, is the entry at its index. -/
theorem row_succ {n : Nat} (t : Vec W64 n) (i : Fin n) : row t (i.1 + 1) = (Vec.at t i).toNat := by
  simp [row, Vec.atD, Vec.at]

theorem portKind_s {p : Fin 12} (h8 : 8 ≤ p.1) (h10 : p.1 < 10) : portKind p = .s := by
  unfold portKind
  rw [if_neg (by omega), if_neg (by omega), if_pos h10]

theorem State.updPort_updPort (s : State) (p : Fin 12) (f g : Port → Port) :
    (s.updPort p f).updPort p g = s.updPort p fun x => g (f x) := by
  simp [State.updPort, Vec.upd, Vec.put, Vec.at]

/-- An update of a port is the port put in its place. -/
theorem State.updPort_const (s : State) (p : Fin 12) (f : Port → Port) : s.updPort p f = s.updPort p fun _ => f (Vec.at s.port p) := rfl

theorem State.updPort_self (s : State) (p : Fin 12) : (s.updPort p fun _ => Vec.at s.port p) = s := by
  rw [State.updPort, vecUpd_self s.port p _ rfl]

/-! ### Reports (R541, R543) -/

theorem Noted.reported {w t : State} (h : Noted w t) : Sys2Proof.Claim.reported w t := h.all

theorem Quiet.reported {w t : State} (h : Quiet w t) : Sys2Proof.Claim.reported w t := h.noted.reported

/-- A port changed after reports is the port changed before them. -/
theorem Quiet.updPort {s t : State} (h : Quiet s t) (p : Fin 12) (f : Port → Port) : Quiet (s.updPort p f) (t.updPort p f) := by
  obtain ⟨m, hif, u, r, l, rfl⟩ := h.all
  exact ⟨m, hif, u, r, l, rfl⟩

/-- A WARNING stands in a ring with room: as an entry of its own, or in the unread one of the same event (R540, R541). -/
theorem Sup.record_warning_mem {u : Sup} (h : u.ring.length < 800) (code obj module : W16) (data : W32) (now : W64) (cleared : Bool) :
    ∃ e ∈ (u.record 1 code obj module data now cleared).ring, e.code = code ∧ e.obj = obj ∧ e.data = data := by
  simp only [Sup.record, Sup.ringOccur]
  split
  · next r hr =>
    obtain ⟨x, -, hx, hmem⟩ := updFirst_mem hr
    simp only [Bool.and_eq_true, decide_eq_true_eq] at hx
    obtain ⟨⟨⟨-, hcode⟩, hobj⟩, -⟩ := hx
    exact ⟨_, hmem, hcode, hobj, rfl⟩
  · refine ⟨LogEntry.make u.seq 1 code obj data now cleared false, ?_, rfl, rfl, rfl⟩
    rw [Sup.ringPut, if_pos (by omega)]
    exact List.mem_append_right _ List.mem_cons_self

theorem State.warn_logged {s : State} (h : logRoom s) (code : Nat) (obj : W16) (data : W32) (cleared : Bool) :
    logged (s.warn code obj data cleared) code obj data := by
  obtain ⟨e, he, hentry⟩ := Sup.record_warning_mem h.2 (BitVec.ofNat 16 code) obj (s.objAt 0 0) data s.ns cleared
  refine ⟨e, List.mem_append_right _ ?_, hentry⟩
  rwa [State.warn, State.log_sup]

end Sys2Proof.Machine
end

section
/-!
The branches of hubs follow their ports (R292): nothing but the branches of a hub's personality changes.
-/
namespace Sys2Proof.Machine
open Sys2Proof.Claim

/-- From `s` to `t` only branches of hubs may differ. -/
structure Rebranched (s t : State) : Prop where
  all : ∃ cl, t = { s with cl := cl } ∧
    (∀ c, ∃ b, Vec.at cl c = { Vec.at s.cl c with dl := { (Vec.at s.cl c).dl with branches := b } }) ∧
    ∀ c, (Vec.at s.cl c).role ≠ some .hub → Vec.at cl c = Vec.at s.cl c

section
variable {s t u : State}

theorem Rebranched.refl (s : State) : Rebranched s s := ⟨s.cl, rfl, fun _ => ⟨_, rfl⟩, fun _ _ => rfl⟩

theorem Rebranched.trans (h : Rebranched s t) (g : Rebranched t u) : Rebranched s u := by
  obtain ⟨cl, rfl, hb, hrole⟩ := h.all
  obtain ⟨cl', rfl, hb', hrole'⟩ := g.all
  refine ⟨cl', rfl, fun c => ?_, fun c hc => ?_⟩
  · obtain ⟨b, hbr⟩ := hb c
    obtain ⟨b', hbr'⟩ := hb' c
    exact ⟨b', by rw [hbr']; simp only [hbr]⟩
  · have hsame := hrole c hc
    exact (hrole' c (by rwa [hsame])).trans hsame

theorem Rebranched.port (h : Rebranched s t) : t.port = s.port := by obtain ⟨_, rfl, _⟩ := h.all; rfl
theorem Rebranched.eng (h : Rebranched s t) : t.eng = s.eng := by obtain ⟨_, rfl, _⟩ := h.all; rfl

theorem Rebranched.role (h : Rebranched s t) (c : Fin 4) : (Vec.at t.cl c).role = (Vec.at s.cl c).role := by
  obtain ⟨_, rfl, hb, _⟩ := h.all
  obtain ⟨b, hbr⟩ := hb c
  exact (congrArg Cluster.role hbr :)

/-- A fold of steps that each change branches of hubs only. -/
theorem Rebranched.foldl {α : Type} {f : State → α → State} (xs : List α) (hf : ∀ v x, Rebranched s v → Rebranched v (f v x))
    (h : Rebranched s t) : Rebranched s (xs.foldl f t) := by
  induction xs generalizing t with
  | nil => exact h
  | cons x xs ih => exact ih (h.trans (hf t x h))

/-- A port's change with its events and reports, and then the hubs' branches, as the claims say it. -/
theorem Noted.relinked (h : Noted s t) (g : Rebranched t u) : Sys2Proof.Claim.relinked s u := by
  obtain ⟨m, hif, v, r, l, cl, eng, rfl, hcl, heng⟩ := h.all
  obtain ⟨cl', rfl, hb, hrole⟩ := g.all
  refine ⟨Vector.ofFn fun c => { Vec.at s.cl c with dl := { (Vec.at s.cl c).dl with branches := (Vec.at cl' c).dl.branches } },
    fun c => ⟨(Vec.at cl' c).dl.branches, by simp [Vec.at]⟩, fun c hc => ?_, m, hif, v, r, l, cl', eng, rfl, fun c => ?_, heng⟩
  · obtain ⟨x, hx⟩ := hcl c
    have hsame := hrole c fun h => hc ((congrArg Cluster.role hx).symm.trans h)
    simp only [hx] at hsame
    simp only [Vec.at, Vector.getElem_ofFn] at hsame ⊢
    rw [hsame]
  · obtain ⟨x, hx⟩ := hcl c
    obtain ⟨b, hbr⟩ := hb c
    simp only [hx] at hbr
    refine ⟨x, ?_⟩
    simp only [Vec.at, Vector.getElem_ofFn] at hbr ⊢
    rw [hbr]

end

theorem State.updBr_rebranched {s : State} {c : Fin 4} (hrole : (Vec.at s.cl c).role = some .hub) (b : Fin 8) (f : Branch → Branch) :
    Rebranched s (s.updBr c b f) := by
  refine ⟨_, rfl, fun d => ?_, fun d hd => ?_⟩
  · rw [Vec.at_upd]
    split
    · next h => subst h; exact ⟨_, rfl⟩
    · exact ⟨_, rfl⟩
  · exact Vec.at_upd_other _ _ fun h => hd (h ▸ hrole)

theorem State.branchRefresh_rebranched {s : State} {c : Fin 4} (hrole : (Vec.at s.cl c).role = some .hub) (b : Fin 8) :
    Rebranched s (s.branchRefresh c b) := by
  unfold State.branchRefresh
  extract_lets d x on
  split
  · exact State.updBr_rebranched hrole _ _
  · split
    · exact State.updBr_rebranched hrole _ _
    · exact Rebranched.refl s

theorem State.branchesRefresh_rebranched (s : State) (c : Fin 4) : Rebranched s (s.branchesRefresh c) := by
  unfold State.branchesRefresh
  split
  · next h =>
    have hrole : (Vec.at s.cl c).role = some .hub := by simpa using h
    exact Rebranched.foldl _ (fun v b hv => State.branchRefresh_rebranched ((hv.role c).trans hrole) b) (Rebranched.refl s)
  · exact Rebranched.refl s

theorem State.hubsRefresh_rebranched (s : State) : Rebranched s s.hubsRefresh :=
  Rebranched.foldl _ (fun v c _ => v.branchesRefresh_rebranched c) (Rebranched.refl s)

end Sys2Proof.Machine
end

section
/-!
A port's state changes (R125, R146): its event in the owner's engines, and what else it brings.
-/
namespace Sys2Proof.Machine
open Sys2Proof.Claim

/-! ### An event of a cluster (R480) -/

/-- An event sets in a running engine that does not wait, and nothing clears it. -/
theorem Engine.setEvp_getLsbD {g : Engine} {b : Nat} (hb : b < 32) (hrun : g.run = true) (hwait : g.wait = .none) :
    (g.setEvp b).evp.getLsbD b = true := by
  have hwake : ∀ v, ({ g with evp := v } : Engine).wake = { g with evp := v } := fun v => by
    simp [Engine.wake, Engine.waitMask, hwait]
  rw [Engine.setEvp, if_pos hrun, hwake, BitVec.getLsbD_or, bitAt_getLsbD _ hb]
  simp

theorem State.evp_foldl_eng (c : Fin 4) (b : Nat) (e : Fin 16) {ks : List (Fin 4)} (hks : ks.Nodup) (s : State) :
    Vec.at (ks.foldl (fun s k => s.evp (engOf c k) b) s).eng e =
      if ∃ k ∈ ks, engOf c k = e then (Vec.at s.eng e).setEvp b else Vec.at s.eng e := by
  induction ks generalizing s with
  | nil => simp
  | cons k ks ih =>
    obtain ⟨hk, hks⟩ := List.nodup_cons.mp hks
    rw [List.foldl_cons, ih hks, State.evp, State.updEng_eng, Vec.at_upd]
    by_cases he : e = engOf c k
    · have hnone : ¬ ∃ j ∈ ks, engOf c j = e := by
        rintro ⟨j, hj, hje⟩
        have hval := congrArg Fin.val (hje.trans he)
        exact hk ((show j = k from Fin.ext (by simp only [engOf] at hval; omega)) ▸ hj)
      rw [if_neg hnone, if_pos he, if_pos ⟨k, List.mem_cons_self, he.symm⟩, he]
    · simp [he, Ne.symm he]

/-- An event of a cluster sets in each of its engines. -/
theorem State.evpCl_eng (s : State) (b : Nat) (e : Fin 16) :
    Vec.at (s.evpCl (clOf e) b).eng e = (Vec.at s.eng e).setEvp b := by
  have hself : engOf (clOf e) (kOf e) = e := Fin.ext (by simp only [engOf, clOf, kOf]; omega)
  exact (State.evp_foldl_eng (clOf e) b e (List.nodup_finRange 4) s).trans (if_pos ⟨kOf e, List.mem_finRange _, hself⟩)

/-! ### The change (R146) -/

/-- The event of a change of state, in the cluster that owns the port. -/
def State.linkNoted (s : State) (owner : Option (Fin 4)) : State :=
  match owner with
  | some c => s.evpCl c 13
  | none => s

theorem State.linkNoted_noted (s : State) (owner : Option (Fin 4)) : Noted s (s.linkNoted owner) := by
  unfold State.linkNoted
  split
  · exact State.evpCl_noted _ _ (Noted.refl s)
  · exact Noted.refl s

theorem State.linkNoted_event {s v : State} (p : Fin 12) (heng : v.eng = s.eng) :
    linkEvent s (v.linkNoted (Vec.at s.port p).owner) p := by
  intro c e howner hcl hrun hwait
  subst hcl
  rw [howner]
  show (Vec.at (v.evpCl (clOf e) 13).eng e).evp.getLsbD 13 = true
  rw [State.evpCl_eng, heng]
  exact Engine.setEvp_getLsbD (by decide) hrun hwait

theorem linkEvent_congr {s s' u u' : State} {p : Fin 12} (h : linkEvent s' u' p)
    (howner : (Vec.at s'.port p).owner = (Vec.at s.port p).owner) (hs : s'.eng = s.eng) (hu : u.eng = u'.eng) : linkEvent s u p := by
  intro c e hc hcl hrun hwait
  rw [hu]
  exact h c e (howner.trans hc) hcl (hs ▸ hrun) (hs ▸ hwait)

/-- Port `y` enters a state for a reason (R125, R143, R146). -/
def Port.entering (y : Port) (p : Fin 12) (st : Fin 6) (reason : Nat) : Port :=
  { y with
    st := st, reason := BitVec.ofNat 4 reason, chg := y.chg + 1, rf := y.faultBits p st reason
    loop := if st == pTraining then { y.loop with stage := 0 } else y.loop }

/-- A port that does not negotiate moves to TRAINING or UP: it enters the state as `y`, which what leaving UP gives up has made of
it, and the rest is its event and reports. -/
theorem State.setPort_moves {s : State} {p : Fin 12} {st : Fin 6} {y : Port} (reason : Nat)
    (hbase : (if ((Vec.at s.port p).st == pUp && st != pUp) = true then s.portDown p else s) = s.updPort p fun _ => y)
    (hyst : y.st = (Vec.at s.port p).st) (hst : st = pTraining ∨ st = pUp) (hne : (Vec.at s.port p).st ≠ st)
    (hfault : (Vec.at s.port p).st ≠ pFault) (hneg : (Vec.at s.port p).negotiates p = false) :
    Noted (s.updPort p fun _ => y.entering p st reason) (s.setPort p st reason) ∧ linkEvent s (s.setPort p st reason) p := by
  have hkeep : (st == pIdle || st == pHeld) = false := by rcases hst with rfl | rfl <;> decide
  unfold State.setPort
  extract_lets x again left s0 s1 told s2 s3
  have hagain : again = false := by simp only [again, x, hneg, Bool.and_false]
  have hleft : left = s.updPort p fun _ => y := hbase
  have hs1 : s1 = s.updPort p fun _ => y.entering p st reason := by
    unfold s1 s0
    rw [hleft, State.updPort_updPort, State.updPort_updPort]
    refine congrArg (s.updPort p) (funext fun _ => ?_)
    simp [Port.entering, hagain, hyst, hne]
  have hs2 : s2 = told := if_neg (by simpa [x] using hfault)
  have hs3 : Quiet told s3 := by
    unfold s3
    rw [hs2]
    exact State.notify_quiet _ _ _ (Quiet.refl told)
  rw [if_neg hne, hkeep, if_neg (by decide), ← hs1]
  have hevent : linkEvent s told p := State.linkNoted_event p (by rw [hs1]; rfl)
  exact ⟨(s1.linkNoted_noted x.owner).trans hs3.noted, linkEvent_congr hevent rfl rfl hs3.eng⟩

/-! ### What a change of state meets on a quiet port -/

section
variable {s : State} {p : Fin 12}

/-- A port with nothing on its line gives up what R125 names, and no frame completes. -/
theorem State.portDown_of_free (htx : (Vec.at s.port p).tx = none) (hpre : (Vec.at s.port p).preempted = none) :
    s.portDown p = s.updPort p fun _ => lineDown (Vec.at s.port p) := by
  unfold State.portDown
  extract_lets x left cut
  have htx' : x.tx = none := htx
  have hpre' : x.preempted = none := hpre
  have hleft : left = s.updPort p fun _ => lineDown x := by
    unfold left
    rw [State.updPort_const]
    simp only [lineDown, Port.incoming, bit, Ctr.inc, x, htx, hpre, Option.map_none, Option.none_or]
  rw [htx', hpre']
  exact hleft

/-- A frame of which no descriptor returns leaves nothing behind when it completes with CUT (R189). -/
theorem State.completeTx_of_no_ret {ds : List Desc} (h : ds.all (fun d => !d.ret) = true) (cskip : Bool) (stamp : W64) :
    s.completeTx p ds rCut cskip stamp = s := by
  have hret : ∀ d ∈ ds, d.ret = false := by simpa using h
  have hreturn : s.returnDescs p ds rCut cskip stamp = s := by
    unfold State.returnDescs
    clear h
    induction ds with
    | nil => rfl
    | cons d ds ih =>
      rw [List.foldl_cons, hret d List.mem_cons_self]
      exact ih fun d hd => hret d (List.mem_cons_of_mem _ hd)
  have hany : ds.any Desc.ret = false := by simpa using hret
  unfold State.completeTx
  rw [hreturn, hany]
  cases (Vec.at s.port p).owner <;> rfl

theorem State.pauseCheck_of_not_pauseTx (h : (Vec.at s.port p).pauseTx = false) : s.pauseCheck p = s := by
  simp [State.pauseCheck, Port.sendsPause, h]

end

end Sys2Proof.Machine
end

section
/-!
PLCA on an S port (R138–R142): what its five commands do, each said once, and what they bring.
-/
namespace Sys2Proof.Machine
open Sys2Proof.Claim

/-! ### The commands -/

theorem exec_plcaBeacon (s : State) (p : Fin 12) (energy : Bool) :
    exec (.plcaBeacon p energy) s = .next (s.plcaBeacon p energy).settle := rfl

theorem exec_transmitOpportunityEnd (s : State) (p : Fin 12) : exec (.transmitOpportunityEnd p) s = .next (s.opportunityEnd p).settle := rfl

theorem exec_beaconReceived (s : State) (p : Fin 12) : exec (.beaconReceived p) s = .next (s.beaconIn p).settle := rfl

theorem exec_beaconLost (s : State) (p : Fin 12) : exec (.beaconLost p) s = .next (s.beaconLost p).settle := rfl

theorem exec_plcaCollision (s : State) (p : Fin 12) : exec (.plcaCollision p) s = .next (s.plcaCollision p).settle := rfl

/-! ### The settings of a PLCA port -/

theorem row_plcaId (x : Port) : row x.t1 13 = (Vec.at x.t1 12).toNat := row_succ x.t1 12

theorem row_plcaCount (x : Port) : row x.t1 14 = (Vec.at x.t1 13).toNat := row_succ x.t1 13

theorem row_plcaBurst (x : Port) : row x.t1 16 = (Vec.at x.t1 15).toNat := row_succ x.t1 15

/-- A coordinator whose opportunities of this cycle have all gone by (R139). -/
abbrev Port.cycleOver (x : Port) : Prop := (Vec.at x.t1 12).toNat = 0 ∧ (Vec.at x.t1 13).toNat ≤ x.turn

/-- No frame of the port is on the line (R139, R142). -/
abbrev Port.lineFree (x : Port) : Prop := x.tx = none ∨ x.retry = true

theorem Port.lineIdle_iff (x : Port) : x.lineIdle = true ↔ x.lineFree := by
  simp [Port.lineIdle]

theorem Port.plcaStart_eq (x : Port) : x.plcaStart = plcaBegun x := by
  have hid : (Vec.at x.t1 12).toNat = 0 ↔ Vec.at x.t1 12 = 0 := BitVec.toNat_inj (y := 0#64)
  simp only [Port.plcaStart, plcaBegun, row_plcaId, row_plcaBurst, hid]

section
variable {s : State} {p : Fin 12}

/-! ### A clash (R141) -/

theorem State.plcaClash_reports {i : Instr} {v : State} (hexec : exec i s = .next (v.plcaClash p).settle) (hroom : logRoom v) :
    reports i s (v.updPort p fun x => { x with ctr := x.ctr.add 7 1 }) 0x0302 (v.objAt 2 p.1) :=
  ⟨_, hexec, (State.warn_quiet _ _ _ _ (Quiet.refl (v.pinc p cPlcaClash))).reported,
    State.warn_logged (s := v.pinc p cPlcaClash) hroom _ _ _ _⟩

/-! ### A collision (R142) -/

/-- Port `x` after a collision of the frame that it sends. -/
def Port.collided (x : Port) (t : TxRun) : Port :=
  { x with wire := some (t.whole .bad), opportunity := false, attempts := x.attempts + 1, retry := true, ctr := x.ctr.add 8 1 }

/-- The collision is the first one of the latch period and of the interval. -/
def Port.firstCollision (x : Port) : Bool := Vec.atD x.ctr.live 8 0 = 0 && Vec.atD x.ctr.ival 8 0 = 0

/-- The module after a collision, the WARNING of the first one with it. -/
def State.collided (s : State) (p : Fin 12) (t : TxRun) : State :=
  let s1 := s.updPort p fun x => x.collided t
  if (Vec.at s.port p).firstCollision then s1.warn 0x0303 (s.objAt 2 p.1) 0 false else s1

theorem State.collided_quiet (t : TxRun) : Quiet (s.updPort p fun x => x.collided t) (s.collided p t) :=
  quiet_ite (State.warn_quiet _ _ _ _ (Quiet.refl _)) (Quiet.refl _)

theorem State.collided_logged (hroom : logRoom s) (hlive : Vec.atD (Vec.at s.port p).ctr.live 8 0 = 0)
    (hival : Vec.atD (Vec.at s.port p).ctr.ival 8 0 = 0) (t : TxRun) :
    logged (s.collided p t) 0x0303 (s.objAt 2 p.1) 0 := by
  have hfirst : (Vec.at s.port p).firstCollision = true := by rw [Port.firstCollision, hlive, hival]; rfl
  rw [State.collided, if_pos hfirst]
  exact State.warn_logged (s := s.updPort p fun x => x.collided t) hroom _ _ _ _

/-- Port `x` once the frame that collided is dropped. -/
def Port.dropped (x : Port) (t : TxRun) : Port :=
  { x with
    wire := some (t.whole .bad), opportunity := false, attempts := 0, retry := false, tx := none, ctr := (x.ctr.add 8 1).add 9 1 }

/-! ### On an S port -/

section
variable (h8 : 8 ≤ p.1) (h10 : p.1 < 10)
include h8 h10

theorem State.plcaOn_eq : s.plcaOn p = decide ((Vec.at s.port p).st = 3) := by
  simp only [State.plcaOn, portKind_s h8 h10, beq_self_eq_true, Bool.true_and]
  rfl

/-- R139: a coordinator's beacon comes after its last opportunity, with the line free. -/
theorem State.plcaBeacon_eq (energy : Bool) : s.plcaBeacon p energy =
    if (Vec.at s.port p).st = 3 ∧ (Vec.at s.port p).cycleOver ∧ (Vec.at s.port p).lineFree then
      (if energy then (s.updPort p plcaBegun).plcaClash p else s.updPort p plcaBegun)
    else s := by
  have hstart : Port.plcaStart = plcaBegun := funext Port.plcaStart_eq
  simp only [State.plcaBeacon, State.plcaOn_eq h8 h10, row_plcaId, row_plcaCount, hstart, Bool.and_eq_true, decide_eq_true_eq,
    Port.lineIdle_iff, and_assoc]

/-- R139: opportunities follow in ID order until the coordinator's cycle is over, and not while a frame is on the line. -/
theorem State.opportunityEnd_eq : s.opportunityEnd p =
    if (Vec.at s.port p).st = 3 ∧ (Vec.at s.port p).lineFree ∧ ¬ (Vec.at s.port p).cycleOver then
      s.updPort p fun x => { x with
        turn := x.turn + 1, burst := 0
        opportunity := decide ((Vec.at x.t1 12).toNat = x.turn + 1 ∧ (Vec.at x.t1 12).toNat ≠ 255) }
    else s := by
  simp only [State.opportunityEnd, State.plcaOn_eq h8 h10, row_plcaId, row_plcaCount, Bool.and_eq_true, Bool.not_eq_true',
    decide_eq_true_eq, Port.lineIdle_iff, and_assoc, ← Bool.decide_and, decide_eq_false_iff_not]

/-- R140, R141: a beacon is a clash to a coordinator and begins a follower's cycle. -/
theorem State.beaconIn_up (hst : (Vec.at s.port p).st = 3) :
    s.beaconIn p = if (Vec.at (Vec.at s.port p).t1 12).toNat = 0 then s.plcaClash p else s.updPort p plcaBegun := by
  have hstart : Port.plcaStart = plcaBegun := funext Port.plcaStart_eq
  simp only [State.beaconIn, State.plcaOn_eq h8 h10, row_plcaId, hst, hstart, decide_true, if_true]

/-- R140: only followers and listen-only ports lose the beacon. -/
theorem State.beaconLost_eq : s.beaconLost p =
    if (Vec.at s.port p).st = 3 ∧ (Vec.at (Vec.at s.port p).t1 12).toNat ≠ 0 then s.portLost p 7 else s := by
  simp only [State.beaconLost, State.plcaOn_eq h8 h10, row_plcaId, Bool.and_eq_true, decide_eq_true_eq]

/-! ### The follower's loss and return (R140) -/

theorem Port.negotiates_s (x : Port) : x.negotiates p = false := by
  simp [Port.negotiates, portKind_s h8 h10]

theorem Port.faultBits_s (x : Port) (st : Fin 6) (reason : Nat) : x.faultBits p st reason = 0 := by
  simp [Port.faultBits, portKind_s h8 h10]

theorem faultSent_s (x : Port) (st : Fin 6) (reason : BitVec 4) : faultSent x p st reason = 0 :=
  if_neg fun h => by omega

/-- A follower without its beacon is in TRAINING, for REASON 7. -/
theorem movesTo_beaconLost (hst : (Vec.at s.port p).st = 3) (hid : (Vec.at (Vec.at s.port p).t1 12).toNat ≠ 0)
    (htx : (Vec.at s.port p).tx = none) (hpre : (Vec.at s.port p).preempted = none) :
    movesTo (.beaconLost p) s s p 2 7 (lineDown (Vec.at s.port p)) := by
  have hbase : (if ((Vec.at s.port p).st == pUp && pTraining != pUp) = true then s.portDown p else s) =
      s.updPort p fun _ => lineDown (Vec.at s.port p) := by
    rw [hst, if_pos (by decide), State.portDown_of_free htx hpre]
  obtain ⟨hnoted, hevent⟩ := State.setPort_moves 7 hbase rfl (.inl rfl) (by rw [hst]; decide) (by rw [hst]; decide)
    (Port.negotiates_s h8 h10 _)
  have hbranch := (s.setPort p pTraining 7).hubsRefresh_rebranched
  have hentered : (lineDown (Vec.at s.port p)).entering p pTraining 7 = { lineDown (Vec.at s.port p) with
      st := 2, reason := 7, chg := (Vec.at s.port p).chg + 1, rf := faultSent (Vec.at s.port p) p 2 7
      loop := if (2 : Fin 6) = 2 then { (lineDown (Vec.at s.port p)).loop with stage := 0 } else (lineDown (Vec.at s.port p)).loop } := by
    rw [faultSent_s h8 h10, Port.entering, Port.faultBits_s h8 h10]
    rfl
  refine ⟨s.portLost p 7, ?_, linkEvent_congr hevent rfl rfl hbranch.eng, ?_⟩
  · rw [exec_beaconLost, State.beaconLost_eq h8 h10, if_pos ⟨hst, hid⟩]
  · rw [← hentered]
    exact hnoted.relinked hbranch

/-- From TRAINING an S port enters UP as it stands. -/
theorem State.setPort_up (hst : (Vec.at s.port p).st = 2) (reason : Nat) :
    Noted (s.updPort p fun x => x.entering p pUp reason) (s.setPort p pUp reason) ∧ linkEvent s (s.setPort p pUp reason) p := by
  refine State.setPort_moves reason (y := Vec.at s.port p) ?_ rfl (.inr rfl) (by rw [hst]; decide) (by rw [hst]; decide)
    (Port.negotiates_s h8 h10 _)
  rw [hst, if_neg (by decide), State.updPort_self]

/-- What an S port comes up with: 10 Mb/s, a new cycle and no PAUSE. -/
theorem State.portUp_s (r : LinkRes) (reason : Nat) : ∃ y : Port,
    s.portUp p r reason = (((s.updPort p fun _ => y).setPort p pUp reason).pauseCheck p).hubsRefresh ∧
    y.st = (Vec.at s.port p).st ∧ y.chg = (Vec.at s.port p).chg ∧ y.owner = (Vec.at s.port p).owner ∧ y.speed = 1 ∧ y.turn = 0 ∧
    y.pauseTx = false := by
  unfold State.portUp
  extract_lets x speed pause s1 s2
  have hs2 : s2 = s1.updPort p Port.plcaStart := if_pos (by simp [portKind_s h8 h10])
  rw [hs2]
  unfold s1
  rw [State.updPort_updPort, State.updPort_const]
  have hspeed : speed = 1 := by simp [speed, upSpeed, portKind_s h8 h10]
  have hpause : pause.2 = false := by simp [pause, Port.pauseOf, portKind_s h8 h10]
  exact ⟨_, rfl, rfl, rfl, rfl, by simp [Port.plcaStart, hspeed], rfl, hpause⟩

/-- The next beacon brings a follower back to UP, for REASON 8. -/
theorem State.beaconIn_returns (hst : (Vec.at s.port p).st = 2) (hreason : (Vec.at s.port p).reason = 7) :
    ∃ y : Port, (s.beaconIn p).port = Vec.put s.port p y ∧ y.st = 3 ∧ y.reason = 8 ∧ y.chg = (Vec.at s.port p).chg + 1 ∧
      y.speed = 1 ∧ y.turn = 0 ∧ linkEvent s (s.beaconIn p) p := by
  have hup : ∃ r, s.beaconIn p = s.portUp p r 8 := by
    unfold State.beaconIn
    extract_lets x
    rw [if_neg (by simp [State.plcaOn_eq h8 h10, hst]), if_pos (by simp [x, hst, hreason, portKind_s h8 h10])]
    exact ⟨_, rfl⟩
  obtain ⟨r, hup⟩ := hup
  obtain ⟨y, hy, hyst, hychg, hyowner, hyspeed, hyturn, hypause⟩ := State.portUp_s (s := s) h8 h10 r 8
  generalize hv : (s.updPort p fun _ => y) = v at hy
  have hat : Vec.at v.port p = y := by rw [← hv]; exact Vec.at_upd_same _ _ _
  obtain ⟨hnoted, hevent⟩ := State.setPort_up h8 h10 (s := v) (by rw [hat, hyst, hst]) 8
  have hport : (v.setPort p pUp 8).port = Vec.put s.port p (y.entering p pUp 8) := by
    rw [hnoted.port, ← hv, State.updPort_updPort]
    rfl
  rw [State.pauseCheck_of_not_pauseTx (by rw [hport, Vec.at_put_same]; exact hypause)] at hy
  have hbranch := (v.setPort p pUp 8).hubsRefresh_rebranched
  rw [hup, hy]
  exact ⟨y.entering p pUp 8, hbranch.port.trans hport, rfl, rfl, congrArg (· + 1) hychg, hyspeed, hyturn,
    linkEvent_congr hevent (by rw [hat, hyowner]) (by rw [← hv]; rfl) hbranch.eng⟩

/-! ### Collisions on an S port (R142) -/

/-- Without a frame of its own on the line, a port has no collision. -/
theorem State.plcaCollision_stays (h : (Vec.at s.port p).st ≠ 3 ∨ (Vec.at s.port p).lineFree) : s.plcaCollision p = s := by
  unfold State.plcaCollision
  extract_lets x
  split
  · rfl
  · next t ht =>
    have hno : (!s.plcaOn p || x.retry) = true := by
      rw [State.plcaOn_eq h8 h10]
      obtain h | h | h := h
      · simp [h]
      · exact absurd (h.symm.trans ht) (by simp)
      · simp [x, h]
    exact if_pos hno

/-- The frame of a collision waits for the next opportunity; on the 16th attempt it completes with CUT. -/
theorem State.plcaCollision_eq {t : TxRun} (hst : (Vec.at s.port p).st = 3) (htx : (Vec.at s.port p).tx = some t)
    (hretry : (Vec.at s.port p).retry = false) : s.plcaCollision p =
    if (Vec.at s.port p).attempts + 1 < 16 then s.collided p t
    else (((s.collided p t).pinc p cPlcaDrop).updPort p fun x => { x with tx := none, retry := false, attempts := 0 }).completeTx
      p t.descs rCut t.cskip t.stamp := by
  unfold State.plcaCollision
  extract_lets x
  have htx' : x.tx = some t := htx
  rw [htx']
  have hyes : ¬ (!s.plcaOn p || x.retry) = true := by
    simp [State.plcaOn_eq h8 h10, hst, x, hretry]
  have hone : (s.pinc p cPlcaColl).updPort p (fun x => { x with
      wire := some (t.whole .bad), opportunity := false, attempts := x.attempts + 1, retry := true }) =
      s.updPort p fun x => x.collided t := State.updPort_updPort _ _ _ _
  simp only [if_neg hyes, hone, State.collided]
  rfl

theorem leads_plcaCollision_dropped {t : TxRun} (hst : (Vec.at s.port p).st = 3) (htx : (Vec.at s.port p).tx = some t)
    (hretry : (Vec.at s.port p).retry = false) (hlast : 16 ≤ (Vec.at s.port p).attempts + 1)
    (hret : t.descs.all (fun d => !d.ret) = true) :
    leads (.plcaCollision p) s (s.updPort p fun x => x.dropped t) := by
  refine ⟨_, exec_plcaCollision s p, ?_⟩
  rw [State.plcaCollision_eq h8 h10 hst htx hretry, if_neg (by omega), State.completeTx_of_no_ret hret]
  have hquiet := ((State.collided_quiet (s := s) (p := p) t).updPort p fun x => { x with ctr := x.ctr.inc cPlcaDrop }).updPort p
    fun x => { x with tx := none, retry := false, attempts := 0 }
  rw [State.updPort_updPort, State.updPort_updPort] at hquiet
  exact hquiet.reported

end

end

/-- Settles O44: each command of PLCA is one equation in the port's state, its settings and its line; a clash and a collision
are a change of the port with a WARNING, the loss of the beacon and its return a change of state. -/
theorem plcaRules : Obligations.PlcaRules := by
  unfold Obligations.PlcaRules
  intro s p h8 h10 x id obj stays becomes free taken
  have hsame : ∀ {i : Instr} {u : State}, exec i s = .next u.settle → u = s → exec i s = stays := fun h hu => by rw [h, hu]
  refine ⟨fun hst hid hroom => ⟨fun htaken hfree => ⟨?_, ?_⟩, ?_, ?_⟩, fun energy hno => ?_, fun hst hid => ⟨?_, ?_⟩,
    fun hst hfree hmore => ?_, fun hno => ?_, fun hst hreason => ?_, fun hst => ⟨?_, ?_⟩, fun hfree => ?_,
    fun t hst htx hretry => ⟨fun hmore => ?_, fun hlast hret => ?_⟩⟩
  · rw [exec_plcaBeacon, State.plcaBeacon_eq h8 h10, if_pos ⟨hst, htaken, hfree⟩]
    rfl
  · have hbeacon : exec (.plcaBeacon p true) s = .next ((s.updPort p plcaBegun).plcaClash p).settle := by
      rw [exec_plcaBeacon, State.plcaBeacon_eq h8 h10, if_pos ⟨hst, htaken, hfree⟩, if_pos rfl]
    have h := State.plcaClash_reports hbeacon hroom
    rw [State.updPort_updPort] at h
    exact h
  · refine State.plcaClash_reports ?_ hroom
    rw [exec_beaconReceived, State.beaconIn_up h8 h10 hst, if_pos hid]
  · exact hsame (exec_beaconLost s p) (by rw [State.beaconLost_eq h8 h10, if_neg fun h => h.2 hid])
  · refine hsame (exec_plcaBeacon s p energy) ?_
    rw [State.plcaBeacon_eq h8 h10, if_neg]
    rintro ⟨hst, htaken, hfree⟩
    exact hno.elim (· hst) fun h => h.elim (· htaken) (· hfree)
  · rw [exec_beaconReceived, State.beaconIn_up h8 h10 hst, if_neg hid]
    rfl
  · exact movesTo_beaconLost h8 h10 hst hid
  · rw [exec_transmitOpportunityEnd, State.opportunityEnd_eq h8 h10, if_pos ⟨hst, hfree, hmore⟩]
    rfl
  · refine hsame (exec_transmitOpportunityEnd s p) ?_
    rw [State.opportunityEnd_eq h8 h10, if_neg]
    rintro ⟨hst, hfree, hmore⟩
    exact hno.elim (· hst) fun h => h.elim (· hfree) hmore
  · obtain ⟨y, hport, hyst, hyreason, hychg, hyspeed, hyturn, hevent⟩ := State.beaconIn_returns h8 h10 hst hreason
    have hat : Vec.at (s.beaconIn p).port p = y := by rw [hport, Vec.at_put_same]
    refine ⟨_, exec_beaconReceived s p, ?_⟩
    rw [hat]
    exact ⟨hyst, hyreason, hychg, hyspeed, hyturn, hevent, fun q hq => by rw [hport, Vec.at_put_other _ _ hq]⟩
  · exact hsame (exec_beaconLost s p) (by rw [State.beaconLost_eq h8 h10, if_neg fun h => hst h.1])
  · exact hsame (exec_plcaCollision s p) (State.plcaCollision_stays h8 h10 (.inl hst))
  · exact hsame (exec_plcaCollision s p) (State.plcaCollision_stays h8 h10 (.inr hfree))
  · refine ⟨s.collided p t, ?_, (State.collided_quiet t).reported, fun hroom hlive hival => State.collided_logged hroom hlive hival t⟩
    rw [exec_plcaCollision, State.plcaCollision_eq h8 h10 hst htx hretry, if_pos hmore]
  · exact leads_plcaCollision_dropped h8 h10 hst htx hretry hlast hret

end Sys2Proof.Machine
end

section
/-!
Bundles of one syllable (R467, R470–R472): their fetch and their issue, and what a D syllable makes of its engine.
-/
namespace Sys2Proof.Machine
open Sys2Proof.Claim

/-! ### Updates of an engine -/

/-- The old value of an entry, read with a default, may feed its update. -/
theorem vecUpdN_atD {α : Type} {n : Nat} (v : Vec α n) (i : Nat) (d : α) (f : α → α) :
    Vec.updN v i (fun _ => f (Vec.atD v i d)) = Vec.updN v i f := by
  unfold Vec.updN
  split
  · next h => simp [Vec.atD, h]
  · rfl

/-- An update of an engine is the engine put in its place. -/
theorem State.updEng_const (s : State) (e : Fin 16) (f : Engine → Engine) : s.updEng e f = s.updEng e fun _ => f (Vec.at s.eng e) := rfl

theorem State.updEng_updEng (s : State) (e : Fin 16) (f g : Engine → Engine) :
    (s.updEng e f).updEng e g = s.updEng e fun x => g (f x) := by
  simp [State.updEng, Vec.upd, Vec.put, Vec.at]

/-- An update that leaves the engine as it stands leaves the module as it stands. -/
theorem State.updEng_of_fixed {s : State} {e : Fin 16} {f : Engine → Engine} (h : f (Vec.at s.eng e) = Vec.at s.eng e) : s.updEng e f = s := by
  rw [State.updEng, vecUpd_self s.eng e _ h]

/-! ### The fetch of a whole bundle -/

section
variable {s : State} {e : Fin 16} {y : Syl}

theorem State.fetchCheck_of_inside (h : (Vec.at s.eng e).pc.toNat < imemSize) : s.fetchCheck e = s := by
  unfold State.fetchCheck
  exact if_neg (by simp [h])

/-- A row that brings the word of IMEM brings the syllable that its engine fetches (R470). -/
theorem Fetched.fetch {i : Instr} {stop : Bool} (hfetched : Fetched s i) (hsyl : i.syl = some (e, stop, y)) :
    (Vec.at s.eng e).fetch y stop = some (y, stop) := if_pos (hfetched e stop y hsyl)

variable (hready : EngineReady s e)
include hready

/-- The next bundle of a ready engine starts in IMEM. -/
theorem EngineReady.next_inside : ((Vec.at s.eng e).pc + 4).toNat < imemSize := by
  have hroom := hready.room
  rw [BitVec.toNat_add]
  exact Nat.lt_of_le_of_lt (Nat.mod_le ..) hroom

/-- A bundle of one syllable breaks no bundle rule where the syllable writes no register twice. -/
theorem State.issue_one (hws : noRepeat (Syl.writes y) = true) :
    s.issue e [y] true = s.issueSingle e [y] ((Vec.at s.eng e).pc + 4) := by
  have hclean : ((List.range [y].length).find? fun i => (Vec.at s.eng e).badI.contains (((Vec.at s.eng e).pc.toNat + 4 * i) / 8)) = none := by
    simpa using hready.clean
  have hrules : ¬ (!true || !bundleOk [y]) = true := by
    simp [bundleOk, unitsRise, hws]
  have hsame : s.updEng e (fun g => { g with fetched := [] }) = s :=
    State.updEng_of_fixed (congrArg (fun l => { Vec.at s.eng e with fetched := l }) hready.first.symm)
  unfold State.issue
  simp only [hclean, if_neg hrules, hready.once, hsame]
  rfl

/-- The fetch of a syllable with S = 1 at the start of a bundle issues it at once. -/
theorem syllable_one (hfetch : (Vec.at s.eng e).fetch y true = some (y, true))
    (hws : noRepeat (Syl.writes y) = true) :
    syllable y.1 y.2.1 e true y.2.2 s = andThen (s.issueSingle e [y] ((Vec.at s.eng e).pc + 4)) fun t => .next t.settle := by
  have hruns : s.engineRuns e = true := by
    simp [State.engineRuns, hready.run, hready.awake, hready.own]
  have hroom := hready.room
  unfold syllable
  rw [if_neg (by simp [hruns])]
  dsimp only
  rw [if_neg (by omega), if_neg (by simpa [hready.first] using hready.clean), hfetch]
  simp only [hready.first, List.nil_append, Bool.true_or, if_true, State.issue_one hready hws]

end

/-! ### The issue of a bundle of one syllable -/

/-- The engine with a bundle that loads nothing and writes `ws` on its record of loads. -/
def Engine.noted (g : Engine) (ws : List Nat) : Engine := { g with loads := g.loadsAfter ws g.noLoad }

section
variable {s t : State} {e : Fin 16} {y : Syl} {next : W32}

/-- A bundle that raises no trap, with no coprocessor operation outstanding, is done when its slot is. -/
theorem State.issueOnce_one (hfree : (Vec.at s.eng e).cop = none) (htrap : s.bundleTrap e (Vec.at s.eng e) [y] false = none)
    (hslots : (s.updEng e fun g => g.noted (Syl.writes y)).slots e (Vec.at s.eng e) next false false (popsFirst [y]) = .next t) :
    s.issueOnce e [y] next 0 false = .done t := by
  have hstalls : (Vec.at s.eng e).stalls [y] = false := by simp [Engine.stalls, hfree]
  have hwrites : [y].flatMap Syl.writes = Syl.writes y := List.flatMap_singleton ..
  simp only [Engine.noted, Engine.loadsAfter, Engine.noLoad] at hslots
  unfold State.issueOnce
  simp only [hstalls, Bool.false_eq_true, if_false, Bool.not_true, htrap, hwrites, List.take_succ_cons, ne_eq, not_true_eq_false,
    decide_false, hslots]

/-- After a bundle without a C syllable the engine goes on at the next bundle. -/
theorem State.issueSingle_of_done (hunit : Syl.unit y ≠ 3) (hdone : s.issueOnce e [y] next 0 false = .done t) :
    s.issueSingle e [y] next = .next ((t.updEng e fun g => { g with pc := next }).fetchCheck e) := by
  unfold State.issueSingle
  simp [hdone, hunit]

end

/-! ### The issue of a D syllable -/

theorem r1_lt (o : BitVec 23) : r1 o < 32 := Nat.mod_lt _ (by decide)

/-- Accumulator arithmetic writes no SR (R502). -/
theorem dWritesSr_of_accumulate {op : Nat} (o : BitVec 23) (hlow : 0x30 ≤ op) (hhigh : op ≤ 0x34) : dWritesSr op o = false := by
  unfold dWritesSr
  split
  -- No opcode that writes SR whatever F holds.
  case h_7 => rw [if_neg (by simp; omega), if_neg (by simp; omega)]
  all_goals omega

/-- The effect of a D syllable on its engine in a bundle of its own: its slot, and what every issue does besides. -/
def Engine.afterD (g : Engine) (y : Syl) : Engine := (g.slotD g (Syl.op y) (Syl.ops y)).advance (Syl.writes y)

/-- The D slot neither reads nor writes the program counter and the record of loads. -/
theorem Engine.slotD_frame (g old : Engine) (op : Nat) (o : BitVec 23) (pc : W32) (loads : List LoadRec) :
    ({ g with pc := pc, loads := loads } : Engine).slotD old op o = { g.slotD old op o with pc := pc, loads := loads } := by
  unfold Engine.slotD
  cases old.aluD op o with
  | some x => dsimp only; split <;> rfl
  | none =>
    dsimp only
    split
    -- ACEXT writes SR where it saturated, and leaves it else.
    case h_12 => split <;> rfl
    all_goals rfl

/-- What the issue makes of an engine, step by step: the bundle is noted, its slot acts, the program counter moves on. -/
theorem Engine.slotD_noted (g : Engine) (y : Syl) :
    { (g.noted (Syl.writes y)).slotD g (Syl.op y) (Syl.ops y) with pc := g.pc + 4 } = g.afterD y := by
  have hslot : g.slotD g (Syl.op y) (Syl.ops y) = { g.slotD g (Syl.op y) (Syl.ops y) with pc := g.pc, loads := g.loads } :=
    Engine.slotD_frame ..
  have hnoted : (g.noted (Syl.writes y)).slotD g (Syl.op y) (Syl.ops y) =
      { g.slotD g (Syl.op y) (Syl.ops y) with pc := g.pc, loads := g.loadsAfter (Syl.writes y) g.noLoad } := Engine.slotD_frame ..
  have hpc : (g.slotD g (Syl.op y) (Syl.ops y)).pc = g.pc := by rw [hslot]
  have hloads : (g.slotD g (Syl.op y) (Syl.ops y)).loads = g.loads := by rw [hslot]
  rw [hnoted]
  simp only [Engine.afterD, Engine.advance, Engine.loadsAfter, Engine.noLoad, hpc, hloads]

section
variable {s : State} {e : Fin 16} {y : Syl} (hunit : Syl.unit y = 1)
include hunit

/-- A D syllable writes one register at most, and SR beside it. -/
theorem noRepeat_writes_dUnit : noRepeat (Syl.writes y) = true := by
  have hd : regD (r1 (Syl.ops y)) ≠ regSp 2 := by
    have := r1_lt (Syl.ops y)
    unfold regD regSp
    omega
  by_cases hsr : dWritesSr (Syl.op y) (Syl.ops y) = true
  · simp only [Syl.writes, hunit, if_pos hsr]
    split
    · rfl
    · split
      · next hac =>
        rw [Bool.and_eq_true, decide_eq_true_iff, decide_eq_true_iff] at hac
        exact absurd hsr (by rw [dWritesSr_of_accumulate _ hac.1 hac.2]; decide)
      · simp only [noRepeat, List.cons_append, List.nil_append, List.contains_cons, List.contains_nil, beq_eq_false_iff_ne.mpr hd,
          Bool.or_false, Bool.not_false, Bool.and_self]
  · simp only [Syl.writes, hunit, if_neg hsr, List.append_nil]
    split
    · rfl
    · split <;> rfl

/-- A legal D syllable raises no trap. -/
theorem State.bundleTrap_dUnit (s : State) (e : Fin 16) (g : Engine) (hlegal : Syl.legal y = true) : s.bundleTrap e g [y] false = none := by
  simp [State.bundleTrap, hlegal, Engine.illegalUse, State.slotTrap, Engine.xop, Syl.isCop, hunit, lowest]

theorem State.slots_dUnit (s : State) (e : Fin 16) (old : Engine) (next : W32) (rep xop : Bool) :
    s.slots e old next rep xop (popsFirst [y]) = .next (s.updEng e fun g => g.slotD old (Syl.op y) (Syl.ops y)) := by
  have hpops : popsFirst [y] = [y] := by simp [popsFirst, hunit]
  simp [hpops, State.slots, hunit]

/-- The issue of a bundle of one legal D syllable. -/
theorem State.issueSingle_dUnit (hready : EngineReady s e) (hlegal : Syl.legal y = true) :
    s.issueSingle e [y] ((Vec.at s.eng e).pc + 4) = .next (s.updEng e fun g => g.afterD y) := by
  have hdone := State.issueOnce_one (next := (Vec.at s.eng e).pc + 4) hready.free (State.bundleTrap_dUnit hunit s e _ hlegal)
    (State.slots_dUnit hunit ..)
  have hafter : ((s.updEng e fun g => g.noted (Syl.writes y)).updEng e fun g => g.slotD (Vec.at s.eng e) (Syl.op y) (Syl.ops y)).updEng e
      (fun g => { g with pc := (Vec.at s.eng e).pc + 4 }) = s.updEng e fun g => g.afterD y := by
    rw [State.updEng_updEng, State.updEng_updEng, State.updEng_const, Engine.slotD_noted, ← State.updEng_const (f := fun g => g.afterD y)]
  rw [State.issueSingle_of_done (by omega) hdone, State.fetchCheck_of_inside, hafter]
  simpa using hready.next_inside

/-- A bundle of one legal D syllable, from its fetch on. -/
theorem syllable_dUnit (hready : EngineReady s e) (hlegal : Syl.legal y = true)
    (hfetch : (Vec.at s.eng e).fetch y true = some (y, true)) :
    syllable y.1 y.2.1 e true y.2.2 s = .next (s.updEng e fun g => g.afterD y).settle := by
  rw [syllable_one hready hfetch (noRepeat_writes_dUnit hunit), State.issueSingle_dUnit hunit hready hlegal]
  rfl

end

/-- A row of the D unit has the effect `f` where its encoding is legal and its slot makes `f` of an engine. -/
theorem engineClause_dUnit {mk : Fin 16 → Bool → BitVec 23 → Instr} {ok : BitVec 23 → Bool} {ws : BitVec 23 → List Nat}
    {f : BitVec 23 → Engine → Engine} (op : BitVec 6)
    (hexec : ∀ e o s, exec (mk e true o) s = syllable 1 op e true o s) (hsyl : ∀ e o, (mk e true o).syl = some (e, true, (1, op, o)))
    (hlegal : ∀ o, ok o = true → legalD op.toNat o = true) (hwrites : ∀ o, Syl.writes (1, op, o) = ws o)
    (hslot : ∀ o g, ok o = true → g.slotD g op.toNat o = f o g) : engineClause mk ok ws f := by
  intro s e o hready hfetched hok
  have hafter : ∀ g : Engine, g.afterD (1, op, o) = (f o g).advance (ws o) := fun g => by
    rw [← hwrites o, ← hslot o g hok]
    rfl
  rw [hexec, syllable_dUnit (y := (1, op, o)) rfl hready (hlegal o hok) (hfetched.fetch (hsyl e o))]
  simp only [hafter]

end Sys2Proof.Machine
end

section
/-!
The accumulators (R502): the arithmetic of the D slot's accumulator operations as exact signed arithmetic.
-/
namespace Sys2Proof.Machine
open Sys2Proof.Claim

/-! ### Arithmetic modulo 2^72 -/

theorem macOp_mac (ac : W72) (a b : W32) : macOp 0x30 ac a b = BitVec.ofInt 72 (ac.toInt + a.toInt * b.toInt) := by
  rw [BitVec.ofInt_add, BitVec.ofInt_toInt]
  rfl

theorem macOp_macu (ac : W72) (a b : W32) : macOp 0x31 ac a b = BitVec.ofInt 72 (ac.toInt + a.toNat * b.toNat) := by
  rw [BitVec.ofInt_add, BitVec.ofInt_toInt, ← Int.natCast_mul, BitVec.ofInt_natCast]
  rfl

theorem macOp_msu (ac : W72) (a b : W32) : macOp 0x32 ac a b = BitVec.ofInt 72 (ac.toInt - a.toInt * b.toInt) := by
  rw [Int.sub_eq_add_neg, BitVec.ofInt_add, BitVec.ofInt_neg, BitVec.ofInt_toInt, ← BitVec.sub_eq_add_neg]
  rfl

/-! ### Saturation -/

/-- Saturation clamps, and tells whether the value lay outside 32 bits. -/
theorem sat32_eq (i : Int) : sat32 i = (clamp32 i, outside32 i) := by
  unfold sat32 clamp32 outside32
  by_cases hneg : i < -(2 ^ 31)
  · rw [if_pos hneg, Int.min_eq_right (by omega), Int.max_eq_left (by omega)]
    exact congrArg (Prod.mk _) (decide_eq_true (.inl (by omega))).symm
  · by_cases hpos : 2 ^ 31 ≤ i
    · rw [if_neg hneg, if_pos hpos, Int.min_eq_left (by omega), Int.max_eq_right (by omega)]
      exact congrArg (Prod.mk _) (decide_eq_true (.inr (by omega))).symm
    · rw [if_neg hneg, if_neg hpos, Int.min_eq_right (by omega), Int.max_eq_right (by omega)]
      exact congrArg (Prod.mk _) (decide_eq_false (by omega)).symm

/-! ### The slots -/

/-- The slot of an accumulation, as a function of the accumulator it changes. -/
theorem Engine.slotD_accumulate (g : Engine) (o : BitVec 23) {op : Nat} (hop : op = 0x30 ∨ op = 0x31 ∨ op = 0x32) :
    g.slotD g op o = { g with ac := Vec.updN g.ac (r1 o) fun ac => macOp op ac (g.dAt (r2 o)) (g.dAt (r3 o)) } := by
  rw [← vecUpdN_atD g.ac (r1 o) 0]
  obtain rfl | rfl | rfl := hop <;> rfl

theorem Engine.slotD_acclr (g : Engine) (o : BitVec 23) : g.slotD g 0x33 o = { g with ac := Vec.updN g.ac (r1 o) fun _ => 0 } := rfl

/-- ACLD extends the sign: the accumulator takes the exact signed value. -/
theorem Engine.slotD_acld (g : Engine) (o : BitVec 23) :
    g.slotD g 0x34 o = { g with ac := Vec.updN g.ac (r1 o) fun _ => BitVec.ofInt 72 (g.dAt (r2 o)).toInt } := rfl

theorem acExtract_eq (ac : W72) (sh : Nat) (rnd : Bool) :
    acExtract ac sh rnd =
      let x := (ac.toInt + if rnd ∧ 1 ≤ sh then 2 ^ (sh - 1) else 0) / 2 ^ sh
      (clamp32 x, outside32 x) := by
  simp only [acExtract, sat32_eq, Bool.and_eq_true, decide_eq_true_iff]

/-- The slot of ACEXT writes what it extracts, and sets SATS where that saturated (R502). -/
theorem Engine.slotD_acext (g : Engine) (o : BitVec 23) :
    g.slotD g 0x35 o =
      let x := acExtract (Vec.atD g.ac (r2 o) 0) (fld o 6 6) (o.getLsbD 12)
      { g with d := Vec.updN g.d (r1 o) fun _ => x.1, sr := setSats g.sr x.2 } := by
  extract_lets x
  have hslot : g.slotD g 0x35 o = if x.2 then { g.setD (r1 o) x.1 with sr := g.sr ||| 0x80 } else g.setD (r1 o) x.1 := rfl
  rw [hslot, setSats]
  split <;> rfl

/-! ### The rows -/

/-- The rows MAC, MACU and MSU, each by its sum or difference. -/
theorem engineClause_accumulate {mk : Fin 16 → Bool → BitVec 23 → Instr} (op : BitVec 6) (f : Int → W32 → W32 → Int)
    (hop : op = 0x30 ∨ op = 0x31 ∨ op = 0x32) (hexec : ∀ e o s, exec (mk e true o) s = syllable 1 op e true o s)
    (hsyl : ∀ e o, (mk e true o).syl = some (e, true, (1, op, o)))
    (hsum : ∀ ac a b, macOp op.toNat ac a b = BitVec.ofInt 72 (f ac.toInt a b)) :
    engineClause mk (fun o => r1 o < 4 ∧ fld o 0 8 = 0) (fun o => [regAc (r1 o)]) fun o g =>
      { g with ac := Vec.updN g.ac (r1 o) fun ac => BitVec.ofInt 72 (f ac.toInt (g.dAt (r2 o)) (g.dAt (r3 o))) } := by
  refine engineClause_dUnit op hexec hsyl (fun o hok => ?_) (fun o => ?_) fun o g _ => ?_
  · obtain ⟨hac, hfn⟩ := of_decide_eq_true hok
    have hfn : fn o = 0 := hfn
    obtain rfl | rfl | rfl := hop <;> simp [legalD, hac, hfn]
  · obtain rfl | rfl | rfl := hop <;> rfl
  · simp only [← hsum]
    exact Engine.slotD_accumulate g o (by obtain rfl | rfl | rfl := hop <;> simp)

/-- Settles O4: each accumulator operation is a legal D syllable whose slot, read as exact arithmetic, is the statement's. -/
theorem accumulators : Obligations.Accumulators := by
  unfold Obligations.Accumulators
  refine ⟨⟨?mac, ?macu, ?msu⟩, ?acclr, ?acld, ?acext⟩
  case mac =>
    exact engineClause_accumulate 0x30 (fun ac a b => ac + a.toInt * b.toInt) (.inl rfl) (fun _ _ _ => rfl) (fun _ _ => rfl) macOp_mac
  case macu =>
    exact engineClause_accumulate 0x31 (fun ac a b => ac + a.toNat * b.toNat) (.inr (.inl rfl)) (fun _ _ _ => rfl) (fun _ _ => rfl) macOp_macu
  case msu =>
    exact engineClause_accumulate 0x32 (fun ac a b => ac - a.toInt * b.toInt) (.inr (.inr rfl)) (fun _ _ _ => rfl) (fun _ _ => rfl) macOp_msu
  case acclr =>
    exact engineClause_dUnit 0x33 (fun _ _ _ => rfl) (fun _ _ => rfl) (fun o hok => by simpa [legalD] using hok) (fun _ => rfl) fun o g _ =>
      Engine.slotD_acclr g o
  case acld =>
    exact engineClause_dUnit 0x34 (fun _ _ _ => rfl) (fun _ _ => rfl) (fun o hok => by simpa [legalD] using hok) (fun _ => rfl) fun o g _ =>
      Engine.slotD_acld g o
  case acext =>
    exact engineClause_dUnit 0x35 (fun _ _ _ => rfl) (fun _ _ => rfl) (fun o hok => by simpa [legalD, and_assoc] using hok) (fun _ => rfl) fun o g _ =>
      (Engine.slotD_acext g o).trans (by rw [acExtract_eq])

end Sys2Proof.Machine
end
